-- ==== Sys2Proof/Config.lean ====
section
/-! DEFINITION. What an implementation or its images fix: the decoded configuration image, what the start steps find,
and the free values. A free value is an opaque constant with no body: nothing in Lean can evaluate it. -/

namespace Sys2Proof

/-- FREE VALUE. The n-th byte that the spec leaves open (log entry 5). -/
opaque Config.freeByte : Nat → Byte

/-- FREE VALUE. The n-th word that the spec leaves open (log entry 5). -/
opaque Config.freeWord : Nat → Word

/-- FREE VALUE. What a drain makes of an infinity or NaN that another class left in an accumulator row, of which the spec states no
value: the output bits and drain_sat, a function of the accumulator value, OFMT, MULT, BIAS, LO and HI (log entry 5). -/
opaque Config.freeDrain : Nat → Nat → Nat → Nat → Nat → Nat → Word × Bool

/-- One entry of a sensor control sequence (R569). -/
structure SensorStep where
  /-- PORT (16 R569). -/
  port : Nat := 0
  /-- target address (16 R569). -/
  target : Nat := 0
  /-- LEN (16 R569). -/
  len : Nat := 0
  /-- REPEAT (16 R569). -/
  rep : Bool := false
  /-- DATA (16 R569). -/
  data : BitVec 32 := 0#32
  deriving DecidableEq, Repr

/-- Configuration of one MAC (R320, R321). -/
structure EthCfg where
  /-- own MAC address (16 R568). -/
  addr : List Byte := []
  /-- multicast groups (08 R320). -/
  groups : List (List Byte) := []
  /-- RX_NS (08 R321). -/
  rxNs : Nat := 0
  /-- TX_NS (08 R321). -/
  txNs : Nat := 0
  deriving DecidableEq, Repr

/-- The destination of the datagrams of the management port (R482, R568). -/
structure MgmtAddr where
  /-- MAC address (16 R568). -/
  mac : List Byte := []
  /-- IPv4 or IPv6 address (16 R568). -/
  ip : List Byte := []
  /-- UDP port (16 R568). -/
  port : Nat := 0
  /-- tag control information of the IEEE 802.1Q tag; none without a tag (16 R568). -/
  vlan : Option (BitVec 16) := none
  deriving DecidableEq, Repr

/-- The verified configuration image in force, decoded (R568). -/
structure Cfg where
  /-- split mode selected (16 R568). -/
  split : Bool := false
  /-- reduced memory speed selected (16 R568). -/
  reduced : Bool := false
  /-- model verification mode (15 R533). -/
  vmode : Nat := 2
  /-- host-assisted error reaction (16 R568). -/
  reactHost : Bool := false
  /-- host-assisted self-test scheduling (16 R568). -/
  selftestHost : Bool := false
  /-- host-paced memory training (16 R568). -/
  trainHost : Bool := false
  /-- POWER_BUDGET in W (16 R556). -/
  budget : Nat := 0
  /-- chip number (05 R210). -/
  chip : Nat := 0
  /-- chip count (05 R210). -/
  chips : Nat := 1
  /-- peer chip of each port (05 R210). -/
  peers : List (Option Nat) := []
  /-- base and LOG2N of each ring (11 R404). -/
  rings : List (Nat × Nat) := []
  /-- start models: slot and PAYLOAD_DIGEST (16 R568). -/
  startModels : List (Nat × List Byte) := []
  /-- reaction overrides: code, reaction, DECIDE (13 R465). -/
  overrides : List (Nat × Nat × Bool) := []
  /-- recorder trigger list: code, SEAL (15 R542). -/
  triggers : List (Nat × Bool) := []
  /-- management port enabled (13 R490). -/
  mgmtEn : Bool := false
  /-- IPv6 (13 R490). -/
  mgmtV6 : Bool := false
  /-- AUTH (13 R490). -/
  mgmtAuth : Bool := false
  /-- SMBus address; 0x4C when step 5 has not passed (R566) (13 R485). -/
  smbus : Nat := 76
  /-- MACs (08 R320). -/
  eth : List EthCfg := []
  /-- gPTP MAC (08 R322). -/
  gptpMac : Nat := 0
  /-- sensor control sequences (16 R569). -/
  sensor : List (List SensorStep) := []
  /-- start list: pipeline and its bits 2:0 (16 R568). -/
  startList : List (Nat × Nat) := []
  /-- requests that stage s be bound to the model in a slot (06 R269). -/
  switches : List (Nat × Nat) := []
  /-- pipeline and the port its exports use (16 R571). -/
  expPeer : List (Nat × Nat) := []
  /-- export ring of each port: base, entries, entry size (16 R571). -/
  expRings : List (Nat × Nat × Nat) := []
  /-- persistent settings (16 R576). -/
  settings : List (Nat × BitVec 32) := []
  /-- sections 0x04 to 0x09 as device address and bytes (16 R568). -/
  tables : List (Nat × List Byte) := []
  /-- destination of the management port's datagrams (13 R482) (16 R568). -/
  mgmt : MgmtAddr := {}
  /-- EXPORT_PORT, the UDP port of the output exports (16 R570) (16 R568). -/
  exportPort : Nat := 0
  deriving DecidableEq, Repr


/-- One accumulator value of the skew self-check that differs from what exact cells give (R112, R113). -/
structure SkewErr where
  /-- physical tile (03 R113). -/
  slot : Nat := 0
  /-- pattern 1 (false) or 2 (true) (03 R112). -/
  second : Bool := false
  /-- accumulator row (03 R112). -/
  row : Nat := 0
  /-- column (03 R112). -/
  col : Nat := 0
  /-- what a fault adds to the accumulator (03 R113). -/
  diff : Int := 0
  deriving DecidableEq, Repr

/-- What the security core finds of one object of the start image: its header fields and the outcome of its verification
(R530, R560); the signature primitives are not computed by the model (log entry 6). -/
structure StartObj where
  type : Nat := 0
  copy : Nat := 0
  slot : Nat := 255
  version : Nat := 0
  svn : Nat := 0
  keySvn : Nat := 0
  hier : Nat := 0
  ifMajor : Nat := 0
  ifMinor : Nat := 0
  /-- 0, or the code of the failing step of R530. -/
  result : Nat := 0
  digest : List Byte := []
  /-- The payload, used for TYPE 8 only. -/
  payload : List Byte := []
  deriving DecidableEq, Repr

/-- The header of a long or short packet outside the claimed ones, with what its CRC-16 check found (R301, R302). -/
structure CsiPacket where
  /-- data type (R301). -/
  dt : BitVec 6
  /-- the payload CRC matches (R302). -/
  crcOk : Bool
  deriving DecidableEq, Repr

/-- A tile's DMA engine at the end of a descriptor (R164, R177). -/
structure DmaEnd where
  /-- the logical tile. -/
  tile : BitVec 11
  /-- requests that had been sent when its tile halted (R177). -/
  sent : Nat
  deriving DecidableEq, Repr

/-- A tile and the brood controller with which it exchanges sync operations and answers (R201). -/
structure SyncPair where
  /-- the logical tile. -/
  tile : BitVec 11
  /-- the brood whose controller holds the object. -/
  brood : BitVec 7
  deriving DecidableEq, Repr

/-- An interface version (R213, R425). -/
structure IfVersion where
  /-- major number. -/
  major : BitVec 16
  /-- minor number. -/
  minor : BitVec 16
  deriving DecidableEq, Repr

/-- A place in BAR2, with the EDC outcomes of the memory transfers of an access there (R375, R397). -/
structure BarPlace where
  /-- offset in BAR2. -/
  off : BitVec 34
  /-- failing transfers before the good one, for each 32-byte granule in order. -/
  edc : List (BitVec 2)
  deriving DecidableEq, Repr

/-- What the start steps 1 to 12 read and find (R558 to R569). -/
structure StartIn where
  /-- Directory page at flash offset 0x0000_0000. -/
  dir0 : List Byte := []
  /-- Directory page at flash offset 0x0001_0000. -/
  dir1 : List Byte := []
  objs : List StartObj := []
  /-- The decoded content of the configuration image. -/
  cfg : Cfg := {}
  /-- Every section passes the rule its table row names (R567). -/
  cfgOk : Bool := true
  gridX : Nat := 64
  gridY : Nat := 32
  /-- SUBSYS of the configuration image. -/
  subsys : Nat := 0
  /-- Comparator and line path tests of step 1 pass (R453, R462). -/
  testsOk : Bool := true
  /-- Channels whose device reports the right density (R365). -/
  density : BitVec 8 := 0xff#8
  /-- Channels that train at full speed, and at reduced speed (R382). -/
  trainFull : BitVec 8 := 0xff#8
  trainReduced : BitVec 8 := 0xff#8
  /-- Full restart: write-back completed in time, and channels whose stored training verifies (R386). -/
  writeBack : Bool := true
  verified : BitVec 8 := 0xff#8
  /-- Physical tiles that fail logic BIST or memory BIST (R512). -/
  lbistFail : List Nat := []
  mbistFail : List Nat := []
  /-- What faults add to accumulator values of the skew self-checks (R113). -/
  skew : List SkewErr := []
  /-- Persistent words that read uncorrectable (R574). -/
  badWords : List Nat := []
  /-- Persistent words that are read with a single-bit error, in the order of the reads (R574). -/
  corrWords : List Nat := []
  /-- I2C ports whose sensor control sequence fails (R569). -/
  nack : List Nat := []
  /-- Milliseconds from power good, or from the restart's beginning, to step 12. -/
  ms : Nat := 900
  deriving DecidableEq, Repr

/-- What a partial restart finds (R479). -/
structure RestartIn where
  writeBack : Bool := true
  verified : BitVec 8 := 0xff#8
  trainFull : BitVec 8 := 0xff#8
  trainReduced : BitVec 8 := 0xff#8
  /-- What faults add to accumulator values of the skew self-checks (R113). -/
  skew : List SkewErr := []
  /-- Persistent words that read uncorrectable, and those that are read with a single-bit error (R574). -/
  badWords : List Nat := []
  corrWords : List Nat := []
  deriving DecidableEq, Repr

/-- What sends or receives a packet of the mesh (R183). -/
inductive MeshEnd where
  /-- the message port or DMA engine of a logical tile. -/
  | tile (t : BitVec 11)
  /-- a brood controller or region resampler, at logical index 0 of its brood. -/
  | brood (b : BitVec 7)
  /-- a memory channel. -/
  | chan (c : BitVec 3)
  /-- a system port: 0 system SRAM, 1 dispatch cores and sequencer, 2 intake and warp, 3 host interface. -/
  | sys (p : BitVec 2)
  /-- a chip-link port. -/
  | link (p : BitVec 2)
  deriving DecidableEq, Repr

/-- A packet on its way through the mesh (R185). -/
inductive MeshPkt where
  /-- a message of tile `src` to the chip and tile of `dst`. -/
  | msg (src : BitVec 11) (dst : BitVec 13)
  /-- its acknowledgement on the way back. -/
  | ack (src : BitVec 11) (dst : BitVec 13)
  /-- an operation of tile `t` on its way to the controller of brood `b`. -/
  | op (t : BitVec 11) (b : BitVec 7)
  /-- the controller's answer on its way back. -/
  | answer (t : BitVec 11) (b : BitVec 7)
  /-- a memory, SRAM or register request, or its response. -/
  | access (src dst : MeshEnd)
  deriving DecidableEq, Repr

end Sys2Proof
end

