-- ==== Sys2Proof/Syntax.lean ====
section
/-! DEFINITION. The commands of the block: one constructor per row of spec/opcode_table.json, in its order.
The table gives no operands; those below are the model's (log entry 2). -/
namespace Sys2Proof

inductive Instr where
  /-- POWER_GOOD (R553). RST_N rises after the rails and the reference clock are stable, and the start sequence begins. -/
  | powerGood
  /-- START_SEQUENCE (R561). The device runs start steps 1 to 12, from PLL lock to the running state, at power-on or at a full restart. -/
  | startSequence (inp : StartIn)
  /-- RST_N_ASSERT (R553). An assertion of RST_N for at least 10 µs returns the main die to its pre-power-good state and releases the SPI flash. -/
  | rstNAssert
  /-- POWER_LOSS (R572). The main-die supplies fall, and persistent words keep their last complete write. -/
  | powerLoss
  /-- PARTIAL_RESTART (R479). The device freezes, quiesces, resets the listed blocks, remaps the broods, restores sections and re-arms, all within 60 ms. -/
  | partialRestart (inp : RestartIn)
  /-- FULL_RESTART (R480). The device resets the compute die except the always-on Carapace state and runs secure start within 350 ms. -/
  | fullRestart (inp : StartIn)
  /-- REG_WRITE (R602). A write to a register that has no row of its own updates its writable fields and counts any violation, sub-word write or protected-window drop. -/
  | regWrite (host : Bool) (addr : BitVec 48) (size : BitVec 4) (data : BitVec 64)
  /-- HOLE_ACCESS (R15). A host access to a hole, to a fused-off unit window or to an unhosted tile window is not performed and is counted in HIF_VIOL0.HOLE. -/
  | holeAccess (write : Bool) (addr : BitVec 48)
  /-- CSI_FRAME_START (R307). A clean frame-start short packet is stamped, increments SEQ, takes a ring entry or counts an overrun, and breaks any open frame. -/
  | csiFrameStart (rx : BitVec 4) (vc : BitVec 4) (fnum : BitVec 16)
  /-- CSI_LONG_PACKET (R307). A long packet of a stream is checked and written into its line of the ring entry, or it breaks the frame. -/
  | csiLongPacket (rx : BitVec 4) (vc : BitVec 4) (dt : BitVec 6) (crcOk : Bool) (payload : List Byte)
  /-- CSI_EMBEDDED_DATA (R313). An embedded-data packet is taken as a test row and checked against the expected CRC. -/
  | csiEmbeddedData (rx : BitVec 4) (vc : BitVec 4) (crcOk : Bool) (payload : List Byte)
  /-- CSI_HEADER_ERROR (R302). A packet header with an ECC error is corrected and counted, or the packet is discarded and the frame broken. -/
  | csiHeaderError (rx : BitVec 4) (vc : BitVec 4) (dt : BitVec 6) (uncorr : Bool)
  /-- CSI_UNCLAIMED_PACKET (R301). A packet on a virtual channel and data type that no enabled stream claims is discarded and counted. -/
  | csiUnclaimedPacket (rx : BitVec 4) (vc : BitVec 4) (pkt : CsiPacket)
  /-- PATTERN_INJECT_END (R309). The last injected pattern line lands in the ring entry. -/
  | patternInjectEnd (c : BitVec 5)
  /-- CSI_FRAME_END (R22). A frame-end short packet arrives and completes the frame once its pattern lines have landed. -/
  | csiFrameEnd (rx : BitVec 4) (vc : BitVec 4)
  /-- FRAME_TIMER_EXPIRY (R314). A stream's frame timer expires and records a loss of the open frame or of a missing frame start. -/
  | frameTimerExpiry (n : BitVec 6)
  /-- ETH_FRAME_RECEIVE (R320). An Ethernet MAC receives a frame, stamps it, checks and filters it, and delivers its UDP datagram to a matching network stream. -/
  | ethFrameReceive (mac : BitVec 2) (fcsOk : Bool) (frame : List Byte)
  /-- LIDAR_TEST_PACKET_END (R326). The injected lidar test packet has passed the parser, and its CRC admits the sample and triggers, or loses it. -/
  | lidarTestPacketEnd (n : BitVec 6)
  /-- ETH_LINK_CHANGE (R337). An Ethernet link goes up or down and is reported in INT_ETH_STAT with 0x5302. -/
  | ethLinkChange (mac : BitVec 2) (speed : BitVec 2)
  /-- PTP_SYNC_RECEIVE (R322). A gPTP Sync is received, and the dispatch firmware updates INT_PTP_OFS. -/
  | ptpSyncReceive (ofs : BitVec 64) (interval : BitVec 32)
  /-- PTP_HOLDOVER (R322). Three sync intervals pass without a Sync, and the device enters holdover with 0x5401. -/
  | ptpHoldover
  /-- JXS_DECODE_START (R327). A JPEG XS engine in decoder mode begins a ready sample in order. -/
  | jxsDecodeStart (e : BitVec 1)
  /-- JXS_DECODE_END (R334). A decode and its test band finish, or stop at a syntax error, and the pattern lines go on to warp. -/
  | jxsDecodeEnd (e : BitVec 1) (ok : Bool) (pix : List (BitVec 16)) (band : List (BitVec 16)) (cycles : BitVec 32)
  /-- JXS_BUDGET_EXPIRY (R332). A decode reaches DEC_BUDGET, is aborted, and the engine resets and the sample is lost. -/
  | jxsBudgetExpiry (e : BitVec 1)
  /-- JXS_ENGINE_READY (R332). A JPEG XS engine completes its reset within 50 µs and is ready again. -/
  | jxsEngineReady (e : BitVec 1)
  /-- JXS_BUFFER_ERROR (R338). An uncorrectable engine buffer error resets the engine and loses the sample with 0x6106. -/
  | jxsBufferError (e : BitVec 1)
  /-- JXS_ENCODE_START (R335). An engine in encoder mode begins encoding a selected admitted frame. -/
  | jxsEncodeStart (e : BitVec 1)
  /-- JXS_ENCODE_END (R335). An encode finishes, writes the clip and offers a clip record with its hash to the mailbox. -/
  | jxsEncodeEnd (e : BitVec 1) (clip : List Byte) (cycles : BitVec 32)
  /-- JXS_ENCODE_BUDGET_EXPIRY (R336). An encode reaches ENC_BUDGET, is aborted with no clip, and a missing-clip record is offered. -/
  | jxsEncodeBudgetExpiry (e : BitVec 1)
  /-- JXS_MODE_WRITE (R327). A write of JXS_CTRL.MODE selects decoder or encoder, and the change takes effect between samples. -/
  | jxsModeWrite (e : BitVec 1) (mode : Bool)
  /-- JXS_CLR_CNT (R340). JXS_CTRL.CLR_CNT clears the engine's abort, reject and test counters. -/
  | jxsClrCnt (e : BitVec 1)
  /-- INT_DESC_UPD (R306). A write of a descriptor index requests its application at the stream's next frame boundary. -/
  | intDescUpd (n : BitVec 6)
  /-- DESC_UPDATE_APPLY (R306). At the stream's frame boundary the descriptor is checked and applied, and the stream resynchronises, or it is refused with 0x5122. -/
  | descUpdateApply
  /-- INT_CLR_CNT (R339). INT_CTRL.CLR_CNT clears the intake counters and the INT_FIRST0 capture. -/
  | intClrCnt
  /-- WARP_ASSIGN (R342). A waiting complete frame or rerun is assigned to an idle in-service warp engine, which starts its warp. -/
  | warpAssign
  /-- WARP_COMPLETE (R23). A warp completes: the pattern CRC and the mesh CRC are compared, and the stream's trigger event is raised or a rerun is started. -/
  | warpComplete (e : BitVec 2) (crcErr : BitVec 32) (meshErr : BitVec 32) (cycles : BitVec 32)
  /-- WARP_TIMEOUT (R343). A warp that has not completed one PERIOD after its start is aborted, and the frame is lost with 0x6204. -/
  | warpTimeout (e : BitVec 2)
  /-- WARP_WAIT_TIMEOUT (R343). A frame that has waited one PERIOD for an engine is lost with 0x6204, and its entry is released. -/
  | warpWaitTimeout (n : BitVec 6)
  /-- WARP_COORD_MISMATCH (R359). The two coordinate datapaths disagree, and the warp stops and the frame is lost with 0x6207. -/
  | warpCoordMismatch (e : BitVec 2)
  /-- WARP_BUFFER_ERROR (R361). An uncorrectable line or node buffer error stops the warp, resets the engine and loses the frame with 0x6205. -/
  | warpBufferError (e : BitVec 2)
  /-- WRP_CFG_UPD (R347). A write of a configuration number to WRP_CFG_UPD requests its application. -/
  | wrpCfgUpd (n : BitVec 6)
  /-- WARP_CFG_APPLY (R347). At the frame boundary of each stream that names it, the configuration is checked and applied, or refused with 0x6203. -/
  | warpCfgApply
  /-- WRP_CLR_CNT (R363). WRP_CTRL.CLR_CNT clears WRP_ERR and WRP_PIXELS. -/
  | wrpClrCnt (e : BitVec 2)
  /-- GATHER_EXPIRY (R26). A gather window expires, and the pipeline triggers with stale substitutes for the missing streams. -/
  | gatherExpiry (p : BitVec 6)
  /-- SYNC_IO_RELEASE (R220). At the first common tick after entering a barrier, the device releases SYNC_IO. -/
  | syncIoRelease
  /-- SYNC_IO_SAMPLE (R220). At T0 + 12 the device samples SYNC_IO high and leaves the barrier at T0 + 16, starting the stages and driving the line low. -/
  | syncIoSample (high : Bool)
  /-- SYNC_IO_TIMEOUT (R224). A device stays in a barrier longer than TMO, withdraws, withholds the frame and raises 0x3301. -/
  | syncIoTimeout
  /-- BARRIER_SEQ_RECEIVE (R223). A peer's barrier sequence and frame numbers arrive, and a mismatch withholds the frame with 0x3302. -/
  | barrierSeqReceive (seq : BitVec 16) (frame : BitVec 32)
  /-- STAGE_START (R27). The sequencer starts a stage's job: it performs the job-start steps on every tile and starts all the cores in one array cycle. -/
  | stageStart (p : BitVec 6) (stage : BitVec 8)
  /-- RESAMPLER_PART_END (R246). A region resampler finishes its boxes and status bytes, or stops on a datapath mismatch. -/
  | resamplerPartEnd (b : BitVec 7) (fault : Option (Nat × Nat))
  /-- PART_FINISH (R174). A tile's part finishes after END, once its array, DMA and message work has completed, and it is reported to the sequencer. -/
  | partFinish (t : BitVec 11)
  /-- STAGE_WIN_MAX (R478). WIN_MAX is reached: the stage's tiles are halted, the stage fails, and its output is discarded or left unverified. -/
  | stageWinMax (stage : BitVec 8)
  /-- PUBLISH (R33). After the 16-cycle wait, the sequencer flips the publish table and writes the frame's completion entry, or it withholds the frame. -/
  | publish (p : BitVec 6)
  /-- ORDER_HOLD_EXPIRY (R36). An earlier frame has not finished within 2 × PERIOD, and it is withheld with 0x1F04. -/
  | orderHoldExpiry (p : BitVec 6)
  /-- MGMT_EXPORT_SEND (R570). A published output is sent in datagrams on the management port, or its remainder is dropped with 0xC034. -/
  | mgmtExportSend
  /-- CHIP_EXPORT_RECEIVE (R571). A peer writes an output exported over the chip links into its export ring. -/
  | chipExportReceive (port : BitVec 2) (data : List Byte)
  /-- ARRAY_OP_START (R160). An array operation leaves the array queue, its register operands are checked, and it starts. -/
  | arrayOpStart (t : BitVec 11)
  /-- VECTOR_ACCUMULATE (R115). A vector's chunk sums reach the accumulate stage 67 cycles after acceptance and are combined into its accumulator row. -/
  | vectorAccumulate (t : BitVec 11) (err : List Int) (shadow : Bool)
  /-- RESIDUE_COMPARE (R494). The checker compares the prediction with the residue of the chunk sums, and the shadows and dual columns are compared. -/
  | residueCompare (t : BitVec 11) (err : BitVec 12)
  /-- SPARE_CLEAR_DONE (R77). An aborted spare's memories are cleared and it is ready within 20 µs. -/
  | spareClearDone (b : BitVec 7)
  /-- RERUN_START (R501). Once the spare is ready, the job's sections and objects are restored, and every part reruns with the failing part on the spare. -/
  | rerunStart (b : BitVec 7)
  /-- DRAIN_END (R162). A drain makes its last data-memory write and adds 1 to its SIG object. -/
  | drainEnd (t : BitVec 11) (shadow : Bool)
  /-- DMA_DESC_COMPLETE (R164). Every write of a DMA descriptor is complete, and the engine adds 1 to its SIG object in descriptor order. -/
  | dmaDescComplete (e : DmaEnd)
  /-- MSG_SEND (R191). A message leaves the port queue, its source is read into the retransmit buffer, and it is sent. -/
  | msgSend (t : BitVec 11)
  /-- MSG_ARRIVE (R192). The destination port checks HCHK, the job and CRC, writes the payload, applies the add and acknowledges. -/
  | msgArrive (src : BitVec 11) (dst : BitVec 11) (link : Option (BitVec 2 × List Byte)) (err : List Byte)
  /-- MSG_ACK (R194). An ACK arrives, and the message is delivered and freed from the retransmit buffer. -/
  | msgAck (t : BitVec 11) (dst : BitVec 13)
  /-- MSG_NACK (R194). A NACK arrives, and the message is resent, or abandoned at the third with 0x3002. -/
  | msgNack (t : BitVec 11) (dst : BitVec 13)
  /-- MSG_REJECT (R194). A REJECT arrives, and the message is abandoned and the source part failed with 0x3004. -/
  | msgReject (t : BitVec 11) (dst : BitVec 13)
  /-- MSG_ACK_TIMEOUT (R194). No acknowledgement arrives within NOC_ACK_TMO, and the message is abandoned with 0x3003. -/
  | msgAckTimeout (t : BitVec 11) (dst : BitVec 13)
  /-- SYNC_OP_APPLY (R198). A brood controller checks and applies a synchronisation operation to a global object, answers it, and wakes satisfied waiters. -/
  | syncOpApply (p : SyncPair) (bad : Bool)
  /-- SYNC_OP_RESPONSE (R199). A controller's answer reaches the tile, completing SRD or SARV, or resuming a woken wait. -/
  | syncOpResponse (p : SyncPair)
  /-- SYNC_WAIT_RETRY (R200). 32 array cycles after a wait-table retry, the tile resends the wait. -/
  | syncWaitRetry (t : BitVec 11)
  /-- SYNC_OP_TIMEOUT (R201). An operation has no answer within NOC_ACK_TMO.LOCAL, completes without effect and fails the part. -/
  | syncOpTimeout (t : BitVec 11)
  /-- ROUTER_BUFFER_ERROR (R187). A router buffer SEC-DED error is corrected and counted, or the packet is discarded with 0x3007. -/
  | routerBufferError (x : BitVec 6) (y : BitVec 5) (uncorr : Bool) (pkt : MeshPkt)
  /-- NOC_CLR_CNT (R226). NOC_CTRL.CLR_CNT clears the mesh counters and the NOC_FIRST0 capture. -/
  | nocClrCnt
  /-- SYN_CLR_CNT (R227). SYN_CTRL.CLR_CNT clears SYN_VIOL, SYN_WAITS and SYNC_IO_ERR. -/
  | synClrCnt
  /-- CHL_TRAIN_START (R212). An enabled chip-link port begins training at the lock step. -/
  | chlTrainStart (port : BitVec 2)
  /-- CHL_LOCK_END (R212). Lane lock ends, and the port takes the widest fully good lane group. -/
  | chlLockEnd (port : BitVec 2) (good : BitVec 8)
  /-- CHL_IDENTITY_RECEIVE (R213). The peer's identity fields arrive and are compared, and the port refuses the peer on a contradiction. -/
  | chlIdentityReceive (port : BitVec 2) (chip : BitVec 2) (chips : BitVec 3) (gridX : BitVec 8) (gridY : BitVec 8) (ver : IfVersion) (digest : List Byte)
  /-- CHL_AUTH_MESSAGE (R537). An authentication message of the ML-KEM exchange arrives, is checked, and the session key is derived at the end. -/
  | chlAuthMessage (port : BitVec 2) (ok : Bool)
  /-- CHL_TIME_ALIGN (R218). The timestamp exchange toward chip 0 completes, and the device tick count is aligned. -/
  | chlTimeAlign (port : BitVec 2) (latency : BitVec 16) (refTick : BitVec 64)
  /-- CHL_TRAIN_TIMEOUT (R212). A port does not reach the up state within 36 ms of its training start, and 0x3204 is raised. -/
  | chlTrainTimeout (port : BitVec 2)
  /-- CHL_BLOCK_RECEIVE (R214). A link block arrives, and its CRC and tag are checked, leading to a replay or a link down. -/
  | chlBlockReceive (port : BitVec 2) (crcOk : Bool) (tagOk : Bool)
  /-- CHL_LANE_FAULT (R215). A lane loses lock or exceeds 64 symbol errors in 1 ms, and is removed, and the port retrains narrower. -/
  | chlLaneFault (port : BitVec 2) (lane : BitVec 3)
  /-- CHL_RETRAIN_END (R215). A narrower retrain completes, and traffic resumes from the replay buffers. -/
  | chlRetrainEnd (port : BitVec 2)
  /-- CHL_RETRY_TIMER (R216). Every 10 ms a down port repeats full training. -/
  | chlRetryTimer (port : BitVec 2)
  /-- TIMEBASE_COMPARE (R218). Every 1 ms the port compares the time bases and raises 0x3303 beyond ±2 array cycles. -/
  | timebaseCompare (port : BitVec 2) (offset : BitVec 16)
  /-- CHL_RETRAIN (R228). A write of CHL_CTRL.RETRAIN retrains the port from the lock step, keeping the session key. -/
  | chlRetrain (port : BitVec 2)
  /-- SPARE_LBIST_END (R70). The spare's logic BIST ends, and the spare is fenced on failure or goes on to memory BIST. -/
  | spareLbistEnd (b : BitVec 7) (ok : Bool)
  /-- SPARE_MBIST_END (R512). The spare's memory BIST and skew self-check end, and the spare passes or is fenced with 0x1011 or 0x2101. -/
  | spareMbistEnd (b : BitVec 7) (memOk : Bool) (skew : List SkewErr)
  /-- ROTATION_MOVE_START (R71). In a qualifying gap the rotation logic starts moving the next logical tile onto the spare. -/
  | rotationMoveStart (b : BitVec 7)
  /-- FORCED_MOVE_START (R80). At the end of the current job part, a forced move of a fenced or withdrawn slot's tile onto the spare starts. -/
  | forcedMoveStart (b : BitVec 7)
  /-- MOVE_QUIESCED (R73). The moving tile's DMA and message port are idle, the core is frozen, and the transfer begins. -/
  | moveQuiesced (b : BitVec 7)
  /-- MOVE_TRANSFER_END (R76). The transfer ends, and the CRC verify passes or abandons the move with 0x1012. -/
  | moveTransferEnd (b : BitVec 7) (crcOk : Bool)
  /-- MOVE_SWITCH_END (R73). The mapping and port switch are updated, held messages and accesses are released, and the vacated slot becomes the spare. -/
  | moveSwitchEnd (b : BitVec 7)
  /-- SLOT_AGE_LFI (R513). A hosting slot or a shared unit becomes older than LFI, and 0x2042 is raised. -/
  | slotAgeLfi (row : BitVec 4) (inst : BitVec 12)
  /-- INPLACE_SLICE_START (R515). In a declared gap of at least 200 µs, a no-margin tile saves its state and starts one slice of in-place BIST. -/
  | inplaceSliceStart (b : BitVec 7) (k : BitVec 4)
  /-- INPLACE_SLICE_END (R515). An in-place slice ends, the state is restored and verified, and a failure is handled as in R82. -/
  | inplaceSliceEnd (b : BitVec 7) (k : BitVec 4) (ok : Bool)
  /-- SHARED_SLICE_START (R518). A slice of a shared unit's test starts when the unit is idle and the slice fits before its next safety window, or it is postponed. -/
  | sharedSliceStart (row : BitVec 4) (inst : BitVec 7)
  /-- SHARED_SLICE_END (R519). A shared-unit slice ends and restores the unit's state, and a failure is repeated or raised as 0x2040. -/
  | sharedSliceEnd (row : BitVec 4) (inst : BitVec 7) (ok : Bool)
  /-- TIL_START (R85). A write of TIL_CTRL.START runs a one-part job of a bound host-assisted stage on the tile, or is counted as a violation. -/
  | tilStart (t : BitVec 11)
  /-- TIL_HALT_REQ (R178). A write of TIL_CTRL.HALT_REQ requests a halt at the next instruction boundary. -/
  | tilHaltReq (t : BitVec 11)
  /-- HALT_REQ_TAKEN (R178). The tile stops issue at an instruction boundary, lets its operations complete, and raises 0x1105 when the host requested it. -/
  | haltReqTaken (t : BitVec 11)
  /-- BRD_ROT_GRANT (R72). A write of BRD_CTRL.ROT_GRANT permits one move in host-assisted self-test mode. -/
  | brdRotGrant (b : BitVec 7)
  /-- BRD_ROT_EN_WRITE (R86). A write of BRD_CTRL.ROT_EN enables rotation, or stops it after the move in progress. -/
  | brdRotEnWrite (b : BitVec 7) (en : Bool)
  /-- ARR_CLR_CNT (R139). ARR_CTRL.CLR_CNT clears the tile's array counters. -/
  | arrClrCnt (t : BitVec 11)
  /-- ADD (R148). gd := ga + gb. -/
  | add (t : BitVec 11) (gd : BitVec 5) (ga : BitVec 5) (gb : BitVec 5)
  /-- SUB (R148). gd := ga − gb. -/
  | sub (t : BitVec 11) (gd : BitVec 5) (ga : BitVec 5) (gb : BitVec 5)
  /-- AND (R148). Bitwise and of two registers. -/
  | andR (t : BitVec 11) (gd : BitVec 5) (ga : BitVec 5) (gb : BitVec 5)
  /-- OR (R148). Bitwise or of two registers. -/
  | orR (t : BitVec 11) (gd : BitVec 5) (ga : BitVec 5) (gb : BitVec 5)
  /-- XOR (R148). Bitwise exclusive or of two registers. -/
  | xor (t : BitVec 11) (gd : BitVec 5) (ga : BitVec 5) (gb : BitVec 5)
  /-- SLL (R148). Shift left by gb bits 4:0. -/
  | sll (t : BitVec 11) (gd : BitVec 5) (ga : BitVec 5) (gb : BitVec 5)
  /-- SRL (R148). Logical shift right. -/
  | srl (t : BitVec 11) (gd : BitVec 5) (ga : BitVec 5) (gb : BitVec 5)
  /-- SRA (R148). Arithmetic shift right. -/
  | sra (t : BitVec 11) (gd : BitVec 5) (ga : BitVec 5) (gb : BitVec 5)
  /-- SLT (R148). Signed set-less-than. -/
  | slt (t : BitVec 11) (gd : BitVec 5) (ga : BitVec 5) (gb : BitVec 5)
  /-- SLTU (R148). Unsigned set-less-than. -/
  | sltu (t : BitVec 11) (gd : BitVec 5) (ga : BitVec 5) (gb : BitVec 5)
  /-- MIN (R148). Signed minimum. -/
  | min (t : BitVec 11) (gd : BitVec 5) (ga : BitVec 5) (gb : BitVec 5)
  /-- MAX (R148). Signed maximum. -/
  | max (t : BitVec 11) (gd : BitVec 5) (ga : BitVec 5) (gb : BitVec 5)
  /-- MUL (R148). Low 32 bits of the product. -/
  | mul (t : BitVec 11) (gd : BitVec 5) (ga : BitVec 5) (gb : BitVec 5)
  /-- MULH (R148). High 32 bits of the signed product. -/
  | mulh (t : BitVec 11) (gd : BitVec 5) (ga : BitVec 5) (gb : BitVec 5)
  /-- MULHU (R148). High 32 bits of the unsigned product. -/
  | mulhu (t : BitVec 11) (gd : BitVec 5) (ga : BitVec 5) (gb : BitVec 5)
  /-- ADDI (R146). Add a sign-extended immediate. -/
  | addi (t : BitVec 11) (gd : BitVec 5) (ga : BitVec 5) (imm : BitVec 15)
  /-- ANDI (R146). And with a zero-extended immediate. -/
  | andi (t : BitVec 11) (gd : BitVec 5) (ga : BitVec 5) (imm : BitVec 15)
  /-- ORI (R146). Or with a zero-extended immediate. -/
  | ori (t : BitVec 11) (gd : BitVec 5) (ga : BitVec 5) (imm : BitVec 15)
  /-- XORI (R146). Exclusive or with a zero-extended immediate. -/
  | xori (t : BitVec 11) (gd : BitVec 5) (ga : BitVec 5) (imm : BitVec 15)
  /-- SLLI (R146). Shift left by imm bits 4:0. -/
  | slli (t : BitVec 11) (gd : BitVec 5) (ga : BitVec 5) (imm : BitVec 15)
  /-- SRLI (R146). Logical shift right by an immediate. -/
  | srli (t : BitVec 11) (gd : BitVec 5) (ga : BitVec 5) (imm : BitVec 15)
  /-- SRAI (R146). Arithmetic shift right by an immediate. -/
  | srai (t : BitVec 11) (gd : BitVec 5) (ga : BitVec 5) (imm : BitVec 15)
  /-- SLTI (R146). Signed set-less-than against a sign-extended immediate. -/
  | slti (t : BitVec 11) (gd : BitVec 5) (ga : BitVec 5) (imm : BitVec 15)
  /-- LUI (R148). gd := imm × 2^12. -/
  | lui (t : BitVec 11) (gd : BitVec 5) (imm : BitVec 20)
  /-- LW (R143). Load 32 bits from a permitted local address. -/
  | lw (t : BitVec 11) (gd : BitVec 5) (ga : BitVec 5) (imm : BitVec 15)
  /-- LH (R143). Load 16 bits, sign-extended. -/
  | lh (t : BitVec 11) (gd : BitVec 5) (ga : BitVec 5) (imm : BitVec 15)
  /-- LHU (R143). Load 16 bits, zero-extended. -/
  | lhu (t : BitVec 11) (gd : BitVec 5) (ga : BitVec 5) (imm : BitVec 15)
  /-- LB (R143). Load 8 bits, sign-extended. -/
  | lb (t : BitVec 11) (gd : BitVec 5) (ga : BitVec 5) (imm : BitVec 15)
  /-- LBU (R143). Load 8 bits, zero-extended. -/
  | lbu (t : BitVec 11) (gd : BitVec 5) (ga : BitVec 5) (imm : BitVec 15)
  /-- SW (R143). Store 32 bits to data or brood memory. -/
  | sw (t : BitVec 11) (gs : BitVec 5) (ga : BitVec 5) (imm : BitVec 15)
  /-- SH (R143). Store the low 16 bits. -/
  | sh (t : BitVec 11) (gs : BitVec 5) (ga : BitVec 5) (imm : BitVec 15)
  /-- SB (R143). Store the low 8 bits. -/
  | sb (t : BitVec 11) (gs : BitVec 5) (ga : BitVec 5) (imm : BitVec 15)
  /-- BEQ (R146). Branch if equal. -/
  | beq (t : BitVec 11) (ga : BitVec 5) (gb : BitVec 5) (off : BitVec 15)
  /-- BNE (R146). Branch if not equal. -/
  | bne (t : BitVec 11) (ga : BitVec 5) (gb : BitVec 5) (off : BitVec 15)
  /-- BLT (R146). Branch if less, signed. -/
  | blt (t : BitVec 11) (ga : BitVec 5) (gb : BitVec 5) (off : BitVec 15)
  /-- BGE (R146). Branch if greater or equal, signed. -/
  | bge (t : BitVec 11) (ga : BitVec 5) (gb : BitVec 5) (off : BitVec 15)
  /-- BLTU (R146). Branch if less, unsigned. -/
  | bltu (t : BitVec 11) (ga : BitVec 5) (gb : BitVec 5) (off : BitVec 15)
  /-- BGEU (R146). Branch if greater or equal, unsigned. -/
  | bgeu (t : BitVec 11) (ga : BitVec 5) (gb : BitVec 5) (off : BitVec 15)
  /-- JAL (R149). Jump by an instruction offset and link. -/
  | jal (t : BitVec 11) (gd : BitVec 5) (off : BitVec 20)
  /-- JALR (R149). Jump to ga + imm and link, halting with 0x05 on a bad target. -/
  | jalr (t : BitVec 11) (gd : BitVec 5) (ga : BitVec 5) (imm : BitVec 15)
  /-- LOOP (R152). Start a hardware loop with the trip count in gb. -/
  | loop (t : BitVec 11) (lc : BitVec 2) (gb : BitVec 5) (body : BitVec 12)
  /-- LOOPI (R152). Start a hardware loop with an immediate trip count. -/
  | loopi (t : BitVec 11) (lc : BitVec 2) (count : BitVec 11) (body : BitVec 12)
  /-- RDLC (R152). Read the index of a loop counter. -/
  | rdlc (t : BitVec 11) (gd : BitVec 5) (lc : BitVec 15)
  /-- CSRR (R150). Read a CSR, and latch TICK_HI on a TICK_LO read. -/
  | csrr (t : BitVec 11) (gd : BitVec 5) (csr : BitVec 15)
  /-- TRAP (R175). Halt with cause 0x80 + code. -/
  | trap (t : BitVec 11) (code : BitVec 15)
  /-- END (R174). Stop issue and wait for the part's outstanding work. -/
  | endProg (t : BitVec 11)
  /-- VADD (R155). Lane-wise wrapping add. -/
  | vadd (t : BitVec 11) (vd : BitVec 4) (va : BitVec 4) (vb : BitVec 4)
  /-- VSUB (R155). Lane-wise wrapping subtract. -/
  | vsub (t : BitVec 11) (vd : BitVec 4) (va : BitVec 4) (vb : BitVec 4)
  /-- VMUL (R155). Lane-wise low product. -/
  | vmul (t : BitVec 11) (vd : BitVec 4) (va : BitVec 4) (vb : BitVec 4)
  /-- VAND (R148). Lane-wise and. -/
  | vand (t : BitVec 11) (vd : BitVec 4) (va : BitVec 4) (vb : BitVec 4)
  /-- VOR (R148). Lane-wise or. -/
  | vor (t : BitVec 11) (vd : BitVec 4) (va : BitVec 4) (vb : BitVec 4)
  /-- VXOR (R148). Lane-wise exclusive or. -/
  | vxor (t : BitVec 11) (vd : BitVec 4) (va : BitVec 4) (vb : BitVec 4)
  /-- VSLL (R148). Lane-wise shift left. -/
  | vsll (t : BitVec 11) (vd : BitVec 4) (va : BitVec 4) (vb : BitVec 4)
  /-- VSRL (R148). Lane-wise logical shift right. -/
  | vsrl (t : BitVec 11) (vd : BitVec 4) (va : BitVec 4) (vb : BitVec 4)
  /-- VSRA (R148). Lane-wise arithmetic shift right. -/
  | vsra (t : BitVec 11) (vd : BitVec 4) (va : BitVec 4) (vb : BitVec 4)
  /-- VMIN (R148). Lane-wise signed minimum. -/
  | vmin (t : BitVec 11) (vd : BitVec 4) (va : BitVec 4) (vb : BitVec 4)
  /-- VMAX (R148). Lane-wise signed maximum. -/
  | vmax (t : BitVec 11) (vd : BitVec 4) (va : BitVec 4) (vb : BitVec 4)
  /-- VCLT (R148). Lane-wise signed compare less-than. -/
  | vclt (t : BitVec 11) (vd : BitVec 4) (va : BitVec 4) (vb : BitVec 4)
  /-- VCEQ (R148). Lane-wise compare equal. -/
  | vceq (t : BitVec 11) (vd : BitVec 4) (va : BitVec 4) (vb : BitVec 4)
  /-- VSEL (R148). Lane-wise select by vc. -/
  | vsel (t : BitVec 11) (vd : BitVec 4) (va : BitVec 4) (vb : BitVec 4) (vc : BitVec 4)
  /-- VFADD (R155). FP32 add. -/
  | vfadd (t : BitVec 11) (vd : BitVec 4) (va : BitVec 4) (vb : BitVec 4)
  /-- VFSUB (R155). FP32 subtract. -/
  | vfsub (t : BitVec 11) (vd : BitVec 4) (va : BitVec 4) (vb : BitVec 4)
  /-- VFMUL (R155). FP32 multiply. -/
  | vfmul (t : BitVec 11) (vd : BitVec 4) (va : BitVec 4) (vb : BitVec 4)
  /-- VFMA (R155). FP32 fused multiply-add, rounded once. -/
  | vfma (t : BitVec 11) (vd : BitVec 4) (va : BitVec 4) (vb : BitVec 4) (vc : BitVec 4)
  /-- VFMIN (R155). FP32 minimumNumber. -/
  | vfmin (t : BitVec 11) (vd : BitVec 4) (va : BitVec 4) (vb : BitVec 4)
  /-- VFMAX (R155). FP32 maximumNumber. -/
  | vfmax (t : BitVec 11) (vd : BitVec 4) (va : BitVec 4) (vb : BitVec 4)
  /-- VFCLT (R155). FP32 compare less-than. -/
  | vfclt (t : BitVec 11) (vd : BitVec 4) (va : BitVec 4) (vb : BitVec 4)
  /-- VCVT (R155). The conversion that fn selects. -/
  | vcvt (t : BitVec 11) (vd : BitVec 4) (va : BitVec 4) (fn : BitVec 9)
  /-- VSFU (R283). exp, log or reciprocal by the fixed procedures. -/
  | vsfu (t : BitVec 11) (vd : BitVec 4) (va : BitVec 4) (fn : BitVec 9)
  /-- VLUT (R286). Piecewise-linear activation table lookup. -/
  | vlut (t : BitVec 11) (vd : BitVec 4) (va : BitVec 4) (fn : BitVec 9)
  /-- VTLD (R157). Load 1 KiB into an activation table. -/
  | vtld (t : BitVec 11) (tab : BitVec 4) (gb : BitVec 5) (off : BitVec 13)
  /-- VRED (R156). A reduction across lanes, broadcast to every lane. -/
  | vred (t : BitVec 11) (vd : BitVec 4) (va : BitVec 4) (fn : BitVec 9)
  /-- VPERM (R148). Lane permutation by index. -/
  | vperm (t : BitVec 11) (vd : BitVec 4) (va : BitVec 4) (vb : BitVec 4)
  /-- VBCST (R148). Broadcast a scalar to every lane. -/
  | vbcst (t : BitVec 11) (vd : BitVec 4) (ga : BitVec 5)
  /-- VIDX (R148). Lane i := ga + i. -/
  | vidx (t : BitVec 11) (vd : BitVec 4) (ga : BitVec 5)
  /-- VMOVS (R148). Move one lane to a scalar register. -/
  | vmovs (t : BitVec 11) (gd : BitVec 5) (va : BitVec 4) (lane : BitVec 7)
  /-- VRNG (R291). Write counter-generator words into the lanes. -/
  | vrng (t : BitVec 11) (vd : BitVec 4) (va : BitVec 4) (ga : BitVec 5) (gb : BitVec 5) (fn : BitVec 7)
  /-- VGTH (R158). Gather words from data memory. -/
  | vgth (t : BitVec 11) (vd : BitVec 4) (va : BitVec 4) (ga : BitVec 5)
  /-- VLD (R158). Vector load of 64 elements. -/
  | vld (t : BitVec 11) (vd : BitVec 4) (ew : BitVec 2) (gb : BitVec 5) (sx : Bool) (off : BitVec 13)
  /-- VST (R158). Vector store of 64 elements. -/
  | vst (t : BitVec 11) (vd : BitVec 4) (ew : BitVec 2) (gb : BitVec 5) (off : BitVec 13)
  /-- WLD (R98). Queue a weight load into a bank. -/
  | wld (t : BitVec 11) (ga : BitVec 5) (gb : BitVec 5) (gc : BitVec 5) (ctl : BitVec 10)
  /-- ASTR (R96). Queue a stream of activation vectors. -/
  | astr (t : BitVec 11) (ga : BitVec 5) (gb : BitVec 5) (gc : BitVec 5) (ctl : BitVec 10)
  /-- ADRN (R120). Queue a drain of accumulator rows into data memory. -/
  | adrn (t : BitVec 11) (ga : BitVec 5) (gb : BitVec 5) (gc : BitVec 5) (ctl : BitVec 10)
  /-- AFENCE (R162). Block issue until every earlier array operation has finished. -/
  | afence (t : BitVec 11)
  /-- DMA (R164). Read and queue a DMA descriptor. -/
  | dma (t : BitVec 11) (ga : BitVec 5)
  /-- MSG (R166). Queue a message to a tile of the same model. -/
  | msg (t : BitVec 11) (ga : BitVec 5) (gb : BitVec 5) (gc : BitVec 5) (ctl : BitVec 10)
  /-- MFENCE (R167). Block issue until every earlier message source has been read. -/
  | mfence (t : BitVec 11)
  /-- SADD (R196). Add gb to a counter, saturating. -/
  | sadd (t : BitVec 11) (ga : BitVec 5) (gb : BitVec 5)
  /-- SADDI (R196). Add an immediate to a counter, saturating. -/
  | saddi (t : BitVec 11) (ga : BitVec 5) (ctl : BitVec 10)
  /-- SWAIT (R196). Wait until a counter reaches gb. -/
  | swait (t : BitVec 11) (ga : BitVec 5) (gb : BitVec 5)
  /-- SARV (R197). Arrive at a barrier and return its phase. -/
  | sarv (t : BitVec 11) (gd : BitVec 5) (ga : BitVec 5)
  /-- SBWAIT (R197). Wait until a barrier's phase differs from gb. -/
  | sbwait (t : BitVec 11) (ga : BitVec 5) (gb : BitVec 5)
  /-- SRD (R197). Read a synchronisation object. -/
  | srd (t : BitVec 11) (gd : BitVec 5) (ga : BitVec 5)
  /-- SRST (R148). Set a local object to 0. -/
  | srst (t : BitVec 11) (ga : BitVec 5)
  /-- MEM_READ (R371). A device-memory read returns and each sector is decoded: clean, corrected with a corrective write queued, or uncorrectable. -/
  | memRead (master : BitVec 12) (addr : BitVec 34) (len : BitVec 13) (flips : List (BitVec 272)) (edc : List (BitVec 2))
  /-- MEM_WRITE_COMMIT (R376). A write commits, merging partial sectors or failing with 0x4021. -/
  | memWriteCommit (master : BitVec 12) (addr : BitVec 34) (data : List Byte) (edc : List (BitVec 2))
  /-- CORRECTIVE_WRITE (R373). A queued corrective write rewrites a corrected sector, unless a later write has committed. -/
  | correctiveWrite (ch : BitVec 3)
  /-- CHECK_LINE_EVICT (R378). A dirty check line is written back, or found uncorrectable and its sectors entered as lost. -/
  | checkLineEvict (ch : BitVec 3) (bad : Bool)
  /-- REFRESH_DUE (R383). A refresh interval expires, and rows are refreshed per bank. -/
  | refreshDue (ch : BitVec 3)
  /-- RETRAIN_DUE (R384). A channel becomes due for retraining by temperature, by 250 ms or by CRC retries. -/
  | retrainDue (ch : BitVec 3) (temp : BitVec 8)
  /-- RETRAIN_WINDOW (R384). A retraining window stalls one channel, refreshes it and retrains it. -/
  | retrainWindow (ch : BitVec 3) (ok : Bool)
  /-- TRAIN_GRANT_TIMEOUT (R385). A channel without a grant for 1 s is trained anyway, counted and raised as 0x400A. -/
  | trainGrantTimeout (ch : BitVec 3)
  /-- MEM_TRAIN_GRANT (R382). A write of MEM_TRAIN.GRANT permits one host-paced training. -/
  | memTrainGrant (ch : BitVec 3)
  /-- SCRUB_READ (R387). The patrol scrub reads one sector and writes it back, or records it as uncorrectable. -/
  | scrubRead (ch : BitVec 3) (flip : BitVec 272)
  /-- SRAM_SCRUB_WORD (R389). An SRAM scrubber reads a word and writes a corrected word back, or counts an uncorrectable word once. -/
  | sramScrubWord (addr : BitVec 48) (flip : BitVec 72)
  /-- MEM_INJ_ARM (R392). A write of MEM_INJ.ARM arms an error injection into the next whole-sector write, or is refused. -/
  | memInjArm (ch : BitVec 3)
  /-- MEM_CLR_CNT (R392). MEM_CTRL.CLR_CNT clears the channel's counters and its captures. -/
  | memClrCnt (ch : BitVec 3)
  /-- HOST_BAR2_READ (R397). A host read through BAR2 returns device memory, or Completer Abort on uncorrectable data. -/
  | hostBar2Read (at2 : BarPlace) (len : BitVec 13)
  /-- HOST_BAR2_WRITE (R397). A host write through BAR2 is performed in device memory, or dropped with 0x7030. -/
  | hostBar2Write (at2 : BarPlace) (data : List Byte)
  /-- HOST_BAR4_READ (R399). A host read through BAR4 returns on-chip memory, or Completer Abort on an uncorrectable word. -/
  | hostBar4Read (off : BitVec 29) (len : BitVec 13)
  /-- HOST_BAR4_WRITE (R399). A host write through BAR4 is performed where permitted, or dropped and counted. -/
  | hostBar4Write (off : BitVec 29) (data : List Byte)
  /-- TLP_ERROR_RECEIVE (R425). A request with an ECRC error, or a poisoned request, is dropped and logged with 0x7031. -/
  | tlpErrorReceive (kind : BitVec 2)
  /-- PCIE_LINK_UP (R562). The PCIe link trains, and a narrower or slower link raises 0x7004. -/
  | pcieLinkUp (width : BitVec 5) (speed : BitVec 3)
  /-- PCIE_LINK_LOSS (R412). The link is lost, and the host interface enters link down with 0x7005. -/
  | pcieLinkLoss
  /-- PERST_N_ASSERT (R412). PERST_N is asserted, and the host interface enters link down. -/
  | perstNAssert
  /-- FUNCTION_LEVEL_RESET (R412). An FLR puts the device into host-absent state, with no other block restarted. -/
  | functionLevelReset
  /-- HOT_RESET (R412). A hot reset puts the device into host-absent state. -/
  | hotReset
  /-- D3HOT_ENTRY (R412). Entry to D3hot puts the device into host-absent state. -/
  | d3hotEntry
  /-- DB_CMD (R403). A command producer index is accepted or rejected and counted. -/
  | dbCmd (v : BitVec 32)
  /-- DB_CPL (R402). The completion consumer index is advanced, and vectors 0 and 8 to 63 are re-armed. -/
  | dbCpl (v : BitVec 32)
  /-- DB_EVT (R402). The event consumer index is advanced, and vector 1 is re-armed. -/
  | dbEvt (v : BitVec 32)
  /-- DB_LOG (R402). The log consumer index is advanced, and vector 2 is re-armed. -/
  | dbLog (v : BitVec 32)
  /-- DB_TRC (R402). The trace consumer index is advanced, and vector 3 is re-armed. -/
  | dbTrc (v : BitVec 32)
  /-- DB_HB (R410). A heartbeat write restarts the host heartbeat timer. -/
  | dbHb (v : BitVec 32)
  /-- DB_TENSOR (R420). A host tensor becomes the stream's last good entry, and its trigger event is raised. -/
  | dbTensor (n : BitVec 6) (v : BitVec 32)
  /-- HIF_ATTACH_START (R409). START attaches the host and resets the command ring consumer, or is refused for the major version. -/
  | hifAttachStart
  /-- HIF_ATTACH_DETACH (R411). DETACH enters host-absent state. -/
  | hifAttachDetach
  /-- HIF_STATE_READ (R402). A read of HIF_STATE re-arms MSI-X vectors 4 and 5. -/
  | hifStateRead
  /-- HEARTBEAT_TIMEOUT (R410). 120 ms pass without a heartbeat while attached, and the device enters host-absent state with 0x7001. -/
  | heartbeatTimeout
  /-- HIF_CLR_CNT (R426). HIF_CTRL.CLR_CNT clears the host interface loss, violation and PCIe error counters. -/
  | hifClrCnt
  /-- SUBMIT (R419). A host job of a stage for frame F is started, opening the frame if it is new. -/
  | submitCmd
  /-- LOAD (R265). A model image is verified, checked and loaded into its library slots. -/
  | loadCmd
  /-- SECTION_PIECE_WRITE (R266). A piece of at most 1 KiB of a section is written into an idle tile of a bound stage. -/
  | sectionPieceWrite
  /-- UNLOAD (R414). A library slot is unloaded, or refused while a stage of it is bound. -/
  | unloadCmd
  /-- SWITCH (R270). A request to bind a stage to another slot's model is checked and queued, or refused with 0x1220. -/
  | switchCmd
  /-- SWITCH_APPLY (R269). At the pipeline's frame boundary the binding is changed and its PIPELINE objects are initialised. -/
  | switchApply
  /-- PIPE (R414). A request to start or stop a pipeline at its next frame boundary. -/
  | pipeCmd
  /-- PIPE_APPLY (R414). At the frame boundary the pipeline starts or stops, and the command completes. -/
  | pipeApply
  /-- MODE (R42). A request to change a function between hardware and host-assisted mode. -/
  | modeCmd
  /-- MODE_APPLY (R42). The mode change takes effect at its boundary, and the command completes. -/
  | modeApply
  /-- REACT (R421). The host decision for a waiting DECIDE event applies its reaction. -/
  | reactCmd
  /-- DECIDE_TIMEOUT (R421). No REACT arrives within 50 ms, and the reaction table applies with 0x7012. -/
  | decideTimeout
  /-- SAVE (R422). The context of the stopped pipelines is written. -/
  | saveCmd
  /-- RESTORE (R423). A context is checked and restored. -/
  | restoreCmd
  /-- SELFTEST_BROOD (R520). Selector 0x01 tests every good slot of a brood in rotation order. -/
  | selftestBrood
  /-- SELFTEST_RETRAIN (R520). Selector 0x02 retrains a memory channel in its window. -/
  | selftestRetrain
  /-- SELFTEST_SLICE_PASS (R520). Selector 0x03 runs one pass of a sliced test. -/
  | selftestSlicePass
  /-- SELFTEST_FULL_BIST (R521). Selector 0x04 runs full-chip BIST with every pipeline stopped. -/
  | selftestFullBist
  /-- FULL_BIST_END (R521). The full-chip BIST ends with the map, restore and re-arm steps, and completes. -/
  | fullBistEnd (lbist : List (BitVec 12)) (mbist : List (BitVec 12)) (skew : List SkewErr) (units : List (BitVec 16))
  /-- SELFTEST_WINDOW (R520). Selector 0x05 grants a test window in host-assisted self-test scheduling. -/
  | selftestWindow
  /-- TEST_WINDOW_END (R520). A granted test window ends, and its command completes. -/
  | testWindowEnd
  /-- RECORD (R542). A host request record is offered to the Cocoon mailbox. -/
  | recordCmd
  /-- NOP (R414). Completes when every earlier non-SUBMIT command has completed. -/
  | nopCmd
  /-- ILLEGAL_COMMAND (R414). A command with an unknown opcode completes with 0x7020. -/
  | illegalCommand
  /-- FW_WDT_KICK (R429). A dispatch core kicks its watchdog, and an early kick counts as an expiry. -/
  | fwWdtKick (host : Bool) (mask : BitVec 4)
  /-- DISPATCH_WDT_EXPIRY (R430). A dispatch watchdog expires, and the core is stopped and FW_FAULT captured with 0x8001. -/
  | dispatchWdtExpiry (core : BitVec 2)
  /-- SECURITY_WDT_EXPIRY (R430). The security watchdog expires, and the security core is reset with 0x8002. -/
  | securityWdtExpiry
  /-- POWER_WDT_EXPIRY (R430). The power manager watchdog expires, and the core is reset with the rail held at 0.80 V. -/
  | powerWdtExpiry
  /-- DISPATCH_CORE_FAULT (R432). A dispatch core hits an illegal instruction, a fetch bus error or uncorrectable code, and stops with 0x8003. -/
  | dispatchCoreFault (core : BitVec 2) (cause : BitVec 2)
  /-- SENSOR_SAMPLE (R598). The temperature sensors are read every 50 µs, and the thermal limit actions start or step. -/
  | sensorSample (temps : List (BitVec 16))
  /-- LIMIT_ACTION_END (R433). A limit condition has been clear for its hold time, and the array clock is restored. -/
  | limitActionEnd (row : BitVec 3)
  /-- CORE_CURRENT_LIMIT (R433). Core current above 460 A for 20 µs sets the array clock to 150 MHz. -/
  | coreCurrentLimit (amps : BitVec 16)
  /-- CORE_VOLTAGE_LIMIT (R433). The measured core voltage out of range for 5 µs sets the array clock to 150 MHz. -/
  | coreVoltageLimit (mv : BitVec 16)
  /-- AVS_STEP (R555). The power firmware moves the VDD_CORE request by one 5 mV step. -/
  | avsStep (up : Bool)
  /-- POWER_BUDGET_TIMER (R556). Power over or under budget for its hold time makes the firmware request a throttle step. -/
  | powerBudgetTimer (watts : BitVec 16)
  /-- LOG_ENTRY_WRITE (R436). The dispatch firmware writes a log ring entry for an event or message. -/
  | logEntryWrite
  /-- EVENT_ENTRY_WRITE (R416). An event entry, with any continuations, is written into the event ring. -/
  | eventEntryWrite
  /-- TRACE_ENTRY_WRITE (R438). The trace queue writes an entry into the trace ring. -/
  | traceEntryWrite
  /-- FW_MOLT_REQ (R441). A Molt request is checked and starts staging, or is refused. -/
  | fwMoltReq
  /-- MOLT_STAGING_END (R442). Staging into the inactive bank ends, and verification begins. -/
  | moltStagingEnd
  /-- MOLT_VERIFY_END (R442). Verification ends with READY, or IDLE with result 4. -/
  | moltVerifyEnd (r1 : Bool) (s1 : Bool) (r2 : Bool) (s2 : Bool)
  /-- MOLT_HANDOVER_START (R443). With no long command in progress, the handover runs quiesce, record, switch and check. -/
  | moltHandoverStart (checkOk : Bool)
  /-- FW_MOLT_COMMIT (R444). The commit write makes the staged bank active, or is refused and aborts the Molt. -/
  | fwMoltCommit (host : Bool)
  /-- FW_MOLT_ABORT (R445). A write of FW_MOLT_CTRL.ABORT aborts a Molt before its commit point. -/
  | fwMoltAbort
  /-- MOLT_READY_TIMEOUT (R445). READY lasts longer than TMO, and the Molt aborts. -/
  | moltReadyTimeout
  /-- FW_CLR_CNT (R450). FW_CTRL.CLR_CNT clears the watchdog and trace drop counters and the FW_FAULT capture. -/
  | fwClrCnt
  /-- ERROR_LINE_LATCH (R461). An asserted error line is latched with its code and unit, and the first event of its domain is captured. -/
  | errorLineLatch
  /-- ERROR_LINE_RAIL_FAULT (R461). A line's rails are not complementary for 2 cycles, and 0x9006 is raised. -/
  | errorLineRailFault (line : BitVec 8)
  /-- COLLECTOR_REACTION (R463). Within 8 Carapace cycles of a latch, the collector takes the event's reaction from the table. -/
  | collectorReaction
  /-- STOP_ALIVE_DELAY_EXPIRY (R472). 1 ms after a stop-class latch, the full restart begins. -/
  | stopAliveDelayExpiry
  /-- ALIVE_TOGGLE (R472). Every 250 µs of a running, healthy device, ALIVE changes level. -/
  | aliveToggle
  /-- LOCKSTEP_MISMATCH (R452). The comparator finds a difference between the copies and raises line 177 with 0x9001. -/
  | lockstepMismatch
  /-- COMPARATOR_TEST (R453). Every 100 ms one compared bit is inverted, and a miss raises 0x9005. -/
  | comparatorTest (flagged : Bool)
  /-- LINE_PATH_TEST (R462). Every 100 ms each error line path is tested through its shadow latch. -/
  | linePathTest (bad : Option (BitVec 8))
  /-- CARAPACE_SRAM_SCRUB (R454). The Carapace SRAM scrub corrects a word with 0x9003, or raises 0x9004. -/
  | carapaceSramScrub (errs : BitVec 2)
  /-- CARAPACE_WDT_EXPIRY (R455). An early or missing kick of the Carapace watchdog raises 0x9002. -/
  | carapaceWdtExpiry
  /-- CLOCK_MONITOR_CHECK (R456). Every 10 µs the clocks are measured, and a deviation above 1 % raises 0x9007. -/
  | clockMonitorCheck (ppm : BitVec 32)
  /-- DEBUG_ACTION (R459). A debugger action on the main copy is applied to the checker copy 2 cycles later. -/
  | debugAction (act : BitVec 3)
  /-- MGMT_DATAGRAM_SEND (R483). 1 ms after the first queued record, or at 32 records, a management datagram is sent. -/
  | mgmtDatagramSend
  /-- MGMT_FRAME_RECEIVE (R482). A frame received on the management port is discarded. -/
  | mgmtFrameReceive (frame : List Byte)
  /-- MGMT_LINK_CHANGE (R489). The management PHY link changes, and 0x9040 is raised. -/
  | mgmtLinkChange (up : Bool)
  /-- SMBUS_READ_STATUS (R485). SMBus Block Read 0x01 returns SAF_STATUS. -/
  | smbusReadStatus
  /-- SMBUS_READ_LINES (R485). SMBus Block Read 0x02 returns FCL_STATUS0 to FCL_STATUS7. -/
  | smbusReadLines
  /-- SMBUS_READ_TLOG (R485). SMBus Block Read 0x03 returns the newest long trouble log record. -/
  | smbusReadTlog
  /-- SMBUS_OTHER_COMMAND (R485). Any other SMBus command is refused with a NACK. -/
  | smbusOtherCommand (cmd : BitVec 8)
  /-- SAF_CLR_CNT (R490). SAF_CTRL.CLR_CNT clears the Carapace counters and every SAF_WIN_CNT. -/
  | safClrCnt
  /-- FCL_CLR_CNT (R491). FCL_CTRL.CLR_CNT clears the reaction counters and the first-event captures. -/
  | fclClrCnt
  /-- SEC_ATTEST (R535). Operation 1 starts forming and signing an attestation report. -/
  | secAttest
  /-- ATTEST_REPORT_DONE (R536). The signed attestation report has been written. -/
  | attestReportDone (sig : List Byte)
  /-- SEC_ENROL (R526). Operation 2 verifies an enrolment object and burns OWNER_ROOT, or refuses it. -/
  | secEnrol
  /-- SEC_DEBUG_CHALLENGE (R538). Operation 3 writes a fresh debug challenge. -/
  | secDebugChallenge
  /-- SEC_DEBUG_UNLOCK (R538). Operation 4 verifies a debug token and unlocks debug, or raises 0xA012. -/
  | secDebugUnlock
  /-- DEBUG_CHALLENGE_EXPIRY (R538). A debug challenge expires 60 s after it was issued. -/
  | debugChallengeExpiry
  /-- OBJECT_VERIFY_END (R530). The security core finishes verifying a signed object, accepting it or failing it with a code. -/
  | objectVerifyEnd (r1 : Bool) (s1 : Bool) (r2 : Bool) (s2 : Bool)
  /-- ID_RSA_READY (R534). The RSA identity key pair is derived, and ID_RSA is set. -/
  | idRsaReady
  /-- ID_READY (R534). The SLH-DSA identity key pair is derived, and ID_READY is set. -/
  | idReady
  /-- SEC_CLR_CNT (R551). SEC_CTRL.CLR_CNT clears SEC_VERIFY. -/
  | secClrCnt
  /-- MAILBOX_RECORD (R541). A record takes the next MSEQ into the Cocoon mailbox, or is dropped with 0xB001. -/
  | mailboxRecord
  /-- CHAIN_APPEND (R543). The Cocoon appends a record to the hash chain in flash and closes the epoch when due. -/
  | chainAppend (time : BitVec 64) (full : Bool)
  /-- EPOCH_TIMER (R545). 300 s after an epoch's first entry, the epoch closes. -/
  | epochTimer
  /-- SEAL_DONE (R545). A seal is signed and written, or retried and raised as 0xB030. -/
  | sealDone (ok : Bool) (time : BitVec 64) (sig : List Byte)
  /-- COCOON_RESUME (R544). After a Cocoon reset or power loss, the chain resumes from the last valid entry. -/
  | cocoonResume (powerLoss : Bool) (torn : BitVec 8) (time : BitVec 64)
  /-- COCOON_WDT_EXPIRY (R548). The Cocoon watchdog expires, and the core resets with 0xB010. -/
  | cocoonWdtExpiry
  /-- COCOON_POWER_FAIL (R550). COC_STATUS.POWER_OK falls, and main-die records are dropped with 0xB011. -/
  | cocoonPowerFail
  /-- COC_EXPORT (R546). COC_CTRL.EXPORT starts the export of a sealed epoch, or refuses it. -/
  | cocExport
  /-- COC_EXPORT_DONE (R546). The epoch's entries and seal have been written, and STATE reads done. -/
  | cocExportDone
  /-- COC_UPD_START (R547). COC_CTRL.UPD_START starts a recorder firmware update. -/
  | cocUpdStart
  /-- UPDATE_CHUNK_SEND (R547). Dispatch core 2 passes an update chunk into the mailbox while 16 records are free. -/
  | updateChunkSend
  /-- COC_CLR_CNT (R552). COC_CTRL.CLR_CNT clears COC_ERR. -/
  | cocClrCnt
  /-- PERSISTENT_WRITE (R572). A queued persistent word write becomes durable, or is refused at the endurance limit. -/
  | persistentWrite
  /-- LIFETIME_COUNTER_FLUSH (R577). A risen lifetime counter is written after 60 s, or at the beginning of a restart. -/
  | lifetimeCounterFlush (idx : BitVec 4)
  /-- POWERED_HOUR (R575). Each completed hour of VDD_AON time increments the powered-hours word. -/
  | poweredHour
  /-- PWR_CLR_CNT (R579). PWR_CTRL.CLR_CNT clears PWR_CURR.PEAK and PWR_ACT_CNT. -/
  | pwrClrCnt
  /-- PRS_CLR_CNT (R580). PRS_CTRL.CLR_CNT clears PRS_STATUS.REFUSED and UNCORR. -/
  | prsClrCnt
  /-- ILLEGAL_INSTRUCTION (R147). A word with opcode 0x00, a reserved opcode, the all-zero value or a non-zero unused field reaches issue and halts the tile with cause 0x01 or 0x02. -/
  | illegalInstruction (t : BitVec 11) (word : BitVec 32)
  /-- FEEDER_CYCLE (R134). In each array cycle the feeder steps its activity level every 16 cycles, then accepts a real beat, accepts a ballast beat or leaves a bubble, and forms the beat's residues. -/
  | feederCycle (t : BitVec 11)
  /-- CARAPACE_WDT_KICK (R455). The Carapace lockstep pair kicks its window watchdog, which restarts the 50 µs to 1 ms window. -/
  | carapaceWdtKick
  /-- INTERNAL_KICK_REGISTER (R430). The security core or the power manager core writes its internal kick register, which restarts its watchdog window or counts an early kick as an expiry. -/
  | internalKickRegister (sec : Bool)
  /-- GPTP_EVENT_TRANSMIT (R321). The dispatch firmware sends a gPTP peer-delay event message on the gPTP MAC, and the MAC timestamps it with TX_NS added. -/
  | gptpEventTransmit
  /-- RECORDER_UPDATE_VERIFY (R547). The Cocoon ends its verification of a staged recorder image, which is then held for the next epoch boundary or refused with 0xB020. -/
  | recorderUpdateVerify (r1 : Bool) (s1 : Bool) (r2 : Bool) (s2 : Bool)
  deriving DecidableEq, Repr

end Sys2Proof
end

