-- ==== Sys2Proof/Decode.lean ====
section
/-! DEFINITION. The words of the tile instruction set (R145 to R148): which words are instructions, and the command that issues the
instruction a word stands for. spec/opcode_table.json gives no bits to its rows, so no word spells a command by the table's bits. -/
namespace Sys2Proof

/-- A format code that R93 reserves. -/
def fmtReserved (f : Nat) : Bool := f == 7 || decide (0x14 ≤ f)

/-- A vector word: its fn field (bits 8:0) is at most `m`, and of va, vb, vc only the first `n` are used. -/
def vLegal (w n m : Nat) : Bool :=
  decide (bitsOf w 8 0 ≤ m) && (n == 3 || bitsOf w 12 9 == 0) && (decide (2 ≤ n) || bitsOf w 16 13 == 0)

/-- The word is an instruction of R148 with no field that R147 rejects. -/
def legalWord (w : Nat) : Bool :=
  let op := w / 2 ^ 25 % 128
  if 0x01 ≤ op ∧ op ≤ 0x0F then bitsOf w 9 0 == 0
  else if (0x10 ≤ op ∧ op ≤ 0x18) ∨ (0x20 ≤ op ∧ op ≤ 0x27) ∨ (0x30 ≤ op ∧ op ≤ 0x37) then true
  else if op = 0x38 then bitsOf w 24 23 != 3 && bitsOf w 22 20 == 0 && bitsOf w 14 12 == 0 && bitsOf w 11 0 != 0
  else if op = 0x39 then bitsOf w 24 23 != 3 && bitsOf w 22 12 != 0 && bitsOf w 11 0 != 0
  else if op = 0x3A then bitsOf w 19 15 == 0 && decide (bitsOf w 14 0 ≤ 2)
  else if op = 0x3B then bitsOf w 19 15 == 0 && decide (bitsOf w 14 0 ≤ 7)
  else if op = 0x3C then bitsOf w 24 7 == 0
  else if op = 0x3D then bitsOf w 24 0 == 0
  else if (0x40 ≤ op ∧ op ≤ 0x4C) ∨ (0x4E ≤ op ∧ op ≤ 0x50) ∨ (0x52 ≤ op ∧ op ≤ 0x54) ∨ op = 0x5A then vLegal w 2 0
  else if op = 0x4D ∨ op = 0x51 then vLegal w 3 0
  else if op = 0x55 then vLegal w 1 13
  else if op = 0x56 then vLegal w 1 2
  else if op = 0x57 then vLegal w 1 3
  else if op = 0x59 then vLegal w 1 5
  else if op = 0x58 then decide (bitsOf w 24 21 ≤ 3) && bitsOf w 20 19 == 0 && bitsOf w 13 13 == 0
  else if op = 0x5B ∨ op = 0x5C then bitsOf w 20 17 == 0 && bitsOf w 11 0 == 0
  else if op = 0x5D then bitsOf w 24 21 == 0 && bitsOf w 11 7 == 0 && decide (bitsOf w 6 0 < 64)
  else if op = 0x5E then decide (bitsOf w 6 0 < 4)
  else if op = 0x5F then bitsOf w 11 0 == 0
  else if op = 0x60 then bitsOf w 20 19 != 3 && (bitsOf w 20 19 != 0 || bitsOf w 13 13 == 0)
  else if op = 0x61 then bitsOf w 20 19 != 3 && bitsOf w 13 13 == 0
  else if op = 0x68 then bitsOf w 1 0 == 0 && !fmtReserved (bitsOf w 8 4)
  else if op = 0x69 then decide (bitsOf w 8 6 ≤ 5) && !fmtReserved (bitsOf w 4 0)
  else if op = 0x6A then bitsOf w 7 5 == 0
  else if op = 0x6B ∨ op = 0x72 then bitsOf w 24 0 == 0
  else if op = 0x70 ∨ op = 0x7A then bitsOf w 19 0 == 0
  else if op = 0x71 then true
  else if op = 0x74 ∨ (0x76 ≤ op ∧ op ≤ 0x79) then bitsOf w 14 0 == 0
  else if op = 0x75 then bitsOf w 19 10 == 0
  else false

/-- The instruction of a legal word, as the command that issues it on tile `t`: bits 31:25 choose the instruction, and its format
gives the fields (R145, R148). -/
def tileInstr (t : BitVec 11) (w : BitVec 32) : Option Instr :=
  match (w.extractLsb' 25 7).toNat with
  | 0x01 => some (.add t (w.extractLsb' 20 5) (w.extractLsb' 15 5) (w.extractLsb' 10 5))
  | 0x02 => some (.sub t (w.extractLsb' 20 5) (w.extractLsb' 15 5) (w.extractLsb' 10 5))
  | 0x03 => some (.andR t (w.extractLsb' 20 5) (w.extractLsb' 15 5) (w.extractLsb' 10 5))
  | 0x04 => some (.orR t (w.extractLsb' 20 5) (w.extractLsb' 15 5) (w.extractLsb' 10 5))
  | 0x05 => some (.xor t (w.extractLsb' 20 5) (w.extractLsb' 15 5) (w.extractLsb' 10 5))
  | 0x06 => some (.sll t (w.extractLsb' 20 5) (w.extractLsb' 15 5) (w.extractLsb' 10 5))
  | 0x07 => some (.srl t (w.extractLsb' 20 5) (w.extractLsb' 15 5) (w.extractLsb' 10 5))
  | 0x08 => some (.sra t (w.extractLsb' 20 5) (w.extractLsb' 15 5) (w.extractLsb' 10 5))
  | 0x09 => some (.slt t (w.extractLsb' 20 5) (w.extractLsb' 15 5) (w.extractLsb' 10 5))
  | 0x0A => some (.sltu t (w.extractLsb' 20 5) (w.extractLsb' 15 5) (w.extractLsb' 10 5))
  | 0x0B => some (.min t (w.extractLsb' 20 5) (w.extractLsb' 15 5) (w.extractLsb' 10 5))
  | 0x0C => some (.max t (w.extractLsb' 20 5) (w.extractLsb' 15 5) (w.extractLsb' 10 5))
  | 0x0D => some (.mul t (w.extractLsb' 20 5) (w.extractLsb' 15 5) (w.extractLsb' 10 5))
  | 0x0E => some (.mulh t (w.extractLsb' 20 5) (w.extractLsb' 15 5) (w.extractLsb' 10 5))
  | 0x0F => some (.mulhu t (w.extractLsb' 20 5) (w.extractLsb' 15 5) (w.extractLsb' 10 5))
  | 0x10 => some (.addi t (w.extractLsb' 20 5) (w.extractLsb' 15 5) (w.extractLsb' 0 15))
  | 0x11 => some (.andi t (w.extractLsb' 20 5) (w.extractLsb' 15 5) (w.extractLsb' 0 15))
  | 0x12 => some (.ori t (w.extractLsb' 20 5) (w.extractLsb' 15 5) (w.extractLsb' 0 15))
  | 0x13 => some (.xori t (w.extractLsb' 20 5) (w.extractLsb' 15 5) (w.extractLsb' 0 15))
  | 0x14 => some (.slli t (w.extractLsb' 20 5) (w.extractLsb' 15 5) (w.extractLsb' 0 15))
  | 0x15 => some (.srli t (w.extractLsb' 20 5) (w.extractLsb' 15 5) (w.extractLsb' 0 15))
  | 0x16 => some (.srai t (w.extractLsb' 20 5) (w.extractLsb' 15 5) (w.extractLsb' 0 15))
  | 0x17 => some (.slti t (w.extractLsb' 20 5) (w.extractLsb' 15 5) (w.extractLsb' 0 15))
  | 0x18 => some (.lui t (w.extractLsb' 20 5) (w.extractLsb' 0 20))
  | 0x20 => some (.lw t (w.extractLsb' 20 5) (w.extractLsb' 15 5) (w.extractLsb' 0 15))
  | 0x21 => some (.lh t (w.extractLsb' 20 5) (w.extractLsb' 15 5) (w.extractLsb' 0 15))
  | 0x22 => some (.lhu t (w.extractLsb' 20 5) (w.extractLsb' 15 5) (w.extractLsb' 0 15))
  | 0x23 => some (.lb t (w.extractLsb' 20 5) (w.extractLsb' 15 5) (w.extractLsb' 0 15))
  | 0x24 => some (.lbu t (w.extractLsb' 20 5) (w.extractLsb' 15 5) (w.extractLsb' 0 15))
  | 0x25 => some (.sw t (w.extractLsb' 20 5) (w.extractLsb' 15 5) (w.extractLsb' 0 15))
  | 0x26 => some (.sh t (w.extractLsb' 20 5) (w.extractLsb' 15 5) (w.extractLsb' 0 15))
  | 0x27 => some (.sb t (w.extractLsb' 20 5) (w.extractLsb' 15 5) (w.extractLsb' 0 15))
  | 0x30 => some (.beq t (w.extractLsb' 20 5) (w.extractLsb' 15 5) (w.extractLsb' 0 15))
  | 0x31 => some (.bne t (w.extractLsb' 20 5) (w.extractLsb' 15 5) (w.extractLsb' 0 15))
  | 0x32 => some (.blt t (w.extractLsb' 20 5) (w.extractLsb' 15 5) (w.extractLsb' 0 15))
  | 0x33 => some (.bge t (w.extractLsb' 20 5) (w.extractLsb' 15 5) (w.extractLsb' 0 15))
  | 0x34 => some (.bltu t (w.extractLsb' 20 5) (w.extractLsb' 15 5) (w.extractLsb' 0 15))
  | 0x35 => some (.bgeu t (w.extractLsb' 20 5) (w.extractLsb' 15 5) (w.extractLsb' 0 15))
  | 0x36 => some (.jal t (w.extractLsb' 20 5) (w.extractLsb' 0 20))
  | 0x37 => some (.jalr t (w.extractLsb' 20 5) (w.extractLsb' 15 5) (w.extractLsb' 0 15))
  | 0x38 => some (.loop t (w.extractLsb' 23 2) (w.extractLsb' 15 5) (w.extractLsb' 0 12))
  | 0x39 => some (.loopi t (w.extractLsb' 23 2) (w.extractLsb' 12 11) (w.extractLsb' 0 12))
  | 0x3A => some (.rdlc t (w.extractLsb' 20 5) (w.extractLsb' 0 15))
  | 0x3B => some (.csrr t (w.extractLsb' 20 5) (w.extractLsb' 0 15))
  | 0x3C => some (.trap t (w.extractLsb' 0 15))
  | 0x3D => some (.endProg t)
  | 0x40 => some (.vadd t (w.extractLsb' 21 4) (w.extractLsb' 17 4) (w.extractLsb' 13 4))
  | 0x41 => some (.vsub t (w.extractLsb' 21 4) (w.extractLsb' 17 4) (w.extractLsb' 13 4))
  | 0x42 => some (.vmul t (w.extractLsb' 21 4) (w.extractLsb' 17 4) (w.extractLsb' 13 4))
  | 0x43 => some (.vand t (w.extractLsb' 21 4) (w.extractLsb' 17 4) (w.extractLsb' 13 4))
  | 0x44 => some (.vor t (w.extractLsb' 21 4) (w.extractLsb' 17 4) (w.extractLsb' 13 4))
  | 0x45 => some (.vxor t (w.extractLsb' 21 4) (w.extractLsb' 17 4) (w.extractLsb' 13 4))
  | 0x46 => some (.vsll t (w.extractLsb' 21 4) (w.extractLsb' 17 4) (w.extractLsb' 13 4))
  | 0x47 => some (.vsrl t (w.extractLsb' 21 4) (w.extractLsb' 17 4) (w.extractLsb' 13 4))
  | 0x48 => some (.vsra t (w.extractLsb' 21 4) (w.extractLsb' 17 4) (w.extractLsb' 13 4))
  | 0x49 => some (.vmin t (w.extractLsb' 21 4) (w.extractLsb' 17 4) (w.extractLsb' 13 4))
  | 0x4A => some (.vmax t (w.extractLsb' 21 4) (w.extractLsb' 17 4) (w.extractLsb' 13 4))
  | 0x4B => some (.vclt t (w.extractLsb' 21 4) (w.extractLsb' 17 4) (w.extractLsb' 13 4))
  | 0x4C => some (.vceq t (w.extractLsb' 21 4) (w.extractLsb' 17 4) (w.extractLsb' 13 4))
  | 0x4D => some (.vsel t (w.extractLsb' 21 4) (w.extractLsb' 17 4) (w.extractLsb' 13 4) (w.extractLsb' 9 4))
  | 0x4E => some (.vfadd t (w.extractLsb' 21 4) (w.extractLsb' 17 4) (w.extractLsb' 13 4))
  | 0x4F => some (.vfsub t (w.extractLsb' 21 4) (w.extractLsb' 17 4) (w.extractLsb' 13 4))
  | 0x50 => some (.vfmul t (w.extractLsb' 21 4) (w.extractLsb' 17 4) (w.extractLsb' 13 4))
  | 0x51 => some (.vfma t (w.extractLsb' 21 4) (w.extractLsb' 17 4) (w.extractLsb' 13 4) (w.extractLsb' 9 4))
  | 0x52 => some (.vfmin t (w.extractLsb' 21 4) (w.extractLsb' 17 4) (w.extractLsb' 13 4))
  | 0x53 => some (.vfmax t (w.extractLsb' 21 4) (w.extractLsb' 17 4) (w.extractLsb' 13 4))
  | 0x54 => some (.vfclt t (w.extractLsb' 21 4) (w.extractLsb' 17 4) (w.extractLsb' 13 4))
  | 0x55 => some (.vcvt t (w.extractLsb' 21 4) (w.extractLsb' 17 4) (w.extractLsb' 0 9))
  | 0x56 => some (.vsfu t (w.extractLsb' 21 4) (w.extractLsb' 17 4) (w.extractLsb' 0 9))
  | 0x57 => some (.vlut t (w.extractLsb' 21 4) (w.extractLsb' 17 4) (w.extractLsb' 0 9))
  | 0x58 => some (.vtld t (w.extractLsb' 21 4) (w.extractLsb' 14 5) (w.extractLsb' 0 13))
  | 0x59 => some (.vred t (w.extractLsb' 21 4) (w.extractLsb' 17 4) (w.extractLsb' 0 9))
  | 0x5A => some (.vperm t (w.extractLsb' 21 4) (w.extractLsb' 17 4) (w.extractLsb' 13 4))
  | 0x5B => some (.vbcst t (w.extractLsb' 21 4) (w.extractLsb' 12 5))
  | 0x5C => some (.vidx t (w.extractLsb' 21 4) (w.extractLsb' 12 5))
  | 0x5D => some (.vmovs t (w.extractLsb' 12 5) (w.extractLsb' 17 4) (w.extractLsb' 0 7))
  | 0x5E => some (.vrng t (w.extractLsb' 21 4) (w.extractLsb' 17 4) (w.extractLsb' 12 5) (w.extractLsb' 7 5) (w.extractLsb' 0 7))
  | 0x5F => some (.vgth t (w.extractLsb' 21 4) (w.extractLsb' 17 4) (w.extractLsb' 12 5))
  | 0x60 => some (.vld t (w.extractLsb' 21 4) (w.extractLsb' 19 2) (w.extractLsb' 14 5) (w.getLsbD 13) (w.extractLsb' 0 13))
  | 0x61 => some (.vst t (w.extractLsb' 21 4) (w.extractLsb' 19 2) (w.extractLsb' 14 5) (w.extractLsb' 0 13))
  | 0x68 => some (.wld t (w.extractLsb' 20 5) (w.extractLsb' 15 5) (w.extractLsb' 10 5) (w.extractLsb' 0 10))
  | 0x69 => some (.astr t (w.extractLsb' 20 5) (w.extractLsb' 15 5) (w.extractLsb' 10 5) (w.extractLsb' 0 10))
  | 0x6A => some (.adrn t (w.extractLsb' 20 5) (w.extractLsb' 15 5) (w.extractLsb' 10 5) (w.extractLsb' 0 10))
  | 0x6B => some (.afence t)
  | 0x70 => some (.dma t (w.extractLsb' 20 5))
  | 0x71 => some (.msg t (w.extractLsb' 20 5) (w.extractLsb' 15 5) (w.extractLsb' 10 5) (w.extractLsb' 0 10))
  | 0x72 => some (.mfence t)
  | 0x74 => some (.sadd t (w.extractLsb' 20 5) (w.extractLsb' 15 5))
  | 0x75 => some (.saddi t (w.extractLsb' 20 5) (w.extractLsb' 0 10))
  | 0x76 => some (.swait t (w.extractLsb' 20 5) (w.extractLsb' 15 5))
  | 0x77 => some (.sarv t (w.extractLsb' 20 5) (w.extractLsb' 15 5))
  | 0x78 => some (.sbwait t (w.extractLsb' 20 5) (w.extractLsb' 15 5))
  | 0x79 => some (.srd t (w.extractLsb' 20 5) (w.extractLsb' 15 5))
  | 0x7A => some (.srst t (w.extractLsb' 20 5))
  | _ => none

/-- The instruction that a word is on tile `t`; none for a word that R147 rejects. -/
def decodeTile (t : BitVec 11) (w : BitVec 32) : Option Instr := if legalWord w.toNat then tileInstr t w else none

/-- The command a word spells by the table's bits. The table gives bits to no row (log entry 7). -/
def decodeTableWord (_nbits _w : Nat) : Option Instr := none

end Sys2Proof
end

