-- ==== Sys2Proof/Machine/Numeric.lean ====
section
/-! DEFINITION. Numbers: FP32 and the narrow floating formats, the special functions of the vector unit, element decoding,
block-integer conversion and the counter generator (chapter 07 and R155). Every value is exact until it is rounded once. -/
namespace Sys2Proof.Machine

/-! Rounding. -/

/-- Number of bits of a natural number. -/
def bitLen (n : Nat) : Nat := if n = 0 then 0 else Nat.log2 n + 1

/-- `m / 2^k` to nearest, ties to even. -/
def rneShift (m k : Nat) : Nat :=
  if k = 0 then m else
    let d := m / 2 ^ k; let r := m % 2 ^ k; let h := 2 ^ (k - 1)
    if r > h ∨ (r = h ∧ d % 2 = 1) then d + 1 else d

/-- The encoding, without sign and without an upper bound, of `m * 2^q` in a binary format with `f` fraction bits and bias
`bias`: nearest, ties to even, subnormals kept. -/
def roundMag (f bias m : Nat) (q : Int) : Nat :=
  if m = 0 then 0 else
    let qmin : Int := 1 - (bias : Int) - f
    let qq := max (q + bitLen m - (f + 1)) qmin
    let sig := if q ≥ qq then m * 2 ^ (q - qq).toNat else rneShift m (qq - q).toNat
    (qq - qmin).toNat * 2 ^ f + sig

/-! FP32 as 32-bit numbers (R155). -/

def fNan : Nat := 0x7fc00000
def fInf : Nat := 0x7f800000
def fNegZero : Nat := 0x80000000
def fOne : Nat := 0x3f800000
def fSign (x : Nat) : Bool := x / 2 ^ 31 % 2 == 1
def fMag (x : Nat) : Nat := x % 2 ^ 31
def fNeg (x : Nat) : Nat := if fSign x then fMag x else x + 2 ^ 31
def fIsNan (x : Nat) : Bool := decide (fMag x > fInf)
def fIsInf (x : Nat) : Bool := fMag x == fInf
def fIsZero (x : Nat) : Bool := fMag x == 0
/-- Set the sign bit. -/
def withSign (s : Bool) (m : Nat) : Nat := if s then m + 2 ^ 31 else m

/-- Significand of a finite FP32 value. -/
def fSig (x : Nat) : Nat := if fMag x < 2 ^ 23 then fMag x else fMag x % 2 ^ 23 + 2 ^ 23
/-- Exponent of a finite FP32 value: the value is `fSig * 2^fExp`. -/
def fExp (x : Nat) : Int := if fMag x < 2 ^ 23 then -149 else ((fMag x / 2 ^ 23 : Nat) : Int) - 150
/-- Signed significand. -/
def fInt (x : Nat) : Int := if fSign x then -(fSig x : Int) else (fSig x : Int)

/-- FP32 of the exact value `m * 2^q`: nearest, ties to even, infinity beyond the largest finite value; zero takes sign `z`. -/
def fRound (m : Int) (q : Int) (z : Bool) : Nat :=
  if m = 0 then withSign z 0 else
    withSign (decide (m < 0)) (min (roundMag 23 127 m.natAbs q) fInf)

/-- `a * b + c` rounded once (R155). -/
def fFma (a b c : Nat) : Nat :=
  if fIsNan a || fIsNan b || fIsNan c then fNan
  else
    let ps := fSign a != fSign b
    if fIsInf a || fIsInf b then
      if fIsZero a || fIsZero b then fNan
      else if fIsInf c && fSign c != ps then fNan
      else withSign ps fInf
    else if fIsInf c then c
    else
      let pm := fInt a * fInt b
      let pq := fExp a + fExp b
      let q := min pq (fExp c)
      let m := pm * 2 ^ (pq - q).toNat + fInt c * 2 ^ (fExp c - q).toNat
      fRound m q (ps && fSign c)

def fAdd (a b : Nat) : Nat := fFma a fOne b
def fSub (a b : Nat) : Nat := fFma a fOne (fNeg b)
def fMul (a b : Nat) : Nat := fFma a b fNegZero

/-- A key that orders non-NaN FP32 values, with -0 below +0. -/
def fKey (x : Nat) : Int := if fSign x then -(fMag x : Int) - 1 else (fMag x : Int)
/-- FP32 minimumNumber (R155). -/
def fMin (a b : Nat) : Nat :=
  if fIsNan a then (if fIsNan b then fNan else b) else if fIsNan b then a else if fKey a ≤ fKey b then a else b
/-- FP32 maximumNumber (R155). -/
def fMax (a b : Nat) : Nat :=
  if fIsNan a then (if fIsNan b then fNan else b) else if fIsNan b then a else if fKey a ≤ fKey b then b else a
/-- `a < b`; false where unordered, and -0 equals +0 (R148). -/
def fLt (a b : Nat) : Bool :=
  !fIsNan a && !fIsNan b && !(fIsZero a && fIsZero b) && decide (fKey a < fKey b)

/-- Signed integer to FP32 (R155 fn 0). -/
def fOfInt (v : Int) : Nat := fRound v 0 false

/-- A 32-bit word of a saturated integer. -/
def satInt32 (v : Int) : Nat := twos 32 (max (-2147483648) (min 2147483647 v))

/-- The exact value of a finite FP32 number as an integer, truncated toward zero. -/
def fTrunc (x : Nat) : Int :=
  let m := if fExp x ≥ 0 then fSig x * 2 ^ (fExp x).toNat else fSig x / 2 ^ (-(fExp x)).toNat
  if fSign x then -(m : Int) else (m : Int)
/-- The nearest integer, ties to even. -/
def fNearest (x : Nat) : Int :=
  let m := if fExp x ≥ 0 then fSig x * 2 ^ (fExp x).toNat else rneShift (fSig x) (-(fExp x)).toNat
  if fSign x then -(m : Int) else (m : Int)
/-- The greatest integer not above a finite value. -/
def fFloor (x : Nat) : Int :=
  if fExp x ≥ 0 then fInt x * 2 ^ (fExp x).toNat else fInt x / 2 ^ (-(fExp x)).toNat

/-- FP32 to INT32, saturating; NaN gives 0 (R155 fn 1 and 2). -/
def fToInt (conv : Nat → Int) (x : Nat) : Nat :=
  if fIsNan x then 0 else if fIsInf x then satInt32 (if fSign x then -(2 ^ 40) else 2 ^ 40) else satInt32 (conv x)

/-- FP32 to a narrow format of `w` bits: largest finite encoding `big`, NaN `nan` (R155 fn 3 to 6). -/
def fNarrow (f bias w big nan x : Nat) : Nat :=
  if fIsNan x then nan else
    let m := if fIsInf x then big else min (roundMag f bias (fSig x) (fExp x)) big
    if fSign x then m + 2 ^ (w - 1) else m

/-- A narrow IEEE-style value to FP32, exactly (R155 fn 7 to 10). `ieee` says that the top exponent holds infinity and NaN;
otherwise only the all-ones magnitude is a NaN. -/
def fWiden (f bias w : Nat) (ieee : Bool) (x : Nat) : Nat :=
  let s := x / 2 ^ (w - 1) % 2 == 1
  let m := x % 2 ^ (w - 1)
  let e := m / 2 ^ f
  let t := m % 2 ^ f
  let top := 2 ^ (w - 1 - f) - 1
  if ieee && e == top then (if t = 0 then withSign s fInf else fNan)
  else if !ieee && m == 2 ^ (w - 1) - 1 then fNan
  else
    let sig : Int := if e = 0 then t else t + 2 ^ f
    let q : Int := (if e = 0 then 1 else (e : Int)) - bias - f
    withSign s (fMag (fRound sig q false))

/-- Clamp a signed 32-bit lane and keep the low `w` bits (R155 fn 11 to 13). -/
def clampLane (lo hi : Int) (w x : Nat) : Nat := twos w (max lo (min hi (sext 32 x)))

/-- VCVT: the conversion that fn selects; nothing for a reserved fn (R155). -/
def vcvt (fn x : Nat) : Option Nat :=
  match fn with
  | 0 => some (fOfInt (sext 32 x))
  | 1 => some (fToInt fNearest x)
  | 2 => some (fToInt fTrunc x)
  | 3 => some (fNarrow 7 127 16 0x7f7f 0x7fc0 x)
  | 4 => some (fNarrow 10 15 16 0x7bff 0x7e00 x)
  | 5 => some (fNarrow 3 7 8 0x7e 0x7f x)
  | 6 => some (fNarrow 2 15 8 0x7b 0x7e x)
  | 7 => some (fWiden 7 127 16 true (x % 2 ^ 16))
  | 8 => some (fWiden 10 15 16 true (x % 2 ^ 16))
  | 9 => some (fWiden 3 7 8 false (x % 256))
  | 10 => some (fWiden 2 15 8 true (x % 256))
  | 11 => some (clampLane (-128) 127 8 x)
  | 12 => some (clampLane 0 255 8 x)
  | 13 => some (clampLane (-32768) 32767 16 x)
  | _ => none

/-! Special functions (R281 to R286). -/

/-- `x * 2^n` rounded once. -/
def fScale (x : Nat) (n : Int) : Nat :=
  if fIsNan x then fNan else if fIsInf x then x else fRound (fInt x) (fExp x + n) (fSign x)

/-- |x| of a finite non-zero value as m * 2^e with m in [0.5, 1): m encoded in FP32, and e. -/
def fFrexp (x : Nat) : Nat × Int :=
  let l := bitLen (fSig x)
  (fRound (fSig x) (-(l : Int)) false, fExp x + l)

/-- Reciprocal (R282). -/
def vrecip (x : Nat) : Nat :=
  if fIsNan x then fNan
  else if fIsZero x then withSign (fSign x) fInf
  else if fIsInf x then withSign (fSign x) 0
  else
    let (m, e) := fFrexp x
    let y0 := fFma m (fNeg 0x3ff0f0f1) 0x4034b4b5
    let stp (y : Nat) : Nat := fFma y (fFma (fNeg m) y fOne) y
    let y := fScale (stp (stp (stp y0))) (-e)
    if fSign x then fNeg y else y

/-- Exponential (R283). -/
def vexp (x : Nat) : Nat :=
  if fIsNan x then fNan
  else if fLt 0x43000000 x then fInf
  else if fLt x 0xc3160000 then 0
  else
    let n := fSub (fFma x 0x3fb8aa3b 0x4b400000) 0x4b400000
    let r := fFma (fNeg n) 0x3f317200 x
    let r := fFma (fNeg n) 0x35bfbe8e r
    let p := fFma 0x39500d01 r 0x3ab60b61
    let p := fFma p r 0x3c088889
    let p := fFma p r 0x3d2aaaab
    let p := fFma p r 0x3e2aaaab
    let p := fFma p r 0x3f000000
    let p := fFma p r fOne
    let p := fFma p r fOne
    fScale p (fTrunc n)

/-- Natural logarithm (R284). -/
def vlog (x : Nat) : Nat :=
  if fIsNan x then fNan
  else if fIsZero x then fNeg fInf
  else if fSign x then fNan
  else if fIsInf x then fInf
  else
    let (m0, e0) := fFrexp x
    let m := fScale m0 1
    let e := e0 - 1
    let big := fLt 0x3fb504f3 m
    let m := if big then fScale m (-1) else m
    let e := if big then e + 1 else e
    let g := fSub m fOne
    let s := fMul g (vrecip (fAdd g 0x40000000))
    let z := fMul s s
    let q := fFma 0x3de38e39 z 0x3e124925
    let q := fFma q z 0x3e4ccccd
    let q := fFma q z 0x3eaaaaab
    let h := fFma s (fMul z q) s
    let y := fFma (fOfInt e) 0x35bfbe8e (fAdd h h)
    fFma (fOfInt e) 0x3f317200 y

/-- VSFU: fn 0 exp, 1 log, 2 reciprocal; other fn values are reserved (R148). -/
def vsfu (fn x : Nat) : Option Nat :=
  match fn with
  | 0 => some (vexp x)
  | 1 => some (vlog x)
  | 2 => some (vrecip x)
  | _ => none

/-- VLUT through a table given as its word at a byte offset (R285, R286). -/
def vlut (tab : Nat → Nat) (x : Nat) : Nat :=
  if fIsNan x then fNan else
    let t := fMul (fSub x (tab 1016)) (tab 1020)
    let i : Nat :=
      if fIsNan t then 0
      else if fIsInf t then (if fSign t then 0 else 126)
      else (max 0 (min 126 (fFloor t))).toNat
    let a := tab (8 * i)
    let b := tab (8 * i + 4)
    if fIsInf x && fIsZero b then a else fFma b x a

/-! Element decoding and block-integer conversion (R272 to R277). -/

/-- A decoded element: its sign, significand and exponent, and whether it was substituted (R272, R274). -/
structure Elem where
  neg : Bool := false
  m : Nat := 0
  q : Int := 0
  sub : Bool := false
  deriving DecidableEq, Repr

/-- Decode a floating element with `f` fraction bits, bias `bias` and `w` bits. `inf` is the magnitude above which lie the
NaNs, and at which lies infinity where `hasInf`; `big` the largest finite magnitude (R272, R274). -/
def decFloat (f bias w big inf : Nat) (hasInf : Bool) (x : Nat) : Elem :=
  let s := x / 2 ^ (w - 1) % 2 == 1
  let m := x % 2 ^ (w - 1)
  let go (m : Nat) (sub : Bool) : Elem :=
    let e := m / 2 ^ f
    let t := m % 2 ^ f
    if e = 0 then { neg := s, m := t, q := 1 - (bias : Int) - f, sub := sub }
    else { neg := s, m := t + 2 ^ f, q := (e : Int) - bias - f, sub := sub }
  if m > inf then { sub := true }
  else if hasInf && m == inf then go big true
  else go m false

/-- Decode a raw element of a block-integer array format (codes of R93: 8 E4M3, 9 E5M2, 10 BF16, 11 FP16, 12 MXFP8 E4M3,
13 MXFP8 E5M2, 14 MXFP6 E2M3, 15 MXFP6 E3M2, 16 MXINT8; 6 MXFP4 and 5 MXINT4 for the narrow class). -/
def decElem (fmt x : Nat) : Elem :=
  match fmt with
  | 8 | 12 => decFloat 3 7 8 0x7e 0x7e false (x % 256)
  | 9 | 13 => decFloat 2 15 8 0x7b 0x7c true (x % 256)
  | 10 => decFloat 7 127 16 0x7f7f 0x7f80 true (x % 65536)
  | 11 => decFloat 10 15 16 0x7bff 0x7c00 true (x % 65536)
  | 14 => decFloat 3 1 6 31 31 false (x % 64)
  | 15 => decFloat 2 3 6 31 31 false (x % 64)
  | 6 => decFloat 1 1 4 7 7 false (x % 16)
  | 16 => let i := sext 8 x; { neg := decide (i < 0), m := i.natAbs, q := -6 }
  | 5 => let i := sext 4 x; { neg := decide (i < 0), m := i.natAbs, q := -2 }
  | _ => {}

/-- An MX element under its block's scale byte; a scale of 0xFF makes the element 0 (R273, R274). -/
def mxScale (x : Nat) (e : Elem) : Elem :=
  if x = 0xff then { sub := true } else { e with q := e.q + x - 127 }

/-- The shared exponent and the 16-bit significands of a chunk (R275). -/
def convertChunk (es : List Elem) : Int × List Int :=
  let nz := es.filter (fun e => e.m != 0)
  match nz with
  | [] => (0, es.map (fun _ => 0))
  | e :: r =>
    let lead (e : Elem) : Int := e.q + bitLen e.m
    let es0 := r.foldl (fun a e => max a (lead e)) (lead e) - 15
    (es0, es.map (fun e =>
      let d := e.q - es0
      let mag : Nat := if d ≥ 0 then e.m * 2 ^ d.toNat else e.m / 2 ^ (-d).toNat
      if e.neg then -(mag : Int) else (mag : Int)))

/-- The narrow class: a 5-bit integer and the block exponent (R277). `fmt` 6 MXFP4, 5 MXINT4; others pass unchanged. -/
def narrowExp (fmt x : Nat) : Int :=
  match fmt with
  | 6 => -1 + (x : Int) - 127
  | 5 => -2 + (x : Int) - 127
  | _ => 0
/-- The integer that a 4-bit element carries in the narrow class (R277). -/
def narrowInt (fmt x : Nat) : Int :=
  match fmt with
  | 3 | 5 => sext 4 x
  | 6 =>
    let e := decElem 6 x
    let m : Int := ((e.m * 2 ^ (e.q + 1).toNat : Nat) : Int)
    if e.neg then -m else m
  | _ => ((x % 16 : Nat) : Int)

/-! The counter generator (R290). -/

def w32 (v : Nat) : Nat := v % 2 ^ 32
def rotl32 (v n : Nat) : Nat := w32 (v * 2 ^ n) ||| (v / 2 ^ (32 - n))

/-- One round `j` of the generator. -/
def rngRound (k0 k1 : Nat) (x : Nat × Nat × Nat × Nat) (j : Nat) : Nat × Nat × Nat × Nat :=
  let (x0, x1, x2, x3) := x
  let x0 := w32 (x0 + x1); let x3 := rotl32 (x3 ^^^ x0) 16
  let x2 := w32 (x2 + x3); let x1 := rotl32 (x1 ^^^ x2) 12
  let x0 := w32 (x0 + x1); let x3 := rotl32 (x3 ^^^ x0) 8
  let x2 := w32 (x2 + x3); let x1 := rotl32 (x1 ^^^ x2) 20
  (w32 (x0 + if j % 2 = 0 then k0 else k1), x1, x2, w32 (x3 + j + 1))

/-- The four words of a generator block. -/
def rngBlock (seed stream ctr : Nat) : Nat × Nat × Nat × Nat :=
  (List.range 6).foldl (rngRound (w32 seed) (w32 (seed / 2 ^ 32)))
    (w32 ctr, w32 (ctr / 2 ^ 32), w32 stream, 0x9e3779b9)

/-- Word `n` of a generator block. -/
def rngWord (seed stream ctr n : Nat) : Nat :=
  let (a, b, c, d) := rngBlock seed stream ctr
  match n % 4 with
  | 0 => a
  | 1 => b
  | 2 => c
  | _ => d

end Sys2Proof.Machine
end

