-- ==== Sys2Proof/Machine/FMap.lean ====
section
/-! DEFINITION. Sparse maps in one canonical form: keys strictly rising, no entry equal to the default that an
unlisted key reads as. Memory, registers, tiles and every other numbered store of the block is one. -/
namespace Sys2Proof.Machine

/-- A sparse map from numbers: the pairs of key and value that differ from the default. -/
abbrev FMap (α : Type) := List (Nat × α)

/-- The value at key `k`; `d` where the key is not listed. -/
def FMap.get {α : Type} (d : α) : FMap α → Nat → α
  | [], _ => d
  | (j, v) :: r, k => if j = k then v else FMap.get d r k

/-- The map without key `k`. -/
def FMap.erase {α : Type} : FMap α → Nat → FMap α
  | [], _ => []
  | (j, v) :: r, k => if j = k then FMap.erase r k else (j, v) :: FMap.erase r k

/-- The map with the pair `(k, v)` placed before the first greater key. -/
def FMap.place {α : Type} : FMap α → Nat → α → FMap α
  | [], k, v => [(k, v)]
  | (j, w) :: r, k, v => if k < j then (k, v) :: (j, w) :: r else (j, w) :: FMap.place r k v

/-- The map that reads `v` at `k` and as before elsewhere; the default is never listed. -/
def FMap.set {α : Type} [DecidableEq α] (d : α) (m : FMap α) (k : Nat) (v : α) : FMap α :=
  if v = d then FMap.erase m k else FMap.place (FMap.erase m k) k v

/-- The map changed at one key by a function. -/
def FMap.upd {α : Type} [DecidableEq α] (d : α) (m : FMap α) (k : Nat) (f : α → α) : FMap α :=
  FMap.set d m k (f (FMap.get d m k))

/-- The map without the keys that satisfy `p`: those keys read as the default. -/
def FMap.clear {α : Type} (m : FMap α) (p : Nat → Bool) : FMap α :=
  m.filter (fun e => !p e.1)

/-- Every key of the list exceeds `k`, and the keys rise strictly. -/
def FMap.above {α : Type} (k : Nat) : FMap α → Bool
  | [] => true
  | (j, _) :: r => decide (k < j) && FMap.above j r

/-- The canonical form: keys strictly rising and no entry equal to the default. -/
def FMap.wf {α : Type} [DecidableEq α] (d : α) (m : FMap α) : Bool :=
  (match m with
   | [] => true
   | (j, _) :: r => FMap.above j r) && m.all (fun e => !decide (e.2 = d))

end Sys2Proof.Machine
end

