-- ==== Sys2Proof/Machine/State.lean ====
section
/-! DEFINITION. The state of the block: plain data, everything the spec gives it (INVENTORY.md lists each piece with its rule).
Registers are the fields of Machine/Regs.lean held in State.regs; the rest is grouped by chapter. -/
namespace Sys2Proof.Machine

/-- One active hardware loop of a tile (R152, R153). -/
structure LoopState where
  /-- counter number 0 to 2 (04 R152). -/
  lc : Nat := 0
  /-- byte address of the body's first instruction (04 R152). -/
  first : Nat := 0
  /-- byte address of the body's last instruction (04 R152). -/
  last : Nat := 0
  /-- trip count (04 R152). -/
  trips : Nat := 0
  deriving DecidableEq, Repr

/-- One weight bank of an array: its words and all that its weight load set (R90, R91). -/
structure Bank where
  /-- weight format code, 0 when unloaded (03 R91). -/
  fmt : Nat := 0
  /-- loaded for the distance class (03 R92). -/
  dist : Bool := false
  /-- dual-checked distance block (03 R126). -/
  dual : Bool := false
  /-- loaded since the last restart (03 R103). -/
  loaded : Bool := false
  /-- K mask (03 R106). -/
  kmask : BitVec 32 := 0#32
  /-- N mask (03 R106). -/
  nmask : BitVec 32 := 0#32
  /-- weight words, cell r*32+c (03 R90). -/
  words : FMap (BitVec 16) := []
  /-- shared exponent (or MX scale exponent) of each output column (07 R275). -/
  colExp : FMap Int := []
  /-- weight residue of each logical row, formed at load (14 R494). -/
  resid : FMap Nat := []
  deriving DecidableEq, Repr

/-- One array operation as its instruction issued it (R159). -/
structure ArrOp where
  /-- 0 WLD, 1 ASTR, 2 ADRN (04 R159). -/
  kind : Nat := 0
  /-- register operand a (04 R159). -/
  a : BitVec 32 := 0#32
  /-- register operand b (04 R159). -/
  b : BitVec 32 := 0#32
  /-- register operand c (04 R159). -/
  c : BitVec 32 := 0#32
  /-- ctl field (04 R159). -/
  ctl : BitVec 10 := 0#10
  /-- address of the issuing instruction (04 R176). -/
  pc : Nat := 0
  /-- ORDINAL: index among the part's ASTR and ADRN instructions since job start (14 R507). -/
  ord : Nat := 0
  deriving DecidableEq, Repr

/-- The stream that is accepting beats (R104, R134). -/
structure StreamOp where
  /-- activation source (04 R159). -/
  src : Nat := 0
  /-- stride (04 R159). -/
  stride : Nat := 0
  /-- vector count (04 R159). -/
  count : Nat := 0
  /-- MX scale address (04 R159). -/
  scale : Nat := 0
  /-- first accumulator row (04 R159). -/
  row : Nat := 0
  /-- bank (04 R159). -/
  bank : Nat := 0
  /-- operation code (03 R93). -/
  op : Nat := 0
  /-- ADD (true) or CLEAR (03 R115). -/
  add : Bool := false
  /-- activation format (03 R93). -/
  afmt : Nat := 0
  /-- next vector to accept (03 R134). -/
  next : Nat := 0
  /-- next beat of that vector (03 R94). -/
  beat : Nat := 0
  /-- address of the issuing instruction (04 R176). -/
  pc : Nat := 0
  /-- ORDINAL (14 R507). -/
  ord : Nat := 0
  deriving DecidableEq, Repr

/-- What the weight loader holds of one tile's block besides the rows it reads (R99): the column exponents, the MX scale bytes of a
narrow block, and the converted significands of a wide block, column after column. -/
structure LoadSide where
  /-- exponent of each output column (07 R275). -/
  exps : List Int := []
  /-- E8M0 scale bytes of a narrow MX block (03 R99). -/
  scales : List Nat := []
  /-- 16-bit significands of each column of a wide block (03 R99). -/
  sigs : List (List Int) := []
  deriving DecidableEq, Repr

/-- A weight load in progress (R98): one K row in each array cycle from L to L + 31 on each tile of the array. -/
structure LoadOp where
  /-- array cycle L at the issuing tile (03 R98). -/
  start : Nat := 0
  /-- bank (04 R159). -/
  bank : Nat := 0
  /-- weight format (03 R91). -/
  fmt : Nat := 0
  /-- distance class (03 R92). -/
  dist : Bool := false
  /-- dual-checked (03 R126). -/
  dual : Bool := false
  /-- block address in data memory (04 R159). -/
  src : Nat := 0
  /-- K mask and N mask of each tile of the array (03 R106, R129). -/
  masks : List (Nat × Nat) := []
  /-- what the loader has read ahead of the rows, by tile of the array (03 R99). -/
  side : FMap LoadSide := []
  /-- issuing instruction (04 R176). -/
  pc : Nat := 0
  deriving DecidableEq, Repr

/-- What the accumulate stage of one tile made of one vector, kept until its checker compares it (R495, R507). -/
structure TileSums where
  /-- chunk sums as the hardware produced them (14 R495). -/
  got : List Int := []
  /-- old accumulator row, or carry from the north (14 R507). -/
  carry : List Nat := []
  /-- result copy A: the value written (14 R507). -/
  res : List Nat := []
  /-- result copy B (14 R507). -/
  resB : List Nat := []
  /-- the shadow copies disagreed (14 R495). -/
  shadow : Bool := false
  /-- the checker has compared it (14 R494). -/
  compared : Bool := false
  deriving DecidableEq, Repr

/-- A vector between the feeder and the checker (R96, R97, R494). -/
structure InFlight where
  /-- array cycle of its first beat's acceptance (03 R96). -/
  first : Nat := 0
  /-- array cycle of its last beat's acceptance (03 R96). -/
  cyc : Nat := 0
  /-- its last beat has been accepted (03 R94). -/
  full : Bool := true
  /-- accumulator row (03 R96). -/
  row : Nat := 0
  /-- vector number in its stream (03 R96). -/
  vec : Nat := 0
  /-- bank number carried with the beat (03 R102). -/
  bank : Nat := 0
  /-- operation (03 R93). -/
  op : Nat := 0
  /-- ADD or CLEAR (03 R115). -/
  add : Bool := false
  /-- activation format (03 R93). -/
  afmt : Nat := 0
  /-- data-memory address of the vector (03 R94). -/
  src : Nat := 0
  /-- address of its MX scale byte (03 R94). -/
  scale : Nat := 0
  /-- weight format (03 R93). -/
  wfmt : Nat := 0
  /-- dual-checked (03 R126). -/
  dual : Bool := false
  /-- activation elements and exponent of each K chunk, in feeder order, as far as read (03 R96). -/
  chunks : List (List Int × Int) := []
  /-- the bank of each tile as the vector has met it: header and exponents at the tile's acceptance cycle, each weight word in the
  cycle in which the vector is in its cell (03 R96, R102). -/
  banks : FMap Bank := []
  /-- what the accumulate stage of each tile made of it (03 R97). -/
  acc : FMap (Option TileSums) := []
  /-- two copies have disagreed on it: nothing is written for it (03 R126, 14 R495). -/
  stop : Bool := false
  /-- issuing instruction (04 R176). -/
  pc : Nat := 0
  /-- ORDINAL (14 R507). -/
  ord : Nat := 0
  deriving DecidableEq, Repr

/-- A row that a drain has read and not yet written (R120). -/
structure DrainRow where
  /-- position of its tile among the draining tiles (03 R129). -/
  holder : Nat := 0
  /-- row of the drain (03 R120). -/
  row : Nat := 0
  /-- array cycle of its read (03 R120). -/
  cyc : Nat := 0
  /-- the accumulator values read (03 R120). -/
  vals : List Nat := []
  deriving DecidableEq, Repr

/-- What the lead feeder of a fused brood did in one array cycle, kept for the tiles that follow it (R130, R136). -/
structure FeedRec where
  /-- activity level (03 R134). -/
  level : Nat := 0
  /-- a real beat was accepted (03 R134). -/
  real : Bool := false
  /-- a ballast beat was accepted (03 R135). -/
  ballast : Bool := false
  /-- a stream was pending and no real beat of it accepted (03 R139). -/
  stall : Bool := false
  deriving DecidableEq, Repr

/-- The drain in progress (R120). -/
structure DrainOp where
  /-- destination (04 R159). -/
  dst : Nat := 0
  /-- row stride (04 R159). -/
  stride : Nat := 0
  /-- row count (04 R159). -/
  count : Nat := 0
  /-- drain descriptor address (04 R159). -/
  desc : Nat := 0
  /-- first accumulator row (04 R159). -/
  row : Nat := 0
  /-- ZERO (04 R159). -/
  zero : Bool := false
  /-- local object to signal (04 R162). -/
  sig : Option Nat := none
  /-- FP32 accumulators (03 R120). -/
  fp : Bool := false
  /-- accumulator row size (03 R120). -/
  rowBytes : Nat := 128
  /-- effective columns (03 R120). -/
  cols : Nat := 32
  /-- issuing instruction (04 R176). -/
  pc : Nat := 0
  /-- ORDINAL (14 R507). -/
  ord : Nat := 0
  /-- drain descriptor of each draining tile, as read at the start (03 R121). -/
  descs : List (List Byte) := []
  /-- array cycle of the earliest row read (03 R121). -/
  readFrom : Nat := 0
  /-- rows that each draining tile has read (03 R120). -/
  reads : List Nat := []
  /-- rows read and not yet written, oldest first (03 R120). -/
  out : List DrainRow := []
  deriving DecidableEq, Repr

/-- A queued DMA descriptor as read at issue (R163, R164). -/
structure DmaDesc where
  /-- SRC (04 R163). -/
  src : BitVec 64 := 0#64
  /-- DST (04 R163). -/
  dst : BitVec 64 := 0#64
  /-- ROWS (04 R163). -/
  rows : Nat := 0
  /-- ROW_BYTES (04 R163). -/
  rowBytes : Nat := 0
  /-- SRC_STRIDE (04 R163). -/
  srcStride : Int := 0
  /-- DST_STRIDE (04 R163). -/
  dstStride : Int := 0
  /-- SIG local object (04 R163). -/
  sig : Option Nat := none
  /-- issuing instruction (04 R176). -/
  pc : Nat := 0
  /-- tick at which the engine took it up (01 R41). -/
  since : Nat := 0
  deriving DecidableEq, Repr

/-- A message waiting in a tile's message port (R166, R167). -/
structure MsgReq where
  /-- source local address (04 R166). -/
  src : Nat := 0
  /-- destination chip (04 R166). -/
  chip : Nat := 0
  /-- destination logical tile (04 R166). -/
  tile : Nat := 0
  /-- destination offset (04 R166). -/
  dst : Nat := 0
  /-- object to signal (04 R168). -/
  spec : BitVec 32 := 0#32
  /-- value to add (04 R166). -/
  add : Nat := 0
  /-- length in 32-byte units (04 R166). -/
  units : Nat := 0
  /-- issuing instruction (04 R176). -/
  pc : Nat := 0
  deriving DecidableEq, Repr

/-- What the core holds of its current or last job (R142, R144, R157). -/
structure TileJob where
  /-- a part of a job is on this tile (04 R142). -/
  active : Bool := false
  /-- job record number (01 R39). -/
  job : Nat := 0
  /-- TIL_STATUS.STAGE (02 R85). -/
  stage : Nat := 0
  /-- TIL_STATUS.JOB_TAG (02 R85). -/
  tag : Nat := 0
  /-- PART (04 R144). -/
  part : Nat := 0
  /-- SEED held for the whole job (04 R157). -/
  seed : BitVec 64 := 0#64
  /-- QM stage (03 R127). -/
  qm : Bool := false
  /-- started through TIL_CTRL.START (02 R85). -/
  single : Bool := false
  /-- chip number in the model (04 R150). -/
  chip : Nat := 0
  /-- chip count (04 R150). -/
  chips : Nat := 1
  /-- END has issued (04 R174). -/
  ended : Bool := false
  /-- the part failed its checks or halted (01 R30). -/
  failed : Bool := false
  /-- FRAME of its job block (04 R144). -/
  frame : Nat := 0
  deriving DecidableEq, Repr

/-- What stalls a core's issue (R162, R167, R196 to R201). -/
structure Blocked where
  /-- the operation, coded as SyncOp.kind (04 R176). -/
  kind : Nat := 0
  /-- global object (04 R168). -/
  obj : Nat := 0
  /-- comparison value (04 R168). -/
  val : BitVec 32 := 0#32
  /-- destination register (04 R148). -/
  gd : Nat := 0
  /-- the instruction (04 R176). -/
  pc : Nat := 0
  deriving DecidableEq, Repr

/-- Everything one logical tile owns (R141, R73); it moves with the logical tile. -/
structure TileState where
  /-- 0 idle, 1 running, 2 halted (TIL_STATUS.STATE without the move) (02 R85). -/
  run : Nat := 0
  /-- TIL_STATUS.ERR (02 R85). -/
  err : Bool := false
  /-- TIL_PC.PC (04 R141). -/
  pc : Nat := 0
  /-- g0 to g31 (g0 is never stored) (04 R141). -/
  g : FMap (BitVec 32) := []
  /-- v0 to v15, lane i of v r at key 64 r + i (04 R141). -/
  v : FMap (BitVec 32) := []
  /-- index of lc0 to lc2 (04 R141). -/
  lc : FMap (BitVec 32) := []
  /-- active loops, innermost first (04 R153). -/
  loops : List LoopState := []
  /-- local objects 0 to 31 (04 R141). -/
  obj : FMap (BitVec 32) := []
  /-- activation tables (04 R141). -/
  tabs : FMap Byte := []
  /-- table loaded by a VTLD since the last restart (04 R157). -/
  tabOk : FMap Bool := []
  /-- latched bits 63:32 of the time base (CSR 7) (04 R150). -/
  tickHi : BitVec 32 := 0#32
  /-- array-cycle counter of the tile (03 R134). -/
  cyc : Nat := 0
  /-- array-cycle counter at job start (CSR 5 counts from it) (04 R150). -/
  cyc0 : Nat := 0
  /-- current or last job (04 R142). -/
  job : TileJob := {}
  /-- a synchronisation wait or response that stalls issue (04 R176). -/
  blocked : Option Blocked := none
  /-- weight bank 0 (03 R90). -/
  bank0 : Bank := {}
  /-- weight bank 1 (03 R90). -/
  bank1 : Bank := {}
  /-- weight loads in progress (03 R98). -/
  loads : List LoadOp := []
  /-- ARR_BANK.LOAD_BANK (03 R139). -/
  loadBank : Nat := 0
  /-- ARR_BANK.LAST_BANK (03 R139). -/
  lastBank : Nat := 0
  /-- array cycle + 1 of the last beat that used each bank (03 R100). -/
  lastBeat : FMap Nat := []
  /-- array cycle + 1 of the last acceptance that wrote each accumulator row (03 R132). -/
  rowBeat : FMap Nat := []
  /-- ramp activity level (03 R134). -/
  level : Nat := 0
  /-- the last array cycles of a fused brood's lead feeder, newest first (03 R136). -/
  hist : List FeedRec := []
  /-- array queue, oldest first (04 R162). -/
  q : List ArrOp := []
  /-- stream accepting beats (03 R104). -/
  stream : Option StreamOp := none
  /-- vectors between feeder and checker, oldest first (03 R96). -/
  flight : List InFlight := []
  /-- drain in progress (03 R104). -/
  drain : Option DrainOp := none
  /-- accumulator type of the last stream issued (03 R120). -/
  drainFp : Bool := false
  /-- row size of the last stream issued (03 R120). -/
  drainRow : Nat := 128
  /-- effective columns of the last stream issued (03 R120). -/
  drainCols : Nat := 32
  /-- DMA descriptors, oldest first (04 R164). -/
  dma : List DmaDesc := []
  /-- a packet of the running descriptor was discarded: it never completes (05 R187). -/
  dmaLost : Bool := false
  /-- descriptor whose requests already sent still complete after a halt (04 R177). -/
  dmaCut : Option DmaDesc := none
  /-- message port queue, oldest first (04 R167). -/
  msgs : List MsgReq := []
  /-- ASTR and ADRN instructions issued since job start (14 R507). -/
  ord : Nat := 0
  deriving DecidableEq, Repr

/-- A message in its source port's retransmit buffer: in flight or waiting for its acknowledgement (R189, R191, R194). -/
structure Msg where
  /-- source logical tile (05 R189). -/
  src : Nat := 0
  /-- destination chip (05 R189). -/
  chip : Nat := 0
  /-- destination logical tile (05 R189). -/
  dst : Nat := 0
  /-- header flit and payload as sent (05 R189). -/
  bytes : List Byte := []
  /-- job record of the source part (05 R194). -/
  job : Nat := 0
  /-- source part (05 R194). -/
  part : Nat := 0
  /-- times sent (05 R194). -/
  sends : Nat := 0
  /-- NACKs received (05 R194). -/
  nacks : Nat := 0
  /-- tick of the last sending (05 R194). -/
  sentAt : Nat := 0
  /-- 0 travelling, 1 ACK, 2 NACK, 3 REJECT returning, 4 waiting for a brood controller to confirm its add, 5 lost (05 R192). -/
  phase : Nat := 0
  deriving DecidableEq, Repr

/-- An operation of a tile on a global object, from its issue to its completion (R198 to R201). -/
structure SyncOp where
  /-- issuing tile, or destination tile of a message's add (05 R198). -/
  tile : Nat := 0
  /-- 0 add, 1 SRD, 2 SARV, 3 SWAIT, 4 SBWAIT (05 R201). -/
  kind : Nat := 0
  /-- global object (05 R198). -/
  obj : Nat := 0
  /-- value to add or to compare (05 R196). -/
  val : BitVec 32 := 0#32
  /-- destination register (05 R197). -/
  gd : Nat := 0
  /-- value returned (05 R201). -/
  ans : BitVec 32 := 0#32
  /-- 0 travelling, 1 answer returning, 2 retry returning, 3 in the wait table, 4 wake returning, 5 discarded, 6 wake lost, 7 waiting to be
  sent again (05 R201). -/
  phase : Nat := 0
  /-- tick the packet left the tile, or the retry reached it (05 R200, R201). -/
  sentAt : Nat := 0
  /-- job record (05 R201). -/
  job : Nat := 0
  /-- part (05 R201). -/
  part : Nat := 0
  /-- source tile of the message whose add this is (05 R192). -/
  msgSrc : Option Nat := none
  /-- the tile knows that the wait table holds it (05 R201). -/
  told : Bool := false
  deriving DecidableEq, Repr

/-- One object of a stage's synchronisation object plan (R202). -/
structure SyncPlanEntry where
  /-- a local object (06 R262). -/
  isLocal : Bool := false
  /-- logical tile of a local object (06 R262). -/
  tile : Nat := 0
  /-- object number (06 R262). -/
  obj : Nat := 0
  /-- barrier (else counter) (05 R197). -/
  barrier : Bool := false
  /-- PIPELINE scope (else FRAME) (05 R202). -/
  scopeP : Bool := false
  /-- initial value, or participant count of a barrier (05 R202). -/
  init : BitVec 32 := 0#32
  deriving DecidableEq, Repr

/-- What a chip-link port holds beside its registers (R212 to R218). -/
structure Port where
  /-- session key in force (its number; the key itself is the security block's) (05 R212). -/
  key : Option Nat := none
  /-- training step: 0 none, 1 lock, 2 width, 3 identity, 4 authentication, 5 time alignment (05 R212). -/
  step : Nat := 0
  /-- training is full (from lock), not a retrain (05 R215). -/
  full : Bool := false
  /-- tick at which the training started (05 R212). -/
  t0 : Nat := 0
  /-- peer refused: down until the next restart (05 R213). -/
  refused : Bool := false
  /-- block sequence numbers in the replay buffer (05 R214). -/
  rx : List Nat := []
  /-- tick of the next 10 ms retry (05 R216). -/
  retryAt : Nat := 0
  /-- authentication messages exchanged (15 R537). -/
  auth : Nat := 0
  /-- tick of the last time base comparison (05 R218). -/
  cmpAt : Nat := 0
  /-- taken out of service until the next full restart (13 R466). -/
  out : Bool := false
  deriving DecidableEq, Repr

/-- The SYNC_IO barrier (R220 to R224), beside its registers. -/
structure SyncIo where
  /-- pipeline in the barrier (05 R222). -/
  pipe : Option Nat := none
  /-- tick of entry (05 R224). -/
  enteredAt : Nat := 0
  /-- line released (05 R220). -/
  released : Bool := false
  /-- T0 + 16 after a high sample (05 R220). -/
  sawHigh : Option Nat := none
  /-- stays out of barriers until realigned (0x3303) (05 R218). -/
  barred : Bool := false
  /-- highest frame number received since the last barrier was left, once the numbers have differed (05 R223). -/
  maxFrame : Option Nat := none
  /-- frame number of the last barrier left (05 R223). -/
  sentFrame : Nat := 0
  /-- sequence number of the last barrier left (05 R223). -/
  sentSeq : Nat := 0
  /-- pipeline of the last barrier left (05 R223). -/
  sentPipe : Nat := 0
  /-- a barrier has been left, and its numbers have been sent (05 R223). -/
  left : Bool := false
  deriving DecidableEq, Repr

/-- An access that stalls until the move of a logical tile ends (R74). -/
structure HeldAccess where
  /-- 0 read, 1 write of memory, 2 write of a register (02 R74). -/
  kind : Nat := 0
  /-- the writer of a register is the host (02 R74). -/
  host : Bool := true
  /-- device address, or offset in the block registers (02 R74). -/
  addr : Nat := 0
  /-- bytes to read (02 R74). -/
  len : Nat := 0
  /-- bytes to write (02 R74). -/
  data : List Byte := []
  deriving DecidableEq, Repr

/-- What a brood holds beside its BRD_ registers (R70 to R82). -/
structure Brood where
  /-- spare test: 0 none, 1 logic BIST, 2 memory BIST and skew self-check, 3 passed (02 R70). -/
  test : Nat := 0
  /-- tick the present test step started (02 R70). -/
  testAt : Nat := 0
  /-- spare memories being cleared after an abort (02 R77). -/
  clearing : Bool := false
  /-- job record whose retry or arbitration holds the spare (02 R78). -/
  spareUser : Option Nat := none
  /-- logical index being moved (02 R73). -/
  move : Option Nat := none
  /-- 1 quiesce, 2 transfer and verify, 3 switch (02 R73). -/
  movePhase : Nat := 0
  /-- forced move (02 R80). -/
  moveForced : Bool := false
  /-- destination slot (02 R73). -/
  moveTo : Nat := 0
  /-- spare into which the last move failed (02 R76). -/
  failedInto : Option Nat := none
  /-- logical indices whose forced move is due (02 R80). -/
  forcedDue : List Nat := []
  /-- rotation stopped (02 R70). -/
  rotStopped : Bool := false
  /-- logical indices hosted on QM-only slots (02 R62). -/
  qmHosted : List Nat := []
  /-- violations its resampler has counted (R246, R247) (06 R246). -/
  rspViol : Nat := 0
  /-- tick the whole spare test began (14 R520). -/
  testFrom : Nat := 0
  /-- tick the move began (12 R439). -/
  moveAt : Nat := 0
  /-- the spare is tested again before the next attempt of a failed forced move (02 R76). -/
  retest : Bool := false
  /-- a mapping that forced moves bring in: logical index, slot (02 R63). -/
  remap : List (Nat × Nat) := []
  /-- accesses to the moving tile's windows, oldest first (02 R74). -/
  held : List HeldAccess := []
  deriving DecidableEq, Repr

/-- One physical tile: what its fuses and its history say (R87, R111, R509, R513). -/
structure Slot where
  /-- fuse-selected spare row (03 R87). -/
  spareRow : Nat := 32
  /-- fuse-selected spare column (03 R87). -/
  spareCol : Nat := 32
  /-- spare row for which the skew lines are programmed (03 R111). -/
  rowProg : Nat := 32
  /-- spare column for which the column select is programmed (03 R111). -/
  colProg : Nat := 32
  /-- passed the skew self-check at the last restart (03 R111). -/
  skewOk : Bool := false
  /-- tick of its last complete test (14 R513). -/
  testedAt : Nat := 0
  /-- tick of the last 0x2042 of the slot, 0 when none (14 R513). -/
  lfiAt : Nat := 0
  /-- next slice of the in-place test (14 R515). -/
  slice : Nat := 0
  /-- an in-place slice is running (14 R515). -/
  inSlice : Bool := false
  /-- tick at which the present pass of in-place slices began (14 R515). -/
  passFrom : Nat := 0
  deriving DecidableEq, Repr

/-- One brood entry of a stage descriptor (R260). -/
structure BroodUse where
  /-- BROOD (06 R260). -/
  brood : Nat := 0
  /-- MODE (06 R260). -/
  fused : Bool := false
  /-- TMASK (06 R260). -/
  tmask : BitVec 16 := 0#16
  deriving DecidableEq, Repr

/-- One source entry of a resampler block (R244). -/
structure BoxSource where
  /-- REF (06 R244). -/
  ref : BitVec 64 := 0#64
  /-- W (06 R244). -/
  w : Nat := 0
  /-- H (06 R244). -/
  h : Nat := 0
  /-- C (06 R244). -/
  c : Nat := 0
  /-- ROW_STRIDE (06 R244). -/
  rowStride : Nat := 0
  deriving DecidableEq, Repr

/-- A resampler block (R244). -/
structure RspBlock where
  /-- LIST (06 R244). -/
  list : BitVec 64 := 0#64
  /-- OUT (06 R244). -/
  out : BitVec 64 := 0#64
  /-- STATUS (06 R244). -/
  status : BitVec 64 := 0#64
  /-- OH (06 R244). -/
  oh : Nat := 0
  /-- OW (06 R244). -/
  ow : Nat := 0
  /-- FMT (06 R244). -/
  fmt : Nat := 0
  /-- MODE (06 R244). -/
  mode : Nat := 0
  /-- FILL (06 R244). -/
  fill : Int := 0
  /-- MAX (06 R244). -/
  max : Nat := 0
  /-- source entries (06 R244). -/
  srcs : List BoxSource := []
  deriving DecidableEq, Repr

/-- A stage descriptor of a resident model (R260). -/
structure Stage where
  /-- STAGE (06 R260). -/
  num : Nat := 0
  /-- KIND: 0 tile program, 1 resampler (06 R260). -/
  kind : Nat := 0
  /-- FLAGS bit 0 (06 R260). -/
  qm : Bool := false
  /-- FLAGS bit 1: enters the SYNC_IO barrier (06 R260). -/
  sync : Bool := false
  /-- ENTRY (06 R260). -/
  entry : Nat := 0
  /-- brood entries (06 R260). -/
  broods : List BroodUse := []
  /-- WIN_MIN (06 R260). -/
  winMin : Nat := 0
  /-- WIN_MAX (06 R260). -/
  winMax : Nat := 0
  /-- BUDGET, in units of 64 bytes (06 R260). -/
  budget : Nat := 0
  /-- CONSUMES without 0xFF (06 R260). -/
  consumes : List Nat := []
  /-- OUT_BYTES (06 R260). -/
  outBytes : Nat := 0
  /-- ADDR0 to ADDR3 (references, R259) (06 R260). -/
  addrs : List (BitVec 64) := []
  /-- SEED (06 R260). -/
  seed : BitVec 64 := 0#64
  /-- STREAM (06 R260). -/
  stream : BitVec 32 := 0#32
  /-- resampler block of a KIND 1 stage (06 R244). -/
  rsp : Option RspBlock := none
  /-- its synchronisation object plan (05 R202). -/
  plan : List SyncPlanEntry := []
  /-- library slot of the model that declares it (06 R268). -/
  slot : Nat := 0
  deriving DecidableEq, Repr

/-- A pipeline descriptor (R263). -/
structure PipeDesc where
  /-- PIPE (06 R263). -/
  num : Nat := 0
  /-- FLAGS bit 0: multi-chip (06 R263). -/
  multi : Bool := false
  /-- FLAGS bit 1: export on the management port (06 R263). -/
  expMgmt : Bool := false
  /-- FLAGS bit 2: export on the chip links (06 R263). -/
  expLink : Bool := false
  /-- NSLOT (06 R263). -/
  nslot : Nat := 2
  /-- CAM (06 R263). -/
  cam : BitVec 32 := 0#32
  /-- NET (06 R263). -/
  net : BitVec 16 := 0#16
  /-- GATHER (06 R263). -/
  gather : Nat := 0
  /-- PERIOD (06 R263). -/
  period : Nat := 0
  /-- EXPORT (06 R263). -/
  exp : BitVec 32 := 0#32
  /-- STAGES in start order (06 R263). -/
  stages : List Nat := []
  /-- library slot of the model that carries it (06 R268). -/
  slot : Nat := 0
  deriving DecidableEq, Repr

/-- A gap record (R264). -/
structure Gap where
  /-- PIPE (06 R264). -/
  pipe : Nat := 0
  /-- BROOD (06 R264). -/
  brood : Nat := 0
  /-- OFFSET (06 R264). -/
  offset : Nat := 0
  /-- LENGTH (06 R264). -/
  length : Nat := 0
  /-- library slot of its model (06 R264). -/
  slot : Nat := 0
  deriving DecidableEq, Repr

/-- One section of a resident model, as loaded (R257); the restart copy of R267 is its payload. -/
structure Section where
  /-- TYPE (06 R257). -/
  type : Nat := 0
  /-- TARGET (06 R257). -/
  target : Nat := 0
  /-- DEST (06 R257). -/
  dest : Nat := 0
  /-- offset of its payload in the image, and in the copy that the device keeps (06 R257, R267). -/
  off : Nat := 0
  /-- BYTES (06 R257). -/
  bytes : Nat := 0
  /-- a Device zero section: BYTES zero bytes (06 R257). -/
  zero : Bool := false
  deriving DecidableEq, Repr

/-- A resident model in its library slot (R258, R268). -/
structure Model where
  /-- SLOT (06 R258). -/
  slot : Nat := 0
  /-- NAME (06 R258). -/
  name : List Byte := []
  /-- MODEL_ID (06 R258). -/
  id : BitVec 64 := 0#64
  /-- chip count it was built for (06 R255). -/
  chips : Nat := 1
  /-- digest of its image set (06 R256). -/
  digest : List Byte := []
  /-- device region base (06 R265). -/
  regionAt : Nat := 0
  /-- DEV_BYTES (06 R258). -/
  regionBytes : Nat := 0
  /-- device address and length of the copy of its image, outside the model regions (06 R267). -/
  copyAt : Nat := 0
  copyBytes : Nat := 0
  /-- sections (06 R257). -/
  sections : List Section := []
  /-- declared stages (06 R260). -/
  stages : List Stage := []
  /-- gap records (06 R264). -/
  gaps : List Gap := []
  /-- SVN of its signed object (15 R532). -/
  svn : Nat := 0
  /-- digest of its image (06 R256). -/
  imgDigest : List Byte := []
  /-- its measurement (15 R535). -/
  meas : List Byte := []
  deriving DecidableEq, Repr

/-- A piece of a section that waits to be written into a tile that runs a bound stage (R266). -/
structure SectionPiece where
  /-- model slot (06 R266). -/
  slot : Nat := 0
  /-- device address (06 R266). -/
  addr : Nat := 0
  /-- bytes (06 R266). -/
  data : List Byte := []
  deriving DecidableEq, Repr

/-- A trigger event that a pipeline's gather set holds (R26, R315). -/
structure GatherEntry where
  /-- stream index (01 R26). -/
  stream : Nat := 0
  /-- ring entry (08 R315). -/
  entry : Nat := 0
  /-- substituted (08 R315). -/
  stale : Bool := false
  /-- missing bit (08 R315). -/
  missing : Bool := false
  /-- stamp of the frame the entry holds (01 R20). -/
  stamp : Option Nat := none
  deriving DecidableEq, Repr

/-- One stage of one pipeline frame. -/
structure StageRun where
  /-- stage number (06 R263). -/
  stage : Nat := 0
  /-- staging slot (01 R28). -/
  slot : Nat := 0
  /-- device address of the staging slot (01 R28). -/
  addr : Nat := 0
  /-- 0 not started, 1 running, 2 committed, 3 failed, 4 unverified (01 R29). -/
  status : Nat := 0
  /-- outputs carry the QM mark (01 R32). -/
  qm : Bool := false
  /-- OUT_BYTES of the staging slot (06 R260). -/
  bytes : Nat := 0
  deriving DecidableEq, Repr

/-- One open frame of a pipeline: triggered, and neither published nor withheld (R32 to R36). -/
structure Frame where
  /-- pipeline (01 R34). -/
  pipe : Nat := 0
  /-- frame number (08 R318). -/
  num : Nat := 0
  /-- trigger tick (08 R318). -/
  tick : Nat := 0
  /-- stamp of the triggering frame (01 R20). -/
  stamp : Nat := 0
  /-- inputs (01 R25). -/
  inputs : List GatherEntry := []
  /-- largest age of a stale input (01 R35). -/
  maxAge : Nat := 0
  /-- its stages (06 R263). -/
  stages : List StageRun := []
  /-- waits in or for the SYNC_IO barrier (05 R222). -/
  barrier : Bool := false
  /-- 0 none yet, or the withhold code (01 R36). -/
  outcome : Nat := 0
  /-- DETAIL of its completion entry (11 R415). -/
  detail : Nat := 0
  /-- tick at which every stage had ended clean (13 R468). -/
  doneAt : Option Nat := none
  /-- units of the failing parts, which 0x1F01 names (01 R36). -/
  bad : List Nat := []
  /-- tag of its last job to start (11 R415). -/
  tag : Nat := 0
  deriving DecidableEq, Repr

/-- A loaded pipeline (R25 to R36, R263). -/
structure Pipeline where
  /-- descriptor (06 R263). -/
  desc : PipeDesc := {}
  /-- running (PIPE command) (11 R414). -/
  running : Bool := false
  /-- host-assisted stage scheduling (01 R42). -/
  hostSched : Bool := false
  /-- host-assisted recorder triggers (01 R42). -/
  hostRec : Bool := false
  /-- gather set (01 R26). -/
  gather : List GatherEntry := []
  /-- tick the gather window opened (01 R26). -/
  openAt : Option Nat := none
  /-- next frame number (05 R222). -/
  frameNum : Nat := 0
  /-- open frames, oldest first (01 R34). -/
  frames : List Frame := []
  /-- tick of the last frame boundary (06 R264). -/
  boundaryAt : Nat := 0
  /-- free staging slots of each stage (index into its bound table) (01 R28). -/
  free : List Nat := []
  /-- number of published sets (11 R417). -/
  published : Option Nat := none
  /-- last published frame (KIND 5) (06 R259). -/
  lastPub : Option Frame := none
  /-- unverified slots: stage, slot, frames still to pass (01 R36). -/
  quarantine : List (Nat × Nat × Nat) := []
  /-- every trigger stream is lost (08 R317). -/
  stopLost : Bool := false
  /-- held sets, oldest first (11 R418). -/
  held : List Nat := []
  /-- published sets not yet reusable: sequence number and frame (11 R417). -/
  sets : List (Nat × Frame) := []
  /-- the last opened frame, as it was opened (02 R85). -/
  lastFrame : Option Frame := none
  deriving DecidableEq, Repr

/-- The model that stage s is bound to, and its staging buffers (R268, R269). -/
structure Binding where
  /-- stage number (06 R268). -/
  stage : Nat := 0
  /-- library slot (06 R268). -/
  slot : Nat := 0
  /-- device address of its staging slots (01 R28). -/
  base : Nat := 0
  /-- scratch slot of jobs started by TIL_CTRL.START (02 R85). -/
  scratch : Nat := 0
  /-- stays failed: names an unavailable tile (R82) (06 R266). -/
  failed : Bool := false
  deriving DecidableEq, Repr

/-- One part of a job (R29, R30, R174). -/
structure PartRun where
  /-- logical tile (KIND 0) or brood (KIND 1) (06 R261). -/
  unit : Nat := 0
  /-- 0 running, 1 finished clean, 2 failed, 3 running in the rerun, 4 failed and waiting for the rerun, 5 stopped (01 R29). -/
  status : Nat := 0
  /-- mesh bytes issued (05 R195). -/
  bytes : Nat := 0
  /-- budget violation counted (05 R195). -/
  overrun : Bool := false
  /-- has been retried (01 R30). -/
  retried : Bool := false
  /-- event that failed it (14 R504). -/
  why : Nat := 0
  /-- arbitration verdict, 0 none yet (14 R505). -/
  verdict : Nat := 0
  /-- tick of its failure (14 R502). -/
  failAt : Nat := 0
  deriving DecidableEq, Repr

/-- A job in flight (R37 to R40). -/
structure Job where
  /-- record number (01 R39). -/
  id : Nat := 0
  /-- tag (01 R39). -/
  tag : Nat := 0
  /-- stage (01 R39). -/
  stage : Nat := 0
  /-- model slot (06 R268). -/
  slot : Nat := 0
  /-- pipeline (06 R263). -/
  pipe : Nat := 0
  /-- frame number (06 R260). -/
  frame : Nat := 0
  /-- host-submitted (01 R37). -/
  host : Bool := false
  /-- tick of the actual start (13 R476). -/
  startAt : Nat := 0
  /-- SEED in force (06 R261). -/
  seed : BitVec 64 := 0#64
  /-- STREAM in force (06 R261). -/
  stream : BitVec 32 := 0#32
  /-- parts (06 R261). -/
  parts : List PartRun := []
  /-- output staging slot (01 R28). -/
  outAddr : Nat := 0
  /-- waits for a move (02 R75). -/
  waiting : Bool := false
  /-- FLAGS of the SUBMIT command (11 R419). -/
  flags : Nat := 0
  /-- PIPELINE-scope objects of the stage as they were at the first start: tile (65535 for a global object), object, value (14 R501). -/
  saved : List (Nat × Nat × BitVec 32) := []
  /-- the retry has started (14 R501). -/
  rerun : Bool := false
  /-- code of the outcome of its arbitration, 0 none (14 R505). -/
  verdict : Nat := 0
  /-- tick of the first start, from which the window runs (13 R476). -/
  first : Nat := 0
  /-- references in force: the stage descriptor's, or the command's overrides (11 R419). -/
  refs : List (BitVec 64) := []
  /-- runs of the job whose first mismatch has been captured (14 R500). -/
  mism : Nat := 0
  /-- tick of its first failure (14 R502). -/
  failAt : Nat := 0
  /-- a one-part job started through TIL_CTRL.START (02 R85). -/
  single : Bool := false
  /-- TICK of its job block (04 R144). -/
  stamp : Nat := 0
  /-- its wait for a move has been counted (02 R75). -/
  moveHeld : Bool := false
  /-- ADDR0 to ADDR3 as they resolved at the job's first start (06 R259). -/
  addrs : List Nat := []
  /-- a resampler stage's block, its references resolved at the job's first start (06 R259). -/
  rsp : Option RspBlock := none
  deriving DecidableEq, Repr

/-- A stream descriptor in force (R304). -/
structure StreamDesc where
  /-- EN (08 R304). -/
  en : Bool := false
  /-- HOST_PRE (08 R304). -/
  hostPre : Bool := false
  /-- PORT (08 R304). -/
  port : Nat := 0
  /-- SEL (08 R304). -/
  sel : Nat := 0
  /-- DT (08 R304). -/
  dt : Nat := 0
  /-- WIDTH or MAX_W (08 R304). -/
  width : Nat := 0
  /-- HEIGHT or MAX_H (08 R304). -/
  height : Nat := 0
  /-- PERIOD (08 R304). -/
  period : Nat := 0
  /-- FRAME_TMO (08 R304). -/
  frameTmo : Nat := 0
  /-- LOSS_LIMIT (08 R304). -/
  lossLimit : Nat := 0
  /-- NSLOT (08 R304). -/
  nslot : Nat := 0
  /-- PAT_LINES (08 R304). -/
  patLines : Nat := 0
  /-- WARP (08 R304). -/
  warp : Nat := 0
  /-- LINE_TICKS; TEST_OFF and TEST_LEN of a network stream (08 R304). -/
  lineTicks : Nat := 0
  /-- BUF (08 R304). -/
  buf : Nat := 0
  /-- BUF_STRIDE (08 R304). -/
  bufStride : Nat := 0
  /-- bytes 36 to 63: test rows, or UDP, VLAN, source address and parser or decoder limits (08 R304). -/
  w36 : List Byte := []
  /-- PAT_CRC0 to PAT_CRC15 (08 R304). -/
  pat : List Nat := []
  /-- lidar: parse entry in force (08 R323). -/
  parse : List Byte := []
  /-- lidar: test packet in force (08 R326). -/
  test : List Byte := []
  /-- lidar: NPT elevations in force, 16 bits each (08 R323). -/
  elev : List Byte := []
  deriving DecidableEq, Repr

/-- A frame or sample being received or completed (R307, R325, R329). -/
structure Sample where
  /-- ring entry (08 R307). -/
  entry : Nat := 0
  /-- SEQ (08 R307). -/
  seq : Nat := 0
  /-- stamp (01 R20). -/
  stamp : Nat := 0
  /-- gPTP time of the stamp, with the offset in force at that tick (01 R20). -/
  gptp : Nat := 0
  /-- frame number of the frame-start packet (08 R313). -/
  fnum : Nat := 0
  /-- lines landed (08 R307). -/
  lines : Nat := 0
  /-- injector started (08 R309). -/
  patStarted : Bool := false
  /-- tick at which the last active line landed (08 R309, R312). -/
  patAt : Nat := 0
  /-- pattern lines landed (08 R309). -/
  patDone : Bool := false
  /-- frame-end packet arrived (01 R22). -/
  ended : Bool := false
  /-- test-row bytes so far (08 R313). -/
  trow : List Byte := []
  /-- test rows received (08 R313). -/
  trows : Nat := 0
  /-- lidar packet indices parsed (08 R324). -/
  pkts : List Nat := []
  /-- lidar seq0 (08 R324). -/
  seq0 : Nat := 0
  /-- lidar SAMPLE value (08 R323). -/
  sampleId : Nat := 0
  /-- next RTP sequence number (08 R329). -/
  rtpSeq : Nat := 0
  /-- codestream bytes received (08 R329). -/
  len : Nat := 0
  /-- Lcod of PIH (08 R331). -/
  lcod : Nat := 0
  /-- Wf (08 R331). -/
  wf : Nat := 0
  /-- Hf (08 R331). -/
  hf : Nat := 0
  /-- bits per component of a JPEG XS codestream (08 R328). -/
  depth : Nat := 0
  /-- descriptor it was received under, kept from completion (08 R306). -/
  desc : StreamDesc := {}
  /-- warp configuration in force at its completion (09 R347). -/
  cfg : List Byte := []
  /-- a lidar sample whose SAMPLE value is known (08 R323). -/
  id : Bool := false
  deriving DecidableEq, Repr

/-- One camera (index 0 to 31) or network (32 to 47) stream (R303 to R319). -/
structure Stream where
  /-- descriptor in force (08 R304). -/
  desc : StreamDesc := {}
  /-- 0 off, 1 resynchronisation, 2 receiving, 3 lost (INT_STATE) (08 R339). -/
  state : Nat := 0
  /-- next SEQ (08 R307). -/
  seq : Nat := 0
  /-- frame being received (08 R307). -/
  cur : Option Sample := none
  /-- complete frames awaiting a decoder or warp engine, oldest first (01 R22). -/
  ready : List Sample := []
  /-- the open frame broke; packets are discarded (08 R308). -/
  broken : Bool := false
  /-- tick at which the frame timer expires (08 R314). -/
  timerAt : Option Nat := none
  /-- last good entry and its stamp (08 R315). -/
  last : Option (Nat × Nat) := none
  /-- order in which the entries were last taken, oldest first (08 R307). -/
  used : List Nat := []
  /-- a good frame since the last full restart (08 R315). -/
  everGood : Bool := false
  /-- stamp taken in holdover (08 R322). -/
  holdover : Bool := false
  /-- tick of the last frame start (14 R518). -/
  startAt : Nat := 0
  /-- tick of the last frame completion (14 R518). -/
  endAt : Nat := 0
  /-- components into which the stream's last accepted codestream decodes: 3, or 1; 0 while none has come (09 R347). -/
  comps : Nat := 0
  /-- lidar: SAMPLE value of the last sample, whose further packets begin no sample (08 R325). -/
  skipId : Option Nat := none
  deriving DecidableEq, Repr

/-- One JPEG XS engine beside its registers (R327 to R336). -/
structure JxsEngine where
  /-- stream index and sample in work (08 R327). -/
  cur : Option (Nat × Sample) := none
  /-- tick the sample started (08 R332). -/
  startAt : Nat := 0
  /-- tick at which the engine's reset began (08 R332). -/
  resetAt : Option Nat := none
  /-- admitted frames counted for DECIM (08 R335). -/
  encCount : Nat := 0
  /-- next clip entry (08 R335). -/
  clipNext : Nat := 0
  /-- stream and frame being encoded (08 R335). -/
  enc : Option (Nat × Sample) := none
  /-- taken out of service until the next full restart (13 R466). -/
  out : Bool := false
  deriving DecidableEq, Repr

/-- One warp engine beside its registers (R341 to R361). -/
structure WarpEngine where
  /-- stream index and frame in work (09 R342). -/
  cur : Option (Nat × Sample) := none
  /-- tick the warp started (09 R343). -/
  startAt : Nat := 0
  /-- this warp is a rerun; the engine of the first warp (09 R342). -/
  rerun : Option Nat := none
  /-- tick at which the engine's reset began (09 R361). -/
  resetAt : Option Nat := none
  /-- ticks of attributions (09 R360). -/
  attrib : List Nat := []
  deriving DecidableEq, Repr

/-- A rerun that waits for its engine (R311, R342). -/
structure RerunWait where
  /-- stream index (09 R342). -/
  stream : Nat := 0
  /-- frame (09 R342). -/
  sample : Sample := {}
  /-- engine of the first warp (08 R311). -/
  first : Nat := 0
  /-- tick of the mismatch (08 R311). -/
  since : Nat := 0
  deriving DecidableEq, Repr

/-- A complete frame waiting for an engine (R342). -/
structure ReadyFrame where
  /-- stream index (09 R342). -/
  stream : Nat := 0
  /-- frame (09 R342). -/
  sample : Sample := {}
  /-- completion tick (09 R342). -/
  since : Nat := 0
  deriving DecidableEq, Repr

/-- A line of a channel's check-symbol cache (R377). -/
structure CheckLine where
  /-- check sector of the channel (pseudo-channel, bank, row, column) (10 R377). -/
  line : Nat := 0
  /-- dirty (10 R377). -/
  dirty : Bool := false
  /-- way of its set that holds it, 0 to 7 (10 R377). -/
  way : Nat := 0
  deriving DecidableEq, Repr

/-- An entry of a channel's lost-sector table (R378). -/
structure LostLine where
  /-- check line (10 R378). -/
  line : Nat := 0
  /-- sectors not yet rewritten (10 R378). -/
  left : List Nat := []
  deriving DecidableEq, Repr

/-- One GDDR6 channel beside its registers (R364 to R387). -/
structure MemChan where
  /-- trained (10 R382). -/
  trained : Bool := false
  /-- check-symbol cache, most recently used first (10 R377). -/
  cache : List CheckLine := []
  /-- lost-sector table (10 R378). -/
  lost : List LostLine := []
  /-- sectors with a corrective write queued (10 R373). -/
  corr : List Nat := []
  /-- tick of the last training (10 R384). -/
  trainAt : Nat := 0
  /-- temperature at the last training, in degrees (10 R384). -/
  trainTemp : Int := 0
  /-- tick at which retraining became due (10 R385). -/
  dueAt : Option Nat := none
  /-- ticks of link CRC retries in the last 1 ms (10 R375). -/
  edcAt : List Nat := []
  /-- consecutive failed retrainings (10 R384). -/
  failRun : Nat := 0
  /-- next row to refresh (10 R383). -/
  refRow : Nat := 0
  /-- next local sector to scrub (10 R387). -/
  scrubPos : Nat := 0
  /-- tick of the last sector scrubbed (10 R387). -/
  scrubAt : Nat := 0
  /-- tick of the last retraining window (10 R384). -/
  winAt : Nat := 0
  /-- check-line hits below the next unit of 1,024 (10 R392). -/
  hits : Nat := 0
  /-- check-line misses below the next unit of 1,024 (10 R392). -/
  misses : Nat := 0
  /-- due for 1 s without a grant: retrained in the next window (10 R385). -/
  overdue : Bool := false
  deriving DecidableEq, Repr

/-- A 64-bit SRAM word whose stored bits are in error (R388 to R390). -/
structure SramErr where
  /-- 1 single-bit error, 2 uncorrectable (10 R390). -/
  bits : Nat := 0
  /-- the scrubber has counted it as uncorrectable (10 R389). -/
  seen : Bool := false
  /-- flipped bits of the word: 64 data bits, then 8 check bits (10 R388). -/
  mask : BitVec 72 := 0#72
  deriving DecidableEq, Repr

/-- A command entry taken from the command ring (R413). -/
structure Cmd where
  /-- OP (11 R413). -/
  op : Nat := 0
  /-- FLAGS (11 R413). -/
  flags : Nat := 0
  /-- TAG (11 R413). -/
  tag : Nat := 0
  /-- A (11 R413). -/
  a : BitVec 32 := 0#32
  /-- B (11 R413). -/
  b : BitVec 64 := 0#64
  /-- SEED (11 R413). -/
  seed : BitVec 64 := 0#64
  /-- STREAM (11 R413). -/
  stream : BitVec 32 := 0#32
  /-- REF0 to REF3 (11 R413). -/
  refs : List (BitVec 64) := []
  /-- bytes 28 to 31 are not 0 (11 R413). -/
  rest : Bool := false
  deriving DecidableEq, Repr

/-- A command consumed and waiting to complete (R414). -/
structure Waiting where
  /-- the entry (11 R414). -/
  cmd : Cmd := {}
  /-- tick it was taken (11 R414). -/
  since : Nat := 0
  /-- step of a command of several steps (11 R414). -/
  stage : Nat := 0
  /-- DETAIL of its completion, where a step has fixed it (11 R415). -/
  detail : Nat := 0
  deriving DecidableEq, Repr

/-- The fields of a completion entry (R415). -/
structure Compl where
  /-- KIND (11 R415). -/
  kind : Nat := 3
  /-- FLAGS (11 R415). -/
  flags : Nat := 0
  /-- TAG (11 R415). -/
  tag : Nat := 0
  /-- STATUS (11 R415). -/
  status : Nat := 0
  /-- PIPE (11 R415). -/
  pipe : Nat := 255
  /-- STAGE (11 R415). -/
  stage : Nat := 255
  /-- FRAME (11 R415). -/
  frame : Nat := 0
  /-- MAX_AGE (11 R415). -/
  maxAge : Nat := 0
  /-- CAM_STALE (11 R415). -/
  camStale : Nat := 0
  /-- CAM_MISSING (11 R415). -/
  camMiss : Nat := 0
  /-- NET_STALE (11 R415). -/
  netStale : Nat := 0
  /-- NET_MISSING (11 R415). -/
  netMiss : Nat := 0
  /-- PUB (11 R415). -/
  pub : Nat := 0
  /-- DETAIL (11 R415). -/
  detail : Nat := 0
  deriving DecidableEq, Repr

/-- An event on its way from its unit to the collector and the logs (R18, R416, R461). -/
structure Event where
  /-- error line (13 R461). -/
  line : Nat := 0
  /-- event code (01 R18). -/
  code : Nat := 0
  /-- unit identifiers (11 R416). -/
  units : List Nat := []
  /-- tick (11 R416). -/
  tick : Nat := 0
  /-- stages it names (13 R467). -/
  stages : List Nat := []
  /-- error-reaction mode in force when it was latched (01 R43). -/
  hostMode : Bool := false
  /-- device address of the access, or 0 (13 R471). -/
  addr : Nat := 0
  /-- master (13 R471). -/
  master : Nat := 0
  /-- access type; 5 no access (13 R471). -/
  acc : Nat := 5
  /-- unit identifier the collector latches where it is not the first of UNITS (13 R605). -/
  uid : Option Nat := none
  /-- frame it names (15 R541). -/
  frame : Option Nat := none
  /-- OP: phase and step of a start or restart in which it was raised (13 R484). -/
  op : Nat := 0
  deriving DecidableEq, Repr

/-- An event that waits for a host decision (R421, R470). -/
structure Decide where
  /-- SEQ of its event entry (11 R421). -/
  seq : Nat := 0
  /-- the event (11 R421). -/
  ev : Event := {}
  deriving DecidableEq, Repr

/-- The host interface beside its registers and rings (R393 to R426). -/
structure HostIf where
  /-- armed MSI-X vectors (11 R402). -/
  armed : BitVec 64 := 0#64
  /-- MSI-X vectors raised, newest first (11 R402). -/
  raised : List Nat := []
  /-- Bus Master Enable (11 R394). -/
  busMaster : Bool := false
  /-- MSI-X Enable (11 R402). -/
  msixEn : Bool := false
  /-- MSI-X function mask (11 R402). -/
  msixMask : Bool := false
  /-- power state D3hot; D0 otherwise (11 R393). -/
  d3hot : Bool := false
  /-- AER uncorrectable error status (11 R393, R425). -/
  aerUnc : BitVec 32 := 0#32
  /-- AER correctable error status (11 R393, R426). -/
  aerCor : BitVec 32 := 0#32
  /-- pending bit array (11 R395). -/
  pend : BitVec 64 := 0#64
  /-- tick of the last heartbeat (11 R410). -/
  hbAt : Nat := 0
  /-- the command ring has been full since it last raised vector 5 (11 R401). -/
  cmdFull : Bool := false
  /-- commands that have not completed (11 R414). -/
  waiting : List Waiting := []
  /-- events that wait for REACT (11 R421). -/
  decides : List Decide := []
  /-- BAR2 size (log2), 28 to 34 (11 R395). -/
  bar2Bits : Nat := 34
  /-- tick of the START in progress (11 R409). -/
  attachAt : Nat := 0
  /-- data of the last host read; none for Completer Abort (11 R397). -/
  lastRead : Option (List Byte) := none
  /-- tick of the last link-up (11 R393). -/
  upAt : Nat := 0
  /-- command and job completions held back during a handover, oldest first (12 R448). -/
  cplQ : List Compl := []
  /-- words of the MSI-X table, word k of vector v at key 4 v + k (11 R395). -/
  msixTab : FMap (BitVec 32) := []
  deriving DecidableEq, Repr

/-- Functions of R42 whose mode is not held with a pipeline or stream. -/
structure Modes where
  /-- error reaction: host-assisted (01 R42). -/
  react : Bool := false
  /-- self-test scheduling: host-assisted (01 R42). -/
  selftest : Bool := false
  /-- memory training: host-paced (01 R42). -/
  memtrain : Bool := false
  deriving DecidableEq, Repr

/-- A log entry waiting for the log ring (R435). -/
structure LogRec where
  /-- CODE (12 R435). -/
  code : Nat := 0
  /-- LEVEL (12 R435). -/
  level : Nat := 0
  /-- SRC (12 R435). -/
  src : Nat := 0
  /-- TICK (12 R435). -/
  tick : Nat := 0
  /-- MSG (12 R435). -/
  msg : Nat := 0
  /-- ARG0 to ARG3 (12 R435). -/
  args : List Nat := []
  /-- TEXT (12 R435). -/
  text : List Byte := []
  deriving DecidableEq, Repr

/-- A trace point in the hardware queue (R437, R438). -/
structure TraceRec where
  /-- POINT (12 R437). -/
  point : Nat := 0
  /-- SRC (12 R437). -/
  src : Nat := 0
  /-- FLAGS bit 0 (12 R438). -/
  drop : Bool := false
  /-- TICK (12 R437). -/
  tick : Nat := 0
  /-- ARG0 to ARG3 (12 R437). -/
  args : List Nat := []
  deriving DecidableEq, Repr

/-- An event entry waiting for the event ring (R416). -/
structure EvtRec where
  /-- CODE (11 R416). -/
  code : Nat := 0
  /-- DECIDE (11 R416). -/
  decide : Bool := false
  /-- TICK (11 R416). -/
  tick : Nat := 0
  /-- UNITS (11 R416). -/
  units : List Nat := []
  /-- the event, for a decision (13 R470). -/
  ev : Event := {}
  deriving DecidableEq, Repr

/-- Device firmware beside its registers (R427 to R448). -/
structure Fw where
  /-- tick of the last kick: dispatch cores 0 to 3, 4 security, 5 power manager (12 R429). -/
  wdtAt : FMap Nat := []
  /-- security core being reset (12 R430). -/
  secDown : Bool := false
  /-- power manager core being reset; core rail at 0.80 V (12 R430). -/
  pwrDown : Bool := false
  /-- log entries not yet written, oldest first (12 R436). -/
  logQ : List LogRec := []
  /-- event entries not yet written, oldest first (12 R448). -/
  evtQ : List EvtRec := []
  /-- trace queue, oldest first (12 R438). -/
  trcQ : List TraceRec := []
  /-- a point was dropped since the last entry entered (12 R438). -/
  trcDrop : Bool := false
  /-- tick the present Molt state was entered (12 R442). -/
  moltAt : Nat := 0
  /-- handover step: 1 quiesce, 2 record, 3 switch, 4 check (12 R443). -/
  moltStep : Nat := 0
  /-- length of the staged image (12 R441). -/
  moltLen : Nat := 0
  deriving DecidableEq, Repr

/-- One entry of the reaction table in force (R464, R465). -/
structure React where
  /-- event code (13 R464). -/
  code : Nat := 0
  /-- reaction in force (13 R464). -/
  react : Nat := 1
  /-- floor (13 R464). -/
  floor : Nat := 0
  /-- SAFETY bit (13 R464). -/
  safety : Bool := false
  /-- DECIDE bit (13 R464). -/
  decide : Bool := false
  deriving DecidableEq, Repr

/-- A long record of the trouble log or a record of the management port (R484, R486). -/
structure TRec where
  /-- KIND (13 R484). -/
  long : Bool := true
  /-- REACTION (13 R484). -/
  react : Nat := 0
  /-- CODE (13 R484). -/
  code : Nat := 0
  /-- UNIT (13 R484). -/
  unit : Nat := 0
  /-- TICK (13 R484). -/
  tick : Nat := 0
  /-- OP (13 R484). -/
  op : Nat := 0
  /-- SENSOR (13 R484). -/
  sensor : Nat := 0
  /-- RAIL (13 R484). -/
  rail : Nat := 0
  /-- TEMP (13 R484). -/
  temp : Int := 0
  /-- MV (13 R484). -/
  mv : Nat := 0
  /-- LINE (13 R484). -/
  line : Nat := 0
  /-- SEQ (13 R486). -/
  seq : Nat := 0
  deriving DecidableEq, Repr

/-- The window watchdog of one stage (R476). -/
structure Win where
  /-- running since (13 R476). -/
  startAt : Option Nat := none
  /-- last duration (13 R490). -/
  last : Nat := 0
  /-- early ends (13 R490). -/
  early : Nat := 0
  /-- late ends (13 R490). -/
  late : Nat := 0
  deriving DecidableEq, Repr

/-- The Carapace beside its registers (R451 to R486). -/
structure Carapace where
  /-- events latched and waiting for their reaction, oldest first (13 R461). -/
  latched : List Event := []
  /-- events presented on error lines and not yet latched (13 R461). -/
  asserted : List Event := []
  /-- overrides in force, laid over the manufacture table (13 R464). -/
  table : List React := []
  /-- trouble log, newest first (13 R486). -/
  tlog : List TRec := []
  /-- next log index (13 R486). -/
  tlogSeq : Nat := 0
  /-- management records, oldest first (13 R483). -/
  mgmtQ : List TRec := []
  /-- DGRAM_SEQ (13 R483). -/
  mgmtSeq : Nat := 0
  /-- next datagram carries LOSS (13 R483). -/
  mgmtLoss : Bool := false
  /-- tick the first queued record was queued (13 R483). -/
  mgmtAt : Nat := 0
  /-- the last datagram sent (13 R483). -/
  mgmtSent : List Byte := []
  /-- stage window watchdogs (13 R476). -/
  wins : FMap Win := []
  /-- level of ALIVE (13 R472). -/
  aliveLevel : Bool := false
  /-- tick of its last edge (13 R472). -/
  aliveAt : Nat := 0
  /-- ALIVE held (13 R472). -/
  aliveHold : Bool := true
  /-- SEL writes blocked (13 R472). -/
  selBlock : Bool := false
  /-- latch of a stop ALIVE reaction (13 R472). -/
  stopAt : Option Nat := none
  /-- tick of the pair's last kick (13 R455). -/
  wdtAt : Nat := 0
  /-- tick of the last comparator test (13 R453). -/
  testAt : Nat := 0
  /-- tick of the last line path test (13 R462). -/
  lineTestAt : Nat := 0
  /-- next compared bit to invert (13 R453). -/
  testBit : Nat := 0
  /-- debug unlocked (13 R460). -/
  debug : Bool := false
  /-- pair halted by the debugger (13 R460). -/
  dbgHalt : Bool := false
  /-- kicks since resume (13 R460). -/
  dbgKicks : Nat := 2
  /-- split mode in force (13 R457). -/
  split : Bool := false
  /-- ticks at which full restarts began (13 R475). -/
  restarts : List Nat := []
  /-- ticks at which partial restarts began (13 R469). -/
  partials : List Nat := []
  /-- restart that the collector has called for: 0 none, 4 partial, 5 full (13 R469). -/
  restartDue : Nat := 0
  /-- device contents are declared lost (13 R480). -/
  zeroFill : Bool := false
  /-- answer of the last SMBus Block Read; empty for a NACK (13 R485). -/
  lastSm : List Byte := []
  /-- where the last datagram was sent: MAC and IP address, UDP port, VLAN tag (13 R482). -/
  mgmtTo : MgmtAddr := {}
  deriving DecidableEq, Repr

/-- Phase of the device as a whole (R407, R472, R475, R479, R480, R561). -/
structure DeviceMode where
  /-- main-die supplies are up (16 R553). -/
  power : Bool := true
  /-- RST_N is low (16 R553). -/
  rstLow : Bool := true
  /-- start step in progress; 0 before power good, 12 running (16 R561). -/
  step : Nat := 0
  /-- 1 start-up, 2 partial restart, 3 full restart, 0 running (13 R484). -/
  phase : Nat := 1
  /-- thermal shutdown (16 R557). -/
  shutdown : Bool := false
  /-- PWR_OFF_N pin level (16 R557). -/
  pwrOffN : Bool := true
  /-- latched after the third full restart (13 R475). -/
  latchedOff : Bool := false
  /-- tick the running state was reached (16 R561). -/
  runAt : Nat := 0
  /-- SUBSYS of the verified configuration (16 R559). -/
  subsys : Nat := 0
  deriving DecidableEq, Repr

/-- What the arbiter keeps of the first mismatch of a run (R500, R505); the capture buffer holds its bytes. -/
structure Capture where
  /-- SEQ (14 R507). -/
  seq : Nat := 0
  /-- 0x2001, 0x2002 or 0x2003 (14 R500). -/
  code : Nat := 0
  /-- logical tile (14 R507). -/
  tile : Nat := 0
  /-- physical tile (14 R507). -/
  phys : Nat := 0
  /-- job record (14 R505). -/
  job : Nat := 0
  /-- ORDINAL (14 R507). -/
  ordinal : Nat := 0
  /-- INDEX (14 R507). -/
  index : Nat := 0
  /-- PRED (14 R507). -/
  pred : Nat := 0
  /-- captured chunk sums (14 R507). -/
  sums : List Int := []
  /-- captured copy A (14 R507). -/
  resA : List Int := []
  /-- captured copy B (14 R507). -/
  resB : List Int := []
  /-- outcome, 0 none yet (14 R505). -/
  verdict : Nat := 0
  deriving DecidableEq, Repr

/-- An arbitration in progress (R500 to R506). -/
structure Arb where
  /-- the capture (14 R505). -/
  cap : Capture := {}
  /-- brood (14 R501). -/
  brood : Nat := 0
  /-- logical index of the failing part (14 R501). -/
  k : Nat := 0
  /-- original slot (14 R505). -/
  origSlot : Nat := 0
  /-- the rerun has started (14 R501). -/
  rerun : Bool := false
  /-- rerun sums of the captured vector (14 R505). -/
  sums : List Int := []
  /-- rerun result of the captured vector (14 R505). -/
  res : List Int := []
  /-- stage of the job (14 R507). -/
  stage : Nat := 0
  deriving DecidableEq, Repr

/-- The sliced test of one shared unit (R517 to R519). -/
structure Unit where
  /-- next slice of the pass (14 R517). -/
  slice : Nat := 0
  /-- a slice is running (14 R517). -/
  running : Bool := false
  /-- the last slice failed once (14 R519). -/
  failed : Bool := false
  /-- tick of the last complete pass (14 R519). -/
  passAt : Nat := 0
  /-- LFI breaches already raised (14 R513). -/
  lfiAt : Nat := 0
  /-- tick at which the present pass began (14 R520). -/
  passFrom : Nat := 0
  deriving DecidableEq, Repr

/-- A pending SELFTEST request (R520). -/
structure SelfTestReq where
  /-- selector (14 R520). -/
  sel : Nat := 0
  /-- brood, channel or instance (14 R520). -/
  unit : Nat := 0
  /-- row of R517 (14 R520). -/
  row : Nat := 0
  /-- TAG of the command (14 R520). -/
  tag : Nat := 0
  /-- tick of the request (14 R520). -/
  since : Nat := 0
  /-- slots that have passed (14 R520). -/
  done : List Nat := []
  deriving DecidableEq, Repr

/-- Checking and self-test beside its registers (R492 to R521). -/
structure Checking where
  /-- arbitrations in progress (14 R505). -/
  arbs : List Arb := []
  /-- sliced tests, row * 4096 + instance (14 R517). -/
  units : FMap Unit := []
  /-- pending SELFTEST requests (14 R520). -/
  reqs : List SelfTestReq := []
  /-- end of the granted test window (14 R520). -/
  windowEnd : Option Nat := none
  /-- full-chip BIST running since (14 R521). -/
  bistAt : Option Nat := none
  /-- jobs started on each physical tile (14 R509). -/
  jobsOn : FMap Nat := []
  deriving DecidableEq, Repr

/-- The copy in device memory of a model image that a start has loaded, and what was recorded of it (R563). -/
structure ImageCopy where
  /-- its start slot (16 R568). -/
  slot : Nat := 0
  /-- device address and length of the copy (06 R267). -/
  addr : Nat := 0
  bytes : Nat := 0
  /-- the digest recorded when the image was verified (16 R563). -/
  digest : List Byte := []
  /-- HOW, VERSION and SVN of its measurement (15 R535). -/
  how : Nat := 0
  version : Nat := 0
  svn : Nat := 0
  deriving DecidableEq, Repr

/-- The security block beside its registers (R524 to R539). -/
structure SecObj where
  /-- operation in progress: 0 none, 1 attest, 2 enrol, 3 challenge, 4 unlock (15 R551). -/
  op : Nat := 0
  /-- tick it started (15 R551). -/
  opAt : Nat := 0
  /-- challenge outstanding (15 R538). -/
  nonce : List Byte := []
  /-- tick of the challenge (15 R538). -/
  chalAt : Option Nat := none
  /-- measurements of the running set, in load order (15 R535). -/
  manifest : List (List Byte) := []
  /-- RSA identity keys ready (15 R534). -/
  rsaReady : Bool := false
  /-- SLH-DSA identity keys ready (15 R534). -/
  slhReady : Bool := false
  /-- the active dispatch image was molted (15 R535). -/
  molted : Bool := false
  /-- SEC_OP_ADDR of the operation in progress (15 R551). -/
  opAddr : Nat := 0
  /-- SEC_OP_LEN of the operation in progress (15 R551). -/
  opLen : Nat := 0
  /-- copies of the start's model images, recorded in the always-on domain (16 R563). -/
  copies : List ImageCopy := []
  /-- attestation report as formed, before its signatures (15 R535). -/
  report : List Byte := []
  deriving DecidableEq, Repr

/-- A record in the Cocoon mailbox (R541, R542). -/
structure MboxRec where
  /-- KIND (15 R542). -/
  kind : Nat := 0
  /-- TICK (15 R541). -/
  tick : Nat := 0
  /-- MSEQ (15 R541). -/
  mseq : Nat := 0
  /-- payload (15 R541). -/
  body : List Byte := []
  /-- FLAGS: bit 0 SEAL (15 R541). -/
  flags : Nat := 0
  /-- gPTP time (15 R541). -/
  time : Nat := 0
  /-- LOSS (15 R541). -/
  loss : Nat := 0
  deriving DecidableEq, Repr

/-- An entry of the Cocoon's chain (R543). -/
structure ChainEntry where
  /-- ESEQ (15 R543). -/
  eseq : Nat := 0
  /-- EPOCH (15 R543). -/
  epoch : Nat := 0
  /-- the 256 bytes of the entry (15 R543). -/
  data : List Byte := []
  deriving DecidableEq, Repr

/-- A closed or open epoch of the chain (R545). -/
structure Epoch where
  /-- number (15 R545). -/
  num : Nat := 0
  /-- first ESEQ (15 R545). -/
  first : Nat := 0
  /-- entries (15 R545). -/
  count : Nat := 0
  /-- sealed (15 R545). -/
  sealed : Bool := false
  /-- signing attempts (15 R545). -/
  tries : Nat := 0
  /-- closed: its seal waits, is written, or has failed (15 R545). -/
  closed : Bool := false
  /-- FLAGS bit 0 of its seal (15 R544). -/
  interrupted : Bool := false
  /-- its seal, once written (15 R545). -/
  stamp : List Byte := []
  deriving DecidableEq, Repr

/-- The recorder die (R540 to R550). -/
structure Cocoon where
  /-- mailbox, oldest first (15 R541). -/
  mbox : List MboxRec := []
  /-- entries in flash, newest first (15 R543). -/
  chain : List ChainEntry := []
  /-- epochs in flash, newest first (15 R545). -/
  epochs : List Epoch := []
  /-- tick the open epoch began (15 R545). -/
  openAt : Nat := 0
  /-- core being reset (15 R548). -/
  resetting : Bool := false
  /-- Cocoon supplies are up (15 R550). -/
  powered : Bool := true
  /-- export in progress: kind and epoch (15 R546). -/
  exportReq : Option (Nat × Nat) := none
  /-- update: 0 none, 1 receiving, 2 verifying, 3 waiting for the epoch boundary (15 R547). -/
  upd : Nat := 0
  /-- version of the staged recorder image (15 R547). -/
  updVer : Nat := 0
  /-- records offered to the mailbox, oldest first (15 R541). -/
  offers : List MboxRec := []
  /-- records dropped since the last accepted record (15 R541). -/
  drops : Nat := 0
  /-- the open epoch closes as soon as fewer than 4 seals wait (15 R545). -/
  closeDue : Bool := false
  /-- the Cocoon's anti-rollback counter (15 R547). -/
  svn : Nat := 0
  /-- key hash of the recorder root in the Cocoon's fuses; empty stands for all zero (15 R540). -/
  recRoot : List Byte := []
  /-- device address of the update (15 R547). -/
  updAt : Nat := 0
  /-- length of the update (15 R547). -/
  updLen : Nat := 0
  /-- bytes passed into the mailbox (15 R547). -/
  updSent : Nat := 0
  /-- image in the inactive flash bank (15 R547). -/
  staged : List Byte := []
  /-- digest of the verified update (15 R547). -/
  updDigest : List Byte := []
  /-- SVN of the verified update (15 R547). -/
  updSvn : Nat := 0
  /-- digest of the running recorder image (15 R535). -/
  digest : List Byte := []
  /-- HASH of the last entry; empty before the first (15 R543). -/
  head : List Byte := []
  /-- first epoch at whose boundary the verified update is applied: the one open when it was verified (15 R547). -/
  updEpoch : Nat := 0
  deriving DecidableEq, Repr

/-- Power, clock and temperature beside their registers (R553 to R557, R598). -/
structure Power where
  /-- temperature sensors, in 1/16 degree (17 R598). -/
  temps : FMap Int := []
  /-- rows of R433 in force (12 R433). -/
  limits : List Nat := []
  /-- tick since which each row's end condition has held (12 R433). -/
  coolAt : FMap Nat := []
  /-- array clock the power budget allows (16 R556). -/
  budgetMhz : Nat := 600
  /-- earliest tick of the next step of the core rail request (16 R555). -/
  avsNext : Nat := 0
  deriving DecidableEq, Repr

/-- One persistent word (R572 to R574). -/
structure PWord where
  /-- value (16 R572). -/
  value : BitVec 32 := 0#32
  /-- writes so far (16 R573). -/
  writes : Nat := 0
  /-- reads uncorrectable (16 R574). -/
  bad : Bool := false
  /-- a write has been refused at the endurance limit (16 R573). -/
  limit : Bool := false
  /-- a corrected single-bit error that no rewrite has cleared yet (16 R574). -/
  err : Bool := false
  deriving DecidableEq, Repr

/-- Fuses and identity of the die and package (R1, R87, R524). -/
structure Fuses where
  /-- QPA-1024-B (01 R1). -/
  variantB : Bool := false
  /-- serial number (15 R527). -/
  serial : BitVec 64 := 0#64
  /-- OWNER_ROOT; empty stands for all zero (15 R524). -/
  ownerRoot : List Byte := []
  /-- OWNER_LOCK (15 R524). -/
  ownerLock : Bool := false
  /-- SPLIT_DISABLE (15 R524). -/
  splitDisable : Bool := false
  /-- DEBUG_DISABLE (15 R524). -/
  debugDisable : Bool := false
  /-- slots fused off in service (physical tile numbers) (02 R58). -/
  fusedOff : List Nat := []
  /-- PRATHAR_ROOT; empty stands for all zero (15 R524). -/
  pratharRoot : List Byte := []
  /-- silicon step (HIF_ID.STEP) (11 R426). -/
  step : Nat := 0
  /-- DEVICE_SEED (15 R524). -/
  deviceSeed : List Byte := []
  deriving DecidableEq, Repr

/-- The addressed memories (R12, R13) and what protects them. -/
structure Mem where
  /-- every addressed byte, by device address: GDDR6 data, tile, brood and system SRAM (00 R12). -/
  cells : FMap Byte := []
  /-- per GDDR6 sector, its stored check word xor the check word of its stored data (10 R370). -/
  chk : FMap (BitVec 16) := []
  /-- SRAM words in error, by device address of the word (10 R388). -/
  sram : FMap SramErr := []
  deriving DecidableEq, Repr

/-- The logical tiles, broods and slots. -/
structure Swarm where
  /-- logical tiles by number (00 R4). -/
  tiles : FMap TileState := []
  /-- broods by number (00 R4). -/
  broods : FMap Brood := []
  /-- physical tiles by number (00 R4). -/
  slots : FMap Slot := []
  /-- global objects; a barrier as in SYN_OBJ (05 R196). -/
  gobj : FMap (BitVec 32) := []
  /-- participant count of each global object that is a barrier; 0 for a counter (05 R197). -/
  gbar : FMap Nat := []
  deriving DecidableEq, Repr

/-- Messages, synchronisation operations, chip links and SYNC_IO. -/
structure Mesh where
  /-- messages in flight, oldest first (05 R191). -/
  msgs : List Msg := []
  /-- synchronisation operations in flight or waiting, oldest first (05 R198). -/
  ops : List SyncOp := []
  /-- chip-link ports (05 R208). -/
  ports : FMap Port := []
  /-- SYNC_IO barrier (05 R220). -/
  sio : SyncIo := {}
  deriving DecidableEq, Repr

/-- An output export in progress on the management port (R570). -/
structure Export where
  /-- pipeline (16 R570). -/
  pipe : Nat := 0
  /-- published frame (16 R570). -/
  frame : Frame := {}
  /-- publication tick (16 R570). -/
  tick : Nat := 0
  /-- FLAGS bit 1 QM (16 R570). -/
  qm : Bool := false
  /-- list index of the stage being sent (16 R570). -/
  ix : Nat := 0
  /-- OFFSET of the next datagram (16 R570). -/
  off : Nat := 0
  deriving DecidableEq, Repr

/-- A load whose checks have passed: what becomes resident once its sections are written (R265, R266). -/
structure Loading where
  /-- models of the image (06 R265). -/
  models : List Model := []
  /-- pipelines they carry (06 R263). -/
  pipes : List Pipeline := []
  /-- bindings of their stages (06 R268). -/
  binds : List Binding := []
  deriving DecidableEq, Repr

/-- Models, pipelines, jobs and the sequencer. -/
structure Sched where
  /-- the load whose sections are still being written (06 R266). -/
  loading : Option Loading := none
  /-- resident models in ascending slot order (06 R268). -/
  models : List Model := []
  /-- bindings of stages (06 R268). -/
  binds : List Binding := []
  /-- loaded pipelines (06 R263). -/
  pipes : List Pipeline := []
  /-- jobs in flight, oldest first (01 R37). -/
  jobs : List Job := []
  /-- next job record number (01 R39). -/
  nextJob : Nat := 1
  /-- next sequencer tag, 0xFFC0 to 0xFFFF (11 R413). -/
  seqTag : Nat := 65472
  /-- jobs started through TIL_CTRL.START that run or wait for a move (02 R85). -/
  singles : List Job := []
  /-- pending switch requests: stage, slot, tag of its command (06 R269). -/
  switches : List (Nat × Nat × Option Nat) := []
  /-- section pieces not yet written (06 R266). -/
  pieces : List SectionPiece := []
  /-- exports in progress, oldest first (16 R570). -/
  exports : List Export := []
  /-- what the last publication that exports on the chip links wrote: port, entry of the peer's ring (16 R571). -/
  linkOut : List (Nat × List Byte) := []
  /-- next entry of each port's export ring (16 R571). -/
  expNext : FMap Nat := []
  deriving DecidableEq, Repr

/-- An encoder descriptor in force (R335). -/
structure EncDesc where
  /-- EN (08 R335). -/
  en : Bool := false
  /-- SRC (08 R335). -/
  src : Nat := 0
  /-- SRCSEL (08 R335). -/
  sel : Nat := 0
  /-- DECIM (08 R335). -/
  decim : Nat := 1
  /-- BPP (08 R335). -/
  bpp : Nat := 0
  /-- CLIP (08 R335). -/
  clip : Nat := 0
  /-- CLIP_BYTES (08 R335). -/
  clipBytes : Nat := 0
  /-- NCLIP (08 R335). -/
  nclip : Nat := 0
  /-- ENC_BUDGET (08 R335). -/
  budget : Nat := 0
  /-- HLVL (08 R335). -/
  hlvl : Nat := 0
  /-- VLVL (08 R335). -/
  vlvl : Nat := 0
  deriving DecidableEq, Repr

/-- Camera and network streams, JPEG XS and warp engines, Ethernet. -/
structure Intake where
  /-- streams by index (08 R303). -/
  streams : FMap Stream := []
  /-- index of the waiting INT_DESC_UPD (08 R306). -/
  updWait : Option Nat := none
  /-- JPEG XS engines (08 R327). -/
  jxs : FMap JxsEngine := []
  /-- warp engines (09 R341). -/
  warps : FMap WarpEngine := []
  /-- applied copies of the warp configurations (09 R347). -/
  warpApplied : FMap Byte := []
  /-- frames waiting for a warp engine, in assignment order (09 R342). -/
  waitQ : List ReadyFrame := []
  /-- reruns waiting for their engine (09 R342). -/
  rerunQ : List RerunWait := []
  /-- JPEG XS samples ready for their engine: engine, stream, sample (08 R327). -/
  jxsQ : List (Nat × Nat × Sample) := []
  /-- tick of the last gPTP Sync (08 R322). -/
  syncAt : Nat := 0
  /-- gPTP sync interval in ticks (08 R322). -/
  syncInt : Nat := 0
  /-- stamp of the last gPTP event message transmitted (08 R321). -/
  txStamp : Nat := 0
  /-- encoder descriptors in force (08 R335). -/
  encs : FMap EncDesc := []
  /-- selected admitted frames to encode: engine, stream, sample (08 R335). -/
  encQ : List (Nat × Nat × Sample) := []
  /-- configuration that WRP_CFG_UPD waits for (09 R347). -/
  warpNo : Option Nat := none
  /-- its new entry, once a stream has reached its boundary (09 R347). -/
  warpNew : List Byte := []
  /-- streams that already work from the new entry (09 R347). -/
  warpDone : List Nat := []
  /-- what the sensor control sequences of the last start wrote: I2C port, target address, bytes, oldest first (16 R569). -/
  sensorOut : List (Nat × Nat × List Byte) := []
  deriving DecidableEq, Repr

/-- The persistent word block and the volatile forms of its words (R572 to R577). -/
structure Persist where
  /-- words that are not 0 or have been written; at manufacture the three threshold words of R510 (16 R575). -/
  words : FMap PWord := [(256, { value := 0x200003e8#32 }), (257, { value := 0x300f4240#32 }), (258, { value := 2000#32 })]
  /-- writes requested and not yet durable, oldest first (16 R572). -/
  queue : List (Nat × BitVec 32) := []
  /-- refused fence, QM and replacement values applied until the next restart (16 R573). -/
  vol : FMap (BitVec 32) := []
  /-- volatile form of the lifetime counters 0x121 to 0x12A, as the rise since the last write (16 R577). -/
  life : FMap Nat := []
  /-- tick of the last write of each lifetime counter (16 R577). -/
  lifeAt : FMap Nat := []
  /-- tick of the last completed hour (16 R575). -/
  hourAt : Nat := 0
  /-- the hottest sensor has been at 40 degrees or less since the last thermal cycle (16 R575). -/
  cold : Bool := true
  deriving DecidableEq, Repr

/-- The whole block. Registers are fields of regs; every other component is grouped by its chapter. -/
structure State where
  /-- device time base (01 R47). -/
  tick : Nat := 0
  /-- fuses (15 R524). -/
  fuses : Fuses := {}
  /-- configuration image in force (16 R568). -/
  cfg : Cfg := {}
  /-- phase of the device (16 R561). -/
  dev : DeviceMode := {}
  /-- register fields that differ from reset (00 R6). -/
  regs : FMap Nat := []
  /-- memories (10). -/
  mem : Mem := {}
  /-- GDDR6 channels (10 R364). -/
  chans : FMap MemChan := []
  /-- tiles, broods, slots, global objects (02). -/
  swarm : Swarm := {}
  /-- mesh, chip links, SYNC_IO (05). -/
  mesh : Mesh := {}
  /-- models, pipelines, jobs (06). -/
  sched : Sched := {}
  /-- intake, JPEG XS and warp engines (08). -/
  intake : Intake := {}
  /-- host interface (11). -/
  host : HostIf := {}
  /-- device-wide function modes (01 R42). -/
  modes : Modes := {}
  /-- firmware (12). -/
  fw : Fw := {}
  /-- Carapace (13). -/
  cara : Carapace := {}
  /-- checking and self-test (14). -/
  chk : Checking := {}
  /-- security block (15). -/
  sec : SecObj := {}
  /-- Cocoon (15 R540). -/
  coc : Cocoon := {}
  /-- power and sensors (16). -/
  pwr : Power := {}
  /-- persistent words (16 R572). -/
  prs : Persist := {}
  /-- MODEL: number of free values taken so far; no property of the hardware (the model's own). -/
  freeCtr : Nat := 0
  /-- commands waiting, first in, first out (the model's own). -/
  pending : List Instr := []
  deriving DecidableEq, Repr

/-- Why the machine stops with a fault. Nothing the spec describes makes this block stop: an access to a hole, a
damaged word or a refused command has an effect the spec gives. -/
inductive Fault where
  /-- Raised by no meaning; kept so that the type is inhabited (safe: the machine never stops with it). -/
  | none
  deriving DecidableEq, Repr

/-- Why a command is refused. -/
inductive Refusal where
  /-- A command that has no meaning yet (safe: the machine stops). -/
  | notModelled (mnemonic : String)
  deriving DecidableEq, Repr

/-- The block before power good (R553), as manufactured (R464, R575),
every register field at its reset value. The values the spec does not give are named in log entries 3 and 4. -/
def State.reset : State := {}

end Sys2Proof.Machine
end

