-- ==== Sys2Proof/Machine/Regs.lean ====
section
/-! DEFINITION. The register fields of the block, from the register tables of every chapter: where each lies, its width, its
type code, its reset value and whether its count wraps. Reset values that come from images, fuses or the Cocoon are 0 here
(log entry 3). -/
namespace Sys2Proof.Machine

/-- Type codes of register fields (R9). -/
inductive FTy where
  | ro
  | rw
  | w1c
  | w1s
  | wo
  | rwp
  | ros
  deriving DecidableEq, Repr

/-- Fields that are read from another component of the state. -/
inductive View where
  | stored
  | TIL_STATUS_JOB_TAG
  | TIL_STATUS_STAGE
  | TIL_STATUS_FUSED
  | TIL_STATUS_ERR
  | TIL_STATUS_STATE
  | TIL_PC_PC
  | TIL_MAP_MOVING
  | TIL_MAP_CLASS
  | TIL_MAP_SLOT
  | TIL_MAP_PHYS
  | BRD_STATUS_GOOD_COUNT
  | BRD_STATUS_TEST_BUSY
  | BRD_STATUS_ROT_BUSY
  | BRD_STATUS_NO_MARGIN
  | ARR_STATUS_BUSY
  | ARR_STATUS_FUSED
  | ARR_STATUS_LEAD
  | ARR_SPARE_SPARE_COL
  | ARR_SPARE_SPARE_ROW
  | ARR_SKEW_DONE
  | ARR_SKEW_COL_PROG
  | ARR_SKEW_ROW_PROG
  | ARR_BANK_B1_FMT
  | ARR_BANK_B0_FMT
  | ARR_BANK_LOAD_BUSY
  | ARR_BANK_LOAD_BANK
  | ARR_BANK_LAST_BANK
  | ARR_BANK_B1_DUAL
  | ARR_BANK_B0_DUAL
  | ARR_BANK_B1_LOADED
  | ARR_BANK_B0_LOADED
  | ARR_RAMP_PHASE
  | ARR_RAMP_LEVEL
  | ARR_KMASK0_KMASK
  | ARR_KMASK1_KMASK
  | ARR_NMASK0_NMASK
  | ARR_NMASK1_NMASK
  | SYN_OBJ_VALUE
  | INT_DESC_UPD_PENDING
  | INT_STATE_STATE
  | WRP_CFG_UPD_PENDING
  | MEM_LOST_USED
  | HIF_ID_DEVICE
  | HIF_ID_STEP
  | HIF_JOBS_HOST
  | HIF_JOBS_SEQR
  | SAF_STATUS_STATE
  | SAF_STATUS_ALIVE_LVL
  | SAF_STATUS_ALIVE_RUN
  | SAF_STATUS_DEBUG
  | SAF_STATUS_SPLIT
  | SAF_STATUS_SAFETY
  | SAF_WIN_STAT_LAST
  | SAF_WIN_CNT_LATE
  | SAF_WIN_CNT_EARLY
  | SAF_TLOG_HEAD_NEXT
  | SAF_TLOG_DATA_WORD
  | FCL_STATE_DECIDE_WAIT
  | FCL_STATE_MODE
  | FCL_STATE_PENDING
  | FCL_REACT_VALID
  | FCL_REACT_SAFETY
  | FCL_REACT_DECIDE
  | FCL_REACT_REACTION
  | FCL_REACT_FLOOR
  | FCL_REACT_CODE
  | SEC_STATUS_OWNER
  | SEC_STATUS_DEBUG_DISABLE
  | SEC_STATUS_SPLIT_DISABLE
  | COC_STATUS_POWER_OK
  | COC_STATUS_FREE
  | WRP_STATUS_COPY
  | JXS_LOAD_RESERVED_CYCLES
  | MEM_STATUS_STATE
  | MEM_OUTST_NOW
  | PWR_TEMP_MAX
  | PWR_TEMP_SENSOR
  | PWR_SENSOR_TEMP
  | PRS_STATUS_BUSY
  | PRS_WORD_VALUE
  | PRS_WCNT_LIMIT
  | PRS_WCNT_WRITES
  deriving DecidableEq, Repr

/-- A field of a register: the block-window offset of its register in instance 0, the stride and number of instances, its
lowest bit and width, its type, its value at reset (R8, R9), whether its count wraps (else it saturates), and where a
field that another component of the state holds is read from. -/
structure Fld where
  off : Nat
  stride : Nat
  n : Nat
  lo : Nat
  w : Nat
  ty : FTy
  rst : Nat
  wrap : Bool
  view : View
  deriving DecidableEq, Repr

namespace F

/-- TIL_CTRL.HALT_REQ (R84). -/
def TIL_CTRL_HALT_REQ : Fld := ⟨0, 2048, 2048, 1, 1, .w1s, 0, false, .stored⟩
/-- TIL_CTRL.START (R84). -/
def TIL_CTRL_START : Fld := ⟨0, 2048, 2048, 0, 1, .w1s, 0, false, .stored⟩
/-- TIL_STATUS.JOB_TAG (R85). -/
def TIL_STATUS_JOB_TAG : Fld := ⟨4, 2048, 2048, 16, 16, .ro, 0, false, .TIL_STATUS_JOB_TAG⟩
/-- TIL_STATUS.STAGE (R85). -/
def TIL_STATUS_STAGE : Fld := ⟨4, 2048, 2048, 8, 8, .ro, 0, false, .TIL_STATUS_STAGE⟩
/-- TIL_STATUS.FUSED (R85). -/
def TIL_STATUS_FUSED : Fld := ⟨4, 2048, 2048, 3, 1, .ro, 0, false, .TIL_STATUS_FUSED⟩
/-- TIL_STATUS.ERR (R85). -/
def TIL_STATUS_ERR : Fld := ⟨4, 2048, 2048, 2, 1, .ro, 0, false, .TIL_STATUS_ERR⟩
/-- TIL_STATUS.STATE (R85). -/
def TIL_STATUS_STATE : Fld := ⟨4, 2048, 2048, 0, 2, .ro, 0, false, .TIL_STATUS_STATE⟩
/-- TIL_PC.PC (R85). -/
def TIL_PC_PC : Fld := ⟨8, 2048, 2048, 0, 14, .ro, 0, false, .TIL_PC_PC⟩
/-- TIL_HALT.VALID (R85). -/
def TIL_HALT_VALID : Fld := ⟨12, 2048, 2048, 31, 1, .ros, 0, false, .stored⟩
/-- TIL_HALT.HALT_PC (R85). -/
def TIL_HALT_HALT_PC : Fld := ⟨12, 2048, 2048, 16, 14, .ros, 0, false, .stored⟩
/-- TIL_HALT.CAUSE (R85). -/
def TIL_HALT_CAUSE : Fld := ⟨12, 2048, 2048, 0, 8, .ros, 0, false, .stored⟩
/-- TIL_MAP.MOVING (R85). -/
def TIL_MAP_MOVING : Fld := ⟨16, 2048, 2048, 28, 1, .ro, 0, false, .TIL_MAP_MOVING⟩
/-- TIL_MAP.CLASS (R85). -/
def TIL_MAP_CLASS : Fld := ⟨16, 2048, 2048, 24, 2, .ro, 0, false, .TIL_MAP_CLASS⟩
/-- TIL_MAP.SLOT (R85). -/
def TIL_MAP_SLOT : Fld := ⟨16, 2048, 2048, 16, 5, .ro, 0, false, .TIL_MAP_SLOT⟩
/-- TIL_MAP.PHYS (R85). -/
def TIL_MAP_PHYS : Fld := ⟨16, 2048, 2048, 0, 12, .ro, 0, false, .TIL_MAP_PHYS⟩
/-- BRD_CTRL.ROT_GRANT (R86). -/
def BRD_CTRL_ROT_GRANT : Fld := ⟨4194304, 4096, 128, 1, 1, .w1s, 0, false, .stored⟩
/-- BRD_CTRL.ROT_EN (R86). -/
def BRD_CTRL_ROT_EN : Fld := ⟨4194304, 4096, 128, 0, 1, .rw, 1, false, .stored⟩
/-- BRD_STATUS.GOOD_COUNT (R86). -/
def BRD_STATUS_GOOD_COUNT : Fld := ⟨4194308, 4096, 128, 16, 5, .ro, 17, false, .BRD_STATUS_GOOD_COUNT⟩
/-- BRD_STATUS.EXCLUDED (R86). -/
def BRD_STATUS_EXCLUDED : Fld := ⟨4194308, 4096, 128, 14, 1, .ro, 0, false, .stored⟩
/-- BRD_STATUS.TEST_SLOT (R86). -/
def BRD_STATUS_TEST_SLOT : Fld := ⟨4194308, 4096, 128, 9, 5, .ro, 16, false, .stored⟩
/-- BRD_STATUS.SPARE_SLOT (R86). -/
def BRD_STATUS_SPARE_SLOT : Fld := ⟨4194308, 4096, 128, 4, 5, .ro, 16, false, .stored⟩
/-- BRD_STATUS.TEST_BUSY (R86). -/
def BRD_STATUS_TEST_BUSY : Fld := ⟨4194308, 4096, 128, 3, 1, .ro, 0, false, .BRD_STATUS_TEST_BUSY⟩
/-- BRD_STATUS.ROT_BUSY (R86). -/
def BRD_STATUS_ROT_BUSY : Fld := ⟨4194308, 4096, 128, 2, 1, .ro, 0, false, .BRD_STATUS_ROT_BUSY⟩
/-- BRD_STATUS.NO_MARGIN (R86). -/
def BRD_STATUS_NO_MARGIN : Fld := ⟨4194308, 4096, 128, 1, 1, .ro, 0, false, .BRD_STATUS_NO_MARGIN⟩
/-- BRD_STATUS.MODE (R86). -/
def BRD_STATUS_MODE : Fld := ⟨4194308, 4096, 128, 0, 1, .ro, 0, false, .stored⟩
/-- BRD_MAP0.VALID3 (R86). -/
def BRD_MAP0_VALID3 : Fld := ⟨4194312, 4096, 128, 31, 1, .ro, 1, false, .stored⟩
/-- BRD_MAP0.SLOT3 (R86). -/
def BRD_MAP0_SLOT3 : Fld := ⟨4194312, 4096, 128, 24, 5, .ro, 3, false, .stored⟩
/-- BRD_MAP0.VALID2 (R86). -/
def BRD_MAP0_VALID2 : Fld := ⟨4194312, 4096, 128, 23, 1, .ro, 1, false, .stored⟩
/-- BRD_MAP0.SLOT2 (R86). -/
def BRD_MAP0_SLOT2 : Fld := ⟨4194312, 4096, 128, 16, 5, .ro, 2, false, .stored⟩
/-- BRD_MAP0.VALID1 (R86). -/
def BRD_MAP0_VALID1 : Fld := ⟨4194312, 4096, 128, 15, 1, .ro, 1, false, .stored⟩
/-- BRD_MAP0.SLOT1 (R86). -/
def BRD_MAP0_SLOT1 : Fld := ⟨4194312, 4096, 128, 8, 5, .ro, 1, false, .stored⟩
/-- BRD_MAP0.VALID0 (R86). -/
def BRD_MAP0_VALID0 : Fld := ⟨4194312, 4096, 128, 7, 1, .ro, 1, false, .stored⟩
/-- BRD_MAP0.SLOT0 (R86). -/
def BRD_MAP0_SLOT0 : Fld := ⟨4194312, 4096, 128, 0, 5, .ro, 0, false, .stored⟩
/-- BRD_MAP1.VALID7 (R86). -/
def BRD_MAP1_VALID7 : Fld := ⟨4194316, 4096, 128, 31, 1, .ro, 1, false, .stored⟩
/-- BRD_MAP1.SLOT7 (R86). -/
def BRD_MAP1_SLOT7 : Fld := ⟨4194316, 4096, 128, 24, 5, .ro, 7, false, .stored⟩
/-- BRD_MAP1.VALID6 (R86). -/
def BRD_MAP1_VALID6 : Fld := ⟨4194316, 4096, 128, 23, 1, .ro, 1, false, .stored⟩
/-- BRD_MAP1.SLOT6 (R86). -/
def BRD_MAP1_SLOT6 : Fld := ⟨4194316, 4096, 128, 16, 5, .ro, 6, false, .stored⟩
/-- BRD_MAP1.VALID5 (R86). -/
def BRD_MAP1_VALID5 : Fld := ⟨4194316, 4096, 128, 15, 1, .ro, 1, false, .stored⟩
/-- BRD_MAP1.SLOT5 (R86). -/
def BRD_MAP1_SLOT5 : Fld := ⟨4194316, 4096, 128, 8, 5, .ro, 5, false, .stored⟩
/-- BRD_MAP1.VALID4 (R86). -/
def BRD_MAP1_VALID4 : Fld := ⟨4194316, 4096, 128, 7, 1, .ro, 1, false, .stored⟩
/-- BRD_MAP1.SLOT4 (R86). -/
def BRD_MAP1_SLOT4 : Fld := ⟨4194316, 4096, 128, 0, 5, .ro, 4, false, .stored⟩
/-- BRD_MAP2.VALID11 (R86). -/
def BRD_MAP2_VALID11 : Fld := ⟨4194320, 4096, 128, 31, 1, .ro, 1, false, .stored⟩
/-- BRD_MAP2.SLOT11 (R86). -/
def BRD_MAP2_SLOT11 : Fld := ⟨4194320, 4096, 128, 24, 5, .ro, 11, false, .stored⟩
/-- BRD_MAP2.VALID10 (R86). -/
def BRD_MAP2_VALID10 : Fld := ⟨4194320, 4096, 128, 23, 1, .ro, 1, false, .stored⟩
/-- BRD_MAP2.SLOT10 (R86). -/
def BRD_MAP2_SLOT10 : Fld := ⟨4194320, 4096, 128, 16, 5, .ro, 10, false, .stored⟩
/-- BRD_MAP2.VALID9 (R86). -/
def BRD_MAP2_VALID9 : Fld := ⟨4194320, 4096, 128, 15, 1, .ro, 1, false, .stored⟩
/-- BRD_MAP2.SLOT9 (R86). -/
def BRD_MAP2_SLOT9 : Fld := ⟨4194320, 4096, 128, 8, 5, .ro, 9, false, .stored⟩
/-- BRD_MAP2.VALID8 (R86). -/
def BRD_MAP2_VALID8 : Fld := ⟨4194320, 4096, 128, 7, 1, .ro, 1, false, .stored⟩
/-- BRD_MAP2.SLOT8 (R86). -/
def BRD_MAP2_SLOT8 : Fld := ⟨4194320, 4096, 128, 0, 5, .ro, 8, false, .stored⟩
/-- BRD_MAP3.VALID15 (R86). -/
def BRD_MAP3_VALID15 : Fld := ⟨4194324, 4096, 128, 31, 1, .ro, 1, false, .stored⟩
/-- BRD_MAP3.SLOT15 (R86). -/
def BRD_MAP3_SLOT15 : Fld := ⟨4194324, 4096, 128, 24, 5, .ro, 15, false, .stored⟩
/-- BRD_MAP3.VALID14 (R86). -/
def BRD_MAP3_VALID14 : Fld := ⟨4194324, 4096, 128, 23, 1, .ro, 1, false, .stored⟩
/-- BRD_MAP3.SLOT14 (R86). -/
def BRD_MAP3_SLOT14 : Fld := ⟨4194324, 4096, 128, 16, 5, .ro, 14, false, .stored⟩
/-- BRD_MAP3.VALID13 (R86). -/
def BRD_MAP3_VALID13 : Fld := ⟨4194324, 4096, 128, 15, 1, .ro, 1, false, .stored⟩
/-- BRD_MAP3.SLOT13 (R86). -/
def BRD_MAP3_SLOT13 : Fld := ⟨4194324, 4096, 128, 8, 5, .ro, 13, false, .stored⟩
/-- BRD_MAP3.VALID12 (R86). -/
def BRD_MAP3_VALID12 : Fld := ⟨4194324, 4096, 128, 7, 1, .ro, 1, false, .stored⟩
/-- BRD_MAP3.SLOT12 (R86). -/
def BRD_MAP3_SLOT12 : Fld := ⟨4194324, 4096, 128, 0, 5, .ro, 12, false, .stored⟩
/-- BRD_SLOTS0.STATE_15 (R86). -/
def BRD_SLOTS0_STATE_15 : Fld := ⟨4194328, 4096, 128, 30, 2, .ro, 0, false, .stored⟩
/-- BRD_SLOTS0.STATE_14 (R86). -/
def BRD_SLOTS0_STATE_14 : Fld := ⟨4194328, 4096, 128, 28, 2, .ro, 0, false, .stored⟩
/-- BRD_SLOTS0.STATE_13 (R86). -/
def BRD_SLOTS0_STATE_13 : Fld := ⟨4194328, 4096, 128, 26, 2, .ro, 0, false, .stored⟩
/-- BRD_SLOTS0.STATE_12 (R86). -/
def BRD_SLOTS0_STATE_12 : Fld := ⟨4194328, 4096, 128, 24, 2, .ro, 0, false, .stored⟩
/-- BRD_SLOTS0.STATE_11 (R86). -/
def BRD_SLOTS0_STATE_11 : Fld := ⟨4194328, 4096, 128, 22, 2, .ro, 0, false, .stored⟩
/-- BRD_SLOTS0.STATE_10 (R86). -/
def BRD_SLOTS0_STATE_10 : Fld := ⟨4194328, 4096, 128, 20, 2, .ro, 0, false, .stored⟩
/-- BRD_SLOTS0.STATE_9 (R86). -/
def BRD_SLOTS0_STATE_9 : Fld := ⟨4194328, 4096, 128, 18, 2, .ro, 0, false, .stored⟩
/-- BRD_SLOTS0.STATE_8 (R86). -/
def BRD_SLOTS0_STATE_8 : Fld := ⟨4194328, 4096, 128, 16, 2, .ro, 0, false, .stored⟩
/-- BRD_SLOTS0.STATE_7 (R86). -/
def BRD_SLOTS0_STATE_7 : Fld := ⟨4194328, 4096, 128, 14, 2, .ro, 0, false, .stored⟩
/-- BRD_SLOTS0.STATE_6 (R86). -/
def BRD_SLOTS0_STATE_6 : Fld := ⟨4194328, 4096, 128, 12, 2, .ro, 0, false, .stored⟩
/-- BRD_SLOTS0.STATE_5 (R86). -/
def BRD_SLOTS0_STATE_5 : Fld := ⟨4194328, 4096, 128, 10, 2, .ro, 0, false, .stored⟩
/-- BRD_SLOTS0.STATE_4 (R86). -/
def BRD_SLOTS0_STATE_4 : Fld := ⟨4194328, 4096, 128, 8, 2, .ro, 0, false, .stored⟩
/-- BRD_SLOTS0.STATE_3 (R86). -/
def BRD_SLOTS0_STATE_3 : Fld := ⟨4194328, 4096, 128, 6, 2, .ro, 0, false, .stored⟩
/-- BRD_SLOTS0.STATE_2 (R86). -/
def BRD_SLOTS0_STATE_2 : Fld := ⟨4194328, 4096, 128, 4, 2, .ro, 0, false, .stored⟩
/-- BRD_SLOTS0.STATE_1 (R86). -/
def BRD_SLOTS0_STATE_1 : Fld := ⟨4194328, 4096, 128, 2, 2, .ro, 0, false, .stored⟩
/-- BRD_SLOTS0.STATE_0 (R86). -/
def BRD_SLOTS0_STATE_0 : Fld := ⟨4194328, 4096, 128, 0, 2, .ro, 0, false, .stored⟩
/-- BRD_SLOTS1.STATE_16 (R86). -/
def BRD_SLOTS1_STATE_16 : Fld := ⟨4194332, 4096, 128, 0, 2, .ro, 0, false, .stored⟩
/-- BRD_ROT_COUNT.MOVES (R86). -/
def BRD_ROT_COUNT_MOVES : Fld := ⟨4194336, 4096, 128, 0, 32, .ros, 0, true, .stored⟩
/-- BRD_ROT_EVENTS.WAITS (R86). -/
def BRD_ROT_EVENTS_WAITS : Fld := ⟨4194340, 4096, 128, 16, 16, .ros, 0, false, .stored⟩
/-- BRD_ROT_EVENTS.ABORTS (R86). -/
def BRD_ROT_EVENTS_ABORTS : Fld := ⟨4194340, 4096, 128, 0, 16, .ros, 0, false, .stored⟩
/-- BRD_LAST_TEST.SKEW_FAIL (R86). -/
def BRD_LAST_TEST_SKEW_FAIL : Fld := ⟨4194344, 4096, 128, 12, 1, .ros, 0, false, .stored⟩
/-- BRD_LAST_TEST.DONE (R86). -/
def BRD_LAST_TEST_DONE : Fld := ⟨4194344, 4096, 128, 11, 1, .ros, 0, false, .stored⟩
/-- BRD_LAST_TEST.ABORTED (R86). -/
def BRD_LAST_TEST_ABORTED : Fld := ⟨4194344, 4096, 128, 10, 1, .ros, 0, false, .stored⟩
/-- BRD_LAST_TEST.MBIST_FAIL (R86). -/
def BRD_LAST_TEST_MBIST_FAIL : Fld := ⟨4194344, 4096, 128, 9, 1, .ros, 0, false, .stored⟩
/-- BRD_LAST_TEST.LBIST_FAIL (R86). -/
def BRD_LAST_TEST_LBIST_FAIL : Fld := ⟨4194344, 4096, 128, 8, 1, .ros, 0, false, .stored⟩
/-- BRD_LAST_TEST.SLOT (R86). -/
def BRD_LAST_TEST_SLOT : Fld := ⟨4194344, 4096, 128, 0, 5, .ros, 0, false, .stored⟩
/-- ARR_CTRL.CLR_CNT (R139). -/
def ARR_CTRL_CLR_CNT : Fld := ⟨4718592, 256, 2048, 0, 1, .w1s, 0, false, .stored⟩
/-- ARR_STATUS.BUSY (R139). -/
def ARR_STATUS_BUSY : Fld := ⟨4718596, 256, 2048, 31, 1, .ro, 0, false, .ARR_STATUS_BUSY⟩
/-- ARR_STATUS.FUSED (R139). -/
def ARR_STATUS_FUSED : Fld := ⟨4718596, 256, 2048, 30, 1, .ro, 0, false, .ARR_STATUS_FUSED⟩
/-- ARR_STATUS.LEAD (R139). -/
def ARR_STATUS_LEAD : Fld := ⟨4718596, 256, 2048, 29, 1, .ro, 0, false, .ARR_STATUS_LEAD⟩
/-- ARR_STATUS.AFMT (R139). -/
def ARR_STATUS_AFMT : Fld := ⟨4718596, 256, 2048, 24, 5, .ro, 0, false, .stored⟩
/-- ARR_STATUS.OP (R139). -/
def ARR_STATUS_OP : Fld := ⟨4718596, 256, 2048, 21, 3, .ro, 0, false, .stored⟩
/-- ARR_STATUS.DRAIN_SAT (R139). -/
def ARR_STATUS_DRAIN_SAT : Fld := ⟨4718596, 256, 2048, 2, 1, .w1c, 0, false, .stored⟩
/-- ARR_STATUS.ACC_SAT (R139). -/
def ARR_STATUS_ACC_SAT : Fld := ⟨4718596, 256, 2048, 1, 1, .w1c, 0, false, .stored⟩
/-- ARR_SPARE.SPARE_COL (R139). -/
def ARR_SPARE_SPARE_COL : Fld := ⟨4718600, 256, 2048, 8, 6, .ro, 0, false, .ARR_SPARE_SPARE_COL⟩
/-- ARR_SPARE.SPARE_ROW (R139). -/
def ARR_SPARE_SPARE_ROW : Fld := ⟨4718600, 256, 2048, 0, 6, .ro, 0, false, .ARR_SPARE_SPARE_ROW⟩
/-- ARR_SKEW.DONE (R139). -/
def ARR_SKEW_DONE : Fld := ⟨4718604, 256, 2048, 31, 1, .ro, 0, false, .ARR_SKEW_DONE⟩
/-- ARR_SKEW.COL_PROG (R139). -/
def ARR_SKEW_COL_PROG : Fld := ⟨4718604, 256, 2048, 8, 6, .ro, 32, false, .ARR_SKEW_COL_PROG⟩
/-- ARR_SKEW.ROW_PROG (R139). -/
def ARR_SKEW_ROW_PROG : Fld := ⟨4718604, 256, 2048, 0, 6, .ro, 32, false, .ARR_SKEW_ROW_PROG⟩
/-- ARR_BANK.B1_FMT (R139). -/
def ARR_BANK_B1_FMT : Fld := ⟨4718608, 256, 2048, 24, 5, .ro, 0, false, .ARR_BANK_B1_FMT⟩
/-- ARR_BANK.B0_FMT (R139). -/
def ARR_BANK_B0_FMT : Fld := ⟨4718608, 256, 2048, 16, 5, .ro, 0, false, .ARR_BANK_B0_FMT⟩
/-- ARR_BANK.LOAD_BUSY (R139). -/
def ARR_BANK_LOAD_BUSY : Fld := ⟨4718608, 256, 2048, 6, 1, .ro, 0, false, .ARR_BANK_LOAD_BUSY⟩
/-- ARR_BANK.LOAD_BANK (R139). -/
def ARR_BANK_LOAD_BANK : Fld := ⟨4718608, 256, 2048, 5, 1, .ro, 0, false, .ARR_BANK_LOAD_BANK⟩
/-- ARR_BANK.LAST_BANK (R139). -/
def ARR_BANK_LAST_BANK : Fld := ⟨4718608, 256, 2048, 4, 1, .ro, 0, false, .ARR_BANK_LAST_BANK⟩
/-- ARR_BANK.B1_DUAL (R139). -/
def ARR_BANK_B1_DUAL : Fld := ⟨4718608, 256, 2048, 3, 1, .ro, 0, false, .ARR_BANK_B1_DUAL⟩
/-- ARR_BANK.B0_DUAL (R139). -/
def ARR_BANK_B0_DUAL : Fld := ⟨4718608, 256, 2048, 2, 1, .ro, 0, false, .ARR_BANK_B0_DUAL⟩
/-- ARR_BANK.B1_LOADED (R139). -/
def ARR_BANK_B1_LOADED : Fld := ⟨4718608, 256, 2048, 1, 1, .ro, 0, false, .ARR_BANK_B1_LOADED⟩
/-- ARR_BANK.B0_LOADED (R139). -/
def ARR_BANK_B0_LOADED : Fld := ⟨4718608, 256, 2048, 0, 1, .ro, 0, false, .ARR_BANK_B0_LOADED⟩
/-- ARR_RAMP.PHASE (R139). -/
def ARR_RAMP_PHASE : Fld := ⟨4718612, 256, 2048, 8, 4, .ro, 0, false, .ARR_RAMP_PHASE⟩
/-- ARR_RAMP.LEVEL (R139). -/
def ARR_RAMP_LEVEL : Fld := ⟨4718612, 256, 2048, 0, 3, .ro, 0, false, .ARR_RAMP_LEVEL⟩
/-- ARR_KMASK0.KMASK (R139). -/
def ARR_KMASK0_KMASK : Fld := ⟨4718616, 256, 2048, 0, 32, .ro, 0, false, .ARR_KMASK0_KMASK⟩
/-- ARR_KMASK1.KMASK (R139). -/
def ARR_KMASK1_KMASK : Fld := ⟨4718620, 256, 2048, 0, 32, .ro, 0, false, .ARR_KMASK1_KMASK⟩
/-- ARR_NMASK0.NMASK (R139). -/
def ARR_NMASK0_NMASK : Fld := ⟨4718624, 256, 2048, 0, 32, .ro, 0, false, .ARR_NMASK0_NMASK⟩
/-- ARR_NMASK1.NMASK (R139). -/
def ARR_NMASK1_NMASK : Fld := ⟨4718628, 256, 2048, 0, 32, .ro, 0, false, .ARR_NMASK1_NMASK⟩
/-- ARR_SAT_COUNT.ACC (R139). -/
def ARR_SAT_COUNT_ACC : Fld := ⟨4718632, 256, 2048, 16, 16, .ro, 0, false, .stored⟩
/-- ARR_SAT_COUNT.DRAIN (R139). -/
def ARR_SAT_COUNT_DRAIN : Fld := ⟨4718632, 256, 2048, 0, 16, .ro, 0, false, .stored⟩
/-- ARR_ACTIVE.BEATS (R139). -/
def ARR_ACTIVE_BEATS : Fld := ⟨4718636, 256, 2048, 0, 32, .ro, 0, true, .stored⟩
/-- ARR_STALL.CYCLES (R139). -/
def ARR_STALL_CYCLES : Fld := ⟨4718640, 256, 2048, 0, 32, .ro, 0, true, .stored⟩
/-- ARR_BALLAST.BEATS (R139). -/
def ARR_BALLAST_BEATS : Fld := ⟨4718644, 256, 2048, 0, 32, .ro, 0, true, .stored⟩
/-- ARR_VIOL.SUBST (R139). -/
def ARR_VIOL_SUBST : Fld := ⟨4718648, 256, 2048, 16, 16, .ro, 0, false, .stored⟩
/-- NOC_CTRL.CLR_CNT (R226). -/
def NOC_CTRL_CLR_CNT : Fld := ⟨6291456, 0, 1, 0, 1, .w1s, 0, false, .stored⟩
/-- NOC_ACK_TMO.CROSS (R226). -/
def NOC_ACK_TMO_CROSS : Fld := ⟨6291460, 0, 1, 16, 16, .rw, 4096, false, .stored⟩
/-- NOC_ACK_TMO.LOCAL (R226). -/
def NOC_ACK_TMO_LOCAL : Fld := ⟨6291460, 0, 1, 0, 16, .rw, 256, false, .stored⟩
/-- NOC_RETX.COUNT (R226). -/
def NOC_RETX_COUNT : Fld := ⟨6291464, 0, 1, 0, 32, .ros, 0, true, .stored⟩
/-- NOC_FAIL.REJECT (R226). -/
def NOC_FAIL_REJECT : Fld := ⟨6291468, 0, 1, 24, 8, .ros, 0, false, .stored⟩
/-- NOC_FAIL.ACK_TMO (R226). -/
def NOC_FAIL_ACK_TMO : Fld := ⟨6291468, 0, 1, 16, 8, .ros, 0, false, .stored⟩
/-- NOC_FAIL.CRC_FAIL (R226). -/
def NOC_FAIL_CRC_FAIL : Fld := ⟨6291468, 0, 1, 8, 8, .ros, 0, false, .stored⟩
/-- NOC_FAIL.SYNC_CHK (R226). -/
def NOC_FAIL_SYNC_CHK : Fld := ⟨6291468, 0, 1, 0, 8, .ros, 0, false, .stored⟩
/-- NOC_VIOL.OUT_OF_SET (R226). -/
def NOC_VIOL_OUT_OF_SET : Fld := ⟨6291472, 0, 1, 16, 16, .ros, 0, false, .stored⟩
/-- NOC_VIOL.BUDGET (R226). -/
def NOC_VIOL_BUDGET : Fld := ⟨6291472, 0, 1, 0, 16, .ros, 0, false, .stored⟩
/-- NOC_ECC.UNCORR (R226). -/
def NOC_ECC_UNCORR : Fld := ⟨6291476, 0, 1, 16, 16, .ros, 0, false, .stored⟩
/-- NOC_ECC.CORR (R226). -/
def NOC_ECC_CORR : Fld := ⟨6291476, 0, 1, 0, 16, .ros, 0, false, .stored⟩
/-- NOC_FIRST0.VALID (R226). -/
def NOC_FIRST0_VALID : Fld := ⟨6291480, 0, 1, 31, 1, .ros, 0, false, .stored⟩
/-- NOC_FIRST0.KIND (R226). -/
def NOC_FIRST0_KIND : Fld := ⟨6291480, 0, 1, 24, 3, .ros, 0, false, .stored⟩
/-- NOC_FIRST0.STAGE (R226). -/
def NOC_FIRST0_STAGE : Fld := ⟨6291480, 0, 1, 16, 8, .ros, 0, false, .stored⟩
/-- NOC_FIRST0.SRC_CHIP (R226). -/
def NOC_FIRST0_SRC_CHIP : Fld := ⟨6291480, 0, 1, 14, 2, .ros, 0, false, .stored⟩
/-- NOC_FIRST0.SRC_TILE (R226). -/
def NOC_FIRST0_SRC_TILE : Fld := ⟨6291480, 0, 1, 0, 11, .ros, 0, false, .stored⟩
/-- NOC_FIRST1.OFFSET (R226). -/
def NOC_FIRST1_OFFSET : Fld := ⟨6291484, 0, 1, 16, 16, .ros, 0, false, .stored⟩
/-- NOC_FIRST1.DST_CHIP (R226). -/
def NOC_FIRST1_DST_CHIP : Fld := ⟨6291484, 0, 1, 14, 2, .ros, 0, false, .stored⟩
/-- NOC_FIRST1.DST_TILE (R226). -/
def NOC_FIRST1_DST_TILE : Fld := ⟨6291484, 0, 1, 0, 11, .ros, 0, false, .stored⟩
/-- SYN_CTRL.CLR_CNT (R227). -/
def SYN_CTRL_CLR_CNT : Fld := ⟨5242880, 0, 1, 0, 1, .w1s, 0, false, .stored⟩
/-- SYN_VIOL.SAT_GLOBAL (R227). -/
def SYN_VIOL_SAT_GLOBAL : Fld := ⟨5242884, 0, 1, 16, 16, .ros, 0, false, .stored⟩
/-- SYN_VIOL.SAT_LOCAL (R227). -/
def SYN_VIOL_SAT_LOCAL : Fld := ⟨5242884, 0, 1, 0, 16, .ros, 0, false, .stored⟩
/-- SYN_WAITS.RETRY (R227). -/
def SYN_WAITS_RETRY : Fld := ⟨5242888, 0, 1, 16, 16, .ros, 0, false, .stored⟩
/-- SYN_WAITS.PEAK (R227). -/
def SYN_WAITS_PEAK : Fld := ⟨5242888, 0, 1, 0, 7, .ros, 0, false, .stored⟩
/-- SYNC_IO_CTRL.TMO (R227). -/
def SYNC_IO_CTRL_TMO : Fld := ⟨5242896, 0, 1, 16, 16, .rw, 195, false, .stored⟩
/-- SYNC_IO_CTRL.EN (R227). -/
def SYNC_IO_CTRL_EN : Fld := ⟨5242896, 0, 1, 0, 1, .rw, 0, false, .stored⟩
/-- SYNC_IO_STATUS.SEQ (R227). -/
def SYNC_IO_STATUS_SEQ : Fld := ⟨5242900, 0, 1, 16, 16, .ro, 0, false, .stored⟩
/-- SYNC_IO_STATUS.ALIGNED (R227). -/
def SYNC_IO_STATUS_ALIGNED : Fld := ⟨5242900, 0, 1, 3, 1, .ro, 0, false, .stored⟩
/-- SYNC_IO_STATUS.IN_BARRIER (R227). -/
def SYNC_IO_STATUS_IN_BARRIER : Fld := ⟨5242900, 0, 1, 2, 1, .ro, 0, false, .stored⟩
/-- SYNC_IO_STATUS.HOLD (R227). -/
def SYNC_IO_STATUS_HOLD : Fld := ⟨5242900, 0, 1, 1, 1, .ro, 1, false, .stored⟩
/-- SYNC_IO_STATUS.LINE (R227). -/
def SYNC_IO_STATUS_LINE : Fld := ⟨5242900, 0, 1, 0, 1, .ro, 0, false, .stored⟩
/-- SYNC_IO_LAST.TICK (R227). -/
def SYNC_IO_LAST_TICK : Fld := ⟨5242904, 0, 1, 0, 32, .ros, 0, false, .stored⟩
/-- SYNC_IO_ERR.TIMEOUTS (R227). -/
def SYNC_IO_ERR_TIMEOUTS : Fld := ⟨5242908, 0, 1, 16, 16, .ros, 0, false, .stored⟩
/-- SYNC_IO_ERR.SEQ_MISMATCH (R227). -/
def SYNC_IO_ERR_SEQ_MISMATCH : Fld := ⟨5242908, 0, 1, 0, 16, .ros, 0, false, .stored⟩
/-- SYN_OBJ.VALUE (R227). -/
def SYN_OBJ_VALUE : Fld := ⟨5505024, 4, 65536, 0, 32, .ro, 0, false, .SYN_OBJ_VALUE⟩
/-- CHL_CTRL.RETRAIN (R228). -/
def CHL_CTRL_RETRAIN : Fld := ⟨6553600, 16384, 4, 1, 1, .w1s, 0, false, .stored⟩
/-- CHL_CTRL.EN (R228). -/
def CHL_CTRL_EN : Fld := ⟨6553600, 16384, 4, 0, 1, .rw, 0, false, .stored⟩
/-- CHL_STATUS.PEER (R228). -/
def CHL_STATUS_PEER : Fld := ⟨6553604, 16384, 4, 14, 2, .ro, 0, false, .stored⟩
/-- CHL_STATUS.AUTH (R228). -/
def CHL_STATUS_AUTH : Fld := ⟨6553604, 16384, 4, 12, 1, .ro, 0, false, .stored⟩
/-- CHL_STATUS.WIDTH (R228). -/
def CHL_STATUS_WIDTH : Fld := ⟨6553604, 16384, 4, 8, 4, .ro, 0, false, .stored⟩
/-- CHL_STATUS.STATE (R228). -/
def CHL_STATUS_STATE : Fld := ⟨6553604, 16384, 4, 0, 3, .ro, 0, false, .stored⟩
/-- CHL_LANES.IN_USE (R228). -/
def CHL_LANES_IN_USE : Fld := ⟨6553608, 16384, 4, 8, 8, .ro, 0, false, .stored⟩
/-- CHL_LANES.GOOD (R228). -/
def CHL_LANES_GOOD : Fld := ⟨6553608, 16384, 4, 0, 8, .ro, 255, false, .stored⟩
/-- CHL_REPLAY.COUNT (R228). -/
def CHL_REPLAY_COUNT : Fld := ⟨6553612, 16384, 4, 0, 32, .ros, 0, true, .stored⟩
/-- CHL_EVENTS.AUTH_FAIL (R228). -/
def CHL_EVENTS_AUTH_FAIL : Fld := ⟨6553616, 16384, 4, 24, 8, .ros, 0, false, .stored⟩
/-- CHL_EVENTS.TAG_FAIL (R228). -/
def CHL_EVENTS_TAG_FAIL : Fld := ⟨6553616, 16384, 4, 16, 8, .ros, 0, false, .stored⟩
/-- CHL_EVENTS.DOWN (R228). -/
def CHL_EVENTS_DOWN : Fld := ⟨6553616, 16384, 4, 8, 8, .ros, 0, false, .stored⟩
/-- CHL_EVENTS.DEGRADE (R228). -/
def CHL_EVENTS_DEGRADE : Fld := ⟨6553616, 16384, 4, 0, 8, .ros, 0, false, .stored⟩
/-- CHL_LAT.LATENCY (R228). -/
def CHL_LAT_LATENCY : Fld := ⟨6553620, 16384, 4, 0, 16, .ro, 0, false, .stored⟩
/-- INT_CTRL.CLR_CNT (R339). -/
def INT_CTRL_CLR_CNT : Fld := ⟨6619136, 0, 1, 0, 1, .w1s, 0, false, .stored⟩
/-- INT_DESC_UPD.PENDING (R339). -/
def INT_DESC_UPD_PENDING : Fld := ⟨6619140, 0, 1, 31, 1, .ro, 0, false, .INT_DESC_UPD_PENDING⟩
/-- INT_DESC_UPD.INDEX (R339). -/
def INT_DESC_UPD_INDEX : Fld := ⟨6619140, 0, 1, 0, 6, .rw, 0, false, .stored⟩
/-- INT_STATE.STATE (R339). -/
def INT_STATE_STATE : Fld := ⟨6619144, 4, 3, 0, 32, .ro, 0, false, .INT_STATE_STATE⟩
/-- INT_FIRST0.VALID (R339). -/
def INT_FIRST0_VALID : Fld := ⟨6619156, 0, 1, 31, 1, .ros, 0, false, .stored⟩
/-- INT_FIRST0.CODE (R339). -/
def INT_FIRST0_CODE : Fld := ⟨6619156, 0, 1, 16, 12, .ros, 0, false, .stored⟩
/-- INT_FIRST0.INDEX (R339). -/
def INT_FIRST0_INDEX : Fld := ⟨6619156, 0, 1, 0, 6, .ros, 0, false, .stored⟩
/-- INT_FIRST1.TICK (R339). -/
def INT_FIRST1_TICK : Fld := ⟨6619160, 0, 1, 0, 32, .ros, 0, false, .stored⟩
/-- INT_PTP_STATUS.SYNCS (R339). -/
def INT_PTP_STATUS_SYNCS : Fld := ⟨6619164, 0, 1, 16, 16, .ro, 0, true, .stored⟩
/-- INT_PTP_STATUS.PORT (R339). -/
def INT_PTP_STATUS_PORT : Fld := ⟨6619164, 0, 1, 4, 2, .ro, 0, false, .stored⟩
/-- INT_PTP_STATUS.STATE (R339). -/
def INT_PTP_STATUS_STATE : Fld := ⟨6619164, 0, 1, 0, 2, .ro, 0, false, .stored⟩
/-- INT_PTP_OFS_LO.OFS (R339). -/
def INT_PTP_OFS_LO_OFS : Fld := ⟨6619168, 0, 1, 0, 32, .ro, 0, false, .stored⟩
/-- INT_PTP_OFS_HI.OFS (R339). -/
def INT_PTP_OFS_HI_OFS : Fld := ⟨6619172, 0, 1, 0, 32, .ro, 0, false, .stored⟩
/-- INT_LOSS.TOTAL (R339). -/
def INT_LOSS_TOTAL : Fld := ⟨6619392, 4, 48, 16, 16, .ros, 0, false, .stored⟩
/-- INT_LOSS.CONSEC (R339). -/
def INT_LOSS_CONSEC : Fld := ⟨6619392, 4, 48, 12, 4, .ro, 0, false, .stored⟩
/-- INT_LOSS.RESUMES (R339). -/
def INT_LOSS_RESUMES : Fld := ⟨6619392, 4, 48, 0, 8, .ros, 0, false, .stored⟩
/-- INT_CHK.PAT_FAIL (R339). -/
def INT_CHK_PAT_FAIL : Fld := ⟨6619648, 4, 48, 16, 16, .ros, 0, false, .stored⟩
/-- INT_CHK.TROW_FAIL (R339). -/
def INT_CHK_TROW_FAIL : Fld := ⟨6619648, 4, 48, 8, 8, .ros, 0, false, .stored⟩
/-- INT_CHK.OVERRUN (R339). -/
def INT_CHK_OVERRUN : Fld := ⟨6619648, 4, 48, 0, 8, .ros, 0, false, .stored⟩
/-- INT_CSI_ERR.ECC_CORR (R339). -/
def INT_CSI_ERR_ECC_CORR : Fld := ⟨6619904, 4, 16, 24, 8, .ros, 0, false, .stored⟩
/-- INT_CSI_ERR.ECC_UNCORR (R339). -/
def INT_CSI_ERR_ECC_UNCORR : Fld := ⟨6619904, 4, 16, 16, 8, .ros, 0, false, .stored⟩
/-- INT_CSI_ERR.CRC (R339). -/
def INT_CSI_ERR_CRC : Fld := ⟨6619904, 4, 16, 8, 8, .ros, 0, false, .stored⟩
/-- INT_CSI_ERR.UNCLAIMED (R339). -/
def INT_CSI_ERR_UNCLAIMED : Fld := ⟨6619904, 4, 16, 0, 8, .ros, 0, false, .stored⟩
/-- INT_ETH_STAT.LINK (R339). -/
def INT_ETH_STAT_LINK : Fld := ⟨6620032, 4, 4, 31, 1, .ro, 0, false, .stored⟩
/-- INT_ETH_STAT.SPEED (R339). -/
def INT_ETH_STAT_SPEED : Fld := ⟨6620032, 4, 4, 29, 2, .ro, 0, false, .stored⟩
/-- INT_ETH_STAT.FCS (R339). -/
def INT_ETH_STAT_FCS : Fld := ⟨6620032, 4, 4, 0, 16, .ros, 0, false, .stored⟩
/-- INT_ETH_DROP.FILTER (R339). -/
def INT_ETH_DROP_FILTER : Fld := ⟨6620048, 4, 4, 16, 16, .ros, 0, false, .stored⟩
/-- INT_ETH_DROP.MALFORMED (R339). -/
def INT_ETH_DROP_MALFORMED : Fld := ⟨6620048, 4, 4, 0, 16, .ros, 0, false, .stored⟩
/-- INT_ETH_LAT.TX_NS (R339). -/
def INT_ETH_LAT_TX_NS : Fld := ⟨6620064, 4, 4, 16, 16, .rw, 0, false, .stored⟩
/-- INT_ETH_LAT.RX_NS (R339). -/
def INT_ETH_LAT_RX_NS : Fld := ⟨6620064, 4, 4, 0, 16, .rw, 0, false, .stored⟩
/-- JXS_CTRL.CLR_CNT (R340). -/
def JXS_CTRL_CLR_CNT : Fld := ⟨6750208, 32768, 2, 1, 1, .w1s, 0, false, .stored⟩
/-- JXS_CTRL.MODE (R340). -/
def JXS_CTRL_MODE : Fld := ⟨6750208, 32768, 2, 0, 1, .rw, 0, false, .stored⟩
/-- JXS_STATUS.BUSY (R340). -/
def JXS_STATUS_BUSY : Fld := ⟨6750212, 32768, 2, 31, 1, .ro, 0, false, .stored⟩
/-- JXS_STATUS.MODE_ACT (R340). -/
def JXS_STATUS_MODE_ACT : Fld := ⟨6750212, 32768, 2, 30, 1, .ro, 0, false, .stored⟩
/-- JXS_STATUS.INDEX (R340). -/
def JXS_STATUS_INDEX : Fld := ⟨6750212, 32768, 2, 0, 6, .ro, 0, false, .stored⟩
/-- JXS_ABORT.BUDGET (R340). -/
def JXS_ABORT_BUDGET : Fld := ⟨6750216, 32768, 2, 16, 16, .ros, 0, false, .stored⟩
/-- JXS_ABORT.RESETS (R340). -/
def JXS_ABORT_RESETS : Fld := ⟨6750216, 32768, 2, 0, 16, .ros, 0, false, .stored⟩
/-- JXS_REJECT.HEADER (R340). -/
def JXS_REJECT_HEADER : Fld := ⟨6750220, 32768, 2, 16, 16, .ros, 0, false, .stored⟩
/-- JXS_REJECT.SYNTAX (R340). -/
def JXS_REJECT_SYNTAX : Fld := ⟨6750220, 32768, 2, 0, 16, .ros, 0, false, .stored⟩
/-- JXS_TEST.TEST_FAIL (R340). -/
def JXS_TEST_TEST_FAIL : Fld := ⟨6750224, 32768, 2, 16, 16, .ros, 0, false, .stored⟩
/-- JXS_TEST.ENC_ABORT (R340). -/
def JXS_TEST_ENC_ABORT : Fld := ⟨6750224, 32768, 2, 0, 16, .ros, 0, false, .stored⟩
/-- JXS_LOAD.RESERVED_CYCLES (R340). -/
def JXS_LOAD_RESERVED_CYCLES : Fld := ⟨6750228, 32768, 2, 0, 32, .ro, 0, false, .JXS_LOAD_RESERVED_CYCLES⟩
/-- JXS_LAST.CYCLES (R340). -/
def JXS_LAST_CYCLES : Fld := ⟨6750232, 32768, 2, 0, 32, .ro, 0, false, .stored⟩
/-- WRP_CTRL.CLR_CNT (R363). -/
def WRP_CTRL_CLR_CNT : Fld := ⟨6815744, 16384, 4, 0, 1, .w1s, 0, false, .stored⟩
/-- WRP_STATUS.BUSY (R363). -/
def WRP_STATUS_BUSY : Fld := ⟨6815748, 16384, 4, 31, 1, .ro, 0, false, .stored⟩
/-- WRP_STATUS.IN_SERVICE (R363). -/
def WRP_STATUS_IN_SERVICE : Fld := ⟨6815748, 16384, 4, 30, 1, .ro, 1, false, .stored⟩
/-- WRP_STATUS.RERUN (R363). -/
def WRP_STATUS_RERUN : Fld := ⟨6815748, 16384, 4, 29, 1, .ro, 0, false, .stored⟩
/-- WRP_STATUS.INDEX (R363). -/
def WRP_STATUS_INDEX : Fld := ⟨6815748, 16384, 4, 4, 6, .ro, 0, false, .stored⟩
/-- WRP_STATUS.COPY (R363). -/
def WRP_STATUS_COPY : Fld := ⟨6815748, 16384, 4, 0, 4, .ro, 0, false, .WRP_STATUS_COPY⟩
/-- WRP_CFG_UPD.PENDING (R363). -/
def WRP_CFG_UPD_PENDING : Fld := ⟨6815752, 0, 1, 31, 1, .ro, 0, false, .WRP_CFG_UPD_PENDING⟩
/-- WRP_CFG_UPD.INDEX (R363). -/
def WRP_CFG_UPD_INDEX : Fld := ⟨6815752, 0, 1, 0, 6, .rw, 0, false, .stored⟩
/-- WRP_ERR.ATTRIB (R363). -/
def WRP_ERR_ATTRIB : Fld := ⟨6815756, 16384, 4, 24, 8, .ros, 0, false, .stored⟩
/-- WRP_ERR.MESH_CRC (R363). -/
def WRP_ERR_MESH_CRC : Fld := ⟨6815756, 16384, 4, 16, 8, .ros, 0, false, .stored⟩
/-- WRP_ERR.COORD (R363). -/
def WRP_ERR_COORD : Fld := ⟨6815756, 16384, 4, 8, 8, .ros, 0, false, .stored⟩
/-- WRP_ERR.TIMEOUT (R363). -/
def WRP_ERR_TIMEOUT : Fld := ⟨6815756, 16384, 4, 0, 8, .ros, 0, false, .stored⟩
/-- WRP_PIXELS.COUNT (R363). -/
def WRP_PIXELS_COUNT : Fld := ⟨6815760, 16384, 4, 0, 32, .ros, 0, true, .stored⟩
/-- WRP_LAST.CYCLES (R363). -/
def WRP_LAST_CYCLES : Fld := ⟨6815764, 16384, 4, 0, 32, .ro, 0, false, .stored⟩
/-- MEM_CTRL.CLR_CNT (R392). -/
def MEM_CTRL_CLR_CNT : Fld := ⟨6881280, 16384, 8, 0, 1, .w1s, 0, false, .stored⟩
/-- MEM_STATUS.TEMP (R392). -/
def MEM_STATUS_TEMP : Fld := ⟨6881284, 16384, 8, 24, 8, .ro, 0, false, .stored⟩
/-- MEM_STATUS.REF_X2 (R392). -/
def MEM_STATUS_REF_X2 : Fld := ⟨6881284, 16384, 8, 16, 1, .ro, 0, false, .stored⟩
/-- MEM_STATUS.SPEED (R392). -/
def MEM_STATUS_SPEED : Fld := ⟨6881284, 16384, 8, 8, 1, .ro, 0, false, .stored⟩
/-- MEM_STATUS.STATE (R392). -/
def MEM_STATUS_STATE : Fld := ⟨6881284, 16384, 8, 0, 3, .ro, 0, false, .MEM_STATUS_STATE⟩
/-- MEM_ECC.CORR (R392). -/
def MEM_ECC_CORR : Fld := ⟨6881288, 16384, 8, 16, 16, .ros, 0, false, .stored⟩
/-- MEM_ECC.UNCORR (R392). -/
def MEM_ECC_UNCORR : Fld := ⟨6881288, 16384, 8, 0, 16, .ros, 0, false, .stored⟩
/-- MEM_SCRUB_ERR.CORR (R392). -/
def MEM_SCRUB_ERR_CORR : Fld := ⟨6881292, 16384, 8, 16, 16, .ros, 0, false, .stored⟩
/-- MEM_SCRUB_ERR.UNCORR (R392). -/
def MEM_SCRUB_ERR_UNCORR : Fld := ⟨6881292, 16384, 8, 0, 16, .ros, 0, false, .stored⟩
/-- MEM_EDC.RETRY (R392). -/
def MEM_EDC_RETRY : Fld := ⟨6881296, 16384, 8, 16, 16, .ros, 0, false, .stored⟩
/-- MEM_EDC.FAIL (R392). -/
def MEM_EDC_FAIL : Fld := ⟨6881296, 16384, 8, 8, 8, .ros, 0, false, .stored⟩
/-- MEM_EDC.FORCED (R392). -/
def MEM_EDC_FORCED : Fld := ⟨6881296, 16384, 8, 0, 8, .ros, 0, false, .stored⟩
/-- MEM_FIRST0.ADDR_LO (R392). -/
def MEM_FIRST0_ADDR_LO : Fld := ⟨6881300, 16384, 8, 0, 32, .ros, 0, false, .stored⟩
/-- MEM_FIRST1.VALID (R392). -/
def MEM_FIRST1_VALID : Fld := ⟨6881304, 16384, 8, 31, 1, .ros, 0, false, .stored⟩
/-- MEM_FIRST1.TYPE (R392). -/
def MEM_FIRST1_TYPE : Fld := ⟨6881304, 16384, 8, 28, 3, .ros, 0, false, .stored⟩
/-- MEM_FIRST1.MASTER (R392). -/
def MEM_FIRST1_MASTER : Fld := ⟨6881304, 16384, 8, 16, 12, .ros, 0, false, .stored⟩
/-- MEM_FIRST1.ADDR_HI (R392). -/
def MEM_FIRST1_ADDR_HI : Fld := ⟨6881304, 16384, 8, 0, 2, .ros, 0, false, .stored⟩
/-- MEM_FIRST2.TICK (R392). -/
def MEM_FIRST2_TICK : Fld := ⟨6881308, 16384, 8, 0, 32, .ros, 0, false, .stored⟩
/-- MEM_TRAIN.DUE (R392). -/
def MEM_TRAIN_DUE : Fld := ⟨6881312, 16384, 8, 31, 1, .ro, 0, false, .stored⟩
/-- MEM_TRAIN.GRANT (R392). -/
def MEM_TRAIN_GRANT : Fld := ⟨6881312, 16384, 8, 30, 1, .w1s, 0, false, .stored⟩
/-- MEM_TRAIN.OVERDUE (R392). -/
def MEM_TRAIN_OVERDUE : Fld := ⟨6881312, 16384, 8, 16, 8, .ros, 0, false, .stored⟩
/-- MEM_TRAIN.COUNT (R392). -/
def MEM_TRAIN_COUNT : Fld := ⟨6881312, 16384, 8, 0, 16, .ros, 0, true, .stored⟩
/-- MEM_SCRUB.PASSES (R392). -/
def MEM_SCRUB_PASSES : Fld := ⟨6881316, 16384, 8, 16, 16, .ros, 0, true, .stored⟩
/-- MEM_SCRUB.PERIOD (R392). -/
def MEM_SCRUB_PERIOD : Fld := ⟨6881316, 16384, 8, 0, 16, .rw, 240, false, .stored⟩
/-- MEM_CACHE.HITS (R392). -/
def MEM_CACHE_HITS : Fld := ⟨6881320, 16384, 8, 16, 16, .ros, 0, true, .stored⟩
/-- MEM_CACHE.MISSES (R392). -/
def MEM_CACHE_MISSES : Fld := ⟨6881320, 16384, 8, 0, 16, .ros, 0, true, .stored⟩
/-- MEM_OUTST.PEAK (R392). -/
def MEM_OUTST_PEAK : Fld := ⟨6881324, 16384, 8, 16, 9, .ros, 0, false, .stored⟩
/-- MEM_OUTST.NOW (R392). -/
def MEM_OUTST_NOW : Fld := ⟨6881324, 16384, 8, 0, 9, .ro, 0, false, .MEM_OUTST_NOW⟩
/-- MEM_LOST.TOTAL (R392). -/
def MEM_LOST_TOTAL : Fld := ⟨6881328, 16384, 8, 16, 16, .ros, 0, false, .stored⟩
/-- MEM_LOST.USED (R392). -/
def MEM_LOST_USED : Fld := ⟨6881328, 16384, 8, 0, 7, .ro, 0, false, .MEM_LOST_USED⟩
/-- MEM_INJ.ARM (R392). -/
def MEM_INJ_ARM : Fld := ⟨6881332, 16384, 8, 31, 1, .w1s, 0, false, .stored⟩
/-- MEM_INJ.VALUE (R392). -/
def MEM_INJ_VALUE : Fld := ⟨6881332, 16384, 8, 8, 4, .rw, 0, false, .stored⟩
/-- MEM_INJ.POS (R392). -/
def MEM_INJ_POS : Fld := ⟨6881332, 16384, 8, 0, 7, .rw, 0, false, .stored⟩
/-- MEM_SRAM_ECC.CORR (R392). -/
def MEM_SRAM_ECC_CORR : Fld := ⟨6881536, 0, 1, 16, 16, .ros, 0, false, .stored⟩
/-- MEM_SRAM_ECC.UNCORR (R392). -/
def MEM_SRAM_ECC_UNCORR : Fld := ⟨6881536, 0, 1, 0, 16, .ros, 0, false, .stored⟩
/-- MEM_SRAM_FIRST0.VALID (R392). -/
def MEM_SRAM_FIRST0_VALID : Fld := ⟨6881540, 0, 1, 31, 1, .ros, 0, false, .stored⟩
/-- MEM_SRAM_FIRST0.KIND (R392). -/
def MEM_SRAM_FIRST0_KIND : Fld := ⟨6881540, 0, 1, 28, 3, .ros, 0, false, .stored⟩
/-- MEM_SRAM_FIRST0.UNIT (R392). -/
def MEM_SRAM_FIRST0_UNIT : Fld := ⟨6881540, 0, 1, 12, 12, .ros, 0, false, .stored⟩
/-- MEM_SRAM_FIRST0.WORD_HI (R392). -/
def MEM_SRAM_FIRST0_WORD_HI : Fld := ⟨6881540, 0, 1, 0, 12, .ros, 0, false, .stored⟩
/-- MEM_SRAM_FIRST1.WORD_LO (R392). -/
def MEM_SRAM_FIRST1_WORD_LO : Fld := ⟨6881544, 0, 1, 20, 12, .ros, 0, false, .stored⟩
/-- MEM_SRAM_FIRST1.TICK (R392). -/
def MEM_SRAM_FIRST1_TICK : Fld := ⟨6881544, 0, 1, 0, 20, .ros, 0, false, .stored⟩
/-- HIF_CTRL.CLR_CNT (R426). -/
def HIF_CTRL_CLR_CNT : Fld := ⟨7012352, 0, 1, 0, 1, .w1s, 0, false, .stored⟩
/-- HIF_STATE.DEV (R426). -/
def HIF_STATE_DEV : Fld := ⟨7012356, 0, 1, 8, 3, .ro, 0, false, .stored⟩
/-- HIF_STATE.HOST (R426). -/
def HIF_STATE_HOST : Fld := ⟨7012356, 0, 1, 0, 2, .ro, 0, false, .stored⟩
/-- HIF_ID.DEVICE (R426). -/
def HIF_ID_DEVICE : Fld := ⟨7012360, 0, 1, 16, 16, .ro, 0, false, .HIF_ID_DEVICE⟩
/-- HIF_ID.STEP (R426). -/
def HIF_ID_STEP : Fld := ⟨7012360, 0, 1, 8, 8, .ro, 0, false, .HIF_ID_STEP⟩
/-- HIF_ID.SAFETY (R426). -/
def HIF_ID_SAFETY : Fld := ⟨7012360, 0, 1, 0, 1, .ro, 1, false, .stored⟩
/-- HIF_IFVER.MAJOR (R426). -/
def HIF_IFVER_MAJOR : Fld := ⟨7012364, 0, 1, 16, 16, .ro, 0, false, .stored⟩
/-- HIF_IFVER.MINOR (R426). -/
def HIF_IFVER_MINOR : Fld := ⟨7012364, 0, 1, 0, 16, .ro, 0, false, .stored⟩
/-- HIF_HOST_VER.MAJOR (R426). -/
def HIF_HOST_VER_MAJOR : Fld := ⟨7012368, 0, 1, 16, 16, .rw, 0, false, .stored⟩
/-- HIF_HOST_VER.MINOR (R426). -/
def HIF_HOST_VER_MINOR : Fld := ⟨7012368, 0, 1, 0, 16, .rw, 0, false, .stored⟩
/-- HIF_ATTACH.DETACH (R426). -/
def HIF_ATTACH_DETACH : Fld := ⟨7012372, 0, 1, 1, 1, .w1s, 0, false, .stored⟩
/-- HIF_ATTACH.START (R426). -/
def HIF_ATTACH_START : Fld := ⟨7012372, 0, 1, 0, 1, .w1s, 0, false, .stored⟩
/-- HIF_ATTACH_STATUS.DEV_MAJOR (R426). -/
def HIF_ATTACH_STATUS_DEV_MAJOR : Fld := ⟨7012376, 0, 1, 16, 16, .ro, 0, false, .stored⟩
/-- HIF_ATTACH_STATUS.ATTACH_ID (R426). -/
def HIF_ATTACH_STATUS_ATTACH_ID : Fld := ⟨7012376, 0, 1, 4, 12, .ro, 0, true, .stored⟩
/-- HIF_ATTACH_STATUS.BUSY (R426). -/
def HIF_ATTACH_STATUS_BUSY : Fld := ⟨7012376, 0, 1, 3, 1, .ro, 0, false, .stored⟩
/-- HIF_ATTACH_STATUS.RESULT (R426). -/
def HIF_ATTACH_STATUS_RESULT : Fld := ⟨7012376, 0, 1, 0, 2, .ro, 0, false, .stored⟩
/-- HIF_HEARTBEAT.COUNT (R426). -/
def HIF_HEARTBEAT_COUNT : Fld := ⟨7012380, 0, 1, 0, 32, .ro, 0, true, .stored⟩
/-- HIF_LINK.WIDTH (R426). -/
def HIF_LINK_WIDTH : Fld := ⟨7012384, 0, 1, 8, 4, .ro, 0, false, .stored⟩
/-- HIF_LINK.SPEED (R426). -/
def HIF_LINK_SPEED : Fld := ⟨7012384, 0, 1, 0, 3, .ro, 0, false, .stored⟩
/-- HIF_BAR2_BASE.BASE (R426). -/
def HIF_BAR2_BASE_BASE : Fld := ⟨7012388, 0, 1, 0, 6, .rw, 0, false, .stored⟩
/-- HIF_BAR4_SEL.HALF (R426). -/
def HIF_BAR4_SEL_HALF : Fld := ⟨7012392, 0, 1, 0, 1, .rw, 0, false, .stored⟩
/-- HIF_HOLD0.AUTO_HOLD (R426). -/
def HIF_HOLD0_AUTO_HOLD : Fld := ⟨7012396, 0, 1, 0, 32, .rw, 0, false, .stored⟩
/-- HIF_HOLD1.AUTO_HOLD (R426). -/
def HIF_HOLD1_AUTO_HOLD : Fld := ⟨7012400, 0, 1, 0, 32, .rw, 0, false, .stored⟩
/-- HIF_JOBS.HOST (R426). -/
def HIF_JOBS_HOST : Fld := ⟨7012404, 0, 1, 16, 9, .ro, 0, false, .HIF_JOBS_HOST⟩
/-- HIF_JOBS.SEQR (R426). -/
def HIF_JOBS_SEQR : Fld := ⟨7012404, 0, 1, 0, 7, .ro, 0, false, .HIF_JOBS_SEQR⟩
/-- HIF_LOSS0.CPL (R426). -/
def HIF_LOSS0_CPL : Fld := ⟨7012408, 0, 1, 16, 16, .ros, 0, false, .stored⟩
/-- HIF_LOSS0.EVT (R426). -/
def HIF_LOSS0_EVT : Fld := ⟨7012408, 0, 1, 0, 16, .ros, 0, false, .stored⟩
/-- HIF_LOSS1.LOG (R426). -/
def HIF_LOSS1_LOG : Fld := ⟨7012412, 0, 1, 16, 16, .ros, 0, false, .stored⟩
/-- HIF_LOSS1.TRC (R426). -/
def HIF_LOSS1_TRC : Fld := ⟨7012412, 0, 1, 0, 16, .ros, 0, false, .stored⟩
/-- HIF_RING_BASE.BASE (R426). -/
def HIF_RING_BASE_BASE : Fld := ⟨7012416, 16, 5, 0, 22, .ro, 0, false, .stored⟩
/-- HIF_RING_CFG.ESIZE (R426). -/
def HIF_RING_CFG_ESIZE : Fld := ⟨7012420, 16, 5, 8, 8, .ro, 0, false, .stored⟩
/-- HIF_RING_CFG.LOG2N (R426). -/
def HIF_RING_CFG_LOG2N : Fld := ⟨7012420, 16, 5, 0, 5, .ro, 0, false, .stored⟩
/-- HIF_RING_PROD.PROD (R426). -/
def HIF_RING_PROD_PROD : Fld := ⟨7012424, 16, 5, 0, 32, .ro, 0, false, .stored⟩
/-- HIF_RING_CONS.CONS (R426). -/
def HIF_RING_CONS_CONS : Fld := ⟨7012428, 16, 5, 0, 32, .ro, 0, false, .stored⟩
/-- HIF_VIOL0.RO_WRITE (R426). -/
def HIF_VIOL0_RO_WRITE : Fld := ⟨7012496, 0, 1, 16, 16, .ros, 0, false, .stored⟩
/-- HIF_VIOL0.HOLE (R426). -/
def HIF_VIOL0_HOLE : Fld := ⟨7012496, 0, 1, 0, 16, .ros, 0, false, .stored⟩
/-- HIF_VIOL1.SUBWORD (R426). -/
def HIF_VIOL1_SUBWORD : Fld := ⟨7012500, 0, 1, 24, 8, .ros, 0, false, .stored⟩
/-- HIF_VIOL1.TAG (R426). -/
def HIF_VIOL1_TAG : Fld := ⟨7012500, 0, 1, 16, 8, .ros, 0, false, .stored⟩
/-- HIF_VIOL1.INDEX (R426). -/
def HIF_VIOL1_INDEX : Fld := ⟨7012500, 0, 1, 0, 16, .ros, 0, false, .stored⟩
/-- HIF_PCIE_ERR.ECRC (R426). -/
def HIF_PCIE_ERR_ECRC : Fld := ⟨7012504, 0, 1, 24, 8, .ros, 0, false, .stored⟩
/-- HIF_PCIE_ERR.POISON (R426). -/
def HIF_PCIE_ERR_POISON : Fld := ⟨7012504, 0, 1, 16, 8, .ros, 0, false, .stored⟩
/-- HIF_PCIE_ERR.CA (R426). -/
def HIF_PCIE_ERR_CA : Fld := ⟨7012504, 0, 1, 8, 8, .ros, 0, false, .stored⟩
/-- HIF_PCIE_ERR.CORR (R426). -/
def HIF_PCIE_ERR_CORR : Fld := ⟨7012504, 0, 1, 0, 8, .ros, 0, false, .stored⟩
/-- FW_CTRL.LOG_LEVEL (R450). -/
def FW_CTRL_LOG_LEVEL : Fld := ⟨7077888, 0, 1, 1, 2, .rw, 1, false, .stored⟩
/-- FW_CTRL.CLR_CNT (R450). -/
def FW_CTRL_CLR_CNT : Fld := ⟨7077888, 0, 1, 0, 1, .w1s, 0, false, .stored⟩
/-- FW_STATUS.EMERG (R450). -/
def FW_STATUS_EMERG : Fld := ⟨7077892, 0, 1, 31, 1, .ro, 0, false, .stored⟩
/-- FW_STATUS.PWR_RUN (R450). -/
def FW_STATUS_PWR_RUN : Fld := ⟨7077892, 0, 1, 6, 1, .ro, 0, false, .stored⟩
/-- FW_STATUS.SEC_RUN (R450). -/
def FW_STATUS_SEC_RUN : Fld := ⟨7077892, 0, 1, 5, 1, .ro, 0, false, .stored⟩
/-- FW_STATUS.CORE_RUN (R450). -/
def FW_STATUS_CORE_RUN : Fld := ⟨7077892, 0, 1, 1, 4, .ro, 0, false, .stored⟩
/-- FW_STATUS.BANK (R450). -/
def FW_STATUS_BANK : Fld := ⟨7077892, 0, 1, 0, 1, .ro, 0, false, .stored⟩
/-- FW_WDT_KICK.KICK (R450). -/
def FW_WDT_KICK_KICK : Fld := ⟨7077896, 0, 1, 0, 4, .wo, 0, false, .stored⟩
/-- FW_WDT_STAT.DSP (R450). -/
def FW_WDT_STAT_DSP : Fld := ⟨7077900, 0, 1, 24, 8, .ros, 0, false, .stored⟩
/-- FW_WDT_STAT.SEC (R450). -/
def FW_WDT_STAT_SEC : Fld := ⟨7077900, 0, 1, 16, 8, .ros, 0, false, .stored⟩
/-- FW_WDT_STAT.PWR (R450). -/
def FW_WDT_STAT_PWR : Fld := ⟨7077900, 0, 1, 8, 8, .ros, 0, false, .stored⟩
/-- FW_WDT_STAT.EARLY (R450). -/
def FW_WDT_STAT_EARLY : Fld := ⟨7077900, 0, 1, 0, 8, .ros, 0, false, .stored⟩
/-- FW_VER_ACTIVE.MAJOR (R450). -/
def FW_VER_ACTIVE_MAJOR : Fld := ⟨7077904, 0, 1, 24, 8, .ro, 0, false, .stored⟩
/-- FW_VER_ACTIVE.MINOR (R450). -/
def FW_VER_ACTIVE_MINOR : Fld := ⟨7077904, 0, 1, 16, 8, .ro, 0, false, .stored⟩
/-- FW_VER_ACTIVE.PATCH (R450). -/
def FW_VER_ACTIVE_PATCH : Fld := ⟨7077904, 0, 1, 0, 16, .ro, 0, false, .stored⟩
/-- FW_VER_STAGED.MAJOR (R450). -/
def FW_VER_STAGED_MAJOR : Fld := ⟨7077908, 0, 1, 24, 8, .ro, 0, false, .stored⟩
/-- FW_VER_STAGED.MINOR (R450). -/
def FW_VER_STAGED_MINOR : Fld := ⟨7077908, 0, 1, 16, 8, .ro, 0, false, .stored⟩
/-- FW_VER_STAGED.PATCH (R450). -/
def FW_VER_STAGED_PATCH : Fld := ⟨7077908, 0, 1, 0, 16, .ro, 0, false, .stored⟩
/-- FW_MOLT_CTRL.TMO (R450). -/
def FW_MOLT_CTRL_TMO : Fld := ⟨7077912, 0, 1, 16, 16, .rw, 1000, false, .stored⟩
/-- FW_MOLT_CTRL.ABORT (R450). -/
def FW_MOLT_CTRL_ABORT : Fld := ⟨7077912, 0, 1, 1, 1, .w1s, 0, false, .stored⟩
/-- FW_MOLT_CTRL.REQ (R450). -/
def FW_MOLT_CTRL_REQ : Fld := ⟨7077912, 0, 1, 0, 1, .w1s, 0, false, .stored⟩
/-- FW_MOLT_SRC_LO.ADDR (R450). -/
def FW_MOLT_SRC_LO_ADDR : Fld := ⟨7077916, 0, 1, 6, 26, .rw, 0, false, .stored⟩
/-- FW_MOLT_SRC_HI.ADDR_HI (R450). -/
def FW_MOLT_SRC_HI_ADDR_HI : Fld := ⟨7077920, 0, 1, 0, 2, .rw, 0, false, .stored⟩
/-- FW_MOLT_LEN.BYTES (R450). -/
def FW_MOLT_LEN_BYTES : Fld := ⟨7077924, 0, 1, 0, 22, .rw, 0, false, .stored⟩
/-- FW_MOLT_STATUS.STATE (R450). -/
def FW_MOLT_STATUS_STATE : Fld := ⟨7077928, 0, 1, 24, 4, .ro, 0, false, .stored⟩
/-- FW_MOLT_STATUS.RESULT (R450). -/
def FW_MOLT_STATUS_RESULT : Fld := ⟨7077928, 0, 1, 16, 8, .ro, 0, false, .stored⟩
/-- FW_MOLT_STATUS.REASON (R450). -/
def FW_MOLT_STATUS_REASON : Fld := ⟨7077928, 0, 1, 8, 8, .ro, 0, false, .stored⟩
/-- FW_MOLT_STATUS.COUNT (R450). -/
def FW_MOLT_STATUS_COUNT : Fld := ⟨7077928, 0, 1, 0, 8, .ros, 0, true, .stored⟩
/-- FW_TRACE_EN.GROUPS (R450). -/
def FW_TRACE_EN_GROUPS : Fld := ⟨7077932, 0, 1, 0, 32, .rw, 49, false, .stored⟩
/-- FW_TRACE_DROP.COUNT (R450). -/
def FW_TRACE_DROP_COUNT : Fld := ⟨7077936, 0, 1, 0, 32, .ros, 0, true, .stored⟩
/-- FW_FAULT.VALID (R450). -/
def FW_FAULT_VALID : Fld := ⟨7077940, 0, 1, 31, 1, .ros, 0, false, .stored⟩
/-- FW_FAULT.CORE (R450). -/
def FW_FAULT_CORE : Fld := ⟨7077940, 0, 1, 24, 2, .ros, 0, false, .stored⟩
/-- FW_FAULT.CAUSE (R450). -/
def FW_FAULT_CAUSE : Fld := ⟨7077940, 0, 1, 16, 8, .ros, 0, false, .stored⟩
/-- FW_FAULT.TICK (R450). -/
def FW_FAULT_TICK : Fld := ⟨7077940, 0, 1, 0, 16, .ros, 0, false, .stored⟩
/-- FW_MOLT_COMMIT.COMMIT (R450). -/
def FW_MOLT_COMMIT_COMMIT : Fld := ⟨7077944, 0, 1, 0, 1, .wo, 0, false, .stored⟩
/-- SAF_CTRL.CLR_CNT (R490). -/
def SAF_CTRL_CLR_CNT : Fld := ⟨7143424, 0, 1, 0, 1, .w1s, 0, false, .stored⟩
/-- SAF_STATUS.STATE (R490). -/
def SAF_STATUS_STATE : Fld := ⟨7143428, 0, 1, 5, 3, .ro, 0, false, .SAF_STATUS_STATE⟩
/-- SAF_STATUS.ALIVE_LVL (R490). -/
def SAF_STATUS_ALIVE_LVL : Fld := ⟨7143428, 0, 1, 4, 1, .ro, 0, false, .SAF_STATUS_ALIVE_LVL⟩
/-- SAF_STATUS.ALIVE_RUN (R490). -/
def SAF_STATUS_ALIVE_RUN : Fld := ⟨7143428, 0, 1, 3, 1, .ro, 0, false, .SAF_STATUS_ALIVE_RUN⟩
/-- SAF_STATUS.DEBUG (R490). -/
def SAF_STATUS_DEBUG : Fld := ⟨7143428, 0, 1, 2, 1, .ro, 0, false, .SAF_STATUS_DEBUG⟩
/-- SAF_STATUS.SPLIT (R490). -/
def SAF_STATUS_SPLIT : Fld := ⟨7143428, 0, 1, 1, 1, .ro, 0, false, .SAF_STATUS_SPLIT⟩
/-- SAF_STATUS.SAFETY (R490). -/
def SAF_STATUS_SAFETY : Fld := ⟨7143428, 0, 1, 0, 1, .ro, 0, false, .SAF_STATUS_SAFETY⟩
/-- SAF_LOCKSTEP.TESTS (R490). -/
def SAF_LOCKSTEP_TESTS : Fld := ⟨7143432, 0, 1, 16, 16, .ros, 0, true, .stored⟩
/-- SAF_LOCKSTEP.FAIL (R490). -/
def SAF_LOCKSTEP_FAIL : Fld := ⟨7143432, 0, 1, 0, 8, .ros, 0, false, .stored⟩
/-- SAF_WDT.EARLY (R490). -/
def SAF_WDT_EARLY : Fld := ⟨7143436, 0, 1, 8, 8, .ros, 0, false, .stored⟩
/-- SAF_WDT.LATE (R490). -/
def SAF_WDT_LATE : Fld := ⟨7143436, 0, 1, 0, 8, .ros, 0, false, .stored⟩
/-- SAF_ALIVE.STOPS (R490). -/
def SAF_ALIVE_STOPS : Fld := ⟨7143440, 0, 1, 16, 16, .ros, 0, false, .stored⟩
/-- SAF_ALIVE.EDGES (R490). -/
def SAF_ALIVE_EDGES : Fld := ⟨7143440, 0, 1, 0, 16, .ro, 0, true, .stored⟩
/-- SAF_MGMT.LINK (R490). -/
def SAF_MGMT_LINK : Fld := ⟨7143444, 0, 1, 3, 1, .ro, 0, false, .stored⟩
/-- SAF_MGMT.IPV6 (R490). -/
def SAF_MGMT_IPV6 : Fld := ⟨7143444, 0, 1, 2, 1, .ro, 0, false, .stored⟩
/-- SAF_MGMT.AUTH (R490). -/
def SAF_MGMT_AUTH : Fld := ⟨7143444, 0, 1, 1, 1, .ro, 0, false, .stored⟩
/-- SAF_MGMT.EN (R490). -/
def SAF_MGMT_EN : Fld := ⟨7143444, 0, 1, 0, 1, .ro, 0, false, .stored⟩
/-- SAF_MGMT_STAT.SENT (R490). -/
def SAF_MGMT_STAT_SENT : Fld := ⟨7143448, 0, 1, 16, 16, .ros, 0, true, .stored⟩
/-- SAF_MGMT_STAT.DROPPED (R490). -/
def SAF_MGMT_STAT_DROPPED : Fld := ⟨7143448, 0, 1, 0, 16, .ros, 0, false, .stored⟩
/-- SAF_WIN_SEL.STAGE (R490). -/
def SAF_WIN_SEL_STAGE : Fld := ⟨7143452, 0, 1, 0, 8, .rw, 0, false, .stored⟩
/-- SAF_WIN_STAT.LAST (R490). -/
def SAF_WIN_STAT_LAST : Fld := ⟨7143456, 0, 1, 0, 32, .ro, 0, false, .SAF_WIN_STAT_LAST⟩
/-- SAF_WIN_CNT.LATE (R490). -/
def SAF_WIN_CNT_LATE : Fld := ⟨7143460, 0, 1, 16, 16, .ros, 0, false, .SAF_WIN_CNT_LATE⟩
/-- SAF_WIN_CNT.EARLY (R490). -/
def SAF_WIN_CNT_EARLY : Fld := ⟨7143460, 0, 1, 0, 16, .ros, 0, false, .SAF_WIN_CNT_EARLY⟩
/-- SAF_TLOG_HEAD.NEXT (R490). -/
def SAF_TLOG_HEAD_NEXT : Fld := ⟨7143464, 0, 1, 0, 32, .ro, 0, false, .SAF_TLOG_HEAD_NEXT⟩
/-- SAF_TLOG_SEL.SLOT (R490). -/
def SAF_TLOG_SEL_SLOT : Fld := ⟨7143468, 0, 1, 0, 12, .rw, 0, false, .stored⟩
/-- SAF_TLOG_DATA.WORD (R490). -/
def SAF_TLOG_DATA_WORD : Fld := ⟨7143488, 4, 8, 0, 32, .ro, 0, false, .SAF_TLOG_DATA_WORD⟩
/-- FCL_CTRL.CLR_CNT (R491). -/
def FCL_CTRL_CLR_CNT : Fld := ⟨7208960, 0, 1, 0, 1, .w1s, 0, false, .stored⟩
/-- FCL_STATE.DECIDE_WAIT (R491). -/
def FCL_STATE_DECIDE_WAIT : Fld := ⟨7208964, 0, 1, 16, 16, .ro, 0, false, .FCL_STATE_DECIDE_WAIT⟩
/-- FCL_STATE.MODE (R491). -/
def FCL_STATE_MODE : Fld := ⟨7208964, 0, 1, 4, 1, .ro, 0, false, .FCL_STATE_MODE⟩
/-- FCL_STATE.PENDING (R491). -/
def FCL_STATE_PENDING : Fld := ⟨7208964, 0, 1, 0, 3, .ro, 0, false, .FCL_STATE_PENDING⟩
/-- FCL_STATUS.LINE (R491). -/
def FCL_STATUS_LINE : Fld := ⟨7208976, 4, 8, 0, 32, .w1c, 0, false, .stored⟩
/-- FCL_REACT_SEL.INDEX (R491). -/
def FCL_REACT_SEL_INDEX : Fld := ⟨7209008, 0, 1, 0, 9, .rw, 0, false, .stored⟩
/-- FCL_REACT.VALID (R491). -/
def FCL_REACT_VALID : Fld := ⟨7209012, 0, 1, 31, 1, .ro, 0, false, .FCL_REACT_VALID⟩
/-- FCL_REACT.SAFETY (R491). -/
def FCL_REACT_SAFETY : Fld := ⟨7209012, 0, 1, 30, 1, .ro, 0, false, .FCL_REACT_SAFETY⟩
/-- FCL_REACT.DECIDE (R491). -/
def FCL_REACT_DECIDE : Fld := ⟨7209012, 0, 1, 29, 1, .ro, 0, false, .FCL_REACT_DECIDE⟩
/-- FCL_REACT.REACTION (R491). -/
def FCL_REACT_REACTION : Fld := ⟨7209012, 0, 1, 24, 3, .ro, 0, false, .FCL_REACT_REACTION⟩
/-- FCL_REACT.FLOOR (R491). -/
def FCL_REACT_FLOOR : Fld := ⟨7209012, 0, 1, 20, 3, .ro, 0, false, .FCL_REACT_FLOOR⟩
/-- FCL_REACT.CODE (R491). -/
def FCL_REACT_CODE : Fld := ⟨7209012, 0, 1, 0, 16, .ro, 0, false, .FCL_REACT_CODE⟩
/-- FCL_LINE_CHK.VALID (R491). -/
def FCL_LINE_CHK_VALID : Fld := ⟨7209016, 0, 1, 31, 1, .ros, 0, false, .stored⟩
/-- FCL_LINE_CHK.LINE (R491). -/
def FCL_LINE_CHK_LINE : Fld := ⟨7209016, 0, 1, 0, 8, .ros, 0, false, .stored⟩
/-- FCL_REACT_CNT0.FENCE (R491). -/
def FCL_REACT_CNT0_FENCE : Fld := ⟨7209020, 0, 1, 24, 8, .ros, 0, false, .stored⟩
/-- FCL_REACT_CNT0.FAIL (R491). -/
def FCL_REACT_CNT0_FAIL : Fld := ⟨7209020, 0, 1, 16, 8, .ros, 0, false, .stored⟩
/-- FCL_REACT_CNT0.PARTIAL (R491). -/
def FCL_REACT_CNT0_PARTIAL : Fld := ⟨7209020, 0, 1, 8, 8, .ros, 0, false, .stored⟩
/-- FCL_REACT_CNT0.CLAMP (R491). -/
def FCL_REACT_CNT0_CLAMP : Fld := ⟨7209020, 0, 1, 0, 8, .ros, 0, false, .stored⟩
/-- FCL_REACT_CNT1.COUNT (R491). -/
def FCL_REACT_CNT1_COUNT : Fld := ⟨7209024, 0, 1, 16, 16, .ros, 0, false, .stored⟩
/-- FCL_REACT_CNT1.LOG (R491). -/
def FCL_REACT_CNT1_LOG : Fld := ⟨7209024, 0, 1, 0, 16, .ros, 0, false, .stored⟩
/-- FCL_FIRST_0.ADDR_LO (R491). -/
def FCL_FIRST_0_ADDR_LO : Fld := ⟨7209232, 16, 12, 0, 32, .ros, 0, false, .stored⟩
/-- FCL_FIRST_1.VALID (R491). -/
def FCL_FIRST_1_VALID : Fld := ⟨7209236, 16, 12, 31, 1, .ros, 0, false, .stored⟩
/-- FCL_FIRST_1.TYPE (R491). -/
def FCL_FIRST_1_TYPE : Fld := ⟨7209236, 16, 12, 28, 3, .ros, 0, false, .stored⟩
/-- FCL_FIRST_1.MASTER (R491). -/
def FCL_FIRST_1_MASTER : Fld := ⟨7209236, 16, 12, 16, 12, .ros, 0, false, .stored⟩
/-- FCL_FIRST_1.ADDR_HI (R491). -/
def FCL_FIRST_1_ADDR_HI : Fld := ⟨7209236, 16, 12, 0, 16, .ros, 0, false, .stored⟩
/-- FCL_FIRST_2.TICK (R491). -/
def FCL_FIRST_2_TICK : Fld := ⟨7209240, 16, 12, 0, 32, .ros, 0, false, .stored⟩
/-- FCL_FIRST_3.CODE (R491). -/
def FCL_FIRST_3_CODE : Fld := ⟨7209244, 16, 12, 16, 16, .ros, 0, false, .stored⟩
/-- FCL_FIRST_3.UNIT (R491). -/
def FCL_FIRST_3_UNIT : Fld := ⟨7209244, 16, 12, 0, 16, .ros, 0, false, .stored⟩
/-- SEC_CTRL.CLR_CNT (R551). -/
def SEC_CTRL_CLR_CNT : Fld := ⟨7274496, 0, 1, 0, 1, .w1s, 0, false, .stored⟩
/-- SEC_STATUS.ID_READY (R551). -/
def SEC_STATUS_ID_READY : Fld := ⟨7274500, 0, 1, 5, 1, .ro, 0, false, .stored⟩
/-- SEC_STATUS.DEBUG (R551). -/
def SEC_STATUS_DEBUG : Fld := ⟨7274500, 0, 1, 4, 1, .ro, 0, false, .stored⟩
/-- SEC_STATUS.OWNER (R551). -/
def SEC_STATUS_OWNER : Fld := ⟨7274500, 0, 1, 3, 1, .ro, 0, false, .SEC_STATUS_OWNER⟩
/-- SEC_STATUS.DEBUG_DISABLE (R551). -/
def SEC_STATUS_DEBUG_DISABLE : Fld := ⟨7274500, 0, 1, 2, 1, .ro, 0, false, .SEC_STATUS_DEBUG_DISABLE⟩
/-- SEC_STATUS.SPLIT_DISABLE (R551). -/
def SEC_STATUS_SPLIT_DISABLE : Fld := ⟨7274500, 0, 1, 1, 1, .ro, 0, false, .SEC_STATUS_SPLIT_DISABLE⟩
/-- SEC_STATUS.ID_RSA (R551). -/
def SEC_STATUS_ID_RSA : Fld := ⟨7274500, 0, 1, 0, 1, .ro, 0, false, .stored⟩
/-- SEC_OP.OP (R551). -/
def SEC_OP_OP : Fld := ⟨7274504, 0, 1, 1, 3, .rw, 0, false, .stored⟩
/-- SEC_OP.START (R551). -/
def SEC_OP_START : Fld := ⟨7274504, 0, 1, 0, 1, .w1s, 0, false, .stored⟩
/-- SEC_OP_STATUS.BUSY (R551). -/
def SEC_OP_STATUS_BUSY : Fld := ⟨7274508, 0, 1, 31, 1, .ro, 0, false, .stored⟩
/-- SEC_OP_STATUS.LAST_OP (R551). -/
def SEC_OP_STATUS_LAST_OP : Fld := ⟨7274508, 0, 1, 17, 3, .ro, 0, false, .stored⟩
/-- SEC_OP_STATUS.RESULT (R551). -/
def SEC_OP_STATUS_RESULT : Fld := ⟨7274508, 0, 1, 0, 16, .ro, 0, false, .stored⟩
/-- SEC_OP_ADDR_LO.ADDR (R551). -/
def SEC_OP_ADDR_LO_ADDR : Fld := ⟨7274512, 0, 1, 6, 26, .rw, 0, false, .stored⟩
/-- SEC_OP_ADDR_HI.ADDR_HI (R551). -/
def SEC_OP_ADDR_HI_ADDR_HI : Fld := ⟨7274516, 0, 1, 0, 2, .rw, 0, false, .stored⟩
/-- SEC_OP_LEN.BYTES (R551). -/
def SEC_OP_LEN_BYTES : Fld := ⟨7274520, 0, 1, 0, 32, .rw, 0, false, .stored⟩
/-- SEC_VERIFY.PASS (R551). -/
def SEC_VERIFY_PASS : Fld := ⟨7274524, 0, 1, 16, 16, .ros, 0, false, .stored⟩
/-- SEC_VERIFY.FAIL (R551). -/
def SEC_VERIFY_FAIL : Fld := ⟨7274524, 0, 1, 0, 16, .ros, 0, false, .stored⟩
/-- SEC_NONCE.NONCE (R551). -/
def SEC_NONCE_NONCE : Fld := ⟨7274528, 4, 8, 0, 32, .rw, 0, false, .stored⟩
/-- SEC_CHAL.CHAL (R551). -/
def SEC_CHAL_CHAL : Fld := ⟨7274560, 4, 8, 0, 32, .ro, 0, false, .stored⟩
/-- COC_CTRL.UPD_START (R552). -/
def COC_CTRL_UPD_START : Fld := ⟨7340032, 0, 1, 2, 1, .w1s, 0, false, .stored⟩
/-- COC_CTRL.EXPORT (R552). -/
def COC_CTRL_EXPORT : Fld := ⟨7340032, 0, 1, 1, 1, .w1s, 0, false, .stored⟩
/-- COC_CTRL.CLR_CNT (R552). -/
def COC_CTRL_CLR_CNT : Fld := ⟨7340032, 0, 1, 0, 1, .w1s, 0, false, .stored⟩
/-- COC_STATUS.POWER_OK (R552). -/
def COC_STATUS_POWER_OK : Fld := ⟨7340036, 0, 1, 31, 1, .ro, 0, false, .COC_STATUS_POWER_OK⟩
/-- COC_STATUS.RUN (R552). -/
def COC_STATUS_RUN : Fld := ⟨7340036, 0, 1, 30, 1, .ro, 0, false, .stored⟩
/-- COC_STATUS.SEALS (R552). -/
def COC_STATUS_SEALS : Fld := ⟨7340036, 0, 1, 27, 3, .ro, 0, false, .stored⟩
/-- COC_STATUS.UPD (R552). -/
def COC_STATUS_UPD : Fld := ⟨7340036, 0, 1, 24, 3, .ro, 0, false, .stored⟩
/-- COC_STATUS.FREE (R552). -/
def COC_STATUS_FREE : Fld := ⟨7340036, 0, 1, 16, 7, .ro, 64, false, .COC_STATUS_FREE⟩
/-- COC_MSEQ.NEXT (R552). -/
def COC_MSEQ_NEXT : Fld := ⟨7340040, 0, 1, 0, 32, .ro, 0, false, .stored⟩
/-- COC_ESEQ.LAST (R552). -/
def COC_ESEQ_LAST : Fld := ⟨7340044, 0, 1, 0, 32, .ro, 0, false, .stored⟩
/-- COC_EPOCH.OPEN (R552). -/
def COC_EPOCH_OPEN : Fld := ⟨7340048, 0, 1, 0, 32, .ro, 0, false, .stored⟩
/-- COC_ERR.DROPPED (R552). -/
def COC_ERR_DROPPED : Fld := ⟨7340052, 0, 1, 16, 16, .ros, 0, false, .stored⟩
/-- COC_ERR.RESETS (R552). -/
def COC_ERR_RESETS : Fld := ⟨7340052, 0, 1, 8, 8, .ros, 0, false, .stored⟩
/-- COC_ERR.OVERWRITTEN (R552). -/
def COC_ERR_OVERWRITTEN : Fld := ⟨7340052, 0, 1, 0, 8, .ros, 0, false, .stored⟩
/-- COC_EXPORT.STATE (R552). -/
def COC_EXPORT_STATE : Fld := ⟨7340056, 0, 1, 30, 2, .ro, 0, false, .stored⟩
/-- COC_EXPORT.EPOCH (R552). -/
def COC_EXPORT_EPOCH : Fld := ⟨7340056, 0, 1, 0, 30, .rw, 0, false, .stored⟩
/-- COC_XADDR_LO.ADDR (R552). -/
def COC_XADDR_LO_ADDR : Fld := ⟨7340060, 0, 1, 6, 26, .rw, 0, false, .stored⟩
/-- COC_XADDR_HI.ADDR_HI (R552). -/
def COC_XADDR_HI_ADDR_HI : Fld := ⟨7340064, 0, 1, 0, 2, .rw, 0, false, .stored⟩
/-- COC_XLEN.BYTES (R552). -/
def COC_XLEN_BYTES : Fld := ⟨7340068, 0, 1, 0, 32, .rw, 0, false, .stored⟩
/-- COC_VER.VERSION (R552). -/
def COC_VER_VERSION : Fld := ⟨7340072, 0, 1, 0, 32, .ro, 0, false, .stored⟩
/-- PWR_CTRL.CLR_CNT (R579). -/
def PWR_CTRL_CLR_CNT : Fld := ⟨7405568, 0, 1, 0, 1, .w1s, 0, false, .stored⟩
/-- PWR_STATUS.EMERG (R579). -/
def PWR_STATUS_EMERG : Fld := ⟨7405572, 0, 1, 31, 1, .ro, 0, false, .stored⟩
/-- PWR_STATUS.ACTIONS (R579). -/
def PWR_STATUS_ACTIONS : Fld := ⟨7405572, 0, 1, 16, 6, .ro, 0, false, .stored⟩
/-- PWR_STATUS.ARRAY (R579). -/
def PWR_STATUS_ARRAY : Fld := ⟨7405572, 0, 1, 8, 2, .ro, 0, false, .stored⟩
/-- PWR_STATUS.FW_THROTTLE (R579). -/
def PWR_STATUS_FW_THROTTLE : Fld := ⟨7405572, 0, 1, 1, 1, .ro, 0, false, .stored⟩
/-- PWR_STATUS.AVS (R579). -/
def PWR_STATUS_AVS : Fld := ⟨7405572, 0, 1, 0, 1, .ro, 0, false, .stored⟩
/-- PWR_VOLT.MEAS_MV (R579). -/
def PWR_VOLT_MEAS_MV : Fld := ⟨7405576, 0, 1, 16, 16, .ro, 0, false, .stored⟩
/-- PWR_VOLT.REQ_MV (R579). -/
def PWR_VOLT_REQ_MV : Fld := ⟨7405576, 0, 1, 0, 16, .ro, 800, false, .stored⟩
/-- PWR_CURR.PEAK (R579). -/
def PWR_CURR_PEAK : Fld := ⟨7405580, 0, 1, 16, 16, .ros, 0, false, .stored⟩
/-- PWR_CURR.NOW (R579). -/
def PWR_CURR_NOW : Fld := ⟨7405580, 0, 1, 0, 16, .ro, 0, false, .stored⟩
/-- PWR_TEMP.MAX (R579). -/
def PWR_TEMP_MAX : Fld := ⟨7405584, 0, 1, 16, 16, .ro, 0, false, .PWR_TEMP_MAX⟩
/-- PWR_TEMP.SENSOR (R579). -/
def PWR_TEMP_SENSOR : Fld := ⟨7405584, 0, 1, 0, 6, .ro, 0, false, .PWR_TEMP_SENSOR⟩
/-- PWR_SENSOR_SEL.SENSOR (R579). -/
def PWR_SENSOR_SEL_SENSOR : Fld := ⟨7405588, 0, 1, 0, 6, .rw, 0, false, .stored⟩
/-- PWR_SENSOR.TEMP (R579). -/
def PWR_SENSOR_TEMP : Fld := ⟨7405592, 0, 1, 16, 16, .ro, 0, false, .PWR_SENSOR_TEMP⟩
/-- PWR_ACT_CNT.T115 (R579). -/
def PWR_ACT_CNT_T115 : Fld := ⟨7405596, 0, 1, 24, 8, .ros, 0, false, .stored⟩
/-- PWR_ACT_CNT.T122 (R579). -/
def PWR_ACT_CNT_T122 : Fld := ⟨7405596, 0, 1, 16, 8, .ros, 0, false, .stored⟩
/-- PWR_ACT_CNT.CURR (R579). -/
def PWR_ACT_CNT_CURR : Fld := ⟨7405596, 0, 1, 8, 8, .ros, 0, false, .stored⟩
/-- PWR_ACT_CNT.VOLT (R579). -/
def PWR_ACT_CNT_VOLT : Fld := ⟨7405596, 0, 1, 0, 8, .ros, 0, false, .stored⟩
/-- PWR_START.DONE (R579). -/
def PWR_START_DONE : Fld := ⟨7405600, 0, 1, 31, 1, .ro, 0, false, .stored⟩
/-- PWR_START.COPY (R579). -/
def PWR_START_COPY : Fld := ⟨7405600, 0, 1, 30, 1, .ro, 0, false, .stored⟩
/-- PWR_START.STEP (R579). -/
def PWR_START_STEP : Fld := ⟨7405600, 0, 1, 24, 4, .ro, 0, false, .stored⟩
/-- PWR_START.MS_HI (R579). -/
def PWR_START_MS_HI : Fld := ⟨7405600, 0, 1, 16, 8, .ro, 0, false, .stored⟩
/-- PWR_START.CODE (R579). -/
def PWR_START_CODE : Fld := ⟨7405600, 0, 1, 0, 16, .ro, 0, false, .stored⟩
/-- PRS_CTRL.CLR_CNT (R580). -/
def PRS_CTRL_CLR_CNT : Fld := ⟨7471104, 0, 1, 0, 1, .w1s, 0, false, .stored⟩
/-- PRS_STATUS.BUSY (R580). -/
def PRS_STATUS_BUSY : Fld := ⟨7471108, 0, 1, 31, 1, .ro, 0, false, .PRS_STATUS_BUSY⟩
/-- PRS_STATUS.UNCORR (R580). -/
def PRS_STATUS_UNCORR : Fld := ⟨7471108, 0, 1, 8, 8, .ros, 0, false, .stored⟩
/-- PRS_STATUS.REFUSED (R580). -/
def PRS_STATUS_REFUSED : Fld := ⟨7471108, 0, 1, 0, 8, .ros, 0, false, .stored⟩
/-- PRS_WORD.VALUE (R580). -/
def PRS_WORD_VALUE : Fld := ⟨7487488, 4, 4096, 0, 32, .rwp, 0, false, .PRS_WORD_VALUE⟩
/-- PRS_WCNT.LIMIT (R580). -/
def PRS_WCNT_LIMIT : Fld := ⟨7503872, 4, 4096, 31, 1, .ro, 0, false, .PRS_WCNT_LIMIT⟩
/-- PRS_WCNT.WRITES (R580). -/
def PRS_WCNT_WRITES : Fld := ⟨7503872, 4, 4096, 0, 18, .ro, 0, false, .PRS_WCNT_WRITES⟩

end F

/-- A register: the offset of its instance 0, its stride, its number of instances and its fields; the bits of no field
are reserved and read 0 (R8). -/
structure RegRow where
  off : Nat
  stride : Nat
  n : Nat
  flds : List Fld
  deriving DecidableEq, Repr

/-- The registers of the TIL_ window. -/
def regsTIL : List RegRow :=
  [ ⟨0, 2048, 2048, [F.TIL_CTRL_HALT_REQ, F.TIL_CTRL_START]⟩,
    ⟨4, 2048, 2048, [F.TIL_STATUS_JOB_TAG, F.TIL_STATUS_STAGE, F.TIL_STATUS_FUSED, F.TIL_STATUS_ERR, F.TIL_STATUS_STATE]⟩,
    ⟨8, 2048, 2048, [F.TIL_PC_PC]⟩,
    ⟨12, 2048, 2048, [F.TIL_HALT_VALID, F.TIL_HALT_HALT_PC, F.TIL_HALT_CAUSE]⟩,
    ⟨16, 2048, 2048, [F.TIL_MAP_MOVING, F.TIL_MAP_CLASS, F.TIL_MAP_SLOT, F.TIL_MAP_PHYS]⟩]

/-- The registers of the BRD_ window. -/
def regsBRD : List RegRow :=
  [ ⟨4194304, 4096, 128, [F.BRD_CTRL_ROT_GRANT, F.BRD_CTRL_ROT_EN]⟩,
    ⟨4194308, 4096, 128, [F.BRD_STATUS_GOOD_COUNT, F.BRD_STATUS_EXCLUDED, F.BRD_STATUS_TEST_SLOT, F.BRD_STATUS_SPARE_SLOT, F.BRD_STATUS_TEST_BUSY, F.BRD_STATUS_ROT_BUSY, F.BRD_STATUS_NO_MARGIN, F.BRD_STATUS_MODE]⟩,
    ⟨4194312, 4096, 128, [F.BRD_MAP0_VALID3, F.BRD_MAP0_SLOT3, F.BRD_MAP0_VALID2, F.BRD_MAP0_SLOT2, F.BRD_MAP0_VALID1, F.BRD_MAP0_SLOT1, F.BRD_MAP0_VALID0, F.BRD_MAP0_SLOT0]⟩,
    ⟨4194316, 4096, 128, [F.BRD_MAP1_VALID7, F.BRD_MAP1_SLOT7, F.BRD_MAP1_VALID6, F.BRD_MAP1_SLOT6, F.BRD_MAP1_VALID5, F.BRD_MAP1_SLOT5, F.BRD_MAP1_VALID4, F.BRD_MAP1_SLOT4]⟩,
    ⟨4194320, 4096, 128, [F.BRD_MAP2_VALID11, F.BRD_MAP2_SLOT11, F.BRD_MAP2_VALID10, F.BRD_MAP2_SLOT10, F.BRD_MAP2_VALID9, F.BRD_MAP2_SLOT9, F.BRD_MAP2_VALID8, F.BRD_MAP2_SLOT8]⟩,
    ⟨4194324, 4096, 128, [F.BRD_MAP3_VALID15, F.BRD_MAP3_SLOT15, F.BRD_MAP3_VALID14, F.BRD_MAP3_SLOT14, F.BRD_MAP3_VALID13, F.BRD_MAP3_SLOT13, F.BRD_MAP3_VALID12, F.BRD_MAP3_SLOT12]⟩,
    ⟨4194328, 4096, 128, [F.BRD_SLOTS0_STATE_15, F.BRD_SLOTS0_STATE_14, F.BRD_SLOTS0_STATE_13, F.BRD_SLOTS0_STATE_12, F.BRD_SLOTS0_STATE_11, F.BRD_SLOTS0_STATE_10, F.BRD_SLOTS0_STATE_9, F.BRD_SLOTS0_STATE_8, F.BRD_SLOTS0_STATE_7, F.BRD_SLOTS0_STATE_6, F.BRD_SLOTS0_STATE_5, F.BRD_SLOTS0_STATE_4, F.BRD_SLOTS0_STATE_3, F.BRD_SLOTS0_STATE_2, F.BRD_SLOTS0_STATE_1, F.BRD_SLOTS0_STATE_0]⟩,
    ⟨4194332, 4096, 128, [F.BRD_SLOTS1_STATE_16]⟩,
    ⟨4194336, 4096, 128, [F.BRD_ROT_COUNT_MOVES]⟩,
    ⟨4194340, 4096, 128, [F.BRD_ROT_EVENTS_WAITS, F.BRD_ROT_EVENTS_ABORTS]⟩,
    ⟨4194344, 4096, 128, [F.BRD_LAST_TEST_SKEW_FAIL, F.BRD_LAST_TEST_DONE, F.BRD_LAST_TEST_ABORTED, F.BRD_LAST_TEST_MBIST_FAIL, F.BRD_LAST_TEST_LBIST_FAIL, F.BRD_LAST_TEST_SLOT]⟩]

/-- The registers of the ARR_ window. -/
def regsARR : List RegRow :=
  [ ⟨4718592, 256, 2048, [F.ARR_CTRL_CLR_CNT]⟩,
    ⟨4718596, 256, 2048, [F.ARR_STATUS_BUSY, F.ARR_STATUS_FUSED, F.ARR_STATUS_LEAD, F.ARR_STATUS_AFMT, F.ARR_STATUS_OP, F.ARR_STATUS_DRAIN_SAT, F.ARR_STATUS_ACC_SAT]⟩,
    ⟨4718600, 256, 2048, [F.ARR_SPARE_SPARE_COL, F.ARR_SPARE_SPARE_ROW]⟩,
    ⟨4718604, 256, 2048, [F.ARR_SKEW_DONE, F.ARR_SKEW_COL_PROG, F.ARR_SKEW_ROW_PROG]⟩,
    ⟨4718608, 256, 2048, [F.ARR_BANK_B1_FMT, F.ARR_BANK_B0_FMT, F.ARR_BANK_LOAD_BUSY, F.ARR_BANK_LOAD_BANK, F.ARR_BANK_LAST_BANK, F.ARR_BANK_B1_DUAL, F.ARR_BANK_B0_DUAL, F.ARR_BANK_B1_LOADED, F.ARR_BANK_B0_LOADED]⟩,
    ⟨4718612, 256, 2048, [F.ARR_RAMP_PHASE, F.ARR_RAMP_LEVEL]⟩,
    ⟨4718616, 256, 2048, [F.ARR_KMASK0_KMASK]⟩,
    ⟨4718620, 256, 2048, [F.ARR_KMASK1_KMASK]⟩,
    ⟨4718624, 256, 2048, [F.ARR_NMASK0_NMASK]⟩,
    ⟨4718628, 256, 2048, [F.ARR_NMASK1_NMASK]⟩,
    ⟨4718632, 256, 2048, [F.ARR_SAT_COUNT_ACC, F.ARR_SAT_COUNT_DRAIN]⟩,
    ⟨4718636, 256, 2048, [F.ARR_ACTIVE_BEATS]⟩,
    ⟨4718640, 256, 2048, [F.ARR_STALL_CYCLES]⟩,
    ⟨4718644, 256, 2048, [F.ARR_BALLAST_BEATS]⟩,
    ⟨4718648, 256, 2048, [F.ARR_VIOL_SUBST]⟩]

/-- The registers of the NOC_ window. -/
def regsNOC : List RegRow :=
  [ ⟨6291456, 0, 1, [F.NOC_CTRL_CLR_CNT]⟩,
    ⟨6291460, 0, 1, [F.NOC_ACK_TMO_CROSS, F.NOC_ACK_TMO_LOCAL]⟩,
    ⟨6291464, 0, 1, [F.NOC_RETX_COUNT]⟩,
    ⟨6291468, 0, 1, [F.NOC_FAIL_REJECT, F.NOC_FAIL_ACK_TMO, F.NOC_FAIL_CRC_FAIL, F.NOC_FAIL_SYNC_CHK]⟩,
    ⟨6291472, 0, 1, [F.NOC_VIOL_OUT_OF_SET, F.NOC_VIOL_BUDGET]⟩,
    ⟨6291476, 0, 1, [F.NOC_ECC_UNCORR, F.NOC_ECC_CORR]⟩,
    ⟨6291480, 0, 1, [F.NOC_FIRST0_VALID, F.NOC_FIRST0_KIND, F.NOC_FIRST0_STAGE, F.NOC_FIRST0_SRC_CHIP, F.NOC_FIRST0_SRC_TILE]⟩,
    ⟨6291484, 0, 1, [F.NOC_FIRST1_OFFSET, F.NOC_FIRST1_DST_CHIP, F.NOC_FIRST1_DST_TILE]⟩]

/-- The registers of the SYN_ window. -/
def regsSYN : List RegRow :=
  [ ⟨5242880, 0, 1, [F.SYN_CTRL_CLR_CNT]⟩,
    ⟨5242884, 0, 1, [F.SYN_VIOL_SAT_GLOBAL, F.SYN_VIOL_SAT_LOCAL]⟩,
    ⟨5242888, 0, 1, [F.SYN_WAITS_RETRY, F.SYN_WAITS_PEAK]⟩,
    ⟨5505024, 4, 65536, [F.SYN_OBJ_VALUE]⟩]

/-- The registers of the SYNC_ window. -/
def regsSYNC : List RegRow :=
  [ ⟨5242896, 0, 1, [F.SYNC_IO_CTRL_TMO, F.SYNC_IO_CTRL_EN]⟩,
    ⟨5242900, 0, 1, [F.SYNC_IO_STATUS_SEQ, F.SYNC_IO_STATUS_ALIGNED, F.SYNC_IO_STATUS_IN_BARRIER, F.SYNC_IO_STATUS_HOLD, F.SYNC_IO_STATUS_LINE]⟩,
    ⟨5242904, 0, 1, [F.SYNC_IO_LAST_TICK]⟩,
    ⟨5242908, 0, 1, [F.SYNC_IO_ERR_TIMEOUTS, F.SYNC_IO_ERR_SEQ_MISMATCH]⟩]

/-- The registers of the CHL_ window. -/
def regsCHL : List RegRow :=
  [ ⟨6553600, 16384, 4, [F.CHL_CTRL_RETRAIN, F.CHL_CTRL_EN]⟩,
    ⟨6553604, 16384, 4, [F.CHL_STATUS_PEER, F.CHL_STATUS_AUTH, F.CHL_STATUS_WIDTH, F.CHL_STATUS_STATE]⟩,
    ⟨6553608, 16384, 4, [F.CHL_LANES_IN_USE, F.CHL_LANES_GOOD]⟩,
    ⟨6553612, 16384, 4, [F.CHL_REPLAY_COUNT]⟩,
    ⟨6553616, 16384, 4, [F.CHL_EVENTS_AUTH_FAIL, F.CHL_EVENTS_TAG_FAIL, F.CHL_EVENTS_DOWN, F.CHL_EVENTS_DEGRADE]⟩,
    ⟨6553620, 16384, 4, [F.CHL_LAT_LATENCY]⟩]

/-- The registers of the INT_ window. -/
def regsINT : List RegRow :=
  [ ⟨6619136, 0, 1, [F.INT_CTRL_CLR_CNT]⟩,
    ⟨6619140, 0, 1, [F.INT_DESC_UPD_PENDING, F.INT_DESC_UPD_INDEX]⟩,
    ⟨6619144, 4, 3, [F.INT_STATE_STATE]⟩,
    ⟨6619156, 0, 1, [F.INT_FIRST0_VALID, F.INT_FIRST0_CODE, F.INT_FIRST0_INDEX]⟩,
    ⟨6619160, 0, 1, [F.INT_FIRST1_TICK]⟩,
    ⟨6619164, 0, 1, [F.INT_PTP_STATUS_SYNCS, F.INT_PTP_STATUS_PORT, F.INT_PTP_STATUS_STATE]⟩,
    ⟨6619168, 0, 1, [F.INT_PTP_OFS_LO_OFS]⟩,
    ⟨6619172, 0, 1, [F.INT_PTP_OFS_HI_OFS]⟩,
    ⟨6619392, 4, 48, [F.INT_LOSS_TOTAL, F.INT_LOSS_CONSEC, F.INT_LOSS_RESUMES]⟩,
    ⟨6619648, 4, 48, [F.INT_CHK_PAT_FAIL, F.INT_CHK_TROW_FAIL, F.INT_CHK_OVERRUN]⟩,
    ⟨6619904, 4, 16, [F.INT_CSI_ERR_ECC_CORR, F.INT_CSI_ERR_ECC_UNCORR, F.INT_CSI_ERR_CRC, F.INT_CSI_ERR_UNCLAIMED]⟩,
    ⟨6620032, 4, 4, [F.INT_ETH_STAT_LINK, F.INT_ETH_STAT_SPEED, F.INT_ETH_STAT_FCS]⟩,
    ⟨6620048, 4, 4, [F.INT_ETH_DROP_FILTER, F.INT_ETH_DROP_MALFORMED]⟩,
    ⟨6620064, 4, 4, [F.INT_ETH_LAT_TX_NS, F.INT_ETH_LAT_RX_NS]⟩]

/-- The registers of the JXS_ window. -/
def regsJXS : List RegRow :=
  [ ⟨6750208, 32768, 2, [F.JXS_CTRL_CLR_CNT, F.JXS_CTRL_MODE]⟩,
    ⟨6750212, 32768, 2, [F.JXS_STATUS_BUSY, F.JXS_STATUS_MODE_ACT, F.JXS_STATUS_INDEX]⟩,
    ⟨6750216, 32768, 2, [F.JXS_ABORT_BUDGET, F.JXS_ABORT_RESETS]⟩,
    ⟨6750220, 32768, 2, [F.JXS_REJECT_HEADER, F.JXS_REJECT_SYNTAX]⟩,
    ⟨6750224, 32768, 2, [F.JXS_TEST_TEST_FAIL, F.JXS_TEST_ENC_ABORT]⟩,
    ⟨6750228, 32768, 2, [F.JXS_LOAD_RESERVED_CYCLES]⟩,
    ⟨6750232, 32768, 2, [F.JXS_LAST_CYCLES]⟩]

/-- The registers of the WRP_ window. -/
def regsWRP : List RegRow :=
  [ ⟨6815744, 16384, 4, [F.WRP_CTRL_CLR_CNT]⟩,
    ⟨6815748, 16384, 4, [F.WRP_STATUS_BUSY, F.WRP_STATUS_IN_SERVICE, F.WRP_STATUS_RERUN, F.WRP_STATUS_INDEX, F.WRP_STATUS_COPY]⟩,
    ⟨6815752, 0, 1, [F.WRP_CFG_UPD_PENDING, F.WRP_CFG_UPD_INDEX]⟩,
    ⟨6815756, 16384, 4, [F.WRP_ERR_ATTRIB, F.WRP_ERR_MESH_CRC, F.WRP_ERR_COORD, F.WRP_ERR_TIMEOUT]⟩,
    ⟨6815760, 16384, 4, [F.WRP_PIXELS_COUNT]⟩,
    ⟨6815764, 16384, 4, [F.WRP_LAST_CYCLES]⟩]

/-- The registers of the MEM_ window. -/
def regsMEM : List RegRow :=
  [ ⟨6881280, 16384, 8, [F.MEM_CTRL_CLR_CNT]⟩,
    ⟨6881284, 16384, 8, [F.MEM_STATUS_TEMP, F.MEM_STATUS_REF_X2, F.MEM_STATUS_SPEED, F.MEM_STATUS_STATE]⟩,
    ⟨6881288, 16384, 8, [F.MEM_ECC_CORR, F.MEM_ECC_UNCORR]⟩,
    ⟨6881292, 16384, 8, [F.MEM_SCRUB_ERR_CORR, F.MEM_SCRUB_ERR_UNCORR]⟩,
    ⟨6881296, 16384, 8, [F.MEM_EDC_RETRY, F.MEM_EDC_FAIL, F.MEM_EDC_FORCED]⟩,
    ⟨6881300, 16384, 8, [F.MEM_FIRST0_ADDR_LO]⟩,
    ⟨6881304, 16384, 8, [F.MEM_FIRST1_VALID, F.MEM_FIRST1_TYPE, F.MEM_FIRST1_MASTER, F.MEM_FIRST1_ADDR_HI]⟩,
    ⟨6881308, 16384, 8, [F.MEM_FIRST2_TICK]⟩,
    ⟨6881312, 16384, 8, [F.MEM_TRAIN_DUE, F.MEM_TRAIN_GRANT, F.MEM_TRAIN_OVERDUE, F.MEM_TRAIN_COUNT]⟩,
    ⟨6881316, 16384, 8, [F.MEM_SCRUB_PASSES, F.MEM_SCRUB_PERIOD]⟩,
    ⟨6881320, 16384, 8, [F.MEM_CACHE_HITS, F.MEM_CACHE_MISSES]⟩,
    ⟨6881324, 16384, 8, [F.MEM_OUTST_PEAK, F.MEM_OUTST_NOW]⟩,
    ⟨6881328, 16384, 8, [F.MEM_LOST_TOTAL, F.MEM_LOST_USED]⟩,
    ⟨6881332, 16384, 8, [F.MEM_INJ_ARM, F.MEM_INJ_VALUE, F.MEM_INJ_POS]⟩,
    ⟨6881536, 0, 1, [F.MEM_SRAM_ECC_CORR, F.MEM_SRAM_ECC_UNCORR]⟩,
    ⟨6881540, 0, 1, [F.MEM_SRAM_FIRST0_VALID, F.MEM_SRAM_FIRST0_KIND, F.MEM_SRAM_FIRST0_UNIT, F.MEM_SRAM_FIRST0_WORD_HI]⟩,
    ⟨6881544, 0, 1, [F.MEM_SRAM_FIRST1_WORD_LO, F.MEM_SRAM_FIRST1_TICK]⟩]

/-- The registers of the HIF_ window. -/
def regsHIF : List RegRow :=
  [ ⟨7012352, 0, 1, [F.HIF_CTRL_CLR_CNT]⟩,
    ⟨7012356, 0, 1, [F.HIF_STATE_DEV, F.HIF_STATE_HOST]⟩,
    ⟨7012360, 0, 1, [F.HIF_ID_DEVICE, F.HIF_ID_STEP, F.HIF_ID_SAFETY]⟩,
    ⟨7012364, 0, 1, [F.HIF_IFVER_MAJOR, F.HIF_IFVER_MINOR]⟩,
    ⟨7012368, 0, 1, [F.HIF_HOST_VER_MAJOR, F.HIF_HOST_VER_MINOR]⟩,
    ⟨7012372, 0, 1, [F.HIF_ATTACH_DETACH, F.HIF_ATTACH_START]⟩,
    ⟨7012376, 0, 1, [F.HIF_ATTACH_STATUS_DEV_MAJOR, F.HIF_ATTACH_STATUS_ATTACH_ID, F.HIF_ATTACH_STATUS_BUSY, F.HIF_ATTACH_STATUS_RESULT]⟩,
    ⟨7012380, 0, 1, [F.HIF_HEARTBEAT_COUNT]⟩,
    ⟨7012384, 0, 1, [F.HIF_LINK_WIDTH, F.HIF_LINK_SPEED]⟩,
    ⟨7012388, 0, 1, [F.HIF_BAR2_BASE_BASE]⟩,
    ⟨7012392, 0, 1, [F.HIF_BAR4_SEL_HALF]⟩,
    ⟨7012396, 0, 1, [F.HIF_HOLD0_AUTO_HOLD]⟩,
    ⟨7012400, 0, 1, [F.HIF_HOLD1_AUTO_HOLD]⟩,
    ⟨7012404, 0, 1, [F.HIF_JOBS_HOST, F.HIF_JOBS_SEQR]⟩,
    ⟨7012408, 0, 1, [F.HIF_LOSS0_CPL, F.HIF_LOSS0_EVT]⟩,
    ⟨7012412, 0, 1, [F.HIF_LOSS1_LOG, F.HIF_LOSS1_TRC]⟩,
    ⟨7012416, 16, 5, [F.HIF_RING_BASE_BASE]⟩,
    ⟨7012420, 16, 5, [F.HIF_RING_CFG_ESIZE, F.HIF_RING_CFG_LOG2N]⟩,
    ⟨7012424, 16, 5, [F.HIF_RING_PROD_PROD]⟩,
    ⟨7012428, 16, 5, [F.HIF_RING_CONS_CONS]⟩,
    ⟨7012496, 0, 1, [F.HIF_VIOL0_RO_WRITE, F.HIF_VIOL0_HOLE]⟩,
    ⟨7012500, 0, 1, [F.HIF_VIOL1_SUBWORD, F.HIF_VIOL1_TAG, F.HIF_VIOL1_INDEX]⟩,
    ⟨7012504, 0, 1, [F.HIF_PCIE_ERR_ECRC, F.HIF_PCIE_ERR_POISON, F.HIF_PCIE_ERR_CA, F.HIF_PCIE_ERR_CORR]⟩]

/-- The registers of the FW_ window. -/
def regsFW : List RegRow :=
  [ ⟨7077888, 0, 1, [F.FW_CTRL_LOG_LEVEL, F.FW_CTRL_CLR_CNT]⟩,
    ⟨7077892, 0, 1, [F.FW_STATUS_EMERG, F.FW_STATUS_PWR_RUN, F.FW_STATUS_SEC_RUN, F.FW_STATUS_CORE_RUN, F.FW_STATUS_BANK]⟩,
    ⟨7077896, 0, 1, [F.FW_WDT_KICK_KICK]⟩,
    ⟨7077900, 0, 1, [F.FW_WDT_STAT_DSP, F.FW_WDT_STAT_SEC, F.FW_WDT_STAT_PWR, F.FW_WDT_STAT_EARLY]⟩,
    ⟨7077904, 0, 1, [F.FW_VER_ACTIVE_MAJOR, F.FW_VER_ACTIVE_MINOR, F.FW_VER_ACTIVE_PATCH]⟩,
    ⟨7077908, 0, 1, [F.FW_VER_STAGED_MAJOR, F.FW_VER_STAGED_MINOR, F.FW_VER_STAGED_PATCH]⟩,
    ⟨7077912, 0, 1, [F.FW_MOLT_CTRL_TMO, F.FW_MOLT_CTRL_ABORT, F.FW_MOLT_CTRL_REQ]⟩,
    ⟨7077916, 0, 1, [F.FW_MOLT_SRC_LO_ADDR]⟩,
    ⟨7077920, 0, 1, [F.FW_MOLT_SRC_HI_ADDR_HI]⟩,
    ⟨7077924, 0, 1, [F.FW_MOLT_LEN_BYTES]⟩,
    ⟨7077928, 0, 1, [F.FW_MOLT_STATUS_STATE, F.FW_MOLT_STATUS_RESULT, F.FW_MOLT_STATUS_REASON, F.FW_MOLT_STATUS_COUNT]⟩,
    ⟨7077932, 0, 1, [F.FW_TRACE_EN_GROUPS]⟩,
    ⟨7077936, 0, 1, [F.FW_TRACE_DROP_COUNT]⟩,
    ⟨7077940, 0, 1, [F.FW_FAULT_VALID, F.FW_FAULT_CORE, F.FW_FAULT_CAUSE, F.FW_FAULT_TICK]⟩,
    ⟨7077944, 0, 1, [F.FW_MOLT_COMMIT_COMMIT]⟩]

/-- The registers of the SAF_ window. -/
def regsSAF : List RegRow :=
  [ ⟨7143424, 0, 1, [F.SAF_CTRL_CLR_CNT]⟩,
    ⟨7143428, 0, 1, [F.SAF_STATUS_STATE, F.SAF_STATUS_ALIVE_LVL, F.SAF_STATUS_ALIVE_RUN, F.SAF_STATUS_DEBUG, F.SAF_STATUS_SPLIT, F.SAF_STATUS_SAFETY]⟩,
    ⟨7143432, 0, 1, [F.SAF_LOCKSTEP_TESTS, F.SAF_LOCKSTEP_FAIL]⟩,
    ⟨7143436, 0, 1, [F.SAF_WDT_EARLY, F.SAF_WDT_LATE]⟩,
    ⟨7143440, 0, 1, [F.SAF_ALIVE_STOPS, F.SAF_ALIVE_EDGES]⟩,
    ⟨7143444, 0, 1, [F.SAF_MGMT_LINK, F.SAF_MGMT_IPV6, F.SAF_MGMT_AUTH, F.SAF_MGMT_EN]⟩,
    ⟨7143448, 0, 1, [F.SAF_MGMT_STAT_SENT, F.SAF_MGMT_STAT_DROPPED]⟩,
    ⟨7143452, 0, 1, [F.SAF_WIN_SEL_STAGE]⟩,
    ⟨7143456, 0, 1, [F.SAF_WIN_STAT_LAST]⟩,
    ⟨7143460, 0, 1, [F.SAF_WIN_CNT_LATE, F.SAF_WIN_CNT_EARLY]⟩,
    ⟨7143464, 0, 1, [F.SAF_TLOG_HEAD_NEXT]⟩,
    ⟨7143468, 0, 1, [F.SAF_TLOG_SEL_SLOT]⟩,
    ⟨7143488, 4, 8, [F.SAF_TLOG_DATA_WORD]⟩]

/-- The registers of the FCL_ window. -/
def regsFCL : List RegRow :=
  [ ⟨7208960, 0, 1, [F.FCL_CTRL_CLR_CNT]⟩,
    ⟨7208964, 0, 1, [F.FCL_STATE_DECIDE_WAIT, F.FCL_STATE_MODE, F.FCL_STATE_PENDING]⟩,
    ⟨7208976, 4, 8, [F.FCL_STATUS_LINE]⟩,
    ⟨7209008, 0, 1, [F.FCL_REACT_SEL_INDEX]⟩,
    ⟨7209012, 0, 1, [F.FCL_REACT_VALID, F.FCL_REACT_SAFETY, F.FCL_REACT_DECIDE, F.FCL_REACT_REACTION, F.FCL_REACT_FLOOR, F.FCL_REACT_CODE]⟩,
    ⟨7209016, 0, 1, [F.FCL_LINE_CHK_VALID, F.FCL_LINE_CHK_LINE]⟩,
    ⟨7209020, 0, 1, [F.FCL_REACT_CNT0_FENCE, F.FCL_REACT_CNT0_FAIL, F.FCL_REACT_CNT0_PARTIAL, F.FCL_REACT_CNT0_CLAMP]⟩,
    ⟨7209024, 0, 1, [F.FCL_REACT_CNT1_COUNT, F.FCL_REACT_CNT1_LOG]⟩,
    ⟨7209232, 16, 12, [F.FCL_FIRST_0_ADDR_LO]⟩,
    ⟨7209236, 16, 12, [F.FCL_FIRST_1_VALID, F.FCL_FIRST_1_TYPE, F.FCL_FIRST_1_MASTER, F.FCL_FIRST_1_ADDR_HI]⟩,
    ⟨7209240, 16, 12, [F.FCL_FIRST_2_TICK]⟩,
    ⟨7209244, 16, 12, [F.FCL_FIRST_3_CODE, F.FCL_FIRST_3_UNIT]⟩]

/-- The registers of the SEC_ window. -/
def regsSEC : List RegRow :=
  [ ⟨7274496, 0, 1, [F.SEC_CTRL_CLR_CNT]⟩,
    ⟨7274500, 0, 1, [F.SEC_STATUS_ID_READY, F.SEC_STATUS_DEBUG, F.SEC_STATUS_OWNER, F.SEC_STATUS_DEBUG_DISABLE, F.SEC_STATUS_SPLIT_DISABLE, F.SEC_STATUS_ID_RSA]⟩,
    ⟨7274504, 0, 1, [F.SEC_OP_OP, F.SEC_OP_START]⟩,
    ⟨7274508, 0, 1, [F.SEC_OP_STATUS_BUSY, F.SEC_OP_STATUS_LAST_OP, F.SEC_OP_STATUS_RESULT]⟩,
    ⟨7274512, 0, 1, [F.SEC_OP_ADDR_LO_ADDR]⟩,
    ⟨7274516, 0, 1, [F.SEC_OP_ADDR_HI_ADDR_HI]⟩,
    ⟨7274520, 0, 1, [F.SEC_OP_LEN_BYTES]⟩,
    ⟨7274524, 0, 1, [F.SEC_VERIFY_PASS, F.SEC_VERIFY_FAIL]⟩,
    ⟨7274528, 4, 8, [F.SEC_NONCE_NONCE]⟩,
    ⟨7274560, 4, 8, [F.SEC_CHAL_CHAL]⟩]

/-- The registers of the COC_ window. -/
def regsCOC : List RegRow :=
  [ ⟨7340032, 0, 1, [F.COC_CTRL_UPD_START, F.COC_CTRL_EXPORT, F.COC_CTRL_CLR_CNT]⟩,
    ⟨7340036, 0, 1, [F.COC_STATUS_POWER_OK, F.COC_STATUS_RUN, F.COC_STATUS_SEALS, F.COC_STATUS_UPD, F.COC_STATUS_FREE]⟩,
    ⟨7340040, 0, 1, [F.COC_MSEQ_NEXT]⟩,
    ⟨7340044, 0, 1, [F.COC_ESEQ_LAST]⟩,
    ⟨7340048, 0, 1, [F.COC_EPOCH_OPEN]⟩,
    ⟨7340052, 0, 1, [F.COC_ERR_DROPPED, F.COC_ERR_RESETS, F.COC_ERR_OVERWRITTEN]⟩,
    ⟨7340056, 0, 1, [F.COC_EXPORT_STATE, F.COC_EXPORT_EPOCH]⟩,
    ⟨7340060, 0, 1, [F.COC_XADDR_LO_ADDR]⟩,
    ⟨7340064, 0, 1, [F.COC_XADDR_HI_ADDR_HI]⟩,
    ⟨7340068, 0, 1, [F.COC_XLEN_BYTES]⟩,
    ⟨7340072, 0, 1, [F.COC_VER_VERSION]⟩]

/-- The registers of the PWR_ window. -/
def regsPWR : List RegRow :=
  [ ⟨7405568, 0, 1, [F.PWR_CTRL_CLR_CNT]⟩,
    ⟨7405572, 0, 1, [F.PWR_STATUS_EMERG, F.PWR_STATUS_ACTIONS, F.PWR_STATUS_ARRAY, F.PWR_STATUS_FW_THROTTLE, F.PWR_STATUS_AVS]⟩,
    ⟨7405576, 0, 1, [F.PWR_VOLT_MEAS_MV, F.PWR_VOLT_REQ_MV]⟩,
    ⟨7405580, 0, 1, [F.PWR_CURR_PEAK, F.PWR_CURR_NOW]⟩,
    ⟨7405584, 0, 1, [F.PWR_TEMP_MAX, F.PWR_TEMP_SENSOR]⟩,
    ⟨7405588, 0, 1, [F.PWR_SENSOR_SEL_SENSOR]⟩,
    ⟨7405592, 0, 1, [F.PWR_SENSOR_TEMP]⟩,
    ⟨7405596, 0, 1, [F.PWR_ACT_CNT_T115, F.PWR_ACT_CNT_T122, F.PWR_ACT_CNT_CURR, F.PWR_ACT_CNT_VOLT]⟩,
    ⟨7405600, 0, 1, [F.PWR_START_DONE, F.PWR_START_COPY, F.PWR_START_STEP, F.PWR_START_MS_HI, F.PWR_START_CODE]⟩]

/-- The registers of the PRS_ window. -/
def regsPRS : List RegRow :=
  [ ⟨7471104, 0, 1, [F.PRS_CTRL_CLR_CNT]⟩,
    ⟨7471108, 0, 1, [F.PRS_STATUS_BUSY, F.PRS_STATUS_UNCORR, F.PRS_STATUS_REFUSED]⟩,
    ⟨7487488, 4, 4096, [F.PRS_WORD_VALUE]⟩,
    ⟨7503872, 4, 4096, [F.PRS_WCNT_LIMIT, F.PRS_WCNT_WRITES]⟩]

/-- Every register of the block. -/
def regTab : List RegRow :=
  regsTIL ++ regsBRD ++ regsARR ++ regsNOC ++ regsSYN ++ regsSYNC ++ regsCHL ++ regsINT ++ regsJXS ++ regsWRP ++ regsMEM ++ regsHIF ++ regsFW ++ regsSAF ++ regsFCL ++ regsSEC ++ regsCOC ++ regsPWR ++ regsPRS

end Sys2Proof.Machine
end

