-- ==== Sys2Proof/Machine/Ops.lean ====
section
/-! DEFINITION. Named operations every meaning shares: register fields, time, tiles, broods and slots, events, free values. -/
namespace Sys2Proof.Machine

/-- The outcome of a command whose effect is `s`. Every command of this block answers a next state. -/
abbrev done (s : State) : Host.Outcome State Fault Refusal := .next s

/-- The effect `f s` where the command's event happens, and the unchanged state where it does not (log entry 8). -/
def onlyIf (c : Bool) (s : State) (f : State → State) : State := if c then f s else s

/-! Time (R47): device ticks of 10 ns. -/

/-- Microseconds in device ticks. -/
def us (n : Nat) : Nat := 100 * n
/-- Milliseconds in device ticks. -/
def ms (n : Nat) : Nat := 100000 * n

/-! Register fields. -/

/-- The key of a field of instance `i` in `State.regs`. -/
def Fld.key (f : Fld) (i : Nat) : Nat := (f.off + f.stride * i) * 32 + f.lo

/-- The stored value of a field. -/
def State.rd (s : State) (f : Fld) (i : Nat := 0) : Nat := FMap.get f.rst s.regs (f.key i)

/-- The state with a field holding `v`, cut to the field's width. -/
def State.wr (s : State) (f : Fld) (v : Nat) (i : Nat := 0) : State :=
  { s with regs := FMap.set f.rst s.regs (f.key i) (v % 2 ^ f.w) }

/-- Set or clear a one-bit field. -/
def State.wrB (s : State) (f : Fld) (v : Bool) (i : Nat := 0) : State := s.wr f (b2n v) i

/-- A one-bit field read as a truth value. -/
def State.rdB (s : State) (f : Fld) (i : Nat := 0) : Bool := s.rd f i != 0

/-- Add to a counter: it wraps or saturates as its register table says. -/
def State.cnt (s : State) (f : Fld) (i : Nat := 0) (k : Nat := 1) : State :=
  s.wr f (if f.wrap then s.rd f i + k else satAt (2 ^ f.w - 1) (s.rd f i + k)) i

/-- Raise a peak field to at least `v`. -/
def State.peak (s : State) (f : Fld) (v : Nat) (i : Nat := 0) : State :=
  if s.rd f i < v then s.wr f (satAt (2 ^ f.w - 1) v) i else s

/-- Return fields of instance `i` to their reset values (a CLR_CNT). -/
def State.clearFlds (s : State) (fs : List Fld) (i : Nat := 0) : State :=
  fs.foldl (fun s f => s.wr f f.rst i) s

/-! Free values. -/

/-- The next free word and the state whose counter has passed it (log entry 5). -/
def State.free (s : State) : Word × State := (Config.freeWord s.freeCtr, { s with freeCtr := s.freeCtr + 1 })

/-- The next free byte (log entry 5). -/
def State.freeB (s : State) : Byte × State := (Config.freeByte s.freeCtr, { s with freeCtr := s.freeCtr + 1 })

/-- `n` free bytes. -/
def State.freeBs : Nat → State → List Byte × State
  | 0, s => ([], s)
  | n + 1, s => let (b, s) := s.freeB; let (r, s) := State.freeBs n s; (b :: r, s)

/-! Variants and identifiers (R1, R4, R53). -/

def State.nBroods (s : State) : Nat := if s.fuses.variantB then 64 else 128
def State.nTiles (s : State) : Nat := if s.fuses.variantB then 1024 else 2048
def State.nRows (s : State) : Nat := if s.fuses.variantB then 16 else 32
def State.nPorts (s : State) : Nat := if s.fuses.variantB then 2 else 4

/-- Column of logical tile `t`. -/
def tileX (t : Nat) : Nat := t % 64
/-- Row of logical tile `t`. -/
def tileY (t : Nat) : Nat := t / 64
/-- Brood of logical tile `t` (R4). -/
def tileBrood (t : Nat) : Nat := (tileY t / 4) * 16 + tileX t / 4
/-- Logical index of tile `t` in its brood (R53). -/
def tileK (t : Nat) : Nat := (tileY t % 4) * 4 + tileX t % 4
/-- The logical tile with index `k` of brood `b`. -/
def tileOf (b k : Nat) : Nat := (4 * (b / 16) + k / 4) * 64 + 4 * (b % 16) + k % 4
/-- Physical tile number (R4). -/
def physOf (b slot : Nat) : Nat := b * 17 + slot
/-- The 16 logical tiles of a brood in ascending logical index. -/
def broodTiles (b : Nat) : List Nat := (List.range 16).map (tileOf b)

/-! Tiles, broods, slots. -/

def State.tile (s : State) (t : Nat) : TileState := FMap.get {} s.swarm.tiles t
def State.setTile (s : State) (t : Nat) (x : TileState) : State :=
  { s with swarm.tiles := FMap.set {} s.swarm.tiles t x }
def State.modTile (s : State) (t : Nat) (f : TileState → TileState) : State := s.setTile t (f (s.tile t))
def State.brood (s : State) (b : Nat) : Brood := FMap.get {} s.swarm.broods b
def State.setBrood (s : State) (b : Nat) (x : Brood) : State :=
  { s with swarm.broods := FMap.set {} s.swarm.broods b x }
def State.modBrood (s : State) (b : Nat) (f : Brood → Brood) : State := s.setBrood b (f (s.brood b))
def State.slot (s : State) (p : Nat) : Slot := FMap.get {} s.swarm.slots p
def State.setSlot (s : State) (p : Nat) (x : Slot) : State :=
  { s with swarm.slots := FMap.set {} s.swarm.slots p x }
def State.modSlot (s : State) (p : Nat) (f : Slot → Slot) : State := s.setSlot p (f (s.slot p))

/-- The VALID bit of logical index `k` in BRD_MAPn (R86). -/
def fMapValid (k : Nat) : Fld := { F.BRD_MAP0_VALID0 with off := 0x400008 + 4 * (k / 4), lo := 8 * (k % 4) + 7 }
/-- The SLOT field of logical index `k` in BRD_MAPn (R86). -/
def fMapSlot (k : Nat) : Fld :=
  { F.BRD_MAP0_SLOT0 with off := 0x400008 + 4 * (k / 4), lo := 8 * (k % 4), rst := k }
/-- The state field of slot `p` in BRD_SLOTS0 or BRD_SLOTS1 (R86). -/
def fSlotState (p : Nat) : Fld :=
  { F.BRD_SLOTS0_STATE_0 with off := 0x400018 + 4 * (p / 16), lo := 2 * (p % 16) }

/-- The state of a slot, coded as R58 codes it: 0 good, 1 QM-only, 2 fenced, 3 fused off. -/
def State.slotState (s : State) (b slot : Nat) : Nat := s.rd (fSlotState slot) b
/-- Logical index `k` of brood `b` is hosted (R62, R601). -/
def State.hostedK (s : State) (b k : Nat) : Bool := s.rdB (fMapValid k) b
/-- A slot hosts the logical tile and its brood is in service (R601). -/
def State.hosted (s : State) (t : Nat) : Bool := decide (t < s.nTiles) && s.hostedK (tileBrood t) (tileK t)
/-- The slot that hosts logical index `k`. -/
def State.slotOf (s : State) (b k : Nat) : Nat := s.rd (fMapSlot k) b
/-- The physical tile that hosts logical tile `t`. -/
def State.physTile (s : State) (t : Nat) : Nat := physOf (tileBrood t) (s.slotOf (tileBrood t) (tileK t))
/-- The spare slot of a brood, none with no margin (BRD_STATUS.SPARE_SLOT 31). -/
def State.spare (s : State) (b : Nat) : Option Nat :=
  let v := s.rd F.BRD_STATUS_SPARE_SLOT b
  if v = 31 then none else some v
/-- The logical index hosted on a slot. -/
def State.kOnSlot (s : State) (b slot : Nat) : Option Nat :=
  (List.range 16).find? (fun k => s.hostedK b k && s.slotOf b k == slot)
/-- The brood is in fused mode (R64). -/
def State.fused (s : State) (b : Nat) : Bool := s.rdB F.BRD_STATUS_MODE b
/-- The logical tile is being moved (R73). -/
def State.moving (s : State) (t : Nat) : Bool := (s.brood (tileBrood t)).move == some (tileK t)
/-- An access to a window of a moving logical tile stalls until the move ends (R74). -/
def State.holdAccess (s : State) (t : Nat) (a : HeldAccess) : State := s.modBrood (tileBrood t) (fun x => { x with held := x.held ++ [a] })
/-- Number of good slots of a brood. -/
def State.goodCount (s : State) (b : Nat) : Nat := (List.range 17).countP (fun p => s.slotState b p == 0)

/-! Events (R18, R461, R605). A unit that notices an event presents it on its error line; the collector latches it by
ERROR_LINE_LATCH. The first event of domain 0x5 is also captured in INT_FIRST0 and INT_FIRST1 (R339). -/

/-- Capture the first intake event (R339). -/
def State.intFirst (s : State) (code unit : Nat) : State :=
  if code / 4096 == 5 && !s.rdB F.INT_FIRST0_VALID then
    (((s.wr F.INT_FIRST0_VALID 1).wr F.INT_FIRST0_CODE (code % 4096)).wr F.INT_FIRST0_INDEX unit).wr
      F.INT_FIRST1_TICK s.tick
  else s

/-- Present an event with its fields on an error line. -/
def State.raiseEv (s : State) (e : Event) : State :=
  let s := s.intFirst e.code (e.units.headD 0)
  { s with cara.asserted := s.cara.asserted ++ [{ e with tick := s.tick, hostMode := s.modes.react,
                                                         op := if s.dev.phase = 0 then 0 else s.dev.phase * 256 + s.dev.step }] }

/-- Present event `code` of `unit` on error line `line`. -/
def State.raise (s : State) (line code unit : Nat) : State :=
  s.raiseEv { line := line, code := code, units := [unit] }

/-- Present an event that names stages or further units (R467). -/
def State.raiseFor (s : State) (line code : Nat) (units stages : List Nat) : State :=
  s.raiseEv { line := line, code := code, units := units, stages := stages }

/-- An event of a logical tile, on its brood's line, with TIL_STATUS.ERR set (R85, R461). -/
def State.raiseTile (s : State) (t code : Nat) : State :=
  (s.modTile t (fun x => { x with err := true })).raise (tileBrood t) code t

/-- A brood-level event (R461). -/
def State.raiseBrood (s : State) (b code : Nat) : State := s.raise b code (0xf000 + b)

/-- A saturating violation counter of the host interface (R602). -/
def State.violation (s : State) : State := s.cnt F.HIF_VIOL0_RO_WRITE

/-- A violation by an access to a hole (R15, R602). -/
def State.violHole (s : State) : State := s.cnt F.HIF_VIOL0_HOLE

/-! Small list operations. -/

/-- Replace the first element that satisfies `p`. -/
def updFirst {α : Type} (p : α → Bool) (f : α → α) : List α → List α
  | [] => []
  | a :: r => if p a then f a :: r else a :: updFirst p f r

/-- Remove the first element that satisfies `p`. -/
def delFirst {α : Type} (p : α → Bool) : List α → List α
  | [] => []
  | a :: r => if p a then r else a :: delFirst p r

/-- Change the first element. -/
def mapFirst {α : Type} (f : α → α) : List α → List α
  | [] => []
  | a :: r => f a :: r

/-- Insert in ascending order of a key, before equal keys. -/
def insertBy {α : Type} (key : α → Nat) (x : α) : List α → List α
  | [] => [x]
  | a :: r => if key x ≤ key a then x :: a :: r else a :: insertBy key x r

/-- Do something for each element, in order. -/
def State.each {α : Type} (s : State) (l : List α) (f : State → α → State) : State := l.foldl f s

/-- Work through a list of things that may each stop the rest; answers whether all were done. -/
def runAll {α : Type} (f : α → State → Bool × State) : List α → State → Bool × State
  | [], s => (true, s)
  | a :: r, s =>
    match f a s with
    | (false, s) => (false, s)
    | (true, s) => runAll f r s

/-- Little-endian bytes of a byte list at an offset, zero where the list ends. -/
def bytesAt (l : List Byte) (off n : Nat) : List Byte := let r := (l.drop off).take n; r ++ List.replicate (n - r.length) 0
/-- Little-endian number of `n` bytes at an offset. -/
def fieldAt (l : List Byte) (off n : Nat) : Nat := leNat (bytesAt l off n)
/-- Big-endian number of `n` bytes at an offset. -/
def beAt (l : List Byte) (off n : Nat) : Nat := beNat (bytesAt l off n)
/-- `n` zero bytes. -/
def zeros (n : Nat) : List Byte := List.replicate n 0

end Sys2Proof.Machine
end

