-- ==== Sys2Proof/Machine/ArrayMath.lean ====
section
/-! DEFINITION. The arithmetic of the matrix array: weights, chunk sums, distances, accumulation and the drain's conversion
(R90, R92 to R94, R99, R107 to R110, R115 to R124, R278 to R280, R603). -/
namespace Sys2Proof.Machine

/-! Chunk sums. -/

/-- The term of a distance cell (R125). -/
def distTerm (op : Nat) (a w : Int) : Int :=
  match op with
  | 1 => ((a - w).natAbs : Int)
  | 2 => (a - w) * (a - w)
  | 3 => (((List.range 8).countP (fun i => bitOf (twos 8 a) i != bitOf (twos 8 w) i) : Nat) : Int)
  | _ => a + w

/-- The chunk result of one column: the terms of its unmasked rows reduced (R110, R125). `xs` holds activation and weight of
each unmasked row. -/
def colSum (op : Nat) (xs : List (Int × Int)) : Int :=
  match op with
  | 0 => xs.foldl (fun a x => a + x.1 * x.2) 0
  | 4 => xs.foldl (fun a x => min a (x.1 + x.2)) (2 ^ 31 - 1)
  | 5 => xs.foldl (fun a x => max a (x.1 + x.2)) (-(2 ^ 31))
  | _ => xs.foldl (fun a x => a + distTerm op x.1 x.2) 0

/-! The skew self-check (R112, R113). -/

/-- Element `r` of vector `m` of either pattern (R112). -/
def skewVec (m r : Nat) : Int := if r = m then (m : Int) + 1 else 0
/-- Weight W[r][c] of a pattern (R112). -/
def skewWeight (second : Bool) (r c : Nat) : Int := if c = (if second then 31 - r else r) then 1 else 0
/-- The value that R112 expects in column `c` of accumulator row `m`. -/
def skewExpected (second : Bool) (m c : Nat) : Int := if c = (if second then 31 - m else m) then (m : Int) + 1 else 0
/-- The value that a slot's cells leave there: the exact chunk sum of the pattern and what faults add to it. -/
def skewGot (l : List SkewErr) (slot : Nat) (second : Bool) (m c : Nat) : Int :=
  (l.filter (fun e => e.slot == slot && e.second == second && e.row == m && e.col == c)).foldl (fun a e => a + e.diff)
    (colSum 0 ((List.range 32).map (fun r => (skewVec m r, skewWeight second r c))))
/-- The slot fails the self-check: some accumulator value differs from the expected one (R113). Only where a fault adds something can
one differ (`skew_exact`). -/
def skewBad (l : List SkewErr) (slot : Nat) : Bool :=
  l.any (fun e => e.slot == slot && decide (e.row < 32) && decide (e.col < 32) &&
    skewGot l slot e.second e.row e.col != skewExpected e.second e.row e.col)
/-- The slots that fail the self-check. -/
def skewFails (l : List SkewErr) : List Nat := (l.map (·.slot)).eraseDups.filter (skewBad l)

/-! Accumulation. -/

/-- An exact value `m * 2^q` rounded once to FP32; beyond the largest finite value it becomes that value, and a zero result is
+0 (R118, R278, R279). -/
def accRound (m q : Int) : Nat × Bool :=
  if m = 0 then (0, false) else
    let e := roundMag 23 127 m.natAbs q
    if e = 0 then (0, false)
    else if fInf ≤ e then (withSign (decide (m < 0)) 0x7f7fffff, true)
    else (withSign (decide (m < 0)) e, false)

/-- The old accumulator value of an FP32 class (R603): its bits as taken, and whether they were substituted. -/
def accOld (v : Nat) : Nat × Bool :=
  if fIsNan v then (0, true) else if fIsInf v then (withSign (fSign v) 0x7f7fffff, true)
  else if fIsZero v then (0, false) else (v, false)

/-- One column of an accumulate: the new value, whether it was clamped, and whether the old value was substituted (R115, R117,
R118, R603). `e` is the sum of the activation and weight exponents. -/
def accCol (fp : Bool) (op : Nat) (add : Bool) (old : Nat) (v e : Int) : Nat × Bool × Bool :=
  if fp then
    let (r, s1) := accRound v e
    if add then
      let (o, sub) := accOld old
      let q := min (fExp o) (fExp r)
      let m := fInt o * 2 ^ (fExp o - q).toNat + fInt r * 2 ^ (fExp r - q).toNat
      let (y, s2) := accRound m q
      (y, s1 || s2, sub)
    else (r, s1, false)
  else if !add then (twos 32 v, false, false)
  else if op = 4 then (twos 32 (min (sext 32 old) v), false, false)
  else if op = 5 then (twos 32 (max (sext 32 old) v), false, false)
  else
    let x := sext 32 old + v
    (satInt32 x, decide (x < -(2 ^ 31)) || decide (2 ^ 31 ≤ x), false)

/-! The drain (R121 to R124). -/

/-- Size in bits, least and greatest value of an integer output format (R93, R121). -/
def outInt (f : Nat) : Option (Nat × Int × Int) :=
  match f with
  | 0x01 => some (8, -128, 127)
  | 0x02 => some (8, 0, 255)
  | 0x03 => some (4, -8, 7)
  | 0x11 => some (16, -32768, 32767)
  | 0x12 => some (32, -2147483648, 2147483647)
  | _ => none
/-- Fraction bits, bias, size in bits and largest finite magnitude of a floating output format (R93, R121). -/
def outFp (f : Nat) : Option (Nat × Nat × Nat × Nat) :=
  match f with
  | 0x08 => some (3, 7, 8, 0x7e)
  | 0x09 => some (2, 15, 8, 0x7b)
  | 0x0A => some (7, 127, 16, 0x7f7f)
  | 0x0B => some (10, 15, 16, 0x7bff)
  | 0x13 => some (23, 127, 32, 0x7f7fffff)
  | _ => none
/-- Bits of one output value. -/
def outBits (f : Nat) : Nat :=
  match outInt f, outFp f with
  | some (w, _), _ => w
  | none, some (_, _, w, _) => w
  | none, none => 32
/-- Bytes of an output row of `cols` values. -/
def outRow (f cols : Nat) : Nat := cols * outBits f / 8

/-- `round_div_pow2` of R122. -/
def roundDiv (mode : Nat) (p : Int) (sh : Nat) : Int :=
  if sh = 0 then p else
    let q := p / 2 ^ sh
    let rem := p - q * 2 ^ sh
    let half : Int := 2 ^ (sh - 1)
    let up := match mode with
      | 0 => decide (rem > half) || (decide (rem = half) && decide (q % 2 = 1))
      | 1 => decide (rem > half) || (decide (rem = half) && decide (p ≥ 0))
      | 2 => decide (rem ≥ half)
      | _ => false
    if up then q + 1 else q

/-- The exact values `m * 2^q` compare as `a ≤ b`. -/
def dyadLe (a b : Int × Int) : Bool :=
  let q := min a.2 b.2
  decide (a.1 * 2 ^ (a.2 - q).toNat ≤ b.1 * 2 ^ (b.2 - q).toNat)

/-- One column entry of a drain descriptor (R121). -/
structure DrainEntry where
  bias : Nat := 0
  mult : Nat := 0
  shift : Nat := 0
  deriving DecidableEq, Repr

/-- The exact value v of R122. -/
def drainExact (fp : Bool) (e : DrainEntry) (a : Nat) : Int × Int :=
  if fp then
    let pm := fInt a * fInt e.mult
    let pq := fExp a + fExp e.mult
    let q := min pq (fExp e.bias)
    (pm * 2 ^ (pq - q).toNat + fInt e.bias * 2 ^ (fExp e.bias - q).toNat, q)
  else ((sext 32 a + sext 32 e.bias) * sext 32 e.mult, -(e.shift : Int))

/-- A floating output value: clamped, rounded once, saturated (R122). DESIGN CHOICE (log entry 36): a negative value that rounds to
zero is written as -0; the spec gives a zero output no sign. -/
def drainFloat (f bias w big lo hi : Nat) (v : Int × Int) : Nat × Bool :=
  let inf (neg : Bool) : Nat × Bool := ((if neg then 2 ^ (w - 1) else 0) + big, true)
  let fin (v : Int × Int) : Nat × Bool :=
    let e := roundMag f bias v.1.natAbs v.2
    ((if v.1 < 0 then 2 ^ (w - 1) else 0) + min e big, decide (big < e))
  let low := if fIsInf lo then (if fSign lo then some v else none)
    else some (if dyadLe v (fInt lo, fExp lo) then (fInt lo, fExp lo) else v)
  match low with
  | some v =>
    if fIsInf hi then (if fSign hi then inf true else fin v)
    else fin (if dyadLe (fInt hi, fExp hi) v then (fInt hi, fExp hi) else v)
  | none => if fIsInf hi && !fSign hi then inf false else fin (fInt hi, fExp hi)

/-- `drain_value` of R122: the encoded output value and drain_sat. -/
def drainVal (fp : Bool) (ofmt rmode zp lo hi : Nat) (e : DrainEntry) (a : Nat) : Nat × Bool :=
  let v := drainExact fp e a
  match outInt ofmt, outFp ofmt with
  | some (w, mn, mx), _ =>
    let q := (if v.2 ≥ 0 then v.1 * 2 ^ v.2.toNat else roundDiv rmode v.1 (-v.2).toNat) + sext 32 zp
    (twos w (min (max q (sext 32 lo)) (sext 32 hi)), decide (q < mn) || decide (mx < q))
  | none, some (f, bias, w, big) => drainFloat f bias w big lo hi v
  | none, none => (0, false)

/-- Bytes that a drain descriptor takes for `cols` columns, from its header (R121). -/
def descSize (h : List Byte) (cols : Nat) : Nat := 32 + 16 * (if bitOf (fieldAt h 1 1) 2 then cols else 1)
/-- The entry of column `n` (R121). -/
def descEntry (d : List Byte) (n : Nat) : DrainEntry :=
  let o := 32 + 16 * (if bitOf (fieldAt d 1 1) 2 then n else 0)
  { bias := fieldAt d o 4, mult := fieldAt d (o + 4) 4, shift := fieldAt d (o + 8) 1 }

/-- The descriptor keeps to R121 and R123. -/
def descOk (fp : Bool) (cols : Nat) (d : List Byte) : Bool :=
  let ofmt := fieldAt d 0 1
  let lo := fieldAt d 8 4
  let hi := fieldAt d 12 4
  let n := if bitOf (fieldAt d 1 1) 2 then cols else 1
  ((outInt ofmt).isSome || (outFp ofmt).isSome) && decide (fieldAt d 1 1 < 8) && fieldAt d 2 2 == 0 && fieldAt d 20 12 == 0 &&
  (match outInt ofmt with
   | some (_, mn, mx) => decide (mn ≤ sext 32 lo) && decide (sext 32 lo ≤ sext 32 hi) && decide (sext 32 hi ≤ mx)
   | none => !fIsNan lo && !fIsNan hi && !fLt hi lo) &&
  (List.range n).all (fun i =>
    let e := descEntry d i
    fieldAt d (32 + 16 * i + 9) 7 == 0 &&
    (if fp then !fIsNan e.bias && !fIsInf e.bias && !fIsNan e.mult && !fIsInf e.mult else decide (e.shift ≤ 63)))

/-! Bytes that a masked row writes. -/

/-- The runs of bytes to write: offset and bytes. -/
def byteRuns : Nat → List (Option Byte) → List (Nat × List Byte)
  | _, [] => []
  | i, none :: r => byteRuns (i + 1) r
  | i, some b :: r =>
    match byteRuns (i + 1) r with
    | (j, l) :: q => if j = i + 1 then (i, b :: l) :: q else (i, [b]) :: (j, l) :: q
    | [] => [(i, [b])]

end Sys2Proof.Machine
end

