-- ==== Sys2Proof/Machine/Persist.lean ====
section
/-! DEFINITION. The persistent word block: reads, writes in order, endurance, and the lifetime counters (R572 to R577). -/
namespace Sys2Proof.Machine

/-- The value of a word at manufacture (R510, R575). -/
def prsManu (idx : Nat) : BitVec 32 :=
  match idx with
  | 0x100 => 0x200003e8#32
  | 0x101 => 0x300f4240#32
  | 0x102 => 2000#32
  | _ => 0#32

/-- An index that the map lists (R575). -/
def prsListed (idx : Nat) : Bool :=
  decide (idx ≤ 0x102) || (decide (0x108 ≤ idx) && decide (idx ≤ 0x10f)) || idx == 0x110 || idx == 0x111 || idx == 0x118 ||
    (decide (0x120 ≤ idx) && decide (idx ≤ 0x12a)) || (decide (0x200 ≤ idx) && decide (idx ≤ 0x3ff))

def State.prsWord (s : State) (idx : Nat) : PWord := FMap.get {} s.prs.words idx
def State.modPrs (s : State) (idx : Nat) (f : PWord → PWord) : State :=
  { s with prs.words := FMap.set {} s.prs.words idx (f (s.prsWord idx)) }

/-- A fence, QM or replacement word (R573). -/
def prsMapWord (idx : Nat) : Bool := decide (idx < 0x100) || idx == 0x118

/-- The value that a word reads as (R574, R575). -/
def State.prsValue (s : State) (idx : Nat) : BitVec 32 :=
  if !prsListed idx then 0#32
  else if (s.prsWord idx).bad then (if idx < 0x100 then 0x1ffff#32 else prsManu idx)
  else (s.prsWord idx).value

/-- The value in force: a refused fence, QM or replacement value stands in volatile state until the next restart (R573). -/
def State.prsForce (s : State) (idx : Nat) : BitVec 32 := FMap.get (s.prsValue idx) s.prs.vol idx

/-- One write becomes durable, or is refused at the endurance limit (R572 to R574). -/
def State.prsDo (s : State) (idx : Nat) (v : BitVec 32) : State :=
  if 200000 ≤ (s.prsWord idx).writes then
    let s := ((s.modPrs idx (fun w => { w with limit := true })).cnt F.PRS_STATUS_REFUSED).raise 181 0xC020 idx
    if prsMapWord idx then { s with prs.vol := FMap.place (FMap.erase s.prs.vol idx) idx v } else s
  else
    s.modPrs idx (fun w => { w with value := v, writes := w.writes + 1, bad := false, err := false })

/-- Request a write; it waits for those requested before it (R572). -/
def State.prsRequest (s : State) (idx : Nat) (v : BitVec 32) : State :=
  { s with prs.queue := s.prs.queue ++ [(idx, v)] }

/-- The value a word will have once every requested write is durable. -/
def State.prsNext (s : State) (idx : Nat) : BitVec 32 :=
  match (s.prs.queue.filter (fun e => e.1 == idx)).getLast? with
  | some e => e.2
  | none => s.prsForce idx

/-- Every requested write becomes durable, in order; a step that must not go on before its word is durable waits so (R79). -/
def State.prsFlush (s : State) : State :=
  ({ s with prs.queue := [] }).each s.prs.queue (fun s e => s.prsDo e.1 e.2)

/-- A write that is durable before the device goes on (R79). -/
def State.prsNow (s : State) (idx : Nat) (v : BitVec 32) : State := (s.prsRequest idx v).prsFlush

/-- A lifetime counter rises in its volatile form (R577); words 0x122 and 0x126 are written at once. -/
def State.lifeUp (s : State) (idx : Nat) : State :=
  if idx = 0x122 ∨ idx = 0x126 then s.prsRequest idx (s.prsNext idx + 1)
  else { s with prs.life := FMap.set 0 s.prs.life idx (FMap.get 0 s.prs.life idx + 1) }

/-- Write one lifetime counter if it has risen (R577). -/
def State.lifeWrite (s : State) (idx : Nat) : State :=
  let d := FMap.get 0 s.prs.life idx
  if d = 0 then s else
    { s.prsRequest idx (s.prsNext idx + BitVec.ofNat 32 d) with
        prs.life := FMap.set 0 s.prs.life idx 0, prs.lifeAt := FMap.set 0 s.prs.lifeAt idx s.tick }

/-- Every risen lifetime counter is written at the beginning of a restart (R577). -/
def State.lifeFlush (s : State) : State := s.each (List.range' 0x121 10) State.lifeWrite

/-- A threshold of R510; a value outside its range acts as the nearest limit. -/
def threshN (w : BitVec 32) : Nat := Nat.max 2 (Nat.min 4 (bitsOf w.toNat 31 28))
def threshT (w : BitVec 32) : Nat := Nat.max 1 (bitsOf w.toNat 27 0)
/-- The latent-fault interval in ticks (R510). -/
def State.lfi (s : State) : Nat := ms (Nat.max 100 (bitsOf (s.prsForce 0x102).toNat 15 0))

end Sys2Proof.Machine
end

