-- ==== Sys2Proof/Machine/Crc.lean ====
section
/-! DEFINITION. The check codes and digests of the block: CRC-16 and CRC-32C (R190), SHA-384 and HMAC-SHA-384. -/
namespace Sys2Proof.Machine

/-- Apply `f` `n` times. -/
def iter {α : Type} (f : α → α) : Nat → α → α
  | 0, a => a
  | n + 1, a => iter f n (f a)

/-- `k n`, in a form in which an evaluator that delays arguments has `n` as a numeral before it goes on. -/
def strictly {α : Type} (n : Nat) (k : Nat → α) : α :=
  match n with
  | 0 => k 0
  | m + 1 => k (m + 1)

/-- The left fold of a number over bytes. -/
def foldBytes (f : Nat → Byte → Nat) : Nat → List Byte → Nat
  | c, [] => c
  | c, b :: l => strictly (f c b) (fun c => foldBytes f c l)

/-- One bit of a reflected CRC with polynomial `p` (bit-reversed). -/
def crcBit (p c : Nat) : Nat := if c % 2 = 1 then (c / 2) ^^^ p else c / 2

/-- A reflected 32-bit CRC with initial value and final inversion of all ones. -/
def crcRefl (p : Nat) (l : List Byte) : Nat :=
  foldBytes (fun c b => iter (crcBit p) 8 (c ^^^ b.toNat)) 0xffffffff l ^^^ 0xffffffff

/-- CRC-32C (R190): polynomial 0x1EDC_6F41 reflected. -/
def crc32c (l : List Byte) : Nat := crcRefl 0x82f63b78 l

/-- One bit of CRC-16 with polynomial 0x1021 (R190). -/
def crc16Bit (c : Nat) : Nat :=
  let d := c * 2 % 65536
  if c ≥ 32768 then d ^^^ 0x1021 else d

/-- CRC-16 (R190): initial value 0xFFFF, no reflection, no final inversion. -/
def crc16 (l : List Byte) : Nat := foldBytes (fun c b => iter crc16Bit 8 (c ^^^ (b.toNat * 256))) 0xffff l

/-! SHA-384 (FIPS 180-4), which the spec names and does not describe (PRESUMED, log entry 9). -/

/-- The smallest `x` that Newton's iteration `f` reaches from `x` in `n` steps; from above, it falls to the integer root and stays there. -/
def newton (f : Nat → Nat) : Nat → Nat → Nat
  | 0, x => x
  | n + 1, x => strictly (Nat.min x (f x)) (newton f n)
/-- The first 64 bits of the fraction of the square root of a number below 64. -/
def sqrtBits (p : Nat) : Nat := newton (fun x => (x + p * 2 ^ 128 / x) / 2) 16 (2 ^ 67) % 2 ^ 64
/-- The first 64 bits of the fraction of the cube root of a number below 512. -/
def cbrtBits (p : Nat) : Nat := newton (fun x => (2 * x + p * 2 ^ 192 / (x * x)) / 3) 20 (2 ^ 67) % 2 ^ 64
/-- The primes below 410: the first eighty. -/
def shaPrimes : List Nat := (List.range' 2 408).filter (fun n => (List.range' 2 19).all (fun d => n % d != 0 || n == d))

/-- The initial value of SHA-384: the square roots of the ninth to the sixteenth prime. -/
def sha384Iv : List Nat := ((shaPrimes.drop 8).take 8).map sqrtBits
/-- The constants of the eighty rounds: the cube roots of the first eighty primes. -/
def shaConsts : List Nat := shaPrimes.map cbrtBits

def w64 (v : Nat) : Nat := v % 2 ^ 64
def rotr64 (v n : Nat) : Nat := (v / 2 ^ n) ||| (v % 2 ^ n * 2 ^ (64 - n))
def shaSig0 (v : Nat) : Nat := rotr64 v 1 ^^^ rotr64 v 8 ^^^ (v / 2 ^ 7)
def shaSig1 (v : Nat) : Nat := rotr64 v 19 ^^^ rotr64 v 61 ^^^ (v / 2 ^ 6)
def shaSum0 (v : Nat) : Nat := rotr64 v 28 ^^^ rotr64 v 34 ^^^ rotr64 v 39
def shaSum1 (v : Nat) : Nat := rotr64 v 14 ^^^ rotr64 v 18 ^^^ rotr64 v 41

/-- The words of a message block, big-endian, newest first. -/
def shaBlockWords : Nat → List Byte → List Nat → List Nat
  | 0, _, acc => acc
  | n + 1, l, acc => shaBlockWords n (l.drop 8) (beNat (l.take 8) :: acc)

/-- The message schedule, newest word first. -/
def shaSchedule : Nat → List Nat → List Nat
  | 0, ws => ws
  | n + 1, ws =>
    strictly (w64 (shaSig1 (ws.getD 1 0) + ws.getD 6 0 + shaSig0 (ws.getD 14 0) + ws.getD 15 0)) (fun w => shaSchedule n (w :: ws))

/-- One round of the compression. -/
def shaRound (h : List Nat) (kw : Nat) : List Nat :=
  match h with
  | [a, b, c, d, e, f, g, hh] =>
    let ch := (e &&& f) ^^^ ((2 ^ 64 - 1 - e) &&& g)
    let maj := (a &&& b) ^^^ (a &&& c) ^^^ (b &&& c)
    let t1 := hh + shaSum1 e + ch + kw
    strictly (w64 (t1 + shaSum0 a + maj)) (fun t => strictly (w64 (d + t1)) (fun u => [t, a, b, c, u, e, f, g]))
  | _ => h

/-- One block of the compression. -/
def shaBlock (h : List Nat) (blk : List Byte) : List Nat :=
  let ws := (shaSchedule 64 (shaBlockWords 16 blk [])).reverse
  let h' := (List.zipWith (· + ·) ws shaConsts).foldl shaRound h
  List.zipWith (fun a b => w64 (a + b)) h h'

/-- Compress `n` blocks of 128 bytes. -/
def shaBlocks : Nat → List Byte → List Nat → List Nat
  | 0, _, h => h
  | n + 1, l, h => shaBlocks n (l.drop 128) (shaBlock h (l.take 128))

/-- The padded message. -/
def shaPad (l : List Byte) : List Byte :=
  l ++ 0x80#8 :: List.replicate ((239 - l.length % 128) % 128) 0#8 ++ natBe 16 (8 * l.length)

/-- SHA-384 of a byte list: 48 bytes. -/
def sha384 (l : List Byte) : List Byte :=
  let p := shaPad l
  (((shaBlocks (p.length / 128) p sha384Iv).take 6).map (natBe 8)).flatten

/-- HMAC-SHA-384 (RFC 2104; PRESUMED, log entry 9). -/
def hmac384 (key msg : List Byte) : List Byte :=
  let k := if key.length > 128 then sha384 key else key
  let k := k ++ List.replicate (128 - k.length) 0#8
  sha384 (k.map (· ^^^ 0x5c#8) ++ sha384 (k.map (· ^^^ 0x36#8) ++ msg))

end Sys2Proof.Machine
end

