-- ==== Sys2Proof/Machine/Mem.lean ====
section
/-! DEFINITION. Memory: the device address map, GDDR6 interleaving and inline ECC, the check-symbol cache, on-chip SRAM with
SEC-DED, and the reads and writes of every master (chapter 10). -/
namespace Sys2Proof.Machine

/-! The address map (R12, R13, R14, R601). -/

/-- What a device address falls on. -/
inductive Region where
  | gddr
  | tileData (t off : Nat)
  | tileAcc (t off : Nat)
  | tileProg (t off : Nat)
  | broodMem (b off : Nat)
  | sysMem (off : Nat)
  | regs (off : Nat)
  | hole
  deriving DecidableEq, Repr

def gddrEnd : Nat := 0x3C0000000
def tileBase : Nat := 0x100000000000
def broodBase : Nat := 0x110000000000
def sysBase : Nat := 0x120000000000
def regBase : Nat := 0x200000000000

/-- Device address of offset `off` in logical tile `t`'s window (R12). -/
def tileAddr (t off : Nat) : Nat := tileBase + t * 0x40000 + off
/-- Device address of offset `off` in brood `b`'s memory (R12). -/
def broodAddr (b off : Nat) : Nat := broodBase + b * 0x40000 + off

/-- The region an address falls on; what no slot hosts is a hole (R12 to R14, R601). -/
def State.region (s : State) (a : Nat) : Region :=
  if a < gddrEnd then .gddr
  else if tileBase ≤ a ∧ a < tileBase + 0x20000000 then
    let t := (a - tileBase) / 0x40000
    let o := (a - tileBase) % 0x40000
    if !s.hosted t then .hole
    else if o < 0x10000 then .tileData t o
    else if o < 0x18000 then .tileAcc t (o - 0x10000)
    else if 0x20000 ≤ o ∧ o < 0x24000 then .tileProg t (o - 0x20000)
    else .hole
  else if broodBase ≤ a ∧ a < broodBase + 0x2000000 then
    let b := (a - broodBase) / 0x40000
    if b < s.nBroods then .broodMem b ((a - broodBase) % 0x40000) else .hole
  else if sysBase ≤ a ∧ a < sysBase + 0x1000000 then .sysMem (a - sysBase)
  else if regBase ≤ a ∧ a < regBase + 0x1000000 then .regs (a - regBase)
  else .hole

/-! Raw bytes. -/

/-- The event history of the check area (R507, R511): an unused pair reads 0xFFFF_FFFF. -/
def histBase : Nat := 0x120000F20000
/-- What an address that nothing has written reads as: 0 (R386; log entry 12 for SRAM), all ones in the event history (R511). -/
def memDef (a : Nat) : Byte := if histBase ≤ a ∧ a < histBase + 0x22000 then 0xff#8 else 0#8
/-- The byte stored at a device address. -/
def State.peek (s : State) (a : Nat) : Byte := FMap.get (memDef a) s.mem.cells a
/-- `n` stored bytes. -/
def State.peekN (s : State) : Nat → Nat → List Byte
  | _, 0 => []
  | a, n + 1 => s.peek a :: State.peekN s (a + 1) n
/-- The map with bytes stored from address `a` up. -/
def pokeCells (c : FMap Byte) (a : Nat) : List Byte → FMap Byte
  | [] => c
  | b :: r => pokeCells (FMap.set (memDef a) c a b) (a + 1) r
/-- Store bytes from address `a` up. -/
def State.poke (s : State) (a : Nat) (l : List Byte) : State := { s with mem.cells := pokeCells s.mem.cells a l }
/-- The canonical form of memory: addresses strictly rising, no entry equal to what an unlisted address reads as. -/
def Memory.wf (m : FMap Byte) : Bool :=
  (match m with
   | [] => true
   | (j, _) :: r => FMap.above j r) && m.all (fun e => !decide (e.2 = memDef e.1))
/-- Clear every stored byte and SRAM error of a range. -/
def State.clearRange (s : State) (lo hi : Nat) : State :=
  let p : Nat → Bool := fun a => decide (lo ≤ a) && decide (a < hi)
  { s with mem.cells := FMap.clear s.mem.cells p, mem.sram := FMap.clear s.mem.sram p }

/-! GDDR6 interleaving (R367, R368). -/

/-- Where a device address lies. -/
structure MemLoc where
  ch : Nat
  pseudo : Nat
  bank : Nat
  row : Nat
  sector : Nat
  byte : Nat
  deriving DecidableEq, Repr

/-- The interleaving procedure of R367. -/
def mapAddress (a : Nat) : MemLoc :=
  let g := a / 256
  let pc := (g ^^^ (g / 16) ^^^ (g / 256) ^^^ (g / 4096)) % 16
  let l := g / 16 * 256 + a % 256
  let row := l / 32768
  { ch := pc / 2, pseudo := pc % 2, bank := (l / 2048 % 16) ^^^ (row % 16), row := row,
    sector := l / 32 % 64, byte := a % 32 }

/-- The check line of a location within its channel: one per 16 data sectors of a bank (R368, R377). -/
def MemLoc.line (m : MemLoc) : Nat := (m.pseudo * 16 + m.bank) * 122880 + (m.row * 64 + m.sector) / 16
/-- The place of a sector in its check line. -/
def MemLoc.inLine (m : MemLoc) : Nat := m.sector % 16

/-- The device address at place `l` of a channel's pseudo-channel: the inverse of R367. -/
def unmapAddress (pc l : Nat) : Nat :=
  let h := l / 256
  let low := (pc ^^^ h ^^^ (h / 16) ^^^ (h / 256)) % 16
  (h * 16 + low) * 256 + l % 256

/-- The device address of the first sector of a check line of channel `c`. -/
def lineAddr (c line : Nat) : Nat :=
  let bp := line / 122880
  let q := line % 122880 * 16
  let row := q / 64
  unmapAddress (2 * c + bp / 16) (row * 32768 + ((bp % 16) ^^^ (row % 16)) * 2048 + q % 64 * 32)

/-! Inline ECC over GF(16) (R369 to R372). -/

/-- Multiply by x modulo x^4 + x + 1. -/
def gfX (a : Nat) : Nat := let d := a * 2 % 16; if a ≥ 8 then d ^^^ 3 else d
/-- Product in GF(16) (R370). -/
def gfMul (a b : Nat) : Nat :=
  (if b % 2 = 1 then a else 0) ^^^ (if b / 2 % 2 = 1 then gfX a else 0) ^^^
    (if b / 4 % 2 = 1 then gfX (gfX a) else 0) ^^^ (if b / 8 % 2 = 1 then gfX (gfX (gfX a)) else 0)
/-- The inverse in GF(16): the fourteenth power. -/
def gfInv (a : Nat) : Nat :=
  let a2 := gfMul a a; let a4 := gfMul a2 a2; let a8 := gfMul a4 a4
  gfMul a8 (gfMul a4 a2)

/-- Bit `b` of data symbol `j` lies at this bit number of the sector (R369): bit p mod 8 of byte 8t + 2b + (p >> 3). -/
def symBit (j b : Nat) : Nat := (8 * (j / 16) + 2 * b + j % 16 / 8) * 8 + j % 8
/-- Data symbol `j` of a sector given as a 256-bit number (R369). -/
def symOf (d j : Nat) : Nat :=
  (List.range 4).foldl (fun v b => v + (d / 2 ^ symBit j b % 2) * 2 ^ b) 0
/-- The 256-bit number with symbol `j` equal to `v` and all else 0. -/
def symMask (j v : Nat) : Nat := (List.range 4).foldl (fun m b => m + (v / 2 ^ b % 2) * 2 ^ symBit j b) 0

/-- The check word of a sector's data (R370). -/
def checkWord (d : Nat) : Nat :=
  let t := (List.range 64).foldl (fun (t : Nat × Nat × Nat × Nat) j =>
    let v := symOf d j; let x := j % 16; let y := j / 16 + 2
    (t.1 ^^^ v, t.2.1 ^^^ gfMul v x, t.2.2.1 ^^^ gfMul v y,
      t.2.2.2 ^^^ gfMul v (gfMul x x ^^^ gfMul x y ^^^ gfMul 8 (gfMul y y)))) (0, 0, 0, 0)
  (t.1 ^^^ t.2.1 ^^^ t.2.2.1) + 16 * t.2.1 + 256 * t.2.2.1 + 4096 * (t.2.2.2 ^^^ t.2.1 ^^^ gfMul 8 t.2.2.1)

/-- What the decoder of R371 finds. -/
inductive Ecc where
  | clean
  | data (mask : Nat)
  | check
  | bad
  deriving DecidableEq, Repr

/-- The decoding procedure of R371. `e` is the check word as read xor the check word of the data as read; by the code's
linearity the syndrome is a function of it. -/
def eccDecode (e : Nat) : Ecc :=
  let e0 := e % 16; let e1 := e / 16 % 16; let e2 := e / 256 % 16; let e3 := e / 4096 % 16
  let s0 := e0 ^^^ e1 ^^^ e2
  let s3 := e3 ^^^ e1 ^^^ gfMul 8 e2
  if s0 = 0 ∧ e1 = 0 ∧ e2 = 0 ∧ s3 = 0 then .clean
  else if s0 = 0 then (if e1 = 0 ∧ e2 = 0 then .check else .bad)
  else
    let i := gfInv s0
    let a := gfMul e1 i; let b := gfMul e2 i; let z := gfMul s3 i
    if z ≠ gfMul a a ^^^ gfMul a b ^^^ gfMul 8 (gfMul b b) then .bad
    else if 2 ≤ b ∧ b ≤ 5 then .data (symMask (16 * (b - 2) + a) s0)
    else if (a = 0 ∧ b = 0) ∨ (a = 1 ∧ b = 0) ∨ (a = 0 ∧ b = 1) then .check
    else .bad

/-! Masters (R392). -/
def mDma (t : Nat) : Nat := t
def mRsp (b : Nat) : Nat := 0x800 + b
def mWarp (e : Nat) : Nat := 0x900 + e
def mJxs (e : Nat) : Nat := 0x910 + e
def mIntake : Nat := 0x920
def mHost : Nat := 0x930
def mDsp (c : Nat) : Nat := 0x940 + c
def mSeq : Nat := 0x950
def mCtl : Nat := 0x960
def mSec : Nat := 0x970

/-! Channels. -/

def State.chan (s : State) (c : Nat) : MemChan := FMap.get {} s.chans c
def State.setChan (s : State) (c : Nat) (x : MemChan) : State := { s with chans := FMap.set {} s.chans c x }
def State.modChan (s : State) (c : Nat) (f : MemChan → MemChan) : State := s.setChan c (f (s.chan c))

/-- Count a check-line hit in units of 1,024 (R392). -/
def State.cacheHit (s : State) (c : Nat) : State :=
  let h := (s.chan c).hits + 1
  if h = 1024 then (s.modChan c (fun x => { x with hits := 0 })).cnt F.MEM_CACHE_HITS c
  else s.modChan c (fun x => { x with hits := h })

/-- Count a check-line miss in units of 1,024 (R392). -/
def State.cacheMiss (s : State) (c : Nat) : State :=
  let h := (s.chan c).misses + 1
  if h = 1024 then (s.modChan c (fun x => { x with misses := 0 })).cnt F.MEM_CACHE_MISSES c
  else s.modChan c (fun x => { x with misses := h })

/-- The sector of an address is in its channel's lost-sector table (R378). -/
def State.secLost (s : State) (m : MemLoc) : Bool :=
  (s.chan m.ch).lost.any (fun e => e.line == m.line && e.left.contains m.inLine)

/-- A whole-sector write removes the sector from the lost-sector table and frees an emptied entry (R378). -/
def State.secFound (s : State) (m : MemLoc) : State :=
  s.modChan m.ch (fun x => { x with lost := (x.lost.map (fun e =>
    if e.line = m.line then { e with left := e.left.filter (· != m.inLine) } else e)).filter (fun e => e.left != []) })

/-- Capture the first uncorrectable sector of a channel (R374, R392). -/
def State.memFirst (s : State) (c typ master addr : Nat) : State :=
  if s.rdB F.MEM_FIRST1_VALID c then s else
    (((((s.wr F.MEM_FIRST1_VALID 1 c).wr F.MEM_FIRST1_TYPE typ c).wr F.MEM_FIRST1_MASTER master c).wr
      F.MEM_FIRST0_ADDR_LO addr c).wr F.MEM_FIRST1_ADDR_HI (addr / 2 ^ 32) c).wr F.MEM_FIRST2_TICK s.tick c

/-- Raise an event of a memory channel (R391, R461). -/
def State.raiseMem (s : State) (c code master addr acc : Nat) : State :=
  s.raiseEv { line := 128 + c, code := code, units := [master], addr := addr, master := master, acc := acc }

/-! Outstanding requests (R41, R379, R392; log entry 21). -/

/-- Address of row `i` of a DMA descriptor's side (R163). -/
def rowAt (base : Nat) (stride : Int) (i : Nat) : Option Nat :=
  let a := (base : Int) + stride * i
  if a < 0 then none else some a.toNat

/-- The channels to which a DMA engine has requests of this descriptor outstanding or waiting for a place: at most 16 requests of at most 64
bytes, of its source where that is device memory, else of its destination (R41, R164). -/
def DmaDesc.asks (q : DmaDesc) : List Nat :=
  let (base, stride) := if q.src.toNat < gddrEnd then (q.src.toNat, q.srcStride) else (q.dst.toNat, q.dstStride)
  ((List.range (Nat.min q.rows 16)).flatMap (fun i => match rowAt base stride i with
    | some a => if a < gddrEnd then
        (List.range (Nat.min 16 ((a % 64 + q.rowBytes + 63) / 64))).map (fun k => (mapAddress (a / 64 * 64 + 64 * k)).ch)
      else []
    | none => [])).take 16

/-- The running descriptors: when each was taken up, its tile, and the channels it asks. -/
def State.dmaHeads (s : State) : List (Nat × Nat × List Nat) :=
  s.swarm.tiles.filterMap (fun e => match e.2.dma with
    | q :: _ => some (q.since, e.1, q.asks)
    | [] => none)

/-- Places that tile DMA, resamplers, the host, the dispatch cores and the security block share in a channel: 256 less the 32 that are kept for
the intake, the JPEG XS and warp engines and the sequencer (R379). -/
def sharedPlaces : Nat := 224

/-- Requests outstanding in a channel: MEM_OUTST.NOW. Those beyond the shared places wait at their sources (R41). -/
def State.memNow (s : State) (c : Nat) : Nat :=
  Nat.min sharedPlaces ((s.dmaHeads.map (fun e => e.2.2.countP (· == c))).foldl (· + ·) 0)

/-- Every request that the running descriptor of a tile asks for has its place: places are given in the order in which the descriptors were
taken up, and by tile number (R41, R379). -/
def State.dmaPlaced (s : State) (t : Nat) (q : DmaDesc) : Bool :=
  let before := s.dmaHeads.filter (fun e => decide (e.1 < q.since) || (e.1 == q.since && decide (e.2.1 < t)))
  (List.range 8).all (fun c =>
    let own := q.asks.countP (· == c)
    own == 0 || decide ((before.map (fun e => e.2.2.countP (· == c))).foldl (· + ·) own ≤ sharedPlaces))

/-- A request of a master is accepted: with those of the DMA engines outstanding, it may raise MEM_OUTST.PEAK. -/
def State.accepts (s : State) (c master : Nat) : State :=
  s.peak F.MEM_OUTST_PEAK (if master < 0x800 then Nat.max 1 (s.memNow c) else Nat.min 256 (s.memNow c + 1)) c

/-! The check-symbol cache (R377, R378, R388). -/

/-- The addresses that the model gives the words of the check-symbol caches, 64 KiB a channel above the device map (log entry 21). -/
def chkBase : Nat := 0x130000000000
/-- Word `w` of the check line that a way of set `line mod 256` holds (R377; log entry 10). -/
def chkWord (c line way w : Nat) : Nat := chkBase + c * 0x10000 + ((line % 256 * 8 + way) * 4 + w) * 8
/-- The address is that of a word of a check-symbol cache. -/
def inChk (a : Nat) : Bool := decide (chkBase ≤ a) && decide (a < chkBase + 0x80000)

/-- Kind and unit of an SRAM word, as MEM_SRAM_FIRST0 codes them, with the word's index in its memory. -/
def State.sramWhere (s : State) (a : Nat) : Nat × Nat × Nat :=
  if chkBase ≤ a then (5, (a - chkBase) / 0x10000, (a - chkBase) % 0x10000 / 8) else match s.region a with
  | .tileData t o => (0, s.physTile t, o / 8)
  | .tileProg t o => (1, s.physTile t, o / 8)
  | .tileAcc t o => (2, s.physTile t, o / 8)
  | .broodMem b o => (3, b, o / 8)
  | .sysMem o => (4, 0, o / 8)
  | _ => (4, 0, 0)

/-- Capture the first uncorrectable SRAM word (R390). -/
def State.sramFirst (s : State) (a : Nat) : State :=
  if s.rdB F.MEM_SRAM_FIRST0_VALID then s else
    let (k, u, w) := s.sramWhere a
    (((((s.wr F.MEM_SRAM_FIRST0_VALID 1).wr F.MEM_SRAM_FIRST0_KIND k).wr F.MEM_SRAM_FIRST0_UNIT u).wr
      F.MEM_SRAM_FIRST0_WORD_HI (w / 4096)).wr F.MEM_SRAM_FIRST1_WORD_LO w).wr F.MEM_SRAM_FIRST1_TICK s.tick

/-- One word of a cached line is read: true where it is clean or corrected. Words in error are counted (R388, R390). -/
def State.chkWordRead (s : State) (c line a : Nat) : Bool × State :=
  match (FMap.get {} s.mem.sram a).bits with
  | 0 => (true, s)
  | 1 => (true, (s.cnt F.MEM_SRAM_ECC_CORR).raiseMem c 0x4010 mCtl (lineAddr c line) 0)
  | _ => (false, (s.cnt F.MEM_SRAM_ECC_UNCORR).sramFirst a)

/-- Words of a cached line are read; true where all can be used. -/
def State.lineRead (s : State) (c : Nat) (l : CheckLine) (ws : List Nat) : Bool × State :=
  ws.foldl (fun (r : Bool × State) w =>
    let (ok, s) := r.2.chkWordRead c l.line (chkWord c l.line l.way w)
    (r.1 && ok, s)) (true, s)

/-- A line leaves the cache. -/
def State.dropLine (s : State) (c line : Nat) : State := s.modChan c (fun x => { x with cache := x.cache.filter (fun y => y.line != line) })

/-- Enter a line's 16 sectors in the lost-sector table; with the table full the device contents are declared lost (R378, R386). -/
def State.loseLine (s : State) (c line : Nat) : State :=
  let a := lineAddr c line
  let s := (s.cnt F.MEM_LOST_TOTAL c).raiseMem c 0x4006 mCtl a 5
  let rest := (s.chan c).lost.filter (fun e => e.line != line)
  if 64 ≤ rest.length then { s.raiseMem c 0x4020 mCtl a 5 with cara.zeroFill := true }
  else s.modChan c (fun x => { x with lost := rest ++ [{ line := line, left := List.range 16 }] })

/-- A line leaves the cache; a dirty one is read and written to memory, or found uncorrectable (R377, R378). -/
def State.evictLine (s : State) (c : Nat) (l : CheckLine) : State :=
  let s := s.dropLine c l.line
  if !l.dirty then s
  else match s.lineRead c l [0, 1, 2, 3] with
    | (true, s) => s
    | (false, s) => (s.memFirst c 5 mCtl (lineAddr c l.line)).loseLine c l.line

/-- The way that a new line of a set takes: a free one, or that of the least recently used line, which is evicted (R377). -/
def State.takeWay (s : State) (c line : Nat) : Nat × State :=
  let same := (s.chan c).cache.filter (fun x => x.line % 256 == line % 256)
  match (List.range 8).find? (fun w => same.all (fun x => x.way != w)), same.getLast? with
  | some w, _ => (w, s)
  | none, some v => (v.way, s.evictLine c v)
  | none, none => (0, s)

/-- A miss reads the check sector into the cache: its four words are written whole (R377, R389). -/
def State.fillLine (s : State) (m : MemLoc) (dirty : Bool) : State :=
  let c := m.ch
  let (way, s) := s.takeWay c m.line
  let a := chkWord c m.line way 0
  let s := { s with mem.sram := FMap.clear s.mem.sram (fun w => decide (a ≤ w) && decide (w < a + 32)) }
  (s.modChan c (fun y => { y with cache := { line := m.line, dirty := dirty, way := way } :: y.cache })).cacheMiss c

/-- An access to the check word of a location: a hit makes its line the most recently used; a miss fills it. A line whose word is
uncorrectable is lost where it is dirty, and read again from memory (R377, R378, R388). -/
def State.cacheTouch (s : State) (m : MemLoc) (dirty : Bool) : State :=
  let c := m.ch
  match (s.chan c).cache.find? (fun x => x.line == m.line) with
  | some l =>
    (match s.lineRead c l [m.inLine / 4] with
     | (true, s) =>
       ((s.dropLine c l.line).modChan c (fun y => { y with cache := { l with dirty := l.dirty || dirty } :: y.cache })).cacheHit c
     | (false, s) =>
       let s := s.dropLine c l.line
       (if l.dirty then s.loseLine c l.line else s).fillLine m dirty)
  | none => s.fillLine m dirty

/-- Every dirty check line is written back (R386). -/
def State.writeBack (s : State) : State :=
  s.each (List.range 8) (fun s c => s.each (s.chan c).cache (fun s l => s.evictLine c l))

/-! Sectors. -/

/-- The stored data of a sector as a 256-bit number. -/
def State.secData (s : State) (sec : Nat) : Nat := leNat (s.peekN (32 * sec) 32)
/-- Stored check word xor the check word of the stored data. -/
def State.secDiff (s : State) (sec : Nat) : Nat := (FMap.get 0#16 s.mem.chk sec).toNat
def State.setDiff (s : State) (sec e : Nat) : State :=
  { s with mem.chk := FMap.set 0#16 s.mem.chk sec (BitVec.ofNat 16 e) }

/-- Store a whole sector with a fresh check word. -/
def State.storeSec (s : State) (sec : Nat) (d : List Byte) : State := (s.poke (32 * sec) d).setDiff sec 0

/-- A hardware error strikes a stored sector: 256 data bits and 16 check bits flip. -/
def State.hitSec (s : State) (sec : Nat) (f : BitVec 272) : State :=
  if f = 0#272 then s else
    let dm := f.toNat % 2 ^ 256
    let e := s.secDiff sec ^^^ (f.toNat / 2 ^ 256) ^^^ checkWord dm
    (s.poke (32 * sec) (natLe 32 (s.secData sec ^^^ dm))).setDiff sec e

/-- What decoding the stored sector gives: its corrected data, or nothing (R371, R378). -/
def State.decodeSec (s : State) (sec : Nat) : Ecc × List Byte :=
  if s.secLost (mapAddress (32 * sec)) then (.bad, [])
  else match eccDecode (s.secDiff sec) with
    | .data m => (.data m, natLe 32 (s.secData sec ^^^ m))
    | .bad => (.bad, [])
    | r => (r, s.peekN (32 * sec) 32)

/-- A corrected read is counted, raised and queues a corrective write (R373). -/
def State.corrected (s : State) (sec master : Nat) : State :=
  let c := (mapAddress (32 * sec)).ch
  ((s.cnt F.MEM_ECC_CORR c).raiseMem c 0x4001 master (32 * sec) 0).modChan c (fun x =>
    if x.corr.contains sec then x else { x with corr := x.corr ++ [sec] })

/-- An uncorrectable read is counted, captured and raised (R374). -/
def State.uncorrected (s : State) (sec master typ : Nat) (code : Nat) (acc : Nat) : State :=
  let c := (mapAddress (32 * sec)).ch
  ((s.cnt F.MEM_ECC_UNCORR c).memFirst c typ master (32 * sec)).raiseMem c code master (32 * sec) acc

/-- Read one sector for a master (R371, R373, R374, R377). -/
def State.readSec (s : State) (sec master : Nat) : Option (List Byte) × State :=
  let m := mapAddress (32 * sec)
  let s := (s.accepts m.ch master).cacheTouch m false
  match s.decodeSec sec with
  | (.clean, d) => (some d, s)
  | (.bad, _) => (none, s.uncorrected sec master 0 0x4002 0)
  | (_, d) => (some d, s.corrected sec master)

/-- A queued corrective write of the sector is dropped once a later write has committed (R373). -/
def State.dropCorr (s : State) (sec c : Nat) : State :=
  s.modChan c (fun x => { x with corr := x.corr.filter (· != sec) })

/-- The armed error of MEM_INJ strikes the next whole-sector write of a master (R392). -/
def State.injectSec (s : State) (sec c : Nat) : State :=
  if s.rdB F.MEM_INJ_ARM c then
    let pos := s.rd F.MEM_INJ_POS c; let v := s.rd F.MEM_INJ_VALUE c
    let s := s.wr F.MEM_INJ_ARM 0 c
    if pos < 64 then s.hitSec sec (BitVec.ofNat 272 (symMask pos v))
    else s.hitSec sec (BitVec.ofNat 272 (v * 2 ^ (256 + 4 * (pos - 64))))
  else s

/-- Write a whole sector for a master (R376, R378, R380). -/
def State.writeSec (s : State) (sec master : Nat) (d : List Byte) : State :=
  let m := mapAddress (32 * sec)
  ((((((s.accepts m.ch master).cacheTouch m true).secFound m).storeSec sec d).dropCorr sec m.ch)).injectSec sec m.ch

/-- Write bytes `d` at offset `off` of a sector: read, decode, merge and write whole, or fail with 0x4021 (R376). -/
def State.mergeSec (s : State) (sec off : Nat) (d : List Byte) (master : Nat) : Bool × State :=
  let m := mapAddress (32 * sec)
  let s := (s.accepts m.ch master).cacheTouch m true
  match s.decodeSec sec with
  | (.bad, _) => (false, s.uncorrected sec master 2 0x4021 1)
  | (r, old) =>
    let s := if r = .clean then s else
      (s.cnt F.MEM_ECC_CORR m.ch).raiseMem m.ch 0x4001 master (32 * sec) 1
    (true, (s.storeSec sec (old.take off ++ d ++ old.drop (off + d.length))).dropCorr sec m.ch)

/-- Read `n` sectors from `sec` up; the read fails as a whole if any is uncorrectable (R381). -/
def State.readSecs (s : State) (master : Nat) : Nat → Nat → Option (List Byte) × State
  | _, 0 => (some [], s)
  | sec, n + 1 =>
    let (a, s) := s.readSec sec master
    let (b, s) := State.readSecs s master (sec + 1) n
    (match a, b with
     | some x, some y => (some (x ++ y), s)
     | _, _ => (none, s))

/-- Read GDDR6 bytes for a master. -/
def State.gRead (s : State) (master a n : Nat) : Option (List Byte) × State :=
  if n = 0 then (some [], s) else
    let (r, s) := s.readSecs master (a / 32) ((a + n - 1) / 32 - a / 32 + 1)
    (r.map (fun d => (d.drop (a % 32)).take n), s)

/-- Write GDDR6 bytes for a master, sector by sector in ascending order; a part that fails leaves the others written
(R376, R381). The first failing address is answered. `fuel` bounds the number of sectors. -/
def State.gWriteGo (master : Nat) : Nat → Nat → List Byte → Option Nat → State → Option Nat × State
  | 0, _, _, f, s => (f, s)
  | _, _, [], f, s => (f, s)
  | fuel + 1, a, d, f, s =>
    let off := a % 32
    let k := 32 - off
    let part := d.take k
    if part.length = 32 then State.gWriteGo master fuel (a + k) (d.drop k) f (s.writeSec (a / 32) master part)
    else
      let (ok, s) := s.mergeSec (a / 32) off part master
      State.gWriteGo master fuel (a + k) (d.drop k) (if ok then f else f.or (some a)) s

def State.gWrite (s : State) (master a : Nat) (d : List Byte) : Option Nat × State :=
  State.gWriteGo master (d.length / 32 + 2) a d none s

/-! Retries on the link, and requests that span granules (R375, R381). -/

/-- A channel is due for retraining. -/
def State.makeDue (s : State) (c : Nat) : State :=
  let s := s.modChan c (fun x => { x with dueAt := some (x.dueAt.getD s.tick) })
  if s.modes.memtrain then s.wr F.MEM_TRAIN_DUE 1 c else s

/-- One retry: counted and raised; 16 within 1 ms force a retraining (R375). -/
def State.edcRetry (s : State) (c master addr acc : Nat) : State :=
  let s := (s.cnt F.MEM_EDC_RETRY c).raiseMem c 0x4004 master addr acc
  let l := (s.chan c).edcAt.filter (fun t => decide (s.tick < t + ms 1)) ++ [s.tick]
  if 16 ≤ l.length then ((s.modChan c (fun x => { x with edcAt := [] })).cnt F.MEM_EDC_FORCED c).makeDue c
  else s.modChan c (fun x => { x with edcAt := l })

/-- The retries of an access that met `n` mismatches; the third failure counts as a failed access. -/
def State.edcRetries (s : State) (c master addr acc n : Nat) : State :=
  let s := s.each (List.range (Nat.min n 2)) (fun s _ => s.edcRetry c master addr acc)
  if n = 3 then s.cnt F.MEM_EDC_FAIL c else s

/-- The requests into which one of `n` bytes at `a` is split, one per granule of 256 bytes: address and length (R381). -/
def granules (a n : Nat) : List (Nat × Nat) :=
  if n = 0 then [] else (List.range ((a + n - 1) / 256 - a / 256 + 1)).map (fun i =>
    let lo := Nat.max a ((a / 256 + i) * 256)
    (lo, Nat.min (a + n) ((a / 256 + i + 1) * 256) - lo))

/-- CRC mismatches that part `i` of a request meets on its link: the operand lists them part by part. -/
def edcOf (edc : List (BitVec 2)) (i : Nat) : Nat := (edc.getD i 0#2).toNat

/-- A read by its parts: it fails as a whole if any part is uncorrectable, also after a third CRC mismatch (R374, R375, R381). -/
def State.memRead (s : State) (master a n : Nat) (edc : List (BitVec 2)) : Option (List Byte) × State :=
  (granules a n).zipIdx.foldl (fun (r : Option (List Byte) × State) p =>
    let k := edcOf edc p.2
    let s := r.2.edcRetries (mapAddress p.1.1).ch master p.1.1 0 k
    let (d, s) := if k = 3 then (none, s.uncorrected (p.1.1 / 32) master 0 0x4002 0) else s.gRead master p.1.1 p.1.2
    (match r.1, d with
     | some x, some y => (some (x ++ y), s)
     | _, _ => (none, s))) (some [], s)

/-- A write by its parts: a part that fails leaves the others written; the answer is the event code and the address of the first that
failed (R375, R376, R381). -/
def State.memWrite (s : State) (master a : Nat) (d : List Byte) (edc : List (BitVec 2)) : Option (Nat × Nat) × State :=
  (granules a d.length).zipIdx.foldl (fun (r : Option (Nat × Nat) × State) p =>
    let k := edcOf edc p.2
    let c := (mapAddress p.1.1).ch
    let s := r.2.edcRetries c master p.1.1 1 k
    if k = 3 then (r.1.or (some (0x4005, p.1.1)), s.raiseMem c 0x4005 master p.1.1 1)
    else
      let (e, s) := s.gWrite master p.1.1 ((d.drop (p.1.1 - a)).take p.1.2)
      (r.1.or (e.map (fun x => (0x4021, x))), s)) (none, s)

/-! On-chip SRAM (R388 to R390, R604). -/

/-- Line and unit identifier of an SRAM event (R461). -/
def State.sramLine (s : State) (a : Nat) : Nat × Nat :=
  if chkBase ≤ a then (128 + (a - chkBase) / 0x10000, mCtl) else match s.region a with
  | .tileData t _ => (tileBrood t, t)
  | .tileProg t _ => (tileBrood t, t)
  | .tileAcc t _ => (tileBrood t, t)
  | .broodMem b _ => (b, 0xf000 + b)
  | _ => (159, 0)

/-- Raise an SRAM event for the word at `a`. -/
def State.raiseSram (s : State) (a code master : Nat) : State :=
  let (l, u) := s.sramLine a
  s.raiseEv { line := l, code := code, units := [u], addr := a, master := master, acc := 0 }

/-- SRAM words in error that `n` bytes from `a` touch. -/
def State.sramErrs (s : State) (a n : Nat) : List (Nat × SramErr) :=
  s.mem.sram.filter (fun e => decide (a < e.1 + 8) && decide (e.1 < a + n))

/-- The event that an uncorrectable word raises, by memory and reader: `inner` is a tile's core, array or DMA engine or a
resampler (R388, R604). -/
def State.sramCode (s : State) (a : Nat) (inner : Bool) : Nat :=
  if inner then 0x4012 else match s.region a with
  | .sysMem _ => 0x4013
  | _ => 0x4011

/-- One word in error is read: corrected and counted, or uncorrectable, counted, captured and raised (R390, R604). -/
def State.sramWordRead (s : State) (e : Nat × SramErr) (master : Nat) (inner : Bool) : State :=
  if e.2.bits = 1 then (s.cnt F.MEM_SRAM_ECC_CORR).raiseSram e.1 0x4010 master
  else ((s.cnt F.MEM_SRAM_ECC_UNCORR).sramFirst e.1).raiseSram e.1 (s.sramCode e.1 inner) master

/-- Read SRAM bytes: nothing where a word is uncorrectable. -/
def State.sramRead (s : State) (master : Nat) (inner : Bool) (a n : Nat) : Option (List Byte) × State :=
  let es := s.sramErrs a n
  let s' := s.each es (fun s e => s.sramWordRead e master inner)
  (if es.any (fun e => e.2.bits != 1) then none else some (s.peekN a n), s')

/-- Write SRAM bytes: a whole word clears its error; part of a word merges, and is not written where the word is
uncorrectable (R389). Answers whether every word was written. -/
def State.sramWrite (s : State) (master : Nat) (inner : Bool) (a : Nat) (d : List Byte) : Bool × State :=
  let es := s.sramErrs a d.length
  let part := es.filter (fun e => decide (e.1 < a) || decide (a + d.length < e.1 + 8))
  let bad := part.filter (fun e => e.2.bits != 1)
  let s := s.each part (fun s e => s.sramWordRead e master inner)
  let kept := bad.map (fun e => (e.1, s.peekN e.1 8))
  let s := s.poke a d
  let s := s.each kept (fun s k => s.poke k.1 k.2)
  let s := { s with mem.sram := FMap.clear s.mem.sram (fun w =>
    es.any (fun e => e.1 == w) && !bad.any (fun e => e.1 == w)) }
  (bad.isEmpty, s)

/-! Accesses of a master to any memory (R15, R16). -/

/-- What an access comes to. -/
inductive Bus where
  | ok
  | bad
  | hole
  deriving DecidableEq, Repr

/-- A master's number, coded as MEM_FIRST1.MASTER, is a tile's DMA engine or a resampler (R392). -/
def innerMaster (m : Nat) : Bool := decide (m < 0x900)

/-- Every byte of the access falls on the memory of its first byte, or runs on from the data memory of a tile into its accumulator memory,
which follows it (R12). -/
def State.oneRegion (s : State) (a n : Nat) : Bool :=
  match s.region a, s.region (a + n - 1) with
  | .gddr, .gddr => true
  | .tileData t _, .tileData u _ => t == u
  | .tileData t _, .tileAcc u _ => t == u
  | .tileAcc t _, .tileAcc u _ => t == u
  | .tileProg t _, .tileProg u _ => t == u
  | .broodMem _ _, .broodMem _ _ => true
  | .sysMem _, .sysMem _ => true
  | _, _ => false

/-- A read of `n` bytes by a master; a hole or a register is no memory (R16). -/
def State.busRead (s : State) (master a n : Nat) : Bus × List Byte × State :=
  if n = 0 then (.ok, [], s)
  else if !s.oneRegion a n then (.hole, [], s)
  else
    let (r, s) := if a < gddrEnd then s.gRead master a n else s.sramRead master (innerMaster master) a n
    match r with
    | some d => (.ok, d, s)
    | none => (.bad, [], s)

/-- A write by a master (R16, R376, R389), with the address of the first part that failed (R381). -/
def State.busWriteAt (s : State) (master a : Nat) (d : List Byte) : Bus × Nat × State :=
  if d = [] then (.ok, a, s)
  else if !s.oneRegion a d.length then (.hole, a, s)
  else if a < gddrEnd then
    match s.gWrite master a d with
    | (none, s) => (.ok, a, s)
    | (some e, s) => (.bad, e, s)
  else
    let (ok, s) := s.sramWrite master (innerMaster master) a d
    (if ok then .ok else .bad, a, s)

/-- A write by a master. -/
def State.busWrite (s : State) (master a : Nat) (d : List Byte) : Bus × State :=
  let r := s.busWriteAt master a d
  (r.1, r.2.2)

/-- Status of an operation whose read or write hit uncorrectable data at an address (R432). -/
def State.badStatus (s : State) (a : Nat) : Nat :=
  match s.region a with
  | .gddr => 0x4002
  | .sysMem _ => 0x4013
  | _ => 0x4011

/-- A little-endian number that a unit reads; nothing where a word is uncorrectable (R388). -/
def State.readN (s : State) (master a n : Nat) : Option Nat × State :=
  match s.busRead master a n with
  | (.ok, d, s) => (some (leNat d), s)
  | (_, _, s) => (none, s)

/-- A write whose outcome nothing waits for. -/
def State.store (s : State) (master a : Nat) (d : List Byte) : State := (s.busWrite master a d).2
/-- Little-endian store of `n` bytes. -/
def State.storeN (s : State) (master a n v : Nat) : State := s.store master a (natLe n v)

end Sys2Proof.Machine
end

