-- ==== Sys2Proof/Machine/Rings.lean ====
section
/-! DEFINITION. MSI-X vectors, the five rings and their entries, trace points (chapters 11 and 12). -/
namespace Sys2Proof.Machine

/-! States of the host interface (R407) and of the device (R426). -/

def State.attached (s : State) : Bool := s.rd F.HIF_STATE_HOST == 2
/-- The device is in the running state (R561). -/
def State.running (s : State) : Bool := s.rd F.HIF_STATE_DEV == 1
/-- A handover is in progress: FW_MOLT_STATUS.STATE 4 (R442). -/
def State.handover (s : State) : Bool := s.rd F.FW_MOLT_STATUS_STATE == 4

/-! MSI-X (R402). -/

def bit64 (n : Nat) : BitVec 64 := BitVec.ofNat 64 (2 ^ n)

/-- A word of the MSI-X table after a function reset: the mask bit of every vector control word is set (R402; PRESUMED from the PCI
Express specification, log entry 23). -/
def msixDef (k : Nat) : BitVec 32 := if k % 4 = 3 then 1#32 else 0#32
def State.msixWord (s : State) (k : Nat) : BitVec 32 := FMap.get (msixDef k) s.host.msixTab k
/-- The vector cannot be raised now: its own mask bit, the function mask, or MSI-X not enabled (R402). -/
def State.vecMasked (s : State) (v : Nat) : Bool := !s.host.msixEn || s.host.msixMask || (s.msixWord (4 * v + 3)).getLsbD 0

/-- An armed vector is raised for a qualifying entry and is then disarmed; none while no host is attached. A masked vector
sets its pending bit (R394, R395, R402). -/
def State.msix (s : State) (v : Nat) : State :=
  if s.attached && s.host.armed &&& bit64 v != 0#64 then
    let s := { s with host.armed := s.host.armed &&& ~~~ bit64 v }
    if s.vecMasked v then { s with host.pend := s.host.pend ||| bit64 v }
    else if s.host.busMaster then { s with host.raised := v :: s.host.raised }
    else s
  else s

/-- Pending vectors that nothing masks any more are raised (R402; log entry 23). -/
def State.sendPend (s : State) : State :=
  if s.attached && s.host.busMaster then
    s.each ((List.range 64).filter (fun v => s.host.pend &&& bit64 v != 0#64 && !s.vecMasked v)) (fun s v =>
      { s with host.pend := s.host.pend &&& ~~~ bit64 v, host.raised := v :: s.host.raised })
  else s

/-- Re-arm vectors given as a mask (R402). -/
def State.rearm (s : State) (m : BitVec 64) : State := { s with host.armed := s.host.armed ||| m }

/-! Trace points (R437, R438). -/

/-- Entries that wait in hardware for their rings. -/
def State.queued (s : State) : Nat := s.fw.evtQ.length + s.fw.logQ.length + s.fw.trcQ.length

/-- A trace point of an enabled group enters the queue, or is dropped and counted when the queue is full; during a handover an entry
beyond 256 is lost (R438, R448). -/
def State.trace (s : State) (point src : Nat) (args : List Nat) : State :=
  if bitOf (s.rd F.FW_TRACE_EN_GROUPS) (point / 16) then
    if s.handover && decide (256 ≤ s.queued) then s.cnt F.HIF_LOSS1_TRC
    else if s.fw.trcQ.length < 128 then
      { s with fw.trcQ := s.fw.trcQ ++ [{ point := point, src := src, drop := s.fw.trcDrop, tick := s.tick, args := args }],
               fw.trcDrop := false }
    else (({ s with fw.trcDrop := true }).cnt F.FW_TRACE_DROP_COUNT).raise 161 0x8010 0
  else s

/-- Sources of log and trace entries (R435); the intake and the warp engines carry 3 (log entry 22). -/
def srcIntake : Nat := 3
def srcSeq : Nat := 4
def srcPwr : Nat := 6
def srcCar : Nat := 7

/-- The host interface changes state: HIF_STATE, trace point 0x0060 and vector 4 (R401, R407, R439). -/
def State.setHost (s : State) (new cause : Nat) : State :=
  let old := s.rd F.HIF_STATE_HOST
  if old = new then s else
    ((s.wr F.HIF_STATE_HOST new).trace 0x60 0 [old, new, cause, s.rd F.HIF_ATTACH_STATUS_ATTACH_ID]).msix 4

/-- The device changes state: HIF_STATE.DEV and vector 4 (R401, R426). -/
def State.setDev (s : State) (new : Nat) : State :=
  if s.rd F.HIF_STATE_DEV = new then s else (s.wr F.HIF_STATE_DEV new).msix 4

/-! Rings (R404 to R406). -/

/-- The counter of overwritten entries of ring `r`. -/
def lossFld (r : Nat) : Fld :=
  match r with
  | 1 => F.HIF_LOSS0_CPL
  | 2 => F.HIF_LOSS0_EVT
  | 3 => F.HIF_LOSS1_LOG
  | _ => F.HIF_LOSS1_TRC

/-- Number of entries of ring `r`. -/
def State.ringN (s : State) (r : Nat) : Nat := 2 ^ s.rd F.HIF_RING_CFG_LOG2N r
/-- Device address of the slot of index `i` in ring `r` (R405). -/
def State.ringSlot (s : State) (r i : Nat) : Nat :=
  s.rd F.HIF_RING_BASE_BASE r * 4096 + i % s.ringN r * (16 * s.rd F.HIF_RING_CFG_ESIZE r)
/-- PROD and CONS differ by this many entries. -/
def State.ringUsed (s : State) (r : Nat) : Nat :=
  (s.rd F.HIF_RING_PROD_PROD r + 2 ^ 32 - s.rd F.HIF_RING_CONS_CONS r) % 2 ^ 32

/-- A slot that is still unconsumed is overwritten: CONS moves on and the loss is counted (R406). -/
def State.ringLose (s : State) (r : Nat) : State :=
  if s.ringN r ≤ s.ringUsed r then
    let i := s.rd F.HIF_RING_PROD_PROD r
    let s := (s.wr F.HIF_RING_CONS_CONS (i + 2 ^ 32 - s.ringN r + 1) r).cnt (lossFld r)
    if s.attached && (r == 1 || r == 2) then s.raise 160 0x7010 0 else s
  else s

/-- Write the entry of the next index into ring `r`, whole, and then advance PROD (R405, R406). A ring that the
configuration image has not set takes no entry. -/
def State.ringPut (s : State) (r master : Nat) (mk : Nat → List Byte) : State :=
  if s.rd F.HIF_RING_CFG_ESIZE r = 0 then s else
    let s := s.ringLose r
    let i := s.rd F.HIF_RING_PROD_PROD r
    (s.store master (s.ringSlot r i) (mk i)).wr F.HIF_RING_PROD_PROD (i + 1) r

/-- The bytes of a completion entry of index `i` (R415). -/
def Compl.bytes (c : Compl) (tick i : Nat) : List Byte :=
  natLe 1 c.kind ++ natLe 1 c.flags ++ natLe 2 c.tag ++ natLe 4 i ++ natLe 2 c.status ++ natLe 1 c.pipe ++
  natLe 1 c.stage ++ natLe 4 c.frame ++ natLe 8 tick ++ natLe 8 c.maxAge ++ natLe 4 c.camStale ++ natLe 4 c.camMiss ++
  natLe 2 c.netStale ++ natLe 2 c.netMiss ++ natLe 4 c.pub ++ natLe 8 c.detail ++ natLe 8 0

/-- Every output is marked QM: split mode (R457) or debug unlocked (R460). -/
def State.qmForced (s : State) : Bool := s.cara.split || s.cara.debug

/-- Write a completion entry and raise its vector (R401, R415). -/
def State.putCompl (s : State) (c : Compl) : State :=
  let c := if s.cara.split || (s.qmForced && c.kind != 3) then { c with flags := c.flags ||| 2 } else c
  let s := s.ringPut 1 (if c.kind = 1 then mSeq else mDsp 0) (c.bytes s.tick)
  s.msix (if c.kind = 1 ∧ c.pipe < 56 then 8 + c.pipe else 0)

/-- A completion entry; those of commands and jobs wait while a handover runs (R448). -/
def State.complete (s : State) (c : Compl) : State :=
  if s.handover && c.kind != 1 then { s with host.cplQ := s.host.cplQ ++ [c] } else s.putCompl c

/-- The completions that a handover held back are written in order (R448). -/
def State.flushCompl (s : State) : State :=
  ({ s with host.cplQ := [] }).each s.host.cplQ State.putCompl

/-! Event, log and trace queues (R416, R436, R438, R448). -/

/-- Queue an event entry; during a handover an entry beyond 256 is lost (R448). -/
def State.queueEvt (s : State) (e : EvtRec) : State :=
  if s.handover && decide (256 ≤ s.queued) then s.cnt F.HIF_LOSS0_EVT
  else { s with fw.evtQ := s.fw.evtQ ++ [e] }

/-- Queue a log entry; during a handover an entry beyond 256 is lost (R448). -/
def State.queueLog (s : State) (e : LogRec) : State :=
  if s.handover && decide (256 ≤ s.queued) then s.cnt F.HIF_LOSS1_LOG
  else { s with fw.logQ := s.fw.logQ ++ [e] }

/-- Eight 16-bit unit identifiers, padded with 0xFFFF. -/
def unitBytes (us : List Nat) : List Byte :=
  ((us ++ List.replicate (8 - us.length) 0xffff).map (natLe 2)).flatten

/-- Unit identifiers in groups of eight; `n` bounds the groups. -/
def unitGroups : Nat → List Nat → List (List Nat)
  | 0, _ => []
  | n + 1, us => if us = [] then [] else us.take 8 :: unitGroups n (us.drop 8)

/-- An event entry or continuation of index `i` (R416). -/
def evtBytes (code flags count tick : Nat) (us : List Nat) (i : Nat) : List Byte :=
  natLe 2 code ++ natLe 1 flags ++ natLe 1 count ++ natLe 4 i ++ natLe 8 tick ++ unitBytes us

/-- A log entry of index `i` (R435). -/
def LogRec.bytes (r : LogRec) (i : Nat) : List Byte :=
  natLe 2 r.code ++ natLe 1 r.level ++ natLe 1 r.src ++ natLe 4 i ++ natLe 8 r.tick ++ natLe 2 r.msg ++ natLe 2 0 ++
    (((r.args ++ [0, 0, 0, 0]).take 4).map (natLe 4)).flatten ++ bytesAt r.text 0 28

/-- A trace entry of index `i` (R437). -/
def TraceRec.bytes (r : TraceRec) (i : Nat) : List Byte :=
  natLe 2 r.point ++ natLe 1 r.src ++ natLe 1 (b2n r.drop) ++ natLe 4 i ++ natLe 8 r.tick ++
    (((r.args ++ [0, 0, 0, 0]).take 4).map (natLe 4)).flatten

end Sys2Proof.Machine
end

