-- ==== Sys2Proof/Machine/Sched.lean ====
section
/-! DEFINITION. What the sequencer looks up: streams and their tensors, models, bindings, stages, pipelines, frames and jobs,
references, and the synchronisation objects of a stage (chapters 01, 05, 06 and 08). -/
namespace Sys2Proof.Machine

/-! Streams and tensors (R303 to R305, R345 to R347). -/

def State.strm (s : State) (n : Nat) : Stream := FMap.get {} s.intake.streams n
def State.setStrm (s : State) (n : Nat) (x : Stream) : State :=
  { s with intake.streams := FMap.set {} s.intake.streams n x }
def State.modStrm (s : State) (n : Nat) (f : Stream → Stream) : State := s.setStrm n (f (s.strm n))
/-- Device address of ring entry `e` of a stream (R304). -/
def StreamDesc.entry (d : StreamDesc) (e : Nat) : Nat := d.buf + e * d.bufStride
/-- The applied copy of the warp configuration that stream `n` works from: the new entry where the stream's frame boundary has
applied it, else the copy in force (R347). -/
def State.wcfg (s : State) (n : Nat) : List Byte :=
  if s.intake.warpDone.contains n && s.intake.warpNo == some (s.strm n).desc.warp then s.intake.warpNew
  else (List.range 1024).map (fun i => FMap.get 0#8 s.intake.warpApplied ((s.strm n).desc.warp * 1024 + i))
/-- Offset of the tensor in a ring entry: TENSOR_OFF of the stream's warp configuration; 0 where it names none (R305; log
entry 2). -/
def State.tensorOff (s : State) (n : Nat) : Nat :=
  if (s.strm n).desc.warp = 255 then 0 else leNat (((s.wcfg n).drop 20).take 4)
/-- Device address of the tensor of an entry of stream `n`. -/
def State.tensorAddr (s : State) (n e : Nat) : Nat := (s.strm n).desc.entry e + s.tensorOff n

/-- A shared unit of the self-test: its row in R517 and its number in the row. -/
def State.unit (s : State) (row i : Nat) : Unit := FMap.get {} s.chk.units (row * 4096 + i)

/-! Models, bindings, stages. -/

def State.modelIn (s : State) (slot : Nat) : Option Model := s.sched.models.find? (fun m => m.slot == slot)
def Model.stage? (m : Model) (n : Nat) : Option Stage := m.stages.find? (fun x => x.num == n)
def State.binding? (s : State) (n : Nat) : Option Binding := s.sched.binds.find? (fun b => b.stage == n)
/-- The stage descriptor that stage number `n` is bound to (R268). -/
def State.stage? (s : State) (n : Nat) : Option Stage :=
  (s.binding? n).bind (fun b => (s.modelIn b.slot).bind (fun m => m.stage? n))

/-- Ascending insertion sort. -/
def sortNat (l : List Nat) : List Nat := l.foldr (insertBy id) []
/-- The logical tiles that a brood entry names (R260). -/
def BroodUse.tiles (u : BroodUse) : List Nat :=
  ((List.range 16).filter (fun k => u.tmask.getLsbD k)).map (tileOf u.brood)
/-- The declared tile set of a stage, ascending (R261). -/
def Stage.tiles (x : Stage) : List Nat := sortNat (x.broods.map BroodUse.tiles).flatten
/-- The units of a stage's parts: tiles, or the broods of a resampler stage in listed order (R242, R261). -/
def Stage.units (x : Stage) : List Nat := if x.kind = 1 then x.broods.map (·.brood) else x.tiles
def Stage.usesBrood (x : Stage) (b : Nat) : Bool := x.broods.any (fun u => u.brood == b)
/-- The stage runs in fused mode on brood `b`. -/
def Stage.fusedOn (x : Stage) (b : Nat) : Bool := x.broods.any (fun u => u.brood == b && u.fused)
/-- Stages of every resident model that use a brood, with the model's slot. -/
def State.boundStages (s : State) : List Stage := s.sched.binds.filterMap (fun b => s.stage? b.stage)

/-! Pipelines and frames. -/

def State.pipe? (s : State) (p : Nat) : Option Pipeline := s.sched.pipes.find? (fun x => x.desc.num == p)
def State.modPipe (s : State) (p : Nat) (f : Pipeline → Pipeline) : State :=
  { s with sched.pipes := updFirst (fun x => x.desc.num == p) f s.sched.pipes }
def State.frame? (s : State) (p n : Nat) : Option Frame :=
  (s.pipe? p).bind (fun x => x.frames.find? (fun f => f.num == n))
def State.modFrame (s : State) (p n : Nat) (g : Frame → Frame) : State :=
  s.modPipe p (fun x => { x with frames := updFirst (fun f => f.num == n) g x.frames })
/-- The pipeline that lists a stage. -/
def State.pipeOfStage (s : State) (n : Nat) : Option Pipeline := s.sched.pipes.find? (fun x => x.desc.stages.contains n)
def Frame.stage? (f : Frame) (n : Nat) : Option StageRun := f.stages.find? (fun x => x.stage == n)
def Frame.modStage (f : Frame) (n : Nat) (g : StageRun → StageRun) : Frame :=
  { f with stages := updFirst (fun x => x.stage == n) g f.stages }
/-- Some pipeline is running. -/
def State.anyRunning (s : State) : Bool := s.sched.pipes.any (·.running)
/-- A running pipeline lists a stage that uses the brood (R71). -/
def State.broodNamed (s : State) (b : Nat) : Bool :=
  s.sched.pipes.any (fun p => p.running && p.desc.stages.any (fun n =>
    match s.stage? n with
    | some x => x.usesBrood b
    | none => false))

/-! Jobs. -/

/-- Every job: those in flight, and those started through TIL_CTRL.START, which take no place among them (R37, R85). -/
def State.allJobs (s : State) : List Job := s.sched.jobs ++ s.sched.singles
def State.job? (s : State) (id : Nat) : Option Job := s.allJobs.find? (fun j => j.id == id)
def State.modJob (s : State) (id : Nat) (f : Job → Job) : State :=
  { s with sched.jobs := updFirst (fun j => j.id == id) f s.sched.jobs,
           sched.singles := updFirst (fun j => j.id == id) f s.sched.singles }
/-- The job whose part runs, or last ran, on a tile. -/
def State.jobOf (s : State) (t : Nat) : Option Job :=
  let x := (s.tile t).job
  if x.active then s.job? x.job else none
/-- The jobs of one stage. -/
def State.jobOfStage (s : State) (n : Nat) : Option Job := s.sched.jobs.find? (fun j => j.stage == n)
def Job.modPart (j : Job) (u : Nat) (f : PartRun → PartRun) : Job :=
  { j with parts := updFirst (fun p => p.unit == u) f j.parts }
def Job.part? (j : Job) (u : Nat) : Option PartRun := j.parts.find? (fun p => p.unit == u)
/-- The stage descriptor a job runs: that of the model it was started from. -/
def State.jobStage (s : State) (j : Job) : Option Stage := (s.modelIn j.slot).bind (fun m => m.stage? j.stage)
/-- The job runs on a tile program stage. -/
def State.jobTiles (s : State) (j : Job) : List Nat :=
  match s.jobStage j with
  | some x => if x.kind = 1 then [] else j.parts.map (·.unit)
  | none => []
/-- The logical tile runs a job. -/
def State.busyTile (s : State) (t : Nat) : Bool := (s.tile t).run == 1

/-! References (R259). -/

/-- What a reference resolves against. -/
structure RefCtx where
  slot : Nat := 0
  pipe : Nat := 0
  frame : Option Frame := none
  out : Nat := 0
  deriving DecidableEq, Repr

/-- Device address of the frame record of pipeline `p`, frame `f` (R318). -/
def frameRec (p f : Nat) : Nat := 0x120000FF0000 + p * 512 + f % 8 * 64

/-- The device address that a reference names (R259); a KIND above 7 is reserved and load refuses it. -/
def State.resolve (s : State) (c : RefCtx) (r : BitVec 64) : Nat :=
  let v := r.toNat
  let sel := bitsOf v 55 48
  let off := bitsOf v 47 0
  match v / 2 ^ 60 with
  | 1 => (match s.modelIn c.slot with | some m => m.regionAt + off | none => 0)
  | 2 => c.out + off
  | 3 => (match c.frame.bind (fun f => f.stage? sel) with
          | some x => if x.status = 2 then x.addr + off else 0
          | none => 0)
  | 4 => (match c.frame.bind (fun f => f.inputs.find? (fun g => g.stream == sel)) with
          | some g => s.tensorAddr sel g.entry + off
          | none => 0)
  | 5 => (match c.frame, (s.pipe? c.pipe).bind (fun p => p.lastPub) with
          | some _, some f => (match f.stage? sel with | some x => x.addr + off | none => 0)
          | _, _ => 0)
  | 6 => off
  | 7 => frameRec c.pipe (match c.frame with | some f => f.num | none => 0) + off
  | _ => 0

/-! Synchronisation objects of a stage (R202). -/

/-- The global object as SYN_OBJ shows it (R196, R197). -/
def State.gobj (s : State) (o : Nat) : BitVec 32 := FMap.get 0#32 s.swarm.gobj o
def State.setGobj (s : State) (o : Nat) (v : BitVec 32) : State :=
  { s with swarm.gobj := FMap.set 0#32 s.swarm.gobj o v }
def State.lobj (s : State) (t o : Nat) : BitVec 32 := FMap.get 0#32 (s.tile t).obj o
def State.setLobj (s : State) (t o : Nat) (v : BitVec 32) : State :=
  s.modTile t (fun x => { x with obj := FMap.set 0#32 x.obj o v })

/-- Add to a local object: the counter saturates, and a saturating add counts a violation (R196). -/
def State.localAdd (s : State) (t o v : Nat) : State :=
  let n := (s.lobj t o).toNat + v
  let s := if n < 2 ^ 32 then s else s.cnt F.SYN_VIOL_SAT_LOCAL
  s.setLobj t o (BitVec.ofNat 32 (satAt (2 ^ 32 - 1) n))
/-- Set a planned object to its initial value; a barrier takes its participant count and starts at phase 0 with no arrivals
(R197, R202). -/
def State.initObj (s : State) (e : SyncPlanEntry) : State :=
  if e.isLocal then s.setLobj e.tile e.obj e.init
  else if e.barrier then
    { s.setGobj e.obj 0#32 with swarm.gbar := FMap.set 0 s.swarm.gbar e.obj (e.init.toNat % 4096) }
  else { s.setGobj e.obj e.init with swarm.gbar := FMap.set 0 s.swarm.gbar e.obj 0 }
/-- The present value of a planned object, as (tile or 65535, object, value). -/
def State.readObj (s : State) (e : SyncPlanEntry) : Nat × Nat × BitVec 32 :=
  if e.isLocal then (e.tile, e.obj, s.lobj e.tile e.obj) else (65535, e.obj, s.gobj e.obj)
/-- Put a saved value back (R501). -/
def State.putObj (s : State) (v : Nat × Nat × BitVec 32) : State :=
  if v.1 = 65535 then s.setGobj v.2.1 v.2.2 else s.setLobj v.1 v.2.1 v.2.2
/-- FRAME-scope objects of a stage take their initial values at every job start (R202, R203). -/
def State.frameObjs (s : State) (x : Stage) : State := s.each (x.plan.filter (fun e => !e.scopeP)) State.initObj
/-- PIPELINE-scope objects of a stage take their initial values (R202, R269). -/
def State.pipeObjs (s : State) (x : Stage) : State := s.each (x.plan.filter (fun e => e.scopeP)) State.initObj

end Sys2Proof.Machine
end

