-- ==== Sys2Proof/Machine/Jobs.lean ====
section
/-! DEFINITION. The end of jobs and frames: stopping tiles, ending a job, failing a stage, withholding a frame; the publish
tables; and the check area of system SRAM (R36, R178, R417, R507). -/
namespace Sys2Proof.Machine

/-! Words the device keeps in system SRAM. -/

/-- Little-endian number stored in system SRAM. -/
def State.sysN (s : State) (a n : Nat) : Nat := leNat (s.peekN a n)
/-- Write a little-endian number into system SRAM. -/
def State.sysPut (s : State) (a n v : Nat) : State := s.storeN mCtl a n v
/-- Add 1 to a saturating number in system SRAM; one that reads uncorrectable is left (R388). -/
def State.sysInc (s : State) (a n : Nat) : State :=
  match s.readN mCtl a n with
  | (some v, s) => s.sysPut a n (satAt (2 ^ (8 * n) - 1) (v + 1))
  | (none, s) => s

/-- The check area (R507). -/
def chkHdr : Nat := 0x120000F00000
def capBase : Nat := 0x120000F10000
/-- The publish table of a pipeline (R417). -/
def pubTable (p : Nat) : Nat := 0x120000FC0000 + p * 0x400

/-! Tiles. -/

/-- Capture a halt in TIL_HALT (R84, R175). -/
def State.haltCapture (s : State) (t pc cause : Nat) : State :=
  (((s.wr F.TIL_HALT_VALID 1 t).wr F.TIL_HALT_HALT_PC pc t).wr F.TIL_HALT_CAUSE cause t).wr F.TIL_CTRL_HALT_REQ 0 t

/-- Stop a running tile as TIL_CTRL.HALT_REQ would: issue stops, issued operations complete, ERR stays 0 (R178). -/
def State.stopTile (s : State) (t : Nat) : State :=
  if (s.tile t).run = 1 then
    (s.haltCapture t (s.tile t).pc 0x30).modTile t (fun x => { x with run := 2, blocked := none })
  else s

/-- Stop every part of a job (R478, R500). -/
def State.stopParts (s : State) (id : Nat) : State :=
  match s.job? id with
  | none => s
  | some j =>
    (s.each (s.jobTiles j) State.stopTile).modJob id (fun j => { j with parts := j.parts.map (fun p =>
      if p.status = 0 ∨ p.status = 3 then { p with status := 5 } else p) })

/-! Stage windows (R476). -/

def State.win (s : State) (st : Nat) : Win := FMap.get {} s.cara.wins st
def State.modWin (s : State) (st : Nat) (f : Win → Win) : State :=
  { s with cara.wins := FMap.set {} s.cara.wins st (f (s.win st)) }
/-- The watchdog stops and keeps the duration. -/
def State.winStop (s : State) (st : Nat) : State :=
  match (s.win st).startAt with
  | some t0 => s.modWin st (fun w => { w with startAt := none, last := satAt (2 ^ 32 - 1) (s.tick - t0) })
  | none => s
/-- Device ticks since the stage's window started. -/
def State.winDur (s : State) (st : Nat) : Nat :=
  match (s.win st).startAt with
  | some t0 => s.tick - t0
  | none => 0
/-- Line of the window watchdog of a stage (R461). -/
def winLine (st : Nat) : Nat := 169 + st / 32

/-! Spare tests and who holds a spare (R70, R81, R502). -/

/-- The test of the spare begins with its logic BIST (R70). -/
def State.beginTest (s : State) (b p : Nat) : State :=
  (s.modBrood b (fun x => { x with test := 1, testAt := s.tick, testFrom := s.tick })).wr F.BRD_STATUS_TEST_SLOT p b

/-- Start the spare test of a brood that has a spare, which nothing else needs, and whose rotation has not been stopped. -/
def State.startTest (s : State) (b : Nat) : State :=
  let x := s.brood b
  match s.spare b with
  | some p =>
    if x.spareUser.isNone && x.forcedDue.isEmpty && x.move.isNone && !x.clearing && !x.rotStopped && x.test == 0 then s.beginTest b p
    else s
  | none => s.wr F.BRD_STATUS_TEST_SLOT 31 b

/-- Of the jobs with a failed part in a brood, the one whose first failure latched first (R502). -/
def State.nextForSpare (s : State) (b : Nat) : Option Nat :=
  let l := s.allJobs.filter (fun j => !j.rerun && (s.jobTiles j).any (fun t => tileBrood t == b &&
    (match j.part? t with
     | some p => p.status == 4
     | none => false)))
  ((l.foldr (insertBy (·.failAt)) []).head?).map (·.id)

/-- The spare of a brood is released: the next job that needs it takes it, else its test starts (R70, R77, R502). -/
def State.freeSpare (s : State) (b : Nat) : State :=
  let s := s.modBrood b (fun x => { x with spareUser := none })
  match if (s.brood b).forcedDue = [] then s.nextForSpare b else none with
  | some id => s.modBrood b (fun x => { x with spareUser := some id })
  | none => s.startTest b

/-! Jobs. -/

/-- A job is over: trace point, completion entry of a host job, its place freed, and its spare released (R38, R77, R415). An
arbitration that no rerun has decided is due to end unresolved (R505). A job of TIL_CTRL.START has no window, no place and no entry
(R85). -/
def State.finishJob (s : State) (j : Job) (status : Nat) : State :=
  let s := { s with sched.jobs := s.sched.jobs.filter (fun x => x.id != j.id),
                    sched.singles := s.sched.singles.filter (fun x => x.id != j.id),
                    chk.arbs := (s.chk.arbs.filter (fun (a : Arb) => a.cap.job != j.id || a.cap.verdict == 0)).map (fun (a : Arb) =>
                      if a.cap.job = j.id then { a with cap.verdict := 0x2013 } else a) }
  let s := if j.single then s else (s.winStop j.stage).trace 0x3 srcSeq [j.tag, j.stage, status, s.tick - j.startAt]
  let s := s.each (List.range s.nBroods) (fun s b =>
    if (s.brood b).spareUser = some j.id then s.freeSpare b else s)
  if j.host then
    let qm := match s.jobStage j with
      | some x => x.qm
      | none => false
    s.complete { kind := 2, flags := if qm then 2 else 0, tag := j.tag, status := status, pipe := j.pipe,
                 stage := j.stage, frame := j.frame }
  else s

/-- Mark a stage of a frame as failed, with the outcome and the failing parts (R30, R36). -/
def State.markFailed (s : State) (p f st code : Nat) (units : List Nat) : State :=
  s.modFrame p f (fun x =>
    let x := x.modStage st (fun y => { y with status := if code = 0x1F02 then 4 else 3 })
    { x with outcome := if x.outcome = 0 then code else x.outcome, bad := x.bad ++ units.filter (fun u => !x.bad.contains u) })

/-- Fail a running job at once: its parts stop, its stage is failed, its output is discarded or, with 0x1F02, left unverified. -/
def State.killJob (s : State) (id code : Nat) : State :=
  match s.job? id with
  | none => s
  | some j =>
    let bad := (j.parts.filter (fun p => p.status = 2 || p.status = 4 || p.retried)).map (·.unit)
    let s := s.stopParts id
    let s := if j.single then s else
      let s := s.markFailed j.pipe j.frame j.stage code bad
      if code = 0x1F02 then s.modFrame j.pipe j.frame (fun x => { x with detail := j.outAddr }) else s
    s.finishJob j code

/-- A frame that a fault latched at a tick withholds where it names one of its stages: the frame was open by then, and the 16
Carapace cycles after its last check had not ended (R468). -/
def Frame.hitBy (f : Frame) (tick : Nat) : Bool :=
  decide (f.tick ≤ tick) && (match f.doneAt with
    | some d => decide (tick < d + 4)
    | none => true)

/-- Fail a stage by a fault latched at `tick`: its running jobs end, and every open frame of its pipeline that the fault reaches in
time is withheld with 0x1F01 (R463, R467, R468). -/
def State.failStageAt (s : State) (st tick : Nat) : State :=
  let s := s.each (s.sched.jobs.filter (fun j => j.stage == st)) (fun s j => s.killJob j.id 0x1F01)
  match s.pipeOfStage st with
  | some p =>
    s.each (p.frames.filter (fun f => f.hitBy tick)) (fun s f =>
      s.modFrame p.desc.num f.num (fun x => { x with outcome := if x.outcome = 0 then 0x1F01 else x.outcome }))
  | none => s

/-- Fail a stage now. -/
def State.failStage (s : State) (st : Nat) : State := s.failStageAt st s.tick

/-- Every stage that uses a brood fails for the current frame (R82, R467). -/
def State.failBrood (s : State) (b : Nat) : State :=
  s.each ((s.boundStages.filter (fun x => x.usesBrood b)).map (·.num)) State.failStage

/-! Frames. -/

/-- A mask with one bit per input that satisfies `p`, in the range of `n` streams from `lo`. -/
def inputMask (l : List GatherEntry) (lo n : Nat) (p : GatherEntry → Bool) : Nat :=
  l.foldl (fun m g => if p g && decide (lo ≤ g.stream) && decide (g.stream < lo + n) then m ||| 2 ^ (g.stream - lo) else m) 0
def Frame.camStale (f : Frame) : Nat := inputMask f.inputs 0 32 (·.stale)
def Frame.camMiss (f : Frame) : Nat := inputMask f.inputs 0 32 (·.missing)
def Frame.netStale (f : Frame) : Nat := inputMask f.inputs 32 16 (·.stale)
def Frame.netMiss (f : Frame) : Nat := inputMask f.inputs 32 16 (·.missing)
/-- At least one input is stale (R35, R144). -/
def Frame.isStale (f : Frame) : Bool := f.inputs.any (·.stale)
/-- The frame's outputs carry the QM mark (R32). -/
def Frame.isQm (f : Frame) : Bool := f.stages.any (·.qm)

/-- The completion entry of a frame (R415). -/
def State.frameEntry (s : State) (p : Nat) (f : Frame) (status pub : Nat) : State :=
  s.complete { kind := 1, flags := b2n f.isStale + 2 * b2n f.isQm, tag := f.tag, status := status, pipe := p, stage := 255,
               frame := f.num, maxAge := f.maxAge, camStale := f.camStale, camMiss := f.camMiss, netStale := f.netStale,
               netMiss := f.netMiss, pub := pub, detail := if status = 0x1F02 then f.detail else 0 }

/-- The staging slot index that a frame holds, if it has taken one. -/
def Frame.slotIx (f : Frame) : Option Nat := (f.stages.find? (fun x => x.slot != 255)).map (·.slot)

/-- A further frame of the pipeline has been published or withheld: unverified slots wait one frame less, and those that
have waited for two are free again (R36). -/
def Pipeline.passFrame (x : Pipeline) : Pipeline :=
  let q := x.quarantine.map (fun e => (e.1, e.2.1, e.2.2 - 1))
  { x with quarantine := q.filter (fun e => e.2.2 != 0),
           free := x.free ++ (q.filter (fun e => e.2.2 == 0)).map (fun e => e.2.1) }

/-- Withhold a frame: the pointers stay, its event is raised, and its completion entry carries the outcome (R36). -/
def State.withhold (s : State) (p : Nat) (f : Frame) (code : Nat) : State :=
  let s := s.each (s.sched.jobs.filter (fun j => j.pipe == p && j.frame == f.num)) (fun s j => s.killJob j.id code)
  let f := (s.frame? p f.num).getD f
  let s := s.modPipe p (fun x =>
    let x := x.passFrame
    let x := { x with frames := x.frames.filter (fun y => y.num != f.num), boundaryAt := s.tick }
    match f.slotIx with
    | some i => if code = 0x1F02 then { x with quarantine := x.quarantine ++ [(255, i, 2)] }
                else { x with free := x.free ++ [i] }
    | none => x)
  let s := if code = 0x1F03 then s.sysInc (pubTable p + 4) 4 else s
  let s := s.raiseEv { line := 158, code := code, uid := some p, units := if code = 0x1F01 ∧ f.bad ≠ [] then f.bad else [p],
                       stages := f.stages.map (·.stage), frame := some f.num }
  let s := s.trace 0x5 srcSeq [p, f.num, code, s.sysN (pubTable p) 4]
  s.frameEntry p f code 0

end Sys2Proof.Machine
end

