-- ==== Sys2Proof/Machine/Swarm.lean ====
section
/-! DEFINITION. The swarm's shared operations: the mapping procedure, spare tests, fencing and withdrawal, event histories and
the outcome of an arbitration (R58 to R82, R505 to R511). -/
namespace Sys2Proof.Machine

/-! Fields of a brood. -/

/-- Host logical index `k` on a slot. -/
def State.hostOn (s : State) (b k slot : Nat) : State := (s.wr (fMapValid k) 1 b).wr (fMapSlot k) slot b
def State.setSlotState (s : State) (b p v : Nat) : State := s.wr (fSlotState p) v b
/-- Set the spare slot; 31 when none (R86). -/
def State.setSpare (s : State) (b : Nat) (sp : Option Nat) : State := s.wr F.BRD_STATUS_SPARE_SLOT (sp.getD 31) b
def State.goodSlots (s : State) (b : Nat) : List Nat := (List.range 17).filter (fun p => s.slotState b p == 0)
def State.qmSlots (s : State) (b : Nat) : List Nat := (List.range 17).filter (fun p => s.slotState b p == 1)
def State.excluded (s : State) (b : Nat) : Bool := s.rdB F.BRD_STATUS_EXCLUDED b

/-! The mapping procedure (R62, R63). -/

/-- Stages of the loaded pipeline set. -/
def State.loadedStages (s : State) : List Stage :=
  (s.sched.pipes.map (fun p => p.desc.stages.filterMap s.stage?)).flatten
/-- Logical indices of a brood, descending, whose every stage of `set` is declared QM (R62). -/
def qmIdx (set : List Stage) (b : Nat) : List Nat :=
  (List.range 16).reverse.filter (fun k => set.all (fun x => x.qm || !x.tiles.contains (tileOf b k)))

/-- What the mapping procedure gives for a brood: the hosting pairs and the spare, or nothing when it cannot be mapped. -/
def State.mapPlan (s : State) (set : List Stage) (b : Nat) : Option (List (Nat × Nat) × Option Nat) :=
  let good := s.goodSlots b
  if 16 ≤ good.length then
    some ((List.range 16).zip good, (good.drop 16).head?)
  else
    let short := 16 - good.length
    let qs := (s.qmSlots b).take short
    let ks := (qmIdx set b).take short
    if qs.length = short ∧ ks.length = short then
      some (ks.zip qs ++ ((List.range 16).filter (fun k => !ks.contains k)).zip good, none)
    else none

/-- Run the mapping procedure for a brood and apply its result; an unmappable brood is excluded (R62). -/
def State.mapBrood (s : State) (set : List Stage) (b : Nat) : State :=
  let s := s.modBrood b (fun x => { x with test := 0, clearing := false, spareUser := none, move := none,
                                           movePhase := 0, forcedDue := [], rotStopped := false, failedInto := none,
                                           retest := false, qmHosted := [], remap := [] })
  match s.mapPlan set b with
  | some (pairs, sp) =>
    let s := s.each pairs (fun s e => s.hostOn b e.1 e.2)
    let s := s.modBrood b (fun x => { x with qmHosted := (pairs.filter (fun e => s.slotState b e.2 == 1)).map (·.1) })
    ((s.wr F.BRD_STATUS_EXCLUDED 0 b).setSpare b sp).startTest b
  | none =>
    let s := s.each (List.range 16) (fun s k => s.wr (fMapValid k) 0 b)
    ((s.wr F.BRD_STATUS_EXCLUDED 1 b).setSpare b none).wr F.BRD_STATUS_TEST_SLOT 31 b

/-- Slot states of a brood from its persistent words and fuses (R58, R60, R513). -/
def State.readSlots (s : State) (b : Nat) : State :=
  let fw := s.prsForce b
  let qw := s.prsForce (0x80 + b)
  s.each (List.range 17) (fun s p => s.setSlotState b p
    (if s.fuses.fusedOff.contains (physOf b p) then 3 else if fw.getLsbD p then 2 else if qw.getLsbD p then 1 else 0))

/-- EXCLUDED stands in the fence word: the brood is out of service (R60). -/
def State.wordExcluded (s : State) (b : Nat) : Bool := (s.prsForce b).getLsbD 31

/-! Spare tests (R70, R77, R78). -/

/-- Record how a spare test ended (BRD_LAST_TEST, R86). -/
def State.lastTest (s : State) (b slot aborted lbist mbist skew : Nat) : State :=
  (((((s.wr F.BRD_LAST_TEST_SLOT slot b).wr F.BRD_LAST_TEST_ABORTED aborted b).wr F.BRD_LAST_TEST_LBIST_FAIL lbist b).wr
    F.BRD_LAST_TEST_MBIST_FAIL mbist b).wr F.BRD_LAST_TEST_SKEW_FAIL skew b).wr F.BRD_LAST_TEST_DONE 1 b

/-- The test of the spare is aborted; its memories are cleared (R77). -/
def State.abortTest (s : State) (b : Nat) : State :=
  let sp := s.rd F.BRD_STATUS_TEST_SLOT b
  let s := (s.cnt F.BRD_ROT_EVENTS_ABORTS b).raiseBrood b 0x1013
  let s := s.lastTest b sp 1 0 0 0
  (s.wr F.BRD_STATUS_TEST_SLOT 31 b).modBrood b (fun x => { x with test := 0, clearing := true, testAt := s.tick })

/-- The spare is wanted: a test in progress is aborted, a tested spare is released at once (R77, R80). -/
def State.releaseSpare (s : State) (b : Nat) : State :=
  let x := s.brood b
  if x.test = 1 ∨ x.test = 2 then s.abortTest b
  else (s.modBrood b (fun x => { x with test := 0 })).wr F.BRD_STATUS_TEST_SLOT 31 b

/-- A brood has a spare that a retry may take; one that a forced move holds counts as none (R80, R503). -/
def State.spareFree (s : State) (b : Nat) : Bool :=
  (s.spare b).isSome && (s.brood b).forcedDue.isEmpty && !((s.brood b).move.isSome && (s.brood b).moveForced)

/-! Fencing and withdrawal (R79 to R82). -/

/-- The replacement flag is set once, with the code of the event that set it (R82, R575). -/
def State.setReplace (s : State) (code b : Nat) : State :=
  if (s.prsNext 0x118).getLsbD 0 then s
  else (s.prsNow 0x118 (BitVec.ofNat 32 (code * 65536 + 1))).raiseBrood b 0x1024

/-- A hosting slot of a brood without a spare is lost: its stages fail, the brood is mapped again or excluded (R82). -/
def State.loseHost (s : State) (b : Nat) : State :=
  let s := s.failBrood b
  let s := s.mapBrood s.loadedStages b
  if s.excluded b then
    let s := s.prsNow b (s.prsForce b ||| 0x80000000#32)
    (s.raiseBrood b 0x1023).setReplace 0x1023 b
  else s.raiseBrood b 0x1025

/-- The spare itself is fenced or withdrawn: the brood has no margin and rotation stops (R76, R81). -/
def State.dropSpare (s : State) (b : Nat) : State :=
  let s := (s.setSpare b none).wr F.BRD_STATUS_TEST_SLOT 31 b
  (s.modBrood b (fun x => { x with test := 0, clearing := false })).raiseBrood b 0x1022

/-- A forced move becomes due: the spare belongs to it, so that the parts of a job in this brood which wait for their rerun find no spare
and fail (R80, R503). -/
def State.dropClaims (s : State) (b : Nat) : State :=
  let waits : PartRun → Bool := fun p => p.status == 4 && tileBrood p.unit == b
  let l := s.allJobs.filter (fun j => !j.rerun && (s.jobTiles j).any (fun t => match j.part? t with
    | some p => waits p
    | none => false))
  let s := s.each l (fun s j =>
    let s := s.modJob j.id (fun j => { j with parts := j.parts.map (fun p => if waits p then { p with status := 2 } else p) })
    if j.parts.any (fun p => p.status == 0 || p.status == 3) then s else s.killJob j.id 0x1F01)
  match (s.brood b).spareUser.bind s.job? with
  | some j => if j.rerun then s else s.modBrood b (fun x => { x with spareUser := none })
  | none => s

/-- Fence a slot, or withdraw it to QM-only: the persistent word first, then the mapping; `code` is the event, 0 where the cause
has raised its own (R60, R70, R79 to R82). DESIGN CHOICE (log entry 37): a second hosting slot lost while a forced move holds the spare
is handled at once as a loss in a brood with no margin; the spec gives no queue of forced moves. -/
def State.takeOutAs (s : State) (b slot : Nat) (qm : Bool) (code : Nat) : State :=
  let st := s.slotState b slot
  if st = 3 ∨ st = 2 ∨ (qm ∧ st = 1) then s
  else
    let idx := if qm then 0x80 + b else b
    let s := s.prsNow idx (s.prsForce idx ||| BitVec.ofNat 32 (2 ^ slot))
    let s := (s.lifeUp 0x129).setSlotState b slot (if qm then 1 else 2)
    let unit := match s.kOnSlot b slot with
      | some k => tileOf b k
      | none => 0xf000 + b
    let s := if code = 0 then s else s.raise b code unit
    if s.spare b = some slot then
      let lost := (s.brood b).forcedDue
      let s := s.dropSpare b
      if lost = [] then s else (s.modBrood b (fun x => { x with forcedDue := [] })).loseHost b
    else match s.kOnSlot b slot with
      | some k =>
        if (s.spare b).isSome ∧ (s.brood b).forcedDue = [] then
          ((s.releaseSpare b).modBrood b (fun x => { x with forcedDue := [k] })).dropClaims b
        else s.loseHost b
      | none => s

/-- Fence with 0x1020, or withdraw with 0x1021. -/
def State.takeOut (s : State) (b slot : Nat) (qm : Bool) : State := s.takeOutAs b slot qm (if qm then 0x1021 else 0x1020)

/-! Event histories and thresholds (R509 to R511). -/

/-- Milliseconds since the last full restart, counted from the running state (log entry 13). -/
def State.msRun (s : State) : Nat := (s.tick - s.dev.runAt) / 100000
/-- Entry `i` of a history: milliseconds and job count; nothing where unused. -/
def State.hist (s : State) (p : Nat) (chk : Bool) (i : Nat) : Option (Nat × Nat) :=
  let a := histBase + p * 64 + (if chk then 32 else 0) + 8 * i
  let v := s.sysN a 4
  if v = 0xffffffff ∧ s.sysN (a + 4) 4 = 0xffffffff then none else some (v, s.sysN (a + 4) 4)

/-- A threshold is reached in a history: the newest entry and the one N - 1 before it lie closer than T, in milliseconds or in jobs
(R510). -/
def State.overThreshold (s : State) (p : Nat) (chk : Bool) : Bool :=
  let w0 := s.prsForce 0x100
  let w1 := s.prsForce 0x101
  let e0 := (s.hist p chk 0).getD (0, 0)
  (match s.hist p chk (threshN w0 - 1) with
    | some e => decide (e0.1 - e.1 < threshT w0)
    | none => false) ||
  (match s.hist p chk (threshN w1 - 1) with
    | some e => decide (e0.2 - e.2 < threshT w1)
    | none => false)

/-- Count an array event (`chk` false) or a checker event of a physical tile, and fence or withdraw it at the thresholds
(R509, R510). A history that reads uncorrectable is not advanced (R388). -/
def State.countEvent (s : State) (p : Nat) (chk : Bool) : State :=
  let a := histBase + p * 64 + (if chk then 32 else 0)
  let (r, old, s) := s.busRead mCtl a 24
  let s := if r = .ok then s.store mCtl a (natLe 4 s.msRun ++ natLe 4 (FMap.get 0 s.chk.jobsOn p) ++ old) else s
  let s := s.lifeUp (if chk then 0x128 else 0x127)
  if r = .ok ∧ s.overThreshold p chk then s.takeOut (p / 17) (p % 17) chk else s

/-! The outcome of an arbitration (R505). -/

/-- An arbitration of the job's part on a tile is decided: outcome 0 checker faulty, 1 array faulty, 2 neither, 3 unresolved. -/
def State.decideArb (s : State) (a : Arb) (stage outcome : Nat) : State :=
  let code := 0x2010 + outcome
  let phys := physOf a.brood a.origSlot
  let s := s.sysInc (chkHdr + 4 + 2 * outcome) 2
  let s := (s.raise a.brood code a.cap.tile).trace 0x21 srcCar [a.brood, a.cap.tile, code, stage]
  match outcome with
  | 0 => s.countEvent phys true
  | 1 => s.countEvent phys false
  | 2 =>
    let s := match s.readN mCtl (chkHdr + 16) 16 with
      | (some m, s) => s.sysPut (chkHdr + 16) 16 (m ||| 2 ^ a.brood)
      | (none, s) => s
    s.takeOut a.brood a.origSlot false
  | _ => s.countEvent phys false

/-- Arbitrations due to end unresolved are decided, oldest first (R503 to R505); `n` bounds their number. -/
def State.settleArbsGo : Nat → State → State
  | 0, s => s
  | n + 1, s =>
    match s.chk.arbs.find? (fun a => a.cap.verdict == 0x2013) with
    | some a =>
      let s := { s with chk.arbs := delFirst (fun x => x.cap.verdict == 0x2013) s.chk.arbs }
      State.settleArbsGo n (s.decideArb a a.stage 3)
    | none => s

/-- Every arbitration that is due ends unresolved. -/
def State.settleArbs (s : State) : State := State.settleArbsGo s.chk.arbs.length s

end Sys2Proof.Machine
end

