-- ==== Sys2Proof/Machine/Sequencer.lean ====
section
/-! DEFINITION. The sequencer: triggers and frames, job starts and reruns, the ends of parts, stages and jobs, tile halts, and
publication (R25 to R36, R142, R174 to R181, R417, R418, R476 to R478, R500 to R506). -/
namespace Sys2Proof.Machine

/-! The frame record (R318). -/

/-- Write the frame record of a frame (R318). -/
def State.putRecord (s : State) (p : Nat) (f : Frame) : State :=
  s.store mSeq (frameRec p f.num) (natLe 4 f.num ++ natLe 4 f.camStale ++ natLe 4 f.camMiss ++ natLe 2 f.netStale ++
    natLe 2 f.netMiss ++ natLe 8 f.tick ++ natLe 8 f.maxAge ++ zeros 32)

/-! Barriers of multi-chip pipelines (R220, R222). -/

/-- The frames of pipeline `p` that wait for a barrier take the numbers from `top` on, and so do the frames to come (R223). -/
def State.renumber (s : State) (p top : Nat) : State :=
  match s.pipe? p with
  | none => s
  | some x =>
    let l := (x.frames.filter (·.barrier)).map (·.num)
    let new := fun n => match l.findIdx? (fun m => m == n) with
      | some i => (top + i) % 2 ^ 32
      | none => n
    let ren := fun (f : Frame) => { f with num := new f.num }
    let s := s.modPipe p (fun x => { x with frames := x.frames.map ren, lastFrame := x.lastFrame.map ren, frameNum := (top + l.length) % 2 ^ 32 })
    let s := { s with sched.jobs := s.sched.jobs.map (fun (j : Job) => if j.pipe = p then { j with frame := new j.frame } else j) }
    match s.pipe? p with
    | some x => s.each (x.frames.filter (fun f => f.barrier)) (fun s (f : Frame) => s.putRecord p f)
    | none => s

/-- A frame that waits for its barrier enters it, one pipeline at a time, while barriers are open to the device; after a mismatch of the
numbers, with the highest frame number received (R223). -/
def State.tryBarrier (s : State) : State :=
  if s.mesh.sio.pipe.isSome || s.mesh.sio.barred || !s.rdB F.SYNC_IO_CTRL_EN then s
  else match s.sched.pipes.find? (fun p => p.frames.any (·.barrier)) with
    | some p =>
      let s := match (if s.mesh.sio.sentPipe = p.desc.num then s.mesh.sio.maxFrame else none) with
        | some top => { s.renumber p.desc.num top with mesh.sio.maxFrame := none }
        | none => s
      { s.wr F.SYNC_IO_STATUS_IN_BARRIER 1 with
          mesh.sio.pipe := some p.desc.num, mesh.sio.enteredAt := s.tick, mesh.sio.released := false,
          mesh.sio.sawHigh := none }
    | none => s

/-! Triggers (R25, R26, R315, R317, R318). -/

/-- The streams of a trigger set: bits of CAM, then of NET. -/
def PipeDesc.streams (d : PipeDesc) : List Nat :=
  (List.range 32).filter (fun c => d.cam.getLsbD c) ++
    ((List.range 16).filter (fun e => d.net.getLsbD e)).map (fun e => 32 + e)

/-- The stand-in for a stream that has not triggered: its last good entry, marked stale; entry 0 where there has been no good
frame (R25, R315). -/
def State.standIn (s : State) (n : Nat) : GatherEntry :=
  let x := s.strm n
  match x.last with
  | some (e, st) => { stream := n, entry := e, stale := true, missing := x.state == 3 || !x.everGood, stamp := some st }
  | none => { stream := n, entry := 0, stale := true, missing := true, stamp := none }

/-- Age of a stale input at the trigger; all ones where the stream has had no good frame (R315). -/
def inputAge (tick : Nat) (g : GatherEntry) : Nat :=
  if !g.stale then 0 else match g.stamp with
    | some st => tick - st
    | none => 2 ^ 64 - 1

/-- Open a frame: its inputs are fixed and its frame record is written (R25, R318, R419). -/
def State.openFrame (s : State) (p num : Nat) (inputs : List GatherEntry) (stamp : Nat) : State :=
  match s.pipe? p with
  | none => s
  | some x =>
    let f : Frame :=
      { pipe := p, num := num, tick := s.tick, stamp := stamp, inputs := inputs,
        maxAge := inputs.foldl (fun m g => Nat.max m (inputAge s.tick g)) 0,
        stages := x.desc.stages.map (fun n => { stage := n, slot := 255 }), barrier := x.desc.multi }
    let s := s.modPipe p (fun y => { y with frames := y.frames ++ [f], frameNum := (num + 1) % 2 ^ 32, lastFrame := some f,
                                            gather := [], openAt := none })
    let s := s.putRecord p f
    (s.trace 0x1 srcSeq [p, num, f.camStale, f.netStale]).tryBarrier

/-- The gather set as a trigger takes it: every stream of the set, stand-ins where none has arrived. -/
def State.gathered (s : State) (x : Pipeline) : List GatherEntry :=
  x.desc.streams.map (fun n => (x.gather.find? (fun g => g.stream == n)).getD (s.standIn n))

/-- Pipeline `p` triggers (R25). -/
def State.trigger (s : State) (p : Nat) : State :=
  match s.pipe? p with
  | none => s
  | some x =>
    let stamp := match x.gather.getLast? with
      | some g => g.stamp.getD 0
      | none => 0
    s.openFrame p x.frameNum (s.gathered x) stamp

/-- Every stream of the set has arrived or is lost (R25, R26, R317). -/
def State.gatherFull (s : State) (x : Pipeline) : Bool :=
  x.desc.streams.all (fun n => x.gather.any (fun g => g.stream == n) || (s.strm n).state == 3)

/-- A trigger event of a stream reaches one pipeline; in the tick of expiry it still counts as arrived, and after it the window has
triggered first (R26). -/
def State.arrive (s : State) (g : GatherEntry) (p : Nat) : State :=
  let late := match s.pipe? p with
    | some x => (match x.openAt with
      | some t0 => decide (t0 + x.desc.gather < s.tick)
      | none => false)
    | none => false
  let s := if late then s.trigger p else s
  let s := s.modPipe p (fun x => { x with gather := x.gather.filter (fun y => y.stream != g.stream) ++ [g],
                                          openAt := some (x.openAt.getD s.tick), stopLost := false })
  match s.pipe? p with
  | some x => if s.gatherFull x then s.trigger p else s
  | none => s

/-- A stream raises its trigger event: every running pipeline in hardware stage scheduling that lists it gathers it. -/
def State.raiseTrigger (s : State) (g : GatherEntry) : State :=
  s.each ((s.sched.pipes.filter (fun x => x.running && !x.hostSched && x.desc.streams.contains g.stream)).map (·.desc.num))
    (fun s p => s.arrive g p)

/-- A pipeline whose trigger streams are all lost stops triggering, once, with 0x5105 (R317). -/
def State.checkLost (s : State) : State :=
  s.each ((s.sched.pipes.filter (fun x => x.running && !x.stopLost && x.desc.streams != [] &&
      x.desc.streams.all (fun n => (s.strm n).state == 3))).map (fun x => (x.desc.num, x.desc.streams.headD 0)))
    (fun s e => (s.modPipe e.1 (fun x => { x with stopLost := true })).raise 151 0x5105 e.2)

/-! Job starts (R27, R142, R203). -/

/-- The job block (R144). -/
def jobBlock (tag stage flags frame tick : Nat) (seed : BitVec 64) (stream : BitVec 32) (part parts : Nat)
    (addrs : List Nat) : List Byte :=
  natLe 2 tag ++ natLe 1 stage ++ natLe 1 flags ++ natLe 4 frame ++ natLe 8 tick ++ natLe 8 seed.toNat ++
    natLe 4 stream.toNat ++ natLe 2 part ++ natLe 2 parts ++ (((addrs ++ [0, 0, 0, 0]).take 4).map (natLe 8)).flatten

/-- Steps 1 to 4 of a job start on a tile (R142, R157, R179): the job block, the cleared registers, the entry, the start. -/
def State.startTile (s : State) (t : Nat) (x : TileJob) (entry : Nat) (block : List Byte) : State :=
  let p := s.physTile t
  let s := s.store mSeq (tileAddr t 0) block
  let s := { s with chk.jobsOn := FMap.set 0 s.chk.jobsOn p ((FMap.get 0 s.chk.jobsOn p + 1) % 2 ^ 32),
                    mesh.ops := s.mesh.ops.filter (fun (o : SyncOp) => o.tile != t || o.kind == 0) }
  s.modTile t (fun y =>
    { y with run := 1, err := false, pc := entry, g := [], v := [], lc := [], loops := [],
             obj := FMap.clear y.obj (fun o => decide (o < 8)), blocked := none, cyc0 := y.cyc, job := x, q := [],
             loads := [], stream := none, flight := [], drain := none, dma := [], dmaLost := false, msgs := [], ord := 0 })

/-- FLAGS of a tile's job block (R144). -/
def jobFlags (x : Stage) (t : Nat) (stale start : Bool) : Nat :=
  let fu := x.fusedOn (tileBrood t)
  b2n x.qm + 2 * b2n fu + 4 * b2n (fu && tileK t == 0) + 8 * b2n stale + 16 * b2n start

/-- A tile of the stage is being moved, or its forced move is due (R75, R80). -/
def State.moveWaits (s : State) (t : Nat) : Bool :=
  s.moving t || (s.brood (tileBrood t)).forcedDue.contains (tileK t)

/-- Every unit of a stage can take a job now: hosted, idle, in no other job, in no self-test slice, and its brood's mode is right or can
change (R68, R517). -/
def State.unitsFree (s : State) (x : Stage) (self : Nat) : Bool :=
  let others := s.sched.jobs.filter (fun j => j.id != self && !j.waiting)
  if x.kind = 1 then
    x.units.all (fun b => !(s.unit 1 b).running && !others.any (fun j => match s.jobStage j with
      | some y => y.kind == 1 && y.usesBrood b
      | none => false))
  else
    x.tiles.all (fun t => !s.busyTile t && !(s.slot (s.physTile t)).inSlice && !others.any (fun j => (s.jobTiles j).contains t)) &&
    x.broods.all (fun u => s.fused u.brood == u.fused || (broodTiles u.brood).all (fun t => !s.busyTile t))

/-- Every stage that a stage consumes has committed for the frame (R27, R29). -/
def Frame.ready (f : Frame) (x : Stage) : Bool :=
  x.consumes.all (fun n => match f.stage? n with
    | some r => r.status == 2
    | none => false)

/-- A reference that names a resolved address: KIND 6, an absolute address (R259). -/
def absRef (a : Nat) : BitVec 64 := BitVec.ofNat 64 (6 * 2 ^ 60 + a % 2 ^ 48)
/-- A resampler block with its references resolved (R259). -/
def State.resolveRsp (s : State) (c : RefCtx) (k : RspBlock) : RspBlock :=
  let r := fun v => absRef (s.resolve c v)
  { k with list := r k.list, out := r k.out, status := r k.status, srcs := k.srcs.map (fun x => { x with ref := r x.ref }) }

/-- The references of a job are resolved at its first start and stay for its rerun (R259, R501). -/
def State.resolveJob (s : State) (id : Nat) (x : Stage) (c : RefCtx) : State :=
  s.modJob id (fun j => if j.rerun then j else
    { j with addrs := j.refs.map (s.resolve c), rsp := x.rsp.map (s.resolveRsp c) })

/-- Start the part of a job of TIL_CTRL.START: the steps of R142, and the tile's FRAME-scope local objects (R85). -/
def State.launchSingle (s : State) (j : Job) (x : Stage) : State :=
  s.each (s.jobTiles j) (fun s t =>
    let s := s.modJob j.id (fun j => { j with waiting := false, startAt := s.tick,
                                              saved := if j.rerun then j.saved else (x.plan.filter (·.scopeP)).map s.readObj })
    let s := (s.wr F.BRD_STATUS_MODE 0 (tileBrood t)).wr F.TIL_CTRL_START 0 t
    let s := s.startTile t
      { active := true, job := j.id, stage := x.num, seed := x.seed, qm := x.qm, single := true, chip := s.cfg.chip,
        chips := s.cfg.chips, frame := j.frame } x.entry
      (jobBlock 0 x.num j.flags j.frame j.stamp x.seed x.stream 0 1 j.addrs)
    s.each (x.plan.filter (fun e => e.isLocal && !e.scopeP && e.tile == t)) State.initObj)

/-- Start every part of a job: mode, objects, job blocks, cores (R27, R68, R142, R202, R203). Used by the first start and by the
rerun. -/
def State.launch (s : State) (id : Nat) : State :=
  match s.job? id with
  | none => s
  | some j =>
    match s.jobStage j, s.frame? j.pipe j.frame with
    | some x, some f =>
      let s := s.resolveJob id x { slot := j.slot, pipe := j.pipe, frame := some f, out := j.outAddr }
      let addrs := match s.job? id with
        | some j => j.addrs
        | none => []
      let s := s.modJob id (fun j => { j with waiting := false, startAt := s.tick, first := if j.rerun then j.first else s.tick })
      let s := if (s.win j.stage).startAt.isNone then s.modWin j.stage (fun w => { w with startAt := some s.tick }) else s
      let s := s.modFrame j.pipe j.frame (fun f => { f.modStage j.stage (fun r => { r with status := 1 }) with tag := j.tag })
      let s := if x.kind = 1 then s else
        let s := s.each x.broods (fun s u => s.wrB F.BRD_STATUS_MODE u.fused u.brood)
        let s := if j.rerun then s else
          s.modJob id (fun j => { j with saved := (x.plan.filter (·.scopeP)).map s.readObj })
        let us := x.tiles
        let s := s.each us.zipIdx (fun s e =>
          s.startTile e.1
            { active := true, job := id, stage := j.stage, tag := j.tag, part := e.2, seed := j.seed, qm := x.qm,
              chip := s.cfg.chip, chips := s.cfg.chips, frame := j.frame } x.entry
            (jobBlock j.tag j.stage (jobFlags x e.1 f.isStale false) j.frame f.stamp j.seed j.stream e.2 us.length addrs))
        s.frameObjs x
      s.trace 0x2 srcSeq [j.tag, j.stage, j.frame, j.parts.length]
    | _, _ => s

/-- A due part waits for the moves of these tiles: counted once for the job, with 0x1014 (R75, R80). -/
def State.holdJob (s : State) (j : Job) : State :=
  if j.moveHeld then s
  else
    let s := s.modJob j.id (fun j => { j with moveHeld := true })
    s.each (((s.jobTiles j).filter s.moveWaits).map tileBrood).eraseDups
      (fun s b => (s.cnt F.BRD_ROT_EVENTS_WAITS b).raiseBrood b 0x1014)

/-- The tile of a job of TIL_CTRL.START can take it: no part runs on it, and its brood's mode is separate or can change (R68). -/
def State.singleFree (s : State) (t : Nat) : Bool :=
  s.hosted t && !s.busyTile t && !(s.fused (tileBrood t) && (broodTiles (tileBrood t)).any s.busyTile)

/-- A job that waited and can run now starts; one that only a move holds is counted (R75, R80, R85, R419). -/
def State.kickJob (s : State) (id : Nat) : State :=
  match s.job? id with
  | none => s
  | some j =>
    if !j.waiting then s
    else match s.jobStage j with
      | none => s
      | some x =>
        let due := if j.single then (s.jobTiles j).all s.singleFree else match s.frame? j.pipe j.frame with
          | some f => f.ready x && !f.barrier && s.unitsFree x id
          | none => false
        if !due then s
        else if (s.jobTiles j).any s.moveWaits then s.holdJob j
        else if j.single then s.launchSingle j x
        else s.launch id

/-- Every waiting job that can run now starts, oldest first. -/
def State.kickJobs (s : State) : State := s.each (s.allJobs.map (·.id)) State.kickJob

/-- A set that is neither held nor the published one frees its staging slots (R418). -/
def Pipeline.freeSets (x : Pipeline) : Pipeline :=
  let keep := fun (e : Nat × Frame) => x.held.contains e.1 || x.published == some e.1
  { x with sets := x.sets.filter keep, free := x.free ++ (x.sets.filter (fun e => !keep e)).filterMap (fun e => e.2.slotIx) }

/-- The completion CONS has moved: holds of sets whose frame entries it has passed are released (R418). -/
def State.releaseHolds (s : State) : State :=
  let cons := s.rd F.HIF_RING_CONS_CONS 1
  { s with sched.pipes := s.sched.pipes.map (fun x =>
    ({ x with held := x.held.filter (fun q => decide ((cons + 2 ^ 32 - q) % 2 ^ 32 = 0) ||
        decide (2 ^ 31 ≤ (cons + 2 ^ 32 - q) % 2 ^ 32)) }).freeSets) }

/-- A frame takes the pipeline's first free set of staging slots; nothing when none is free (R28, R36). -/
def State.takeSlots (s : State) (p num : Nat) : Option State :=
  let s := s.releaseHolds
  match s.pipe? p, s.frame? p num with
  | some x, some f =>
    if f.slotIx.isSome then some s
    else match x.free with
      | [] => none
      | i :: r =>
        let s' := s.modPipe p (fun y => { y with free := r })
        some (s'.modFrame p num (fun f => { f with stages := f.stages.map (fun q =>
          let base := match s.binding? q.stage with
            | some b => b.base
            | none => 0
          let size := match s.stage? q.stage with
            | some y => y.outBytes
            | none => 0
          { q with slot := i, addr := base + i * size, bytes := size }) }))
  | _, _ => none

/-- Make the job of a stage of an open frame and start it, or let it wait for a move (R75) or, for a host job, for the stages it
consumes (R419). -/
def State.makeJob (s : State) (x : Stage) (p num tag : Nat) (host : Bool) (flags : Nat) (seed : BitVec 64)
    (stream : BitVec 32) (refs : List (BitVec 64)) : State :=
  match s.frame? p num with
  | none => s
  | some f =>
    let out := match f.stage? x.num with
      | some r => r
      | none => {}
    let id := s.sched.nextJob
    let j : Job :=
      { id := id, tag := tag, stage := x.num, slot := x.slot, pipe := p, frame := num, host := host, seed := seed,
        stream := stream, refs := refs, flags := flags, outAddr := out.addr, waiting := true,
        parts := x.units.map (fun u => { unit := u }), startAt := s.tick }
    let s := { s with sched.jobs := s.sched.jobs ++ [j], sched.nextJob := id + 1 }
    s.kickJob id

/-! The ends of parts, stages and jobs (R29 to R32, R476 to R478). -/

/-- The job fails: its stage does not commit and its output is discarded (R30, R504). -/
def State.failJob (s : State) (id : Nat) : State := (s.killJob id 0x1F01).settleArbs.kickJobs

/-- A stage commits for its frame (R29); a frame whose stages have all committed has passed its last check. -/
def State.commitStage (s : State) (j : Job) : State :=
  let qm := match s.jobStage j with
    | some x => x.qm
    | none => false
  let dur := s.winDur j.stage
  let s := s.modFrame j.pipe j.frame (fun f =>
    let f := f.modStage j.stage (fun r => { r with status := 2, qm := qm })
    if f.stages.all (fun r => r.status == 2) then { f with doneAt := some s.tick } else f)
  let s := s.trace 0x4 srcSeq [j.stage, j.frame, b2n j.rerun, dur]
  ((s.finishJob j 0).settleArbs).kickJobs

/-- Every part has finished clean: the window watchdog gives its verdict (R31, R476, R477). -/
def State.endStage (s : State) (id : Nat) : State :=
  match s.job? id with
  | none => s
  | some j =>
    match s.jobStage j with
    | none => s
    | some x =>
      let dur := s.winDur j.stage
      if j.single then ((s.finishJob j 0).settleArbs).kickJobs
      else if dur < x.winMin then
        (((s.modWin j.stage (fun w => { w with early := satAt 65535 (w.early + 1) })).raiseFor (winLine j.stage) 0x9030
          [j.stage] [j.stage])).failJob id
      else if x.winMax < dur then
        (((s.modWin j.stage (fun w => { w with late := satAt 65535 (w.late + 1) })).raiseFor (winLine j.stage) 0x9031
          [j.stage] [j.stage])).failJob id
      else s.commitStage j

/-- Look whether a job has ended: clean, failed for good, or waiting for its rerun. -/
def State.checkJob (s : State) (id : Nat) : State :=
  match s.job? id with
  | none => s
  | some j =>
    if j.parts.any (fun p => p.status = 0 || p.status = 3) then s
    else if j.parts.any (fun p => p.status = 2) then s.failJob id
    else if j.parts.any (fun p => p.status = 4 || p.status = 5) then s
    else s.endStage id

/-- A retry or an arbitration takes the brood's spare; a test in progress is aborted (R77, R502). -/
def State.claimSpare (s : State) (b id : Nat) : State :=
  if (s.brood b).spareUser.isSome then s
  else
    let s := s.modBrood b (fun x => { x with spareUser := some id })
    if (s.brood b).move.isSome then s else s.releaseSpare b

/-- A part fails. Where `retry` holds, the job has not been rerun and the brood has a spare, it waits for the rerun of R30;
otherwise it fails for good, whatever fails in it later (R180, R502, R503). -/
def State.failPart (s : State) (id u code : Nat) (retry : Bool) : State :=
  match s.job? id with
  | none => s
  | some j =>
    let rsp := match s.jobStage j with
      | some x => x.kind == 1
      | none => false
    let b := if rsp then u else tileBrood u
    let lost := match j.part? u with
      | some p => p.status == 2
      | none => false
    let again := retry && !j.rerun && !lost && (rsp || s.spareFree b)
    let s := s.modJob id (fun j => { j.modPart u (fun p => { p with status := if again then 4 else 2, why := code,
                                                                     failAt := s.tick }) with
                                     failAt := if j.failAt = 0 then s.tick else j.failAt })
    if again && !rsp then s.claimSpare b id else s

/-- Mark a running part as failed; its program runs on to its END (R194, R374). -/
def State.markPart (s : State) (t code : Nat) : State :=
  match s.jobOf t with
  | none => s
  | some j =>
    (s.modTile t (fun x => { x with job := { x.job with failed := true } })).modJob j.id (fun j =>
      j.modPart t (fun p => if p.why = 0 then { p with why := code } else p))

/-- Mark the part of job `id` on a tile as failed, also one that has finished while its job runs; without effect once another job has
the tile (R194, R201). -/
def State.markJobPart (s : State) (t id code : Nat) : State :=
  if (s.tile t).job.job ≠ id then s
  else match (s.job? id).bind (fun j => j.part? t) with
    | some p => if p.status = 1 then (s.failPart id t code true).checkJob id else s.markPart t code
    | none => s

/-- The running part of a resampler job on brood `b`. -/
def State.rspJob (s : State) (b : Nat) : Option Job :=
  s.sched.jobs.find? (fun j => !j.waiting && (match s.jobStage j with
    | some x => x.kind == 1
    | none => false) && (match j.part? b with
    | some p => p.status == 0 || p.status == 3
    | none => false))

/-! Halts of a tile (R175 to R181). -/

/-- The event of a halt cause (R181). -/
def haltCode (cause : Nat) : Nat :=
  if 0x80 ≤ cause then 0x1104 else if 0x20 ≤ cause then 0x1103 else if 0x10 ≤ cause then 0x1102 else 0x1101

/-- A halt with any cause but 0x30: issue stops, array work is stopped and queued work discarded, the DMA requests already sent go
on (dmaCut), ERR is set, TIL_HALT is overwritten, the event is raised, and the part fails; causes 0x20 to 0x22 are retried (R177, R180, R181). -/
def State.tileHalt (s : State) (t pc cause : Nat) : State :=
  let s := (s.haltCapture t pc cause).modTile t (fun x =>
    { x with run := 2, blocked := none, q := [], loads := [], stream := none, flight := [], drain := none, dma := [],
             dmaLost := false, dmaCut := x.dma.head?.or x.dmaCut, msgs := [] })
  let s := s.raiseTile t (haltCode cause)
  match s.jobOf t with
  | some j => (s.failPart j.id t (haltCode cause) (decide (0x20 ≤ cause) && decide (cause ≤ 0x22))).checkJob j.id
  | none => s

/-! The rerun (R501, R502, R506). -/

/-- Where a section of the image is written: its device address, or nothing for a section that is not on chip (R257). -/
def Section.place (x : Section) : Option Nat :=
  match x.type with
  | 2 => some (tileAddr x.target (0x20000 + x.dest))
  | 3 => some (tileAddr x.target x.dest)
  | 4 => some (broodAddr x.target x.dest)
  | _ => none

/-- The section belongs to the tiles or broods of a stage. -/
def Section.ofStage (x : Section) (y : Stage) : Bool :=
  match x.type with
  | 2 => y.tiles.contains x.target
  | 3 => y.tiles.contains x.target
  | 4 => y.usesBrood x.target
  | _ => false

/-- The section is for a tile or brood that is in service (R266). -/
def State.secHosted (s : State) (x : Section) : Bool :=
  match x.type with
  | 2 => s.hosted x.target
  | 3 => s.hosted x.target
  | 4 => !s.excluded x.target
  | _ => true

/-- Write sections of a model from the copy of its image that the device keeps; one whose copy reads uncorrectable stays unwritten (R267;
log entry 17). -/
def State.restore (s : State) (m : Model) (l : List Section) : State :=
  s.each l (fun s x =>
    match x.place with
    | some a =>
      if !s.secHosted x then s
      else match s.busRead (mDsp 2) (m.copyAt + x.off) x.bytes with
        | (.ok, d, s) => s.store (mDsp 2) a d
        | (_, _, s) => s
    | none => s)

/-- Clear every memory and register a logical tile owns: what a cleared spare holds (R77; log entry 14). -/
def State.clearTile (s : State) (t : Nat) : State :=
  (s.clearRange (tileAddr t 0) (tileAddr t 0x40000)).modTile t (fun x => { cyc := x.cyc, job := x.job })

/-- Move the failing part's logical tile onto the spare; the slot it leaves becomes the brood's spare if it is good (R58, R501,
R506). -/
def State.rehost (s : State) (b k : Nat) : State :=
  match s.spare b with
  | some sp =>
    let old := s.slotOf b k
    let s := s.hostOn b k sp
    let s := if s.slotState b old = 0 then (s.setSpare b (some old)).wr F.BRD_STATUS_TEST_SLOT 31 b else s.dropSpare b
    s.clearTile (tileOf b k)
  | none => s

/-- The failing parts that take a spare: the first of each brood (R502). -/
def firstOfBrood : List Nat → List Nat → List Nat
  | _, [] => []
  | seen, t :: r => if seen.contains (tileBrood t) then firstOfBrood seen r else t :: firstOfBrood (tileBrood t :: seen) r

/-- Every spare that the job's rerun needs is ready. -/
def State.sparesReady (s : State) (j : Job) (l : List Nat) : Bool :=
  l.all (fun t => let x := s.brood (tileBrood t)
    x.spareUser == some j.id && !x.clearing && x.move.isNone && (s.spare (tileBrood t)).isSome)

/-- Rerun a job: sections and objects restored, failing parts on the spares, every part started again (R501). Of a job of
TIL_CTRL.START, which is one tile alone (R85), the tile's own sections and the stage's brood data are restored (log entry 37). -/
def State.rerunJob (s : State) (j : Job) (x : Stage) (moved : List Nat) : State :=
  let s := s.stopParts j.id
  let us := s.jobTiles j
  let s := { s with mesh.msgs := s.mesh.msgs.filter (fun m => !us.contains m.src),
                    mesh.ops := s.mesh.ops.filter (fun (o : SyncOp) => !us.contains o.tile) }
  let s := s.each moved (fun s t => s.rehost (tileBrood t) (tileK t))
  let s := match s.modelIn j.slot with
    | some m => s.restore m (m.sections.filter (fun y => y.ofStage x && (!j.single || y.type == 4 || us.contains y.target)))
    | none => s
  let s := s.each j.saved State.putObj
  let s := s.modJob j.id (fun j => { j with rerun := true, parts := j.parts.map (fun p =>
    { p with status := 3, retried := p.retried || p.status == 4, bytes := 0, overrun := false }) })
  let s := { s with chk.arbs := s.chk.arbs.map (fun (a : Arb) => if a.cap.job = j.id then { a with rerun := true } else a) }
  if j.single then (match s.job? j.id with
    | some j => s.launchSingle j x
    | none => s)
  else s.launch j.id

/-! Publication (R33, R36, R417, R418). A set that is neither held nor the published one frees its staging slots. -/

/-- Pipeline `p` is held automatically (HIF_HOLD0, HIF_HOLD1). -/
def State.holdsOn (s : State) (p : Nat) : Bool :=
  if p < 32 then bitOf (s.rd F.HIF_HOLD0_AUTO_HOLD) p else bitOf (s.rd F.HIF_HOLD1_AUTO_HOLD) (p - 32)

/-- Holds beyond NSLOT - 2 of sets that are no longer published lapse, oldest first, with 0x7011 (R418). -/
def State.lapse (s : State) (p : Nat) : State :=
  match s.pipe? p with
  | none => s
  | some x =>
    let old := x.held.filter (fun q => x.published != some q)
    let n := old.length - (x.desc.nslot - 2)
    let gone := old.take n
    let s := s.each gone (fun s q =>
      let fr := match x.sets.find? (fun e => e.1 == q) with
        | some e => e.2.num
        | none => 0
      s.raiseEv { line := 160, code := 0x7011, uid := some 0, units := [fr % 65536, fr / 65536] })
    s.modPipe p (fun x => { x with held := x.held.filter (fun q => !gone.contains q) })

/-- The half of a publish table (R417). -/
def State.pubHalf (s : State) (x : Pipeline) (f : Frame) : List Byte :=
  natLe 4 f.num ++ natLe 4 (b2n f.isStale + 2 * b2n (f.isQm || s.qmForced)) ++ natLe 8 s.tick ++ zeros 48 ++
    ((List.range 32).map (fun i =>
      let a := match x.desc.stages[i]? with
        | some n => (match f.stage? n with
          | some r => if x.desc.exp.getLsbD i then r.addr else 0
          | none => 0)
        | none => 0
      natLe 8 a)).flatten

/-- The rest of a pipeline's export is dropped (R570). -/
def State.dropExport (s : State) (p : Nat) : State :=
  if s.sched.exports.any (fun e => e.pipe == p) then
    ({ s with sched.exports := s.sched.exports.filter (fun e => e.pipe != p) }).raise 180 0xC034 p
  else s

/-- The 32-byte header of an exported output: pipeline, list index, flags, frame, offset, total and publication tick (R570). -/
def exportHead (p i flags frame off total tick : Nat) : List Byte :=
  natLe 4 0x54554F51 ++ natLe 1 p ++ natLe 1 i ++ natLe 1 flags ++ natLe 1 0 ++ natLe 4 frame ++ natLe 4 off ++ natLe 4 total ++
    natLe 4 0 ++ natLe 8 tick

/-- The outputs of a publication go to the peers that the chip-link map names for the pipeline, each with its header (R571; what
reaches the peer is kept in `linkOut`, log entry 22). -/
def State.linkExport (s : State) (x : Pipeline) (f : Frame) : State :=
  let p := x.desc.num
  let ports := (s.cfg.expPeer.filter (fun e => e.1 == p && s.rd F.CHL_STATUS_STATE e.2 == 4)).map (·.2)
  let outs := ((List.range x.desc.stages.length).filter (fun i => x.desc.exp.getLsbD i)).filterMap (fun i =>
    (x.desc.stages[i]?).bind (fun n => (f.stage? n).map (fun r => (i, r))))
  s.each outs (fun s e =>
    match s.busRead mCtl e.2.addr e.2.bytes with
    | (.ok, b, s) =>
      let h := exportHead p e.1 (b2n f.isStale + 2 * b2n (f.isQm || s.qmForced) + 8) f.num 0 e.2.bytes s.tick
      { s with sched.linkOut := s.sched.linkOut ++ ports.map (fun port => (port, h ++ b)) }
    | (_, _, s) => s.raise 180 0xC034 p)

/-- Publish the oldest frame: the inactive half, then SEL, then the completion entry (R33, R417). `sel` is the SEL word that was read. -/
def State.publishWith (s : State) (x : Pipeline) (f : Frame) (sel : Nat) : State :=
  let p := x.desc.num
  let half := 1 - sel % 2
  let s := s.store mSeq (pubTable p + 64 + 320 * half) (s.pubHalf x f)
  let sel := (sel / 2 + 1) % 2 ^ 31 * 2 + half
  let s := s.storeN mSeq (pubTable p) 4 sel
  let ix := s.rd F.HIF_RING_PROD_PROD 1
  let s := s.frameEntry p f 0 sel
  let s := s.modPipe p (fun x =>
    let x := x.passFrame
    { x with frames := x.frames.filter (fun y => y.num != f.num), boundaryAt := s.tick, published := some ix,
             lastPub := some f, sets := x.sets ++ [(ix, f)],
             held := if s.holdsOn p && s.attached then x.held ++ [ix] else x.held })
  let s := (s.releaseHolds.lapse p).modPipe p Pipeline.freeSets
  let s := s.dropExport p
  let s := if x.desc.expMgmt then
      { s with sched.exports := s.sched.exports ++ [{ pipe := p, frame := f, tick := s.tick, qm := f.isQm || s.qmForced }] }
    else s
  let s := if x.desc.expLink then ({ s with sched.linkOut := [] }).linkExport x f else s
  (s.trace 0x5 srcSeq [p, f.num, 0, sel]).kickJobs

/-- Publish the oldest frame; where the publish table reads uncorrectable the frame is withheld with 0x1F01 (R33, R432). -/
def State.publishFrame (s : State) (x : Pipeline) (f : Frame) : State :=
  match s.readN mSeq (pubTable x.desc.num) 4 with
  | (some sel, s) => s.publishWith x f sel
  | (none, s) => (s.withhold x.desc.num f 0x1F01).settleArbs.kickJobs

/-- Every hold is released (R411). -/
def State.dropHolds (s : State) : State :=
  s.each (s.sched.pipes.map (·.desc.num)) (fun s p => s.modPipe p (fun x => ({ x with held := [] }).freeSets))

/-- A frame boundary of the pipeline: no frame has been triggered since the last one was published or withheld (R42). -/
def Pipeline.boundary (x : Pipeline) : Bool := x.frames.all (fun f => decide (f.tick < x.boundaryAt))

end Sys2Proof.Machine
end

