-- ==== Sys2Proof/Machine/Check.lean ====
section
/-! DEFINITION. The in-line checker: residues, captures, mismatches and the arbitration of a rerun (R492 to R508). -/
namespace Sys2Proof.Machine

/-- The residue modulo 4,095 (R492). -/
def residue (x : Int) : Nat := (x % 4095).toNat

/-- Logical columns of one tile by class: 0 byte, 1 narrow, 2 wide, 3 distance (R92). -/
def clsCols (c : Nat) : Nat := if c = 1 then 64 else if c = 2 then 16 else 32
/-- The class of a bank's weight format (R92). -/
def fmtCls (dist : Bool) (f : Nat) : Nat := if dist then 3 else if f ≤ 2 then 0 else if f ≤ 6 then 1 else 2
/-- Piece `i` of a list cut into pieces of `n`. -/
def piece {α : Type} (l : List α) (i n : Nat) : List α := (l.drop (i * n)).take n

/-- What a capture is made from (R507). -/
structure CapIn where
  code : Nat := 0
  tile : Nat := 0
  afmt : Nat := 0
  op : Nat := 0
  ord : Nat := 0
  index : Nat := 0
  bank : Nat := 0
  aexp : Int := 0
  pred : Nat := 0
  q : Nat := 0
  kmask : Nat := 0
  nmask : Nat := 0
  elems : List Int := []
  words : List Nat := []
  resid : List Nat := []
  colExp : List Int := []
  sums : List Int := []
  narrow : Bool := false
  carry : List Nat := []
  resA : List Nat := []
  resB : List Nat := []
  deriving DecidableEq, Repr

/-- A list of numbers as fields of `n` bytes, cut or padded with zeros to `len` bytes. -/
def fieldBytes (n len : Nat) (l : List Int) : List Byte :=
  bytesAt ((l.map (fun v => natLe n (twos (8 * n) v))).flatten) 0 len
/-- The same for natural numbers. -/
def fieldBytesN (n len : Nat) (l : List Nat) : List Byte := bytesAt ((l.map (natLe n)).flatten) 0 len

/-- The 4,096 bytes of a capture (R507). -/
def CapIn.bytes (c : CapIn) (seq phys stage tag tick : Nat) : List Byte :=
  natLe 4 seq ++ natLe 2 c.code ++ natLe 2 c.tile ++ natLe 2 phys ++ natLe 1 c.afmt ++ natLe 1 c.op ++ natLe 4 c.ord ++
  natLe 2 c.index ++ natLe 1 c.bank ++ natLe 1 stage ++ natLe 2 tag ++ natLe 2 (twos 16 c.aexp) ++ natLe 8 tick ++
  natLe 2 c.pred ++ natLe 2 c.q ++ natLe 4 c.kmask ++ natLe 4 c.nmask ++ zeros 20 ++
  fieldBytes 2 64 c.elems ++ fieldBytesN 2 2048 c.words ++ fieldBytesN 2 64 c.resid ++ fieldBytes 2 32 c.colExp ++ zeros 32 ++
  fieldBytes (if c.narrow then 4 else 8) 256 c.sums ++ fieldBytesN 4 256 c.carry ++ fieldBytesN 4 256 c.resA ++
  fieldBytesN 4 256 c.resB ++ zeros 768

/-- Write a capture into buffer SEQ mod 16 and advance CAP_NEXT; the answer is its SEQ (R507, R508). Where CAP_NEXT reads uncorrectable nothing
is written (R388). -/
def State.capture (s : State) (c : CapIn) : Nat × State :=
  match s.readN mCtl chkHdr 4 with
  | (none, s) => (0, s)
  | (some seq, s) =>
    let j := (s.tile c.tile).job
    let s := s.store mCtl (capBase + seq % 16 * 4096) (c.bytes seq (s.physTile c.tile) j.stage j.tag s.tick)
    (seq, s.sysPut chkHdr 4 (seq + 1))

/-- The capture as the arbiter keeps it (R505). -/
def State.captured (s : State) (c : CapIn) (seq job : Nat) : Capture :=
  { seq := seq, code := c.code, tile := c.tile, phys := s.physTile c.tile, job := job, ordinal := c.ord, index := c.index,
    pred := c.pred, sums := c.sums, resA := c.resA.map Int.ofNat, resB := c.resB.map Int.ofNat }

/-- A check of the tile `c.tile` disagrees (R499, R500, R503, R504). -/
def State.mismatch (s : State) (c : CapIn) : State :=
  let t := c.tile
  let b := tileBrood t
  let slot := s.slotOf b (tileK t)
  if s.slotState b slot = 1 then (s.sysInc (chkHdr + 36) 4).raiseTile t 0x2004
  else match s.jobOf t with
    | some j =>
      if (if j.rerun then 2 else 1) ≤ j.mism then s.sysInc (chkHdr + 32) 4
      else
        let (seq, s) := s.capture c
        let s := s.raiseTile t c.code
        let s := if j.rerun then s else
          { s with chk.arbs := s.chk.arbs ++
              [{ cap := s.captured c seq j.id, brood := b, k := tileK t, origSlot := slot, stage := j.stage }] }
        let s := s.modJob j.id (fun j => { j with mism := if j.rerun then 2 else 1 })
        ((s.failPart j.id t c.code true).stopParts j.id).checkJob j.id
    | none => s.sysInc (chkHdr + 32) 4

/-- The outcome that the arbiter reaches for the captured vector when the rerun's checks on it are clean: 0 checker faulty,
1 array faulty, 2 neither (R505). -/
def arbOutcome (cap : Capture) (sums : List Int) (q : Nat) (res : List Nat) : Nat :=
  let r : List Int := res.map Int.ofNat
  if cap.code = 0x2001 then
    if sums = cap.sums then 0 else if q = cap.pred then 1 else 2
  else if cap.code = 0x2002 ∧ cap.resA = cap.resB then 0
  else if r = cap.resA ∨ r = cap.resB then 1
  else 2

/-- The rerun has produced, with clean checks, vector or row `index` of operation `ord` on tile `t`: an arbitration that waits for
it is decided. With outcome 0x2012 the job fails (R505). -/
def State.arbitrate (s : State) (t ord index : Nat) (sums : List Int) (q : Nat) (res : List Nat) : State :=
  match s.jobOf t with
  | none => s
  | some j =>
    let p : Arb → Bool := fun a => a.cap.job == j.id && a.cap.tile == t && a.cap.ordinal == ord && a.cap.index == index
    if !j.rerun then s
    else match s.chk.arbs.find? p with
      | none => s
      | some a =>
        let o := arbOutcome a.cap sums q res
        let s := { s with chk.arbs := delFirst p s.chk.arbs }
        let s := s.decideArb a a.stage o
        if o = 2 then s.failJob j.id else s.settleArbs.kickJobs

end Sys2Proof.Machine
end

