-- ==== Sys2Proof/Machine/Tile.lean ====
section
/-! DEFINITION. The control core of a tile: issue, registers, local memory, loops, jumps, legal words (R140 to R154, R175).
A command of a tile instruction is that instruction's issue on the tile it names (log entry 2). -/
namespace Sys2Proof.Machine

/-! Registers (R141). -/

/-- g register `r`; g0 reads 0. -/
def State.g (s : State) (t r : Nat) : Nat := if r = 0 then 0 else (FMap.get 0#32 (s.tile t).g r).toNat
/-- Write a g register; a write to g0 is discarded. -/
def State.setG (s : State) (t r v : Nat) : State :=
  if r = 0 then s else s.modTile t (fun x => { x with g := FMap.set 0#32 x.g r (BitVec.ofNat 32 v) })
/-- The 64 lanes of a v register. -/
def State.v (s : State) (t r : Nat) : List Nat :=
  (List.range 64).map (fun i => (FMap.get 0#32 (s.tile t).v (64 * r + i)).toNat)
/-- One lane of a v register. -/
def State.lane (s : State) (t r i : Nat) : Nat := (FMap.get 0#32 (s.tile t).v (64 * r + i)).toNat
/-- Write the lanes of a v register. -/
def State.setV (s : State) (t r : Nat) (l : List Nat) : State :=
  s.modTile t (fun x =>
    { x with v := l.zipIdx.foldl (fun m e => FMap.set 0#32 m (64 * r + e.2) (BitVec.ofNat 32 e.1)) x.v })

/-! Loops (R152 to R154). -/

/-- Active loops that end on the instruction at `pc` are evaluated, innermost first: the remaining loops, the indices, and
the address to go on at where a pass begins again. -/
def loopEval : List LoopState → FMap (BitVec 32) → Nat → List LoopState × FMap (BitVec 32) × Option Nat
  | [], lc, _ => ([], lc, none)
  | l :: r, lc, pc =>
    if l.last = pc then
      let i := (FMap.get 0#32 lc l.lc).toNat
      if i + 1 < l.trips then (l :: r, FMap.set 0#32 lc l.lc (BitVec.ofNat 32 (i + 1)), some l.first)
      else loopEval r lc pc
    else (l :: r, lc, none)

/-- The loops that stay active when execution goes to `pc`: those inside the first loop left, and that loop, end (R154). -/
def loopExit (l : List LoopState) (pc : Nat) : List LoopState :=
  (l.reverse.takeWhile (fun x => decide (x.first ≤ pc) && decide (pc ≤ x.last))).reverse

/-- The instruction at `pc` is the last of an active body. -/
def TileState.atLoopEnd (x : TileState) : Bool := x.loops.any (fun l => l.last == x.pc)

/-! Where execution goes on (R149, R154). -/

/-- Execution goes on after the instruction at `pc` ran to the body end `last`: loops are evaluated there, else the address
after `last` follows. An address beyond 0x3FFC halts with cause 0x05 at `pc`. -/
def State.goOn (s : State) (t pc last : Nat) : State :=
  let (left, cnt, dest) := loopEval (s.tile t).loops (s.tile t).lc last
  let next := dest.getD (last + 4)
  if next > 0x3FFC then s.tileHalt t pc 0x05
  else s.modTile t (fun x => { x with loops := left, lc := cnt, pc := next })

/-- The next instruction in sequence. -/
def State.advance (s : State) (t : Nat) : State := let pc := (s.tile t).pc; s.goOn t pc pc

/-- A taken branch or jump; a target outside program memory or misaligned halts at the branch (R149). `link` writes before the
jump. -/
def State.jump (s : State) (t : Nat) (target : Int) (link : State → State) : State :=
  if target < 0 ∨ target > 0x3FFC ∨ target % 4 ≠ 0 then s.tileHalt t (s.tile t).pc 0x05
  else (link s).modTile t (fun x => { x with loops := loopExit x.loops target.toNat, pc := target.toNat })

/-! Issue. -/

/-- The tile can issue an instruction: it is hosted and running, nothing blocks its issue, and END has not issued. -/
def State.canIssue (s : State) (t : Nat) : Bool :=
  let x := s.tile t
  s.hosted t && x.run == 1 && x.blocked.isNone && !x.job.ended

/-- Issue an instruction: its program word is read first, and an uncorrectable one halts with cause 0x20 (R175, R388). -/
def State.issue (s : State) (t : BitVec 11) (f : State → Nat → State) : State :=
  let t := t.toNat
  if s.canIssue t then
    match s.sramRead (mDma t) true (tileAddr t (0x20000 + (s.tile t).pc)) 4 with
    | (some _, s) => f s t
    | (none, s) => s.tileHalt t (s.tile t).pc 0x20
  else s

/-- Issue an instruction of class C: as the last of an active body it halts with cause 0x06 (R153). -/
def State.issueC (s : State) (t : BitVec 11) (f : State → Nat → State) : State :=
  s.issue t (fun s t => if (s.tile t).atLoopEnd then s.tileHalt t (s.tile t).pc 0x06 else f s t)

/-- Halt at the present instruction. -/
def State.trapAt (s : State) (t cause : Nat) : State := s.tileHalt t (s.tile t).pc cause

/-! Local memory (R143, R149, R388, R389). -/

/-- The device address of a local access whose every byte R143 permits: data memory, for loads accumulator memory after it, and the
brood's memory. -/
def localDev (t a n : Nat) (store : Bool) : Option Nat :=
  if a + n ≤ (if store then 0x10000 else 0x18000) then some (tileAddr t a)
  else if 0x40000 ≤ a ∧ a + n ≤ 0x80000 then some (broodAddr (tileBrood t) (a - 0x40000))
  else none

/-- `n` bytes from a device address, with zeros in place of the words that are uncorrectable (R388). -/
def State.peekGood (s : State) (d n : Nat) : List Byte :=
  let bad := (s.sramErrs d n).filter (fun e => e.2.bits != 1)
  (List.range n).map (fun i => if bad.any (fun e => decide (e.1 ≤ d + i) && decide (d + i < e.1 + 8)) then 0#8 else s.peek (d + i))

/-- Load bytes from local address `a`: the halt cause, or the bytes. -/
def State.tileLoad (s : State) (t a n align : Nat) : Except Nat (List Byte) × State :=
  if a % align ≠ 0 then (.error 0x03, s)
  else match localDev t a n false with
    | none => (.error 0x04, s)
    | some d =>
      let old := s.peekGood d n
      let inData := (s.sramErrs d n).any (fun e => e.2.bits != 1 && decide (e.1 < tileAddr t 0x10000))
      match s.sramRead (mDma t) true d n with
      | (some b, s) => (.ok b, s)
      | (none, s) =>
        if a < 0x10000 ∧ inData then (.error 0x21, s)
        else if a < 0x18000 then (.error 0x22, s)
        else (.ok old, s.markPart t 0x4012)

/-- Store bytes at local address `a`, or the halt cause. -/
def State.tileStore (s : State) (t a align : Nat) (b : List Byte) : Option Nat × State :=
  if a % align ≠ 0 then (some 0x03, s)
  else match localDev t a b.length true with
    | none => (some 0x04, s)
    | some d =>
      match s.sramWrite (mDma t) true d b with
      | (true, s) => (none, s)
      | (false, s) => if a < 0x10000 then (some 0x21, s) else (none, s.markPart t 0x4012)

/-- 32-bit little-endian words of a byte list. -/
def words32 (b : List Byte) (n : Nat) : List Nat := (List.range n).map (fun i => fieldAt b (4 * i) 4)

end Sys2Proof.Machine
end

