-- ==== Sys2Proof/Machine/Array.lean ====
section
/-! DEFINITION. The matrix array: the start of its operations, the feeder's cycle, the accumulate stage, the residue compare and
the end of a drain (chapter 03, R159 to R162, R171, R492 to R499; log entry 11). -/
namespace Sys2Proof.Machine

/-! The tiles of an array: one tile, or the 16 of a fused brood in ascending logical index (R67, R128). -/

def State.arrTiles (s : State) (t : Nat) : List Nat := if s.fused (tileBrood t) then broodTiles (tileBrood t) else [t]
/-- Feeders: the tile, or column j = 0 of a fused brood (R129). -/
def State.feeders (s : State) (t : Nat) : List Nat :=
  if s.fused (tileBrood t) then (List.range 4).map (fun i => tileOf (tileBrood t) (4 * i)) else [t]
/-- Tiles whose accumulators hold the results: the tile, or row i = 3 of a fused brood (R129). -/
def State.holders (s : State) (t : Nat) : List Nat :=
  if s.fused (tileBrood t) then (List.range 4).map (fun j => tileOf (tileBrood t) (12 + j)) else [t]

def TileState.bank (x : TileState) (b : Nat) : Bank := if b = 0 then x.bank0 else x.bank1
def TileState.setBank (x : TileState) (b : Nat) (k : Bank) : TileState :=
  if b = 0 then { x with bank0 := k } else { x with bank1 := k }
/-- The class of a bank. -/
def Bank.cls (b : Bank) : Nat := fmtCls b.dist b.fmt
/-- Effective output columns of a bank (R92, R126). -/
def Bank.cols (b : Bank) : Nat := if b.dual then 16 else clsCols b.cls
/-- The FP32 classes (R92). -/
def Bank.fp (b : Bank) : Bool := b.cls == 2 || (b.cls == 1 && b.fmt != 3)
/-- Accumulator row size in bytes (R92). -/
def Bank.rowBytes (b : Bank) : Nat := if b.cls = 1 then 256 else if b.cls = 2 then 64 else 128
/-- Mask of effective column `n` in an N mask (R106). -/
def maskedCol (nmask cls n : Nat) : Bool := bitOf nmask (if cls = 1 then n / 2 else n)
/-- The array is idle: nothing queued, loading, streaming, in flight or draining (R139, R162, R496). -/
def TileState.arrIdle (x : TileState) : Bool :=
  x.q.isEmpty && x.loads.isEmpty && x.stream.isNone && x.flight.isEmpty && x.drain.isNone
/-- Array cycles by which tile index `n` follows index 0: 2i + 34j of a fused brood, nothing on a tile alone (R130). -/
def arrOff (n : Nat) : Nat := 2 * (n / 4) + 34 * (n % 4)
/-- The tile whose feeder and queue serve tile `t`: itself, or the lead tile of its fused brood (R128). -/
def State.lead (s : State) (t : Nat) : Nat := if s.fused (tileBrood t) then tileOf (tileBrood t) 0 else t
/-- The index of tile `t` in its array. -/
def State.arrIndex (s : State) (t : Nat) : Nat := if s.fused (tileBrood t) then tileK t else 0
/-- Physical row of logical row `r` (R88). -/
def Slot.physRow (x : Slot) (r : Nat) : Nat := if r < x.spareRow then r else r + 1
/-- Physical column of logical column `c` (R88). -/
def Slot.physCol (x : Slot) (c : Nat) : Nat := if c < x.spareCol then c else c + 1
/-- Logical column on physical column `p`: nothing on the spare column, whose sum the column select drops (R88, R89, R97). -/
def Slot.logCol (x : Slot) (p : Nat) : Option Nat := (List.range 32).find? (fun c => x.physCol c == p)

/-- An array operation of tile `t` fails on tile `u`: that tile halts, and the operation stops on the whole array (R138, R175 to
R177; log entry 11). -/
def State.arrHalt (s : State) (t u pc cause : Nat) : State :=
  (s.tileHalt u pc cause).modTile t (fun x => { x with q := [], loads := [], stream := none, flight := [], drain := none })

/-- Data-memory bytes of a tile for its array; nothing where a word is uncorrectable (R388). -/
def State.dataRead (s : State) (u a n : Nat) : Option (List Byte) × State := s.sramRead (mDma u) true (tileAddr u a) n
/-- The same, where there is something to read. -/
def State.readSome (s : State) (u a n : Nat) : Option (List Byte) × State := if n = 0 then (some [], s) else s.dataRead u a n
/-- Accumulator bytes of a tile. -/
def State.accRead (s : State) (u a n : Nat) : Option (List Byte) × State := s.sramRead (mDma u) true (tileAddr u (0x10000 + a)) n
/-- Write runs of bytes from a device address; false where part of an uncorrectable word would merge. -/
def State.writeRuns (s : State) (u base : Nat) (l : List (Option Byte)) : Bool × State :=
  (byteRuns 0 l).foldl (fun (r : Bool × State) e =>
    let (ok, s) := r.2.sramWrite (mDma u) true (base + e.1) e.2
    (r.1 && ok, s)) (true, s)

/-! Weight load (R98, R99, R107, R493). -/

/-- Element size in bytes of a wide format (R94). -/
def elemBytes (f : Nat) : Nat := if f = 0x0A ∨ f = 0x0B then 2 else 1
/-- An MX format of the wide class. -/
def wideMx (f : Nat) : Bool := decide (0x0C ≤ f) && decide (f ≤ 0x10)
/-- An MX format. -/
def isMx (f : Nat) : Bool := f == 5 || f == 6 || wideMx f

/-- Bytes of a weight block with its scales (R99). -/
def blockBytes (fmt : Nat) (dist dual : Bool) : Nat :=
  if dist then (if dual then 512 else 1024)
  else if fmt ≤ 2 then 1024
  else if fmt ≤ 4 then 1024
  else if fmt ≤ 6 then 1024 + 64
  else 512 * elemBytes fmt + (if wideMx fmt then 16 else 0)

/-- A decoded element of a chunk with its scale; a masked row enters as zero (R107, R272 to R274). -/
def chunkElem (fmt km scale : Nat) (raw : Nat → Nat) (r : Nat) : Elem :=
  if bitOf km r then {}
  else if wideMx fmt then mxScale scale (decElem fmt (raw r)) else decElem fmt (raw r)

/-- What the loader takes of a block before it writes rows, from the scale bytes of a narrow block or the whole wide block `d`, and
whether an operand was substituted (R99, R272 to R277). -/
def loadSide (fmt : Nat) (dist : Bool) (km : Nat) (d : List Byte) : LoadSide × Bool :=
  match fmtCls dist fmt with
  | 1 =>
    let sc := (List.range 64).map (fun n => if fmt = 3 then 127 else fieldAt d n 1)
    ({ exps := sc.map (fun v => if fmt = 3 ∨ v = 0xff then 0 else narrowExp fmt v), scales := sc }, fmt != 3 && sc.any (· == 0xff))
  | 2 =>
    let e := elemBytes fmt
    let cols := (List.range 16).map (fun n =>
      (List.range 32).map (chunkElem fmt km (fieldAt d (512 * e + n) 1) (fun r => fieldAt d ((32 * n + r) * e) e)))
    let conv := cols.map convertChunk
    ({ exps := conv.map (·.1), sigs := conv.map (·.2) }, cols.any (fun l => l.any (·.sub)))
  | _ => ({}, false)

/-- The 32 weight words of logical row `r` from the row's bytes `d` (R90, R99, R107). -/
def rowWords (fmt : Nat) (dist dual : Bool) (km : Nat) (x : LoadSide) (d : List Byte) (r : Nat) : List Nat :=
  let byte (i : Nat) : Nat := fieldAt d i 1
  let gate (f : Nat → Nat) : List Nat := (List.range 32).map (fun c => if bitOf km r then 0 else f c)
  match fmtCls dist fmt with
  | 1 =>
    let w5 (n : Nat) : Nat :=
      if fmt != 3 && x.scales.getD n 0 == 0xff then 0 else twos 5 (narrowInt fmt (byte (n / 2) / 16 ^ (n % 2) % 16))
    gate (fun c => w5 (2 * c) + 32 * w5 (2 * c + 1))
  | 2 =>
    let sig (k n : Nat) : Nat := twos 16 ((x.sigs.getD n []).getD k 0)
    let part (k c : Nat) : Nat := if c % 2 = 0 then sig k (c / 2) / 256 else sig k (c / 2) % 256
    (List.range 32).map (fun c => part (r / 2 * 2) c + 256 * part (r / 2 * 2 + 1) c)
  | _ => gate (fun c =>
    let v := byte (if dual then c % 16 else c)
    if fmt = 1 then twos 16 (sext 8 v) else v)

/-- The weight of effective K row `r` and column `n` as the cells multiply it (R90, R94, R277). -/
def Bank.weight (b : Bank) (r n : Nat) : Int :=
  let w (c : Nat) : Nat := (FMap.get 0#16 b.words (32 * r + c)).toNat
  match b.cls with
  | 1 => sext 5 (w (n / 2) / 32 ^ (n % 2))
  | 2 => sext 16 (256 * (w (2 * n) / 256 ^ (r % 2) % 256) + w (2 * n + 1) / 256 ^ (r % 2) % 256)
  | _ => sext 16 (w n)

/-- The header that a load sets in its bank as it starts there (R91). -/
def Bank.head (b : Bank) (o : LoadOp) (n : Nat) : Bank :=
  { b with fmt := o.fmt, dist := o.dist, dual := o.dual, loaded := true, kmask := BitVec.ofNat 32 (o.masks.getD n (0, 0)).1,
           nmask := BitVec.ofNat 32 (o.masks.getD n (0, 0)).2 }
/-- The bank once row `r` is written: its words, and the row's residue over the unmasked columns (R98, R491 to R494). -/
def Bank.putRow (b : Bank) (r : Nat) (ws : List Nat) : Bank :=
  let b1 := { b with words := ws.zipIdx.foldl (fun m (e : Nat × Nat) => FMap.set 0#16 m (32 * r + e.2) (BitVec.ofNat 16 e.1)) b.words }
  let cols := (List.range b.cols).filter (fun n => !maskedCol b.nmask.toNat b.cls n)
  let w := if b.kmask.getLsbD r then 0 else residue (cols.foldl (fun a n => a + b1.weight r n) 0)
  { b1 with resid := FMap.set 0 b.resid r w }
/-- The bank that a load of one whole block leaves: side information from `x`, the bytes of row `r` from `rows r`. -/
def Bank.loadAll (b : Bank) (o : LoadOp) (n : Nat) (x : LoadSide) (rows : Nat → List Byte) : Bank :=
  (List.range 32).foldl (fun b r => b.putRow r (rowWords o.fmt o.dist o.dual (o.masks.getD n (0, 0)).1 x (rows r) r))
    { b.head o n with colExp := x.exps.zipIdx.foldl (fun m (e : Int × Nat) => FMap.set 0 m e.2 e.1) [] }

/-- Where the loader reads what it needs ahead of the rows: offset in the block and size (R99). -/
def LoadOp.sideAt (o : LoadOp) : Nat × Nat :=
  match fmtCls o.dist o.fmt with
  | 1 => if o.fmt = 3 then (0, 0) else (1024, 64)
  | 2 => (0, blockBytes o.fmt o.dist o.dual)
  | _ => (0, 0)
/-- Bytes of one K row in the block, read in the cycle that writes it; none in the wide class (R99, R171). -/
def LoadOp.rowBytes (o : LoadOp) : Nat := if fmtCls o.dist o.fmt = 2 then 0 else if o.dual then 16 else 32

/-- Change a load in progress of the array of tile `t`. -/
def State.modLoad (s : State) (t : Nat) (o : LoadOp) (f : LoadOp → LoadOp) : State :=
  s.modTile t (fun x => { x with loads := x.loads.map (fun q => if q.start = o.start then f q else q) })

/-- The load starts on tile `u`, index `n`: its header, scales and wide block are read, and the bank is named (R91, R99). -/
def State.loadBegin (s : State) (t : Nat) (o : LoadOp) (u n : Nat) : Option LoadSide × State :=
  match s.readSome u (o.src + o.sideAt.1) o.sideAt.2 with
  | (none, s) => (none, s.arrHalt t u o.pc 0x21)
  | (some d, s) =>
    let x := loadSide o.fmt o.dist (o.masks.getD n (0, 0)).1 d
    let s := s.modLoad t o (fun q => { q with side := FMap.set {} q.side n x.1 })
    let s := s.modTile u (fun y =>
      let b : Bank := { (y.bank o.bank).head o n with colExp := x.1.exps.zipIdx.foldl (fun m (e : Int × Nat) => FMap.set 0 m e.2 e.1) [] }
      { (y.setBank o.bank b) with loadBank := o.bank })
    (some x.1, if x.2 then s.cnt F.ARR_VIOL_SUBST u else s)

/-- What the loader holds beside the rows, read as row 0 is due. -/
def State.sideFor (s : State) (t : Nat) (o : LoadOp) (u n r : Nat) : Option LoadSide × State :=
  if r = 0 then s.loadBegin t o u n else (some (FMap.get {} o.side n), s)

/-- A load writes K row `r` into the bank of tile `u`, index `n` (R98, R107); the first uncorrectable byte halts. Answers whether
the array goes on. -/
def State.loadRow (s : State) (t : Nat) (o : LoadOp) (u n r : Nat) : Bool × State :=
  match s.sideFor t o u n r with
  | (none, s) => (false, s)
  | (some x, s) =>
    match s.readSome u (o.src + r * o.rowBytes) o.rowBytes with
    | (none, s) => (false, s.arrHalt t u o.pc 0x21)
    | (some d, s) =>
      (true, s.modTile u (fun y => y.setBank o.bank
        ((y.bank o.bank).putRow r (rowWords o.fmt o.dist o.dual (o.masks.getD n (0, 0)).1 x d r))))

/-- One array cycle `c` of the weight loads of an array: each tile writes the row that is due on it (R98, R130). -/
def State.loadStep (s : State) (t c : Nat) : State :=
  (runAll (fun (e : (Nat × Nat) × LoadOp) (s : State) =>
      let l := e.2.start + arrOff e.1.2
      if c < l ∨ l + 32 ≤ c then (true, s) else s.loadRow t e.2 e.1.1 e.1.2 (c - l))
    ((s.tile t).loads.flatMap (fun o => (s.arrTiles t).zipIdx.map (fun e => (e, o)))) s).2

/-- The load is complete on every tile after array cycle `c`. -/
def LoadOp.ends (o : LoadOp) (c : Nat) : Bool := decide (o.start + arrOff (o.masks.length - 1) + 32 ≤ c)

/-- A weight format of its class (R92, R94). -/
def weightFmt (dist : Bool) (f : Nat) : Bool :=
  if dist then f == 1 || f == 2 else f == 1 || f == 3 || f == 5 || f == 6 || (decide (8 ≤ f) && decide (f ≤ 0x10))

/-- A WLD is taken from the queue and starts (R95, R98, R160). DESIGN CHOICE (log entry 36): cause 0x10 is checked before 0x11. -/
def State.startLoad (s : State) (t : Nat) (o : ArrOp) : State :=
  let ctl := o.ctl.toNat
  let bank := bitsOf ctl 9 9; let fmt := bitsOf ctl 8 4; let dual := bitOf ctl 3; let dist := bitOf ctl 2
  let a := o.a.toNat; let fused := s.fused (tileBrood t)
  if (dual && !dist) || !weightFmt dist fmt then s.arrHalt t t o.pc 0x10
  else if a % 32 ≠ 0 ∨ a + blockBytes fmt dist dual > 0x10000 then s.arrHalt t t o.pc 0x11
  else
    let run (masks : List (Nat × Nat)) (s : State) : State :=
      let l : LoadOp := { start := (s.tile t).cyc, bank := bank, fmt := fmt, dist := dist, dual := dual, src := a, masks := masks,
                          pc := o.pc }
      s.modTile t (fun x => { (x.setBank bank ((x.bank bank).head l 0)) with
        q := x.q.drop 1, loads := x.loads ++ [l], loadBank := bank })
    if fused then
      if o.b.toNat % 32 ≠ 0 ∨ o.b.toNat + 32 > 0x10000 ∨ o.c ≠ 0#32 then s.arrHalt t t o.pc 0x11
      else match s.dataRead t o.b.toNat 32 with
        | (none, s) => s.arrHalt t t o.pc 0x21
        | (some m, s) =>
          run ((List.range 16).map (fun i => (fieldAt m (4 * (i / 4)) 4, fieldAt m (16 + 4 * (i % 4)) 4))) s
    else run [(o.b.toNat, o.c.toNat)] s

/-! Stream start (R94, R95, R103, R127, R138, R160). -/

/-- The operation and the activation format match the bank's row of the class table (R92, R94). -/
def Bank.accepts (b : Bank) (op afmt : Nat) : Bool :=
  match b.cls with
  | 0 => op == 0 && (afmt == 1 || afmt == 2)
  | 1 => op == 0 && (if b.fmt = 3 then afmt == 3 || afmt == 4 else afmt == 5 || afmt == 6)
  | 2 => op == 0 && decide (8 ≤ afmt) && decide (afmt ≤ 0x10)
  | _ => decide (1 ≤ op) && decide (op ≤ 5) && afmt == b.fmt

/-- Bytes of one activation vector (R94). -/
def vecBytes (f : Nat) : Nat := if f ≤ 2 then 32 else if f ≤ 6 then 16 else 32 * elemBytes f

/-- An ASTR is taken from the queue: its register operands are checked and the stream becomes the one that accepts beats. DESIGN
CHOICE (log entry 36): where several conditions hold at once, the cause is the first of 0x11, 0x12, 0x10, 0x14, 0x16. -/
def State.startStream (s : State) (t : Nat) (o : ArrOp) : State :=
  let ctl := o.ctl.toNat; let b := o.b.toNat; let c := o.c.toNat; let a := o.a.toNat
  let stride := bitsOf b 31 16; let count := bitsOf b 9 0
  let scale := bitsOf c 31 16; let row := bitsOf c 8 0
  let bank := bitsOf ctl 9 9; let op := bitsOf ctl 8 6; let afmt := bitsOf ctl 4 0
  let bk := (s.tile t).bank bank
  if a % 16 ≠ 0 ∨ stride % 16 ≠ 0 ∨ bitsOf b 15 10 ≠ 0 ∨ bitsOf c 15 9 ≠ 0 ∨ count = 0 ∨ count > 512 ∨
      a + (count - 1) * stride + vecBytes afmt > 0x10000 ∨ (isMx afmt ∧ scale + count > 0x10000) then
    s.arrHalt t t o.pc 0x11
  else if !bk.loaded then s.arrHalt t t o.pc 0x12
  else if !bk.accepts op afmt then s.arrHalt t t o.pc 0x10
  else if bk.dist ∧ !bk.dual ∧ !(s.tile t).job.qm then s.arrHalt t t o.pc 0x14
  else if row + count > 0x8000 / bk.rowBytes then s.arrHalt t t o.pc 0x16
  else
    (s.each (s.arrTiles t) (fun s u => (s.wr F.ARR_STATUS_AFMT afmt u).wr F.ARR_STATUS_OP op u)).modTile t (fun x =>
      { x with q := x.q.drop 1,
               stream := some { src := a, stride := stride, count := count, scale := scale, row := row, bank := bank, op := op,
                                add := bitOf ctl 5, afmt := afmt, pc := o.pc, ord := o.ord },
               drainFp := bk.fp, drainRow := bk.rowBytes, drainCols := bk.cols })

/-! Drain start (R120, R121, R123, R138). -/

/-- Read and check the drain descriptor of every draining tile: nothing where a tile halts. -/
def State.readDescs (t pc desc cols : Nat) (fp : Bool) : List Nat → State → Option (List (List Byte)) × State
  | [], s => (some [], s)
  | u :: r, s =>
    match s.dataRead u desc 32 with
    | (none, s) => (none, s.arrHalt t u pc 0x21)
    | (some h, s) =>
      let n := descSize h cols
      if desc + n > 0x10000 then (none, s.arrHalt t u pc 0x11)
      else match s.dataRead u desc n with
        | (none, s) => (none, s.arrHalt t u pc 0x21)
        | (some d, s) =>
          if !descOk fp cols d then (none, s.arrHalt t u pc 0x13)
          else
            let (q, s) := State.readDescs t pc desc cols fp r s
            (q.map (fun l => d :: l), s)

/-- An ADRN is taken from the queue and its drain begins. -/
def State.startDrain (s : State) (t : Nat) (o : ArrOp) : State :=
  let ctl := o.ctl.toNat; let b := o.b.toNat; let c := o.c.toNat; let a := o.a.toNat
  let stride := bitsOf b 31 16; let count := bitsOf b 9 0
  let desc := bitsOf c 31 16; let row := bitsOf c 8 0
  let x := s.tile t
  if a % 32 ≠ 0 ∨ a ≥ 0x10000 ∨ stride % 32 ≠ 0 ∨ bitsOf b 15 10 ≠ 0 ∨ bitsOf c 15 9 ≠ 0 ∨ count = 0 ∨ count > 512 ∨
      desc % 32 ≠ 0 ∨ desc + 32 > 0x10000 then s.arrHalt t t o.pc 0x11
  else if row + count > 0x8000 / x.drainRow then s.arrHalt t t o.pc 0x16
  else match State.readDescs t o.pc desc x.drainCols x.drainFp (s.holders t) s with
    | (none, s) => s
    | (some ds, s) =>
      if ds.any (fun d => decide (a + (count - 1) * stride + outRow (fieldAt d 0 1) x.drainCols > 0x10000)) then
        s.arrHalt t t o.pc 0x11
      else s.modTile t (fun y =>
        { y with q := y.q.drop 1,
                 drain := some { dst := a, stride := stride, count := count, desc := desc, row := row, zero := bitOf ctl 9,
                                 sig := if bitOf ctl 8 then some (bitsOf ctl 4 0) else none, fp := x.drainFp,
                                 rowBytes := x.drainRow, cols := x.drainCols, pc := o.pc, ord := o.ord, descs := ds,
                                 readFrom := x.cyc + 1 + (if ds.any (fun d => bitOf (fieldAt d 1 1) 2) then x.drainCols + 1 else 2) / 2,
                                 reads := ds.map (fun _ => 0) } })

/-- The operation at the head of the queue may start now: a load behind the last use of its bank and the end of the previous load,
one stream and one drain at a time (R100, R104). -/
def TileState.canStart (x : TileState) (o : ArrOp) : Bool :=
  match o.kind with
  | 0 =>
    let bank := bitsOf o.ctl.toNat 9 9
    let last := FMap.get 0 x.lastBeat bank
    (match x.stream with
     | some st => st.bank != bank
     | none => true) &&
    (last == 0 || decide (last + 34 ≤ x.cyc)) && x.loads.all (fun l => decide (l.start + 32 ≤ x.cyc))
  | 1 => x.stream.isNone
  | _ => x.drain.isNone

/-- An array operation leaves the queue and starts (R160, R162). -/
def State.arrayOpStart (s : State) (t : Nat) : State :=
  let x := s.tile t
  match x.q with
  | [] => s
  | o :: _ =>
    if !x.canStart o then s
    else match o.kind with
      | 0 => s.startLoad t o
      | 1 => s.startStream t o
      | _ => s.startDrain t o

/-! The feeder (R94, R96, R101, R132, R134 to R136, R494). -/

/-- The activation elements of one chunk as the cells receive them, their exponent, and whether an operand was substituted. -/
def actChunk (afmt km scale : Nat) (d : List Byte) : List Int × Int × Bool :=
  let keep (l : List Int) : List Int := l.zipIdx.map (fun e => if bitOf km e.2 then 0 else e.1)
  if afmt ≤ 2 then
    (keep ((List.range 32).map (fun r => let v := fieldAt d r 1; if afmt = 1 then sext 8 v else (v : Int))), 0, false)
  else if afmt ≤ 6 then
    if isMx afmt && scale == 0xff then (List.replicate 32 0, 0, true)
    else (keep ((List.range 32).map (fun r => narrowInt afmt (fieldAt d (r / 2) 1 / 16 ^ (r % 2) % 16))), narrowExp afmt scale, false)
  else
    let e := elemBytes afmt
    let es := (List.range 32).map (chunkElem afmt km scale (fun r => fieldAt d (r * e) e))
    let (x, l) := convertChunk es
    (l, x, es.any (·.sub))

/-- The feeder of tile `u` reads and converts its chunk of vector `f` (R94, R96, R130). -/
def State.readChunk (s : State) (t : Nat) (f : InFlight) (u : Nat) : Option (List Int × Int) × State :=
  match s.dataRead u f.src (vecBytes f.afmt) with
  | (none, s) => (none, s.arrHalt t u f.pc 0x21)
  | (some d, s) =>
    match s.readSome u f.scale (b2n (isMx f.afmt)) with
    | (none, s) => (none, s.arrHalt t u f.pc 0x21)
    | (some sc, s) =>
      let (l, e, sub) := actChunk f.afmt ((s.tile u).bank f.bank).kmask.toNat (fieldAt sc 0 1) d
      (some (l, e), if sub then s.cnt F.ARR_VIOL_SUBST u else s)

/-- Exact chunk sums of every logical column of a bank for one chunk (R92, R110, R125). -/
def Bank.sums (b : Bank) (op : Nat) (acts : List Int) : List Int :=
  let rows := acts.zipIdx.filter (fun e => !b.kmask.getLsbD e.2)
  (List.range (clsCols b.cls)).map (fun n => colSum op (rows.map (fun e => (e.1, b.weight e.2 n))))
/-- The prediction p of one chunk (R494). -/
def Bank.predict (b : Bank) (acts : List Int) : Nat :=
  (acts.zipIdx.foldl (fun a e => a + residue e.1 * FMap.get 0 b.resid e.2) 0) % 4095

/-- The feeder accepts a real beat in array cycle `c`: the first beat of a vector sends it into the array (R94, R96). -/
def State.acceptBeat (s : State) (t : Nat) (st : StreamOp) (c : Nat) : State :=
  let bk := (s.tile t).bank st.bank
  let beats := if fmtCls bk.dist st.afmt = 2 then 2 else 1
  let last := decide (beats ≤ st.beat + 1)
  let f : InFlight :=
    { first := c, cyc := c, full := last, row := st.row + st.next, vec := st.next, bank := st.bank, op := st.op, add := st.add,
      afmt := st.afmt, src := st.src + st.next * st.stride, scale := st.scale + st.next, wfmt := bk.fmt, dual := bk.dual,
      pc := st.pc, ord := st.ord }
  s.modTile t (fun x =>
    { x with lastBeat := FMap.set 0 x.lastBeat st.bank (c + 1)
             rowBeat := if last then FMap.set 0 x.rowBeat f.row (c + 1) else x.rowBeat
             flight := if st.beat = 0 then x.flight ++ [f]
               else updFirst (fun g => !g.full) (fun g => { g with cyc := c, full := last }) x.flight
             stream := if !last then some { st with beat := st.beat + 1 }
               else if st.next + 1 = st.count then none else some { st with next := st.next + 1, beat := 0 } })

/-- Rows `[a, a + n)` of `k` bytes and `[b, b + m)` of `l` bytes share a byte of the accumulator memory (R92). -/
def rowsMeet (a n k b m l : Nat) : Bool := decide (a * k < (b + m) * l) && decide (b * l < (a + n) * k)

/-- A beat of the stream may be accepted in array cycle `c`: not before the load of its bank (R101), nor a row's last writer in a
fused ADD (R132), nor while a drain issued before it has that row to read (R104; log entry 11). -/
def TileState.beatReady (x : TileState) (fused : Bool) (st : StreamOp) (c : Nat) : Bool :=
  x.loads.all (fun l => l.bank != st.bank || decide (l.start + 1 ≤ c)) &&
  (let r := FMap.get 0 x.rowBeat (st.row + st.next)
   !(fused && st.add) || r == 0 || decide (r + 8 ≤ c)) &&
  (match x.drain with
   | some d => decide (st.ord < d.ord) || d.reads.all (fun n =>
       !rowsMeet (st.row + st.next) 1 (x.bank st.bank).rowBytes (d.row + n) (d.count - n) d.rowBytes)
   | none => true)

/-- The activity level in array cycle `c` (R134). -/
def rampLevel (level k c : Nat) (pending : Bool) : Nat :=
  if (c + 16 - k) % 16 = 0 then (if pending then Nat.min (level + 1) 4 else level - 1) else level

/-- Count what a feeder record says on tile `u`: its level, and its beats and stall where it is a feeder (R134 to R136, R139). DESIGN
CHOICE (log entry 36): in a fused brood only the four feeder tiles (j = 0) count beats and stalls. -/
def State.noteFeed (s : State) (u : Nat) (r : FeedRec) (feeder : Bool) : State :=
  let s := s.modTile u (fun y => { y with level := r.level })
  if !feeder then s
  else
    let s := if r.real then s.cnt F.ARR_ACTIVE_BEATS u else s
    let s := if r.ballast then s.cnt F.ARR_BALLAST_BEATS u else s
    if r.stall then s.cnt F.ARR_STALL_CYCLES u else s

/-- The feeder of an array in array cycle `c`; the other tiles of a fused brood follow it 2i + 34j cycles later (R134 to R136). -/
def State.feed (s : State) (t c : Nat) : State :=
  let x := s.tile t
  let fused := s.fused (tileBrood t)
  let k := tileK t
  let pending := x.stream.isSome || x.q.any (fun o => o.kind == 1)
  let level := rampLevel x.level k c pending
  let allowed := decide ((c + 16 - k) % 4 < level)
  let take := match x.stream with
    | some st => allowed && x.beatReady fused st c
    | none => false
  let r : FeedRec := { level := level, real := take, ballast := allowed && !take, stall := pending && !take }
  let hist := if fused then r :: x.hist.take 108 else []
  let s := s.modTile t (fun y => { y with hist := hist })
  let s := s.each (s.arrTiles t).zipIdx (fun s e =>
    s.noteFeed e.1 (if e.2 = 0 then r else hist.getD (arrOff e.2) {}) (e.2 % 4 == 0))
  match x.stream with
  | some st => if take then s.acceptBeat t st c else s
  | none => s

/-- Vector `f` in array cycle `c` on tile index `n`, whose slot and bank are given: it meets the bank's header as it is accepted
there, each weight word as it passes the word's cell, and a row's residue with the row's first cell (R96, R102, R130, R494). -/
def InFlight.meet (f : InFlight) (x : Slot) (b : Bank) (n c : Nat) : InFlight :=
  let a := f.cyc + arrOff n
  if !f.full ∨ c < a ∨ a + 66 < c then f
  else if c = a then { f with banks := FMap.set {} f.banks n { b with words := [], resid := [] } }
  else
    let rows := (List.range 32).filterMap (fun r => if a + 1 + x.physRow r ≤ c then some (r, c - (a + 1 + x.physRow r)) else none)
    let got := FMap.get {} f.banks n
    let words := rows.foldl (fun m e => match x.logCol e.2 with
      | some k => FMap.set 0#16 m (32 * e.1 + k) (FMap.get 0#16 b.words (32 * e.1 + k))
      | none => m) got.words
    let resid := rows.foldl (fun m e => if e.2 = 0 then FMap.set 0 m e.1 (FMap.get 0 b.resid e.1) else m) got.resid
    { f with banks := FMap.set {} f.banks n { got with words := words, resid := resid } }

/-- Tile `u`, index `n`, notes the bank of a vector whose first beat it treats as accepted in array cycle `c` (R130, R139). -/
def State.noteBank (s : State) (u n c : Nat) (f : InFlight) : State :=
  if c = f.first + arrOff n then s.modTile u (fun y => { y with lastBank := f.bank }) else s

/-- One array cycle of one vector on tile `u`, index `n`: it meets the bank, and a feeder reads its chunk as it accepts the first
beat (R96, R130). Nothing where the read halts. -/
def State.flyTile (s : State) (t c u n : Nat) (f : InFlight) : Option InFlight × State :=
  let s := s.noteBank u n c f
  let g := f.meet (s.slot (s.physTile u)) ((s.tile u).bank f.bank) n c
  if n % 4 = 0 ∧ c = f.first + arrOff n then
    match s.readChunk t f u with
    | (none, s) => (none, s)
    | (some ch, s) => (some { g with chunks := g.chunks ++ [ch] }, s)
  else (some g, s)

/-- One array cycle of one vector. -/
def State.flyVec (s : State) (t c : Nat) (f : InFlight) : Option InFlight × State :=
  (s.arrTiles t).zipIdx.foldl (fun (r : Option InFlight × State) e =>
    match r with
    | (none, s) => (none, s)
    | (some f, s) => s.flyTile t c e.1 e.2 f) (some f, s)

/-- One array cycle of every vector between feeder and checker. -/
def State.flyStep (s : State) (t c : Nat) : State :=
  (runAll (fun (k : Nat) (s : State) =>
      match (s.tile t).flight[k]? with
      | none => (true, s)
      | some f =>
        match s.flyVec t c f with
        | (none, s) => (false, s)
        | (some g, s) => (true, s.modTile t (fun y => { y with flight := y.flight.set k g })))
    (List.range (s.tile t).flight.length) s).2

/-! The accumulate stage (R97, R115 to R118, R126, R131, R495). -/

/-- What the accumulate stage of one tile makes of one vector. -/
structure AccRes where
  a : List Nat := []
  b : List Nat := []
  sat : Bool := false
  sub : Nat := 0
  deriving DecidableEq, Repr

/-- Logical columns of a vector in flight. -/
def InFlight.cls (f : InFlight) : Nat := fmtCls (f.op != 0) f.wfmt
def InFlight.logCols (f : InFlight) : Nat := clsCols f.cls
/-- Effective columns of a vector in flight. -/
def InFlight.cols (f : InFlight) : Nat := if f.dual then 16 else f.logCols
def InFlight.fp (f : InFlight) : Bool := f.cls == 2 || (f.cls == 1 && f.wfmt != 3)
def InFlight.rowBytes (f : InFlight) : Nat := if f.cls = 1 then 256 else if f.cls = 2 then 64 else 128
/-- The bank of tile index `n` as the vector has met it. -/
def InFlight.bankOn (f : InFlight) (n : Nat) : Bank := FMap.get {} f.banks n
/-- Activations and exponent of the chunk that tile index `n` multiplies. -/
def InFlight.chunk (f : InFlight) (n : Nat) : List Int × Int := f.chunks.getD (n / 4) ([], 0)
/-- Exact chunk sums of tile index `n` (R92, R125). -/
def InFlight.sumsOn (f : InFlight) (n : Nat) : List Int := (f.bankOn n).sums f.op (f.chunk n).1
/-- Predicted residue of tile index `n` (R494). -/
def InFlight.predOn (f : InFlight) (n : Nat) : Nat := (f.bankOn n).predict (f.chunk n).1
/-- Effective column `m` is masked on tile index `n`. -/
def InFlight.masked (f : InFlight) (n m : Nat) : Bool := maskedCol (f.bankOn n).nmask.toNat f.cls m
/-- What the accumulate stage of tile index `n` made of the vector, once it has. -/
def InFlight.accOn (f : InFlight) (n : Nat) : Option TileSums := FMap.get none f.acc n

/-- The accumulate of tile index `n` on its carry (R115, R117, R118, R126). -/
def InFlight.accTile (f : InFlight) (got : List Int) (n : Nat) (add : Bool) (carry : List Nat) : AccRes :=
  let e (m : Nat) : Int := (f.chunk n).2 + FMap.get 0 (f.bankOn n).colExp m
  let l := (List.range f.cols).map (fun m =>
    let old := carry.getD m 0
    if f.masked n m then (old, old, false, 0)
    else
      let r := accCol f.fp f.op add old (got.getD m 0) (e m)
      let r2 := accCol f.fp f.op add old (got.getD (m + 16) 0) (e m)
      (r.1, if f.dual then r2.1 else r.1, r.2.1, b2n r.2.2))
  { a := l.map (·.1), b := l.map (·.2.1), sat := l.any (·.2.2.1), sub := l.foldl (fun n x => n + x.2.2.2) 0 }

/-- The two copies of a dual-checked vector differ on tile index `n` in an unmasked column (R126). -/
def InFlight.dualDiffers (f : InFlight) (got : List Int) (n : Nat) : Bool :=
  f.dual && (List.range 16).any (fun m => !f.masked n m && got.getD m 0 != got.getD (m + 16) 0)

/-- Add two lists of integers position by position, the shorter taken with zeros. -/
def addInts : List Int → List Int → List Int
  | [], _ => []
  | l, [] => l
  | a :: l, b :: m => (a + b) :: addInts l m

/-- The carry of tile index `n`: in CLEAR zeros; in ADD the accumulator row of tile row i = 3 in its column; below the first tile
row the result from the north (R115, R131). Nothing where the row is uncorrectable. -/
def State.carryOf (s : State) (f : InFlight) (hs : List Nat) (n : Nat) : Option (List Nat) × State :=
  if 4 ≤ n then (some (match f.accOn (n - 4) with
    | some x => x.res
    | none => []), s)
  else if !f.add then (some (List.replicate f.cols 0), s)
  else match s.accRead (hs.getD n 0) (f.row * f.rowBytes) (4 * f.cols) with
    | (none, s) => (none, s)
    | (some d, s) => (some (words32 d f.cols), s)

/-- Write one result row; a masked column keeps its value (R108). -/
def State.putRow (s : State) (f : InFlight) (u i : Nat) (vals : List Nat) : Bool × State :=
  s.writeRuns u (tileAddr u (0x10000 + f.row * f.rowBytes))
    (((List.range f.cols).map (fun n => if f.masked i n then List.replicate 4 (none : Option Byte)
      else (natLe 4 (vals.getD n 0)).map some)).flatten)

/-- Change the first vector in flight of an array that satisfies `p`. -/
def State.modVec (s : State) (t : Nat) (p : InFlight → Bool) (g : InFlight → InFlight) : State :=
  s.modTile t (fun y => { y with flight := updFirst p g y.flight })

/-- The vector that reaches the accumulate stage of tile index `n` next. -/
def TileState.nextAcc (x : TileState) (n : Nat) : Option InFlight := x.flight.find? (fun f => (f.accOn n).isNone)
/-- Vector `f` is due at the accumulate stage of tile index `n`, and its result from the north is there (R97, R130, R131). -/
def InFlight.accDue (f : InFlight) (n c : Nat) : Bool :=
  f.full && decide (f.cyc + arrOff n + 67 ≤ c) && (decide (n < 4) || (f.accOn (n - 4)).isSome)
/-- Tile index `n` of an array of `k` tiles writes the result: the tile, or tile row i = 3 (R129, R131). -/
def writesRow (k n : Nat) : Bool := decide (k ≤ n + 4)

/-- A vector reaches the accumulate stage of tile `u` with hardware errors `err` in its sums, or with `err` in shadow copy A (R97,
R130, R131, R494, R495). -/
def State.vectorAccumulate (s : State) (u : Nat) (err : List Int) (shadow : Bool) : State :=
  let t := s.lead u
  let n := s.arrIndex u
  let x := s.tile t
  match x.nextAcc n with
  | none => s
  | some f =>
    if !f.accDue n x.cyc then s
    else match s.carryOf f (s.holders t) n with
      | (none, s) => s.arrHalt t ((s.holders t).getD n 0) f.pc 0x22
      | (some carry, s) =>
        let got := if shadow then f.sumsOn n else addInts (f.sumsOn n) err
        let r := f.accTile got n (f.add || decide (4 ≤ n)) carry
        let errA := shadow && err.any (· != 0)
        let stop := f.stop || errA || f.dualDiffers got n
        let y : TileSums :=
          { got := got, carry := carry, shadow := errA,
            res := if errA then (addInts (r.a.map Int.ofNat) err).map (twos 32) else r.a, resB := if f.dual then r.b else r.a }
        let s := s.modVec t (fun g => (g.accOn n).isNone) (fun g => { g with acc := FMap.set none g.acc n (some y), stop := stop })
        if stop then s
        else
          let s := if r.sat then (s.wr F.ARR_STATUS_ACC_SAT 1 u).cnt F.ARR_SAT_COUNT_ACC u else s
          let s := if r.sub = 0 then s else s.cnt F.ARR_VIOL_SUBST u r.sub
          if writesRow (s.arrTiles t).length n then
            match s.putRow f u n r.a with
            | (true, s) => s
            | (false, s) => s.arrHalt t u f.pc 0x22
          else s

/-! The residue compare (R494 to R499). -/

/-- The residue of the unmasked chunk sums of tile index `n`. -/
def InFlight.q (f : InFlight) (n : Nat) (y : TileSums) : Nat :=
  residue (((List.range f.cols).filter (fun m => !f.masked n m)).foldl (fun a m => a + y.got.getD m 0) 0)

/-- The capture of tile index `n` of a vector (R507). -/
def InFlight.cap (f : InFlight) (y : TileSums) (u n code pred : Nat) : CapIn :=
  let b := f.bankOn n
  { code := code, tile := u, afmt := f.afmt, op := f.op, ord := f.ord, index := f.vec, bank := f.bank,
    aexp := (f.chunk n).2, pred := pred, q := if code = 0x2001 then f.q n y else 0, kmask := b.kmask.toNat,
    nmask := b.nmask.toNat, elems := (f.chunk n).1,
    words := (List.range 1024).map (fun k => (FMap.get 0#16 b.words k).toNat),
    resid := (List.range 32).map (fun r => FMap.get 0 b.resid r), colExp := (List.range f.cols).map (fun m => FMap.get 0 b.colExp m),
    sums := y.got, narrow := f.cls == 1, carry := y.carry, resA := y.res, resB := if code = 0x2001 then [] else y.resB }

/-- The code of the check that tile index `n` fails on a vector, 0 when all agree. -/
def InFlight.verdict (f : InFlight) (n : Nat) (y : TileSums) (pred : Nat) : Nat :=
  if f.op = 0 ∧ pred ≠ f.q n y then 0x2001
  else if f.dualDiffers y.got n then 0x2002
  else if y.shadow then 0x2003
  else 0

/-- The vector that the checker of tile index `n` compares next. -/
def TileState.nextCmp (x : TileState) (n : Nat) : Option InFlight :=
  x.flight.find? (fun f => match f.accOn n with
    | some y => !y.compared
    | none => true)
/-- Every tile of an array of `k` tiles has compared the vector. -/
def InFlight.checked (f : InFlight) (k : Nat) : Bool :=
  (List.range k).all (fun n => match f.accOn n with
    | some y => y.compared
    | none => false)

/-- The checker of tile `u` compares its oldest vector, `err` being a hardware error in the prediction (R494 to R500). -/
def State.residueCompare (s : State) (u : Nat) (err : Nat) : State :=
  let t := s.lead u
  let n := s.arrIndex u
  let x := s.tile t
  match x.nextCmp n with
  | none => s
  | some f =>
    match f.accOn n with
    | none => s
    | some y =>
      if x.cyc < f.cyc + arrOff n + 70 then s
      else
        let k := (s.arrTiles t).length
        let g := { f with acc := FMap.set none f.acc n (some { y with compared := true }) }
        let s := s.modTile t (fun z => { z with
          flight := if g.checked k then delFirst (· == f) z.flight else updFirst (· == f) (fun _ => g) z.flight })
        let pred := (f.predOn n + err) % 4095
        match f.verdict n y pred with
        | 0 => s.arbitrate u f.ord f.vec y.got (f.q n y) y.res
        | code => s.mismatch (f.cap y u n code pred)

/-! The drain (R120 to R124, R162). -/

/-- The converted values of an accumulator row: value and drain_sat of each column; nothing for a masked column. An infinity or
NaN under an FP32 drain of a row that another class wrote has no stated value: it is free, a function of the column's operands (log
entry 5). -/
def drainRowVals (d : DrainOp) (desc : List Byte) (vals : List Nat) : List (Option (Nat × Bool)) :=
  let f (i j : Nat) : Nat := fieldAt desc i j
  vals.zipIdx.map (fun e =>
    if bitOf (f 16 4) (if d.rowBytes = 256 then e.2 / 2 else e.2) then none
    else if d.fp && (fIsNan e.1 || fIsInf e.1) then
      let x := descEntry desc e.2
      let y := Config.freeDrain e.1 (f 0 1) x.mult x.bias (f 8 4) (f 12 4)
      some (y.1.toNat % 2 ^ outBits (f 0 1), y.2)
    else some (drainVal d.fp (f 0 1) (f 1 1 % 4) (f 4 4) (f 8 4) (f 12 4) (descEntry desc e.2) e.1))

/-- The bytes a drained row writes over the old bytes of its place; nothing where a byte is untouched. DESIGN CHOICE (log entry 36):
INT4 outputs are packed low nibble first, as R94 packs inputs, and a masked half keeps its old nibble. -/
def drainBytes (bits : Nat) (old : List Byte) (vals : List (Option (Nat × Bool))) : List (Option Byte) :=
  if bits = 4 then
    (List.range (vals.length / 2)).map (fun i =>
      let o := fieldAt old i 1
      match vals.getD (2 * i) none, vals.getD (2 * i + 1) none with
      | none, none => none
      | a, b =>
        let lo := match a with
          | some v => v.1 % 16
          | none => o % 16
        let hi := match b with
          | some v => v.1 % 16
          | none => o / 16
        some (BitVec.ofNat 8 (lo + 16 * hi)))
  else (vals.map (fun v => match v with
    | some v => (natLe (bits / 8) v.1).map some
    | none => List.replicate (bits / 8) none)).flatten

/-- The converted row as a number per column, 0 where a column is masked. -/
def DrainOp.results (d : DrainOp) (desc : List Byte) (vals : List Nat) : List Nat :=
  (drainRowVals d desc vals).map (fun o => match o with
    | some v => v.1
    | none => 0)
/-- The tile and the descriptor of a row that a drain has read. -/
def State.rowAtHolder (s : State) (t : Nat) (d : DrainOp) (e : DrainRow) : Nat × List Byte :=
  ((s.holders t).getD e.holder t, d.descs.getD e.holder [])

/-- A drained row is written into data memory, and zeroed where the drain says so; answers whether the array goes on (R120, R124). -/
def State.drainPut (s : State) (t : Nat) (d : DrainOp) (e : DrainRow) : Bool × State :=
  let (u, desc) := s.rowAtHolder t d e
  let outs := drainRowVals d desc e.vals
  let bits := outBits (fieldAt desc 0 1)
  let base := tileAddr u (d.dst + e.row * d.stride)
  match s.writeRuns u base (drainBytes bits (s.peekN base (d.cols * bits / 8)) outs) with
  | (false, s) => (false, s.arrHalt t u d.pc 0x21)
  | (true, s) =>
    let s := if outs.any (fun o => match o with
        | some v => v.2
        | none => false)
      then (s.wr F.ARR_STATUS_DRAIN_SAT 1 u).cnt F.ARR_SAT_COUNT_DRAIN u else s
    if d.zero then
      match s.sramWrite (mDma u) true (tileAddr u (0x10000 + (d.row + e.row) * d.rowBytes)) (zeros d.rowBytes) with
      | (true, s) => (true, s)
      | (false, s) => (false, s.arrHalt t u d.pc 0x22)
    else (true, s)

/-- Every draining tile has read all its rows. -/
def DrainOp.allRead (d : DrainOp) : Bool := d.reads.all (fun n => decide (d.count ≤ n))
/-- The row is the last of its drain: every other has been written. -/
def DrainOp.isLast (d : DrainOp) : Bool := d.allRead && decide (d.out.length ≤ 1)

/-- One array cycle of the writes of a drain: each row in the fifth cycle after its read, but for the last, which DRAIN_END writes
(R120). -/
def State.drainWrites (s : State) (t c : Nat) : Bool × State :=
  match (s.tile t).drain with
  | none => (true, s)
  | some d0 => runAll (fun (e : DrainRow) (s : State) =>
      match (s.tile t).drain with
      | none => (true, s)
      | some d =>
        if c < e.cyc + 5 ∨ d.isLast then (true, s)
        else match s.drainPut t d e with
          | (false, s) => (false, s)
          | (true, s) =>
            let u := s.rowAtHolder t d e
            let s := s.modTile t (fun x => { x with drain := some { d with out := delFirst (· == e) d.out } })
            (true, s.arbitrate u.1 d.ord e.row [] 0 (d.results u.2 e.vals))) d0.out s

/-- Every write to accumulator row `m` of a drain by a stream issued before it has been made, on tile index `n`, before array cycle
`c` (R104). -/
def TileState.rowSettled (x : TileState) (d : DrainOp) (n m c : Nat) : Bool :=
  x.flight.all (fun f => decide (d.ord ≤ f.ord) || !rowsMeet f.row 1 f.rowBytes (d.row + m) 1 d.rowBytes ||
    ((f.accOn n).isSome && decide (f.cyc + arrOff n + 67 < c))) &&
  (match x.stream with
   | some st => decide (d.ord ≤ st.ord) ||
     !rowsMeet (st.row + st.next) (st.count - st.next) (x.bank st.bank).rowBytes (d.row + m) 1 d.rowBytes
   | none => true)

/-- One array cycle of the reads of a drain: each draining tile reads its next row once the row is settled (R104, R120, R121). -/
def State.drainReads (s : State) (t c : Nat) : Bool × State :=
  let k := (s.arrTiles t).length
  runAll (fun (e : Nat × Nat) (s : State) =>
    match (s.tile t).drain with
    | none => (true, s)
    | some d =>
      let m := d.reads.getD e.2 0
      if c < d.readFrom ∨ d.count ≤ m ∨ !(s.tile t).rowSettled d (k - d.reads.length + e.2) m c then (true, s)
      else match s.accRead e.1 ((d.row + m) * d.rowBytes) (4 * d.cols) with
        | (none, s) => (false, s.arrHalt t e.1 d.pc 0x22)
        | (some raw, s) => (true, s.modTile t (fun x => { x with drain := some { d with
            reads := d.reads.set e.2 (m + 1),
            out := d.out ++ [{ holder := e.2, row := m, cyc := c, vals := words32 raw d.cols }] } })))
    (s.holders t).zipIdx s

/-- One array cycle of the drain. -/
def State.drainStep (s : State) (t c : Nat) : State :=
  match s.drainWrites t c with
  | (false, s) => s
  | (true, s) => (s.drainReads t c).2

/-- One array cycle of tile `t`: the feeder, the weight loads, the vectors in the cells and the drain (R98, R96, R120, R134 to R136).
In a fused brood the lead tile's cycle is the whole array's, each tile at its offset (R130). -/
def State.feederCycle (s : State) (t : Nat) : State :=
  let c := (s.tile t).cyc
  let s := if s.fused (tileBrood t) && tileK t != 0 then s
    else (((s.feed t c).loadStep t c).flyStep t c).drainStep t c
  s.modTile t (fun x => { x with cyc := c + 1, loads := x.loads.filter (fun o => !o.ends (c + 1)) })

/-- `n` free values. -/
def State.freeNats : Nat → State → List Nat × State
  | 0, s => ([], s)
  | n + 1, s =>
    let (w, s) := s.free
    let (l, s) := State.freeNats n s
    (w.toNat :: l, s)

/-- The last row of a drain is written, unless its copies disagree. -/
def State.drainLast (s : State) (t : Nat) (d : DrainOp) (e : DrainRow) (shadow : Bool) : Bool × State :=
  if shadow then (true, s) else s.drainPut t d e

/-- The drain of tile `t` is over: its object is signalled; the last row is reported to the arbiter, or the mismatch of its copies
(R162, R495, R505). -/
def State.drainOver (s : State) (t : Nat) (d : DrainOp) (e : DrainRow) (shadow : Bool) : State :=
  let u := s.rowAtHolder t d e
  let s := s.modTile t (fun x => { x with drain := none })
  let s := match d.sig with
    | some o => s.localAdd t o 1
    | none => s
  if shadow then
    let (l, s) := State.freeNats d.cols s
    s.mismatch { code := 0x2003, tile := u.1, afmt := fieldAt u.2 0 1, op := 8, ord := d.ord, index := e.row,
                 carry := e.vals, resA := d.results u.2 e.vals, resB := l }
  else s.arbitrate u.1 d.ord e.row [] 0 (d.results u.2 e.vals)

/-- The drain makes its last write and signals its object; with `shadow` the two copies of the pipeline disagree on that row, which
is not written (R120, R162, R495). -/
def State.drainEnd (s : State) (t : Nat) (shadow : Bool) : State :=
  let x := s.tile t
  match x.drain with
  | none => s
  | some d =>
    match d.out with
    | [e] =>
      if !d.isLast || decide (x.cyc < e.cyc + 5) then s
      else match s.drainLast t d e shadow with
        | (false, s) => s
        | (true, s) => s.drainOver t d e shadow
    | _ => s

/-! The commands. -/

def execArrayOpStart (t : BitVec 11) (s : State) : Host.Outcome State Fault Refusal := done (s.arrayOpStart t.toNat)
def execFeederCycle (t : BitVec 11) (s : State) : Host.Outcome State Fault Refusal :=
  done (onlyIf (s.hosted t.toNat) s (fun s => s.feederCycle t.toNat))
def execVectorAccumulate (t : BitVec 11) (err : List Int) (shadow : Bool) (s : State) : Host.Outcome State Fault Refusal :=
  done (s.vectorAccumulate t.toNat err shadow)
def execResidueCompare (t : BitVec 11) (err : BitVec 12) (s : State) : Host.Outcome State Fault Refusal :=
  done (s.residueCompare t.toNat err.toNat)
def execDrainEnd (t : BitVec 11) (shadow : Bool) (s : State) : Host.Outcome State Fault Refusal :=
  done (s.drainEnd t.toNat shadow)
def execArrClrCnt (t : BitVec 11) (s : State) : Host.Outcome State Fault Refusal :=
  done (if !s.hosted t.toNat then s.violHole
    else if s.moving t.toNat then s.holdAccess t.toNat { kind := 2, addr := F.ARR_CTRL_CLR_CNT.off + F.ARR_CTRL_CLR_CNT.stride * t.toNat, data := natLe 4 1 }
    else s.clearFlds [F.ARR_SAT_COUNT_ACC, F.ARR_SAT_COUNT_DRAIN, F.ARR_ACTIVE_BEATS, F.ARR_STALL_CYCLES, F.ARR_BALLAST_BEATS,
    F.ARR_VIOL_SUBST] t.toNat)

end Sys2Proof.Machine
end

