-- ==== Sys2Proof/Machine/Mailbox.lean ====
section
/-! DEFINITION. gPTP time, and records offered to the Cocoon's mailbox (R20, R322, R541). -/
namespace Sys2Proof.Machine

/-- INT_PTP_OFS (R322). -/
def State.ptpOfs (s : State) : Nat := s.rd F.INT_PTP_OFS_LO_OFS + 2 ^ 32 * s.rd F.INT_PTP_OFS_HI_OFS
/-- gPTP time in nanoseconds at a device tick: tick x 10 + OFS, as 64 bits (R322). -/
def State.gptpAt (s : State) (tick : Nat) : Nat := (tick * 10 + s.ptpOfs) % 2 ^ 64
/-- gPTP time of a record; 0 while INT_PTP_STATUS.STATE is 0 (R541). -/
def State.gptp (s : State) : Nat := if s.rd F.INT_PTP_STATUS_STATE = 0 then 0 else s.gptpAt s.tick

/-- Offer a record to the mailbox; `body` is its content from byte 24 on (R541). -/
def State.offer (s : State) (kind : Nat) (sl : Bool) (body : List Byte) : State :=
  { s with coc.offers := s.coc.offers ++ [{ kind := kind, flags := b2n sl, tick := s.tick, time := s.gptp, body := bytesAt body 0 104 }] }

end Sys2Proof.Machine
end

