-- ==== Sys2Proof/Machine/Streams.lean ====
section
/-! DEFINITION. Stream descriptors, encoder descriptors and warp configurations: their layouts, their checks, and their application
at a stream's frame boundary (R303 to R306, R333, R335, R345 to R347). -/
namespace Sys2Proof.Machine

/-! The intake tables (R303, R345). -/

def descTable : Nat := 0x120000FF8000
def encTable : Nat := 0x120000FF9800
def stateTable : Nat := 0x120000FFA000
def parseTable : Nat := 0x120000FFB000
def testArea : Nat := 0x120000FFC000
def warpTable : Nat := 0x120000FE0000

/-- The descriptor that 128 bytes spell (R304). -/
def descAt (l : List Byte) : StreamDesc :=
  { en := bitOf (fieldAt l 0 1) 0, hostPre := bitOf (fieldAt l 0 1) 1, port := fieldAt l 1 1, sel := fieldAt l 2 1, dt := fieldAt l 3 1,
    width := fieldAt l 4 2, height := fieldAt l 6 2, period := fieldAt l 8 4, frameTmo := fieldAt l 12 4, lossLimit := fieldAt l 16 1,
    nslot := fieldAt l 17 1, patLines := fieldAt l 18 1, warp := fieldAt l 19 1, lineTicks := fieldAt l 20 4, buf := fieldAt l 24 8,
    bufStride := fieldAt l 32 4, w36 := bytesAt l 36 28, pat := (List.range 16).map (fun i => fieldAt l (64 + 4 * i) 4) }

/-- A field of bytes 36 to 63 of a descriptor. -/
def StreamDesc.fld (d : StreamDesc) (off n : Nat) : Nat := fieldAt d.w36 (off - 36) n
/-- Test-row mode, and test rows as embedded-data packets (R313). -/
def StreamDesc.trowMode (d : StreamDesc) : Nat := d.fld 36 1 % 4
def StreamDesc.trowEmb (d : StreamDesc) : Bool := bitOf (d.fld 36 1) 2
def StreamDesc.trowCount (d : StreamDesc) : Nat := d.fld 37 1
def StreamDesc.trowFirst (d : StreamDesc) : Nat := d.fld 38 2
/-- Lidar limits and the place of the variant (R324 to R326). -/
def StreamDesc.maxPkts (d : StreamDesc) : Nat := d.fld 56 2
def StreamDesc.gapLimit (d : StreamDesc) : Nat := d.fld 58 2
def StreamDesc.tvarOff (d : StreamDesc) : Nat := d.fld 60 2
/-- JPEG XS limits (R329 to R332). -/
def StreamDesc.minBpp (d : StreamDesc) : Nat := d.fld 56 2
def StreamDesc.rxBytes (d : StreamDesc) : Nat := d.fld 58 2 * 1024
def StreamDesc.decBudget (d : StreamDesc) : Nat := d.fld 60 4
def StreamDesc.testOff (d : StreamDesc) : Nat := d.lineTicks % 65536
def StreamDesc.testLen (d : StreamDesc) : Nat := d.lineTicks / 65536
/-- FRAME_TMO in ticks; 0 selects 1.5 PERIOD, rounded up as the example of R319 shows (R304). -/
def StreamDesc.tmo (d : StreamDesc) : Nat := if d.frameTmo = 0 then (3 * d.period + 1) / 2 else d.frameTmo
def StreamDesc.limit (d : StreamDesc) : Nat := if d.lossLimit = 0 then 3 else d.lossLimit

/-- Stream index `n` is a lidar stream; a JPEG XS stream (R304). -/
def StreamDesc.lidar (d : StreamDesc) (n : Nat) : Bool := decide (32 ≤ n) && d.sel == 0
def StreamDesc.jxs (d : StreamDesc) (n : Nat) : Bool := decide (32 ≤ n) && d.sel == 1

/-! Geometry of a frame buffer (R301, R305). -/

/-- Bits per sample of a data type; 0 for one that no stream may name (R301). -/
def dtBits (dt : Nat) : Nat :=
  if 0x30 ≤ dt ∧ dt ≤ 0x37 then 8 else match dt with
  | 0x2A => 8
  | 0x2B => 10
  | 0x2C => 12
  | 0x2D => 14
  | 0x2E => 16
  | 0x2F => 20
  | 0x1E => 8
  | 0x24 => 8
  | _ => 0
/-- Bytes per pixel of a type stored as transmitted; 0 for one stored in words. -/
def dtPixBytes (dt : Nat) : Nat := if dt = 0x1E then 2 else if dt = 0x24 then 3 else 0

/-- Words of a decoded JPEG XS pixel: one per channel with KIND 7, else one (R347, R352). -/
def cfgComps (cfg : List Byte) : Nat := if fieldAt cfg 1 1 = 7 then 3 else 1

/-- Samples of a line; a YUV422 or RGB888 sample is one byte (R309). -/
def StreamDesc.samples (d : StreamDesc) (n : Nat) (cfg : List Byte) : Nat :=
  if d.jxs n then d.width * cfgComps cfg else d.width * Nat.max 1 (dtPixBytes d.dt)
/-- Bytes in which a sample is stored (R301, R328). -/
def StreamDesc.sampleBytes (d : StreamDesc) (n : Nat) : Nat :=
  if d.jxs n then 2 else if dtPixBytes d.dt ≠ 0 then 1 else if dtBits d.dt = 20 then 4 else 2
def StreamDesc.lineBytes (d : StreamDesc) (n : Nat) (cfg : List Byte) : Nat := d.samples n cfg * d.sampleBytes n
/-- Offset of the frame buffer in a ring entry: a JPEG XS entry begins with its receive area (R305). -/
def StreamDesc.fbOff (d : StreamDesc) (n : Nat) : Nat := if d.jxs n then d.rxBytes else 0
/-- End of the frame buffer in a ring entry. -/
def StreamDesc.fbEnd (d : StreamDesc) (n : Nat) (cfg : List Byte) : Nat := d.fbOff n + (d.height + d.patLines) * d.lineBytes n cfg
/-- Word count of a long packet of a line (R308). -/
def StreamDesc.wordCount (d : StreamDesc) (n : Nat) : Nat := d.samples n [] * dtBits d.dt / 8

/-! The packet-parse table (R323). -/

/-- A field specifier. -/
structure Spec where
  off : Nat := 0
  bytes : Nat := 0
  big : Bool := false
  signed : Bool := false
  deriving DecidableEq, Repr

def specAt (l : List Byte) (off : Nat) : Spec :=
  let v := fieldAt l off 4
  { off := v % 65536, bytes := [0, 1, 2, 3, 4, 8, 0, 0].getD (bitsOf v 18 16) 0, big := bitOf v 19, signed := bitOf v 20 }

/-- A packet-parse table entry (R323). -/
structure Parse where
  matchOff : Nat := 0
  matchLen : Nat := 0
  matchVal : List Byte := []
  pktLen : Nat := 0
  seq : Spec := {}
  sample : Spec := {}
  time : Spec := {}
  timeMode : Nat := 0
  nblk : Nat := 0
  npt : Nat := 0
  blkOff : Nat := 0
  blkStride : Nat := 0
  az : Spec := {}
  azScale : Nat := 0
  ptOff : Nat := 0
  ptStride : Nat := 0
  range : Spec := {}
  rscale : Nat := 0
  intens : Spec := {}
  elOff : Nat := 0
  blkDt : Nat := 0
  ptDt : Nat := 0
  deriving DecidableEq, Repr

def parseAt (l : List Byte) : Parse :=
  { matchOff := fieldAt l 0 2, matchLen := Nat.min 4 (fieldAt l 2 1), matchVal := bytesAt l 4 4, pktLen := fieldAt l 8 2,
    seq := specAt l 12, sample := specAt l 16, time := specAt l 20, timeMode := fieldAt l 24 1, nblk := fieldAt l 25 1,
    npt := if fieldAt l 26 1 = 0 then 256 else fieldAt l 26 1, blkOff := fieldAt l 28 2, blkStride := fieldAt l 30 2, az := specAt l 32,
    azScale := fieldAt l 36 4, ptOff := fieldAt l 40 2, ptStride := fieldAt l 42 2, range := specAt l 44, rscale := fieldAt l 48 4,
    intens := specAt l 52, elOff := fieldAt l 56 2, blkDt := fieldAt l 58 2, ptDt := fieldAt l 60 2 }

/-- Bytes of a lidar stream's point-record array (R324). -/
def StreamDesc.lidarBytes (d : StreamDesc) : Nat := let p := parseAt d.parse; d.maxPkts * p.nblk * p.npt * 16

/-! Warp configurations (R346, R347). -/

/-- Element size of an output format (R346). -/
def ofmtBytes (f : Nat) : Nat := if f = 0x0A ∨ f = 0x0B then 2 else 1

/-- The ranges of R346. -/
def cfgOk (c : List Byte) : Bool :=
  let f := fun off n => fieldAt c off n
  let e := ofmtBytes (f 8 1)
  let z := fun off n => (bytesAt c off n).all (fun b => b == 0#8)
  decide (f 0 1 < 8) && decide (f 1 1 ≤ 7) && decide (f 2 1 < 4) && decide (3 ≤ f 3 1) && decide (f 3 1 ≤ 6) &&
  decide (8 ≤ f 4 2) && decide (f 4 2 ≤ 8192) && decide (8 ≤ f 6 2) && decide (f 6 2 ≤ 8192) &&
  [0x01, 0x02, 0x0A, 0x0B].contains (f 8 1) && decide (f 9 1 ≤ 2) && decide (1 ≤ f 10 1) && decide (f 10 1 ≤ 16) && z 11 1 &&
  f 12 4 % 32 == 0 && decide (f 4 2 * (if f 9 1 = 0 then 4 else 1) * e ≤ f 12 4) &&
  f 16 4 % 64 == 0 && decide (f 12 4 * f 6 2 * (if f 9 1 = 1 then 3 else 1) ≤ f 16 4) && f 20 4 % 64 == 0 &&
  f 24 8 % 64 == 0 && decide (f 24 8 < 2 ^ 48) && z 38 2 && decide (f 52 2 ≤ 6554) && decide (f 54 2 ≤ 6554) &&
  decide (f 56 4 ≤ 2 ^ 22) && decide (f 60 2 ≤ 1024) && decide (f 62 2 ≤ 8192) && z 104 24 && z 642 382

/-- The configuration serves a stream: enabled, of the stream's data type, and its tensors fit the ring entry behind the frame
buffer (R346, R347). KIND of a JPEG XS stream is held against the components of its last accepted codestream, if one has come. -/
def cfgFits (c : List Byte) (d : StreamDesc) (comps n : Nat) : Bool :=
  let f := fun off n => fieldAt c off n
  let k := f 1 1
  bitOf (f 0 1) 0 &&
  (if d.jxs n then (decide (k ≤ 4) && comps != 3) || (k == 7 && comps != 1)
   else if k ≤ 4 then (decide (0x2A ≤ d.dt) && decide (d.dt ≤ 0x2F)) || (decide (0x30 ≤ d.dt) && decide (d.dt ≤ 0x37) && k == 0)
   else (k == 5 && d.dt == 0x1E) || (k == 6 && d.dt == 0x24)) &&
  decide (d.fbEnd n c ≤ f 20 4) &&
  decide (f 20 4 + f 10 1 * f 16 4 + d.patLines * 256 * ofmtBytes (f 8 1) ≤ d.bufStride)

/-! The check and application of a stream descriptor (R304 to R306, R333). -/

/-- The ring lies in device memory or in system SRAM. -/
def State.ringOk (s : State) (d : StreamDesc) : Bool :=
  let n := d.nslot * d.bufStride
  (decide (d.buf + n ≤ gddrEnd) || (decide (sysBase ≤ d.buf) && s.oneRegion d.buf n)) && d.buf % 64 == 0 && d.bufStride % 64 == 0 &&
    decide (0 < d.bufStride)

/-- Streams in force that are assigned to a JPEG XS engine, with stream `n` taken as `d` (R333). -/
def State.jxsStreams (s : State) (e n : Nat) (d : StreamDesc) : List StreamDesc :=
  ((List.range' 32 16).map (fun m => if m = n then (m, d) else (m, (s.strm m).desc))).filterMap (fun x =>
    if x.2.en && x.2.jxs x.1 && x.2.dt == e then some x.2 else none)
/-- Σ (DEC_BUDGET + 40,000) in system cycles (R333). -/
def jxsSum (l : List StreamDesc) : Nat := (l.map (fun d => d.decBudget + 40000)).sum
/-- The sum is within 0.95 of the shortest PERIOD; a tick is 8 system cycles (R47, R333). -/
def jxsLoadOk (l : List StreamDesc) : Bool := l.all (fun d => decide (jxsSum l * 100 ≤ 95 * 8 * d.period))

/-- A descriptor's check (R304, R305, R313, R333, R345). `l` is its 128 bytes and `c` the configuration its WARP names. A descriptor that is
all zero names no stream and turns its index off (log entry 30); any other is checked whole, enabled or not. -/
def State.descOk (s : State) (n : Nat) (l : List Byte) (d : StreamDesc) (c : List Byte) : Bool :=
  let z := fun off n => (bytesAt l off n).all (fun b => b == 0#8)
  let warpOk := (decide (d.warp ≤ 63) && cfgFits c d 0 n) || (d.warp == 255 && d.hostPre)
  let size := decide (16 ≤ d.width) && decide (d.width ≤ 8192) && decide (16 ≤ d.height) && decide (d.height ≤ 8192) &&
    decide (2 ≤ d.patLines) && decide (d.patLines ≤ 8)
  l.all (fun b => b == 0#8) || (decide (fieldAt l 0 1 < 4) &&
    (decide (d.lossLimit ≤ 15) && decide (3 ≤ d.nslot) && decide (d.nslot ≤ 8) && s.ringOk d &&
     (if n < 32 then
        decide (d.port ≤ 15) && decide (d.sel ≤ 15) && dtBits d.dt != 0 && size && warpOk && z 40 8 &&
        decide (d.fld 36 1 < 8) && d.trowMode != 3 && d.samples n [] * dtBits d.dt % 8 == 0 && decide (d.fbEnd n c ≤ d.bufStride) &&
        (d.trowMode == 0 || (decide (1 ≤ d.trowCount) && decide (d.trowCount ≤ 8) &&
          (d.trowEmb || decide (d.trowFirst + d.trowCount ≤ d.height))))
      else if d.sel = 0 then
        decide (d.port ≤ 3) && decide (d.dt ≤ 31) && d.width == 0 && d.height == 0 && d.patLines == 0 && d.warp == 255 &&
        d.testOff % 64 == 0 && decide (d.testOff + d.testLen ≤ 16384) && z 62 2 && decide (d.lidarBytes + 4096 ≤ d.bufStride)
      else
        d.sel == 1 && decide (d.port ≤ 3) && decide (d.dt ≤ 1) && size && warpOk && d.testOff % 64 == 0 &&
        decide (d.testOff + d.testLen ≤ 16384) && decide (d.fbEnd n c ≤ d.bufStride) &&
        (!d.en || (s.rd F.JXS_CTRL_MODE d.dt == 0 && jxsLoadOk (s.jxsStreams d.dt n d))))))

/-- Read 128 descriptor bytes, and for a lidar stream the parse entry, test packet and elevations that it uses (R303, R304, R323,
R326); nothing where a word cannot be read. -/
def State.readDesc (s : State) (n : Nat) : Option (List Byte × StreamDesc) × State :=
  match s.busRead mIntake (descTable + 128 * n) 128 with
  | (.ok, l, s) =>
    let d := descAt l
    if d.en && d.lidar n && decide (d.dt ≤ 31) then
      match s.busRead mIntake (parseTable + 64 * d.dt) 64 with
      | (.ok, p, s) =>
        let pe := parseAt p
        match s.busRead mIntake (testArea + d.testOff) d.testLen with
        | (.ok, t, s) =>
          (match s.busRead mIntake (testArea + pe.elOff) (2 * pe.npt) with
           | (.ok, e, s) => (some (l, { d with parse := p, test := t, elev := e }), s)
           | (_, _, s) => (none, s))
        | (_, _, s) => (none, s)
      | (_, _, s) => (none, s)
    else (some (l, d), s)
  | (_, _, s) => (none, s)

/-- The bytes of a stream state entry are not laid out: they are free values (R303). -/
def State.noteState (s : State) (n : Nat) : State :=
  let (l, s) := s.freeBs 32
  s.store mIntake (stateTable + 32 * n) l

/-- The frame timer is loaded with FRAME_TMO (R314). -/
def State.loadTimer (s : State) (n : Nat) : State := s.modStrm n (fun x => { x with timerAt := some (s.tick + x.desc.tmo) })

/-- Put a checked descriptor into force: the stream resynchronises, and its last good entry stays where DT, WIDTH, HEIGHT and WARP
are unchanged (R306). A lidar sample that has yet to pass its test packet is dropped. -/
def State.setDesc (s : State) (n : Nat) (d : StreamDesc) : State :=
  let s := s.modStrm n (fun x =>
    let o := x.desc
    let keep := o.dt == d.dt && o.width == d.width && o.height == d.height && o.warp == d.warp
    { x with desc := d, state := if d.en then 1 else 0, cur := none, ready := [], broken := false, skipId := none, timerAt := none, comps := 0,
             last := if keep then x.last else none })
  if d.en then s.loadTimer n else s

/-- The new descriptor of stream `n` is read, checked, and applied or refused with 0x5122 (R306). -/
def State.applyDesc (s : State) (n : Nat) : State :=
  match s.readDesc n with
  | (some (l, d), s) =>
    let c := (s.setStrm n { s.strm n with desc := d }).wcfg n
    if s.descOk n l d c then s.setDesc n d else s.raise 151 0x5122 n
  | (none, s) => s

/-- A stream is between frames: its open frame has completed or is lost (R306). -/
def Stream.between (x : Stream) : Bool := x.cur.isNone

/-- The waiting INT_DESC_UPD is applied when its stream is between frames. -/
def State.descUpdate (s : State) : State :=
  match s.intake.updWait with
  | some n => if (s.strm n).between then ({ s with intake.updWait := none }).applyDesc n else s
  | none => s

/-! Application of a warp configuration (R347). -/

/-- Enabled streams that name configuration `m`. -/
def State.warpNamers (s : State) (m : Nat) : List Nat :=
  (List.range 48).filter (fun n => (s.strm n).desc.en && (s.strm n).desc.warp == m && !(s.strm n).desc.lidar n)

/-- Keep an entry as the copy in force. -/
def State.keepCfg (s : State) (m : Nat) (c : List Byte) : State :=
  { s with intake.warpApplied := c.zipIdx.foldl (fun w e => FMap.set 0#8 w (m * 1024 + e.2) e.1) s.intake.warpApplied }

/-- No update of a warp configuration waits any more. -/
def State.warpSettled (s : State) : State := { s with intake.warpNo := none, intake.warpNew := [], intake.warpDone := [] }

/-- The waiting update advances: read and checked when the first naming stream is between frames, then in force for each stream
as it is between frames, and kept when all of them work from it. A stream that has come to name the entry since is checked in its turn
(R347). -/
def State.warpUpdate (s : State) : State :=
  match s.intake.warpNo with
  | none => s
  | some m =>
    let names := s.warpNamers m
    let todo := names.filter (fun n => !s.intake.warpDone.contains n)
    let now := todo.filter (fun n => (s.strm n).between)
    if todo ≠ [] ∧ now = [] then s
    else
      let (r, s) := if s.intake.warpNew ≠ [] then ((Bus.ok, s.intake.warpNew), s)
        else match s.busRead (mWarp 0) (warpTable + 1024 * m) 1024 with
          | (b, c, s) => ((b, c), s)
      match r with
      | (.ok, c) =>
        if !(cfgOk c && (if s.intake.warpNew = [] then names else now).all (fun n => cfgFits c (s.strm n).desc (s.strm n).comps n)) then
          (s.warpSettled).raise 154 0x6203 m
        else
          let s := { s with intake.warpNew := c, intake.warpDone := s.intake.warpDone ++ now }
          if todo.all (fun n => now.contains n) then (s.keepCfg m c).warpSettled else s
      | _ => s.warpSettled

/-- The updates that wait for a frame boundary and can be applied now. -/
def State.boundary (s : State) : State := s.descUpdate.warpUpdate

/-! The encoder descriptors (R335). -/

def encAt (l : List Byte) : EncDesc :=
  { en := bitOf (fieldAt l 0 1) 0, src := fieldAt l 1 1, sel := fieldAt l 2 1, decim := fieldAt l 3 1, bpp := fieldAt l 4 2,
    hlvl := fieldAt l 6 1, vlvl := fieldAt l 7 1, clip := fieldAt l 8 8, clipBytes := fieldAt l 16 4, nclip := fieldAt l 20 1,
    budget := fieldAt l 24 4 }
def State.encDesc (s : State) (e : Nat) : EncDesc := FMap.get {} s.intake.encs e

/-- The tables of the configuration image come into force at the start: warp configurations, encoder descriptors with the engines' modes,
stream descriptors, each of them checked (R303, R306, R333, R335, R340, R345, R561 step 11; log entry 27). -/
def State.installTables (s : State) : State :=
  let s := s.each (List.range 64) (fun s m => match s.busRead (mWarp 0) (warpTable + 1024 * m) 1024 with
    | (.ok, c, s) => s.keepCfg m c
    | (_, _, s) => s)
  let s := s.each [0, 1] (fun s e => match s.busRead mIntake (encTable + 64 * e) 64 with
    | (.ok, l, s) => ({ s with intake.encs := FMap.set {} s.intake.encs e (encAt l) }).wrB F.JXS_CTRL_MODE (encAt l).en e
    | (_, _, s) => s)
  s.each (List.range 48) State.applyDesc

/-! Commands on the tables. -/

/-- INT_DESC_UPD: host software asks for the application of a descriptor. A write while one is pending is ignored and counts as a
violation (R306, R339). An index above 47 names no descriptor. -/
def execIntDescUpd (n : BitVec 6) (s : State) : Host.Outcome State Fault Refusal :=
  done (if s.intake.updWait.isSome then s.violation
    else
      let s := s.wr F.INT_DESC_UPD_INDEX n.toNat
      if n.toNat < 48 then { s with intake.updWait := some n.toNat } else s)

/-- DESC_UPDATE_APPLY: the stream's frame boundary (R306). -/
def execDescUpdateApply (s : State) : Host.Outcome State Fault Refusal := done s.descUpdate

/-- WRP_CFG_UPD (R347, R363). -/
def execWrpCfgUpd (n : BitVec 6) (s : State) : Host.Outcome State Fault Refusal :=
  done (if s.intake.warpNo.isSome then s.violation
    else { s.wr F.WRP_CFG_UPD_INDEX n.toNat with intake.warpNo := some n.toNat, intake.warpNew := [], intake.warpDone := [] })

/-- WARP_CFG_APPLY: the frame boundary of a stream that names the configuration (R347). -/
def execWarpCfgApply (s : State) : Host.Outcome State Fault Refusal := done s.warpUpdate

/-- INT_CLR_CNT (R339). -/
def execIntClrCnt (s : State) : Host.Outcome State Fault Refusal :=
  let s := s.each (List.range 48) (fun s n => s.clearFlds
    [F.INT_LOSS_TOTAL, F.INT_LOSS_CONSEC, F.INT_LOSS_RESUMES, F.INT_CHK_PAT_FAIL, F.INT_CHK_TROW_FAIL, F.INT_CHK_OVERRUN] n)
  let s := s.each (List.range 16) (fun s r => s.clearFlds
    [F.INT_CSI_ERR_ECC_CORR, F.INT_CSI_ERR_ECC_UNCORR, F.INT_CSI_ERR_CRC, F.INT_CSI_ERR_UNCLAIMED] r)
  let s := s.each (List.range 4) (fun s m => s.clearFlds [F.INT_ETH_STAT_FCS, F.INT_ETH_DROP_FILTER, F.INT_ETH_DROP_MALFORMED] m)
  done (s.wr F.INT_FIRST0_VALID 0)

/-- JXS_CLR_CNT (R340). -/
def execJxsClrCnt (e : BitVec 1) (s : State) : Host.Outcome State Fault Refusal :=
  done (s.clearFlds [F.JXS_ABORT_BUDGET, F.JXS_ABORT_RESETS, F.JXS_REJECT_HEADER, F.JXS_REJECT_SYNTAX, F.JXS_TEST_TEST_FAIL,
    F.JXS_TEST_ENC_ABORT] e.toNat)

/-- WRP_CLR_CNT (R363). -/
def execWrpClrCnt (e : BitVec 2) (s : State) : Host.Outcome State Fault Refusal :=
  done (s.clearFlds [F.WRP_ERR_ATTRIB, F.WRP_ERR_MESH_CRC, F.WRP_ERR_COORD, F.WRP_ERR_TIMEOUT, F.WRP_PIXELS_COUNT] e.toNat)

end Sys2Proof.Machine
end

