-- ==== Sys2Proof/Machine/Intake.lean ====
section
/-! DEFINITION. Frame reception on the CSI-2 receivers, the injected pattern, test rows, losses, admission and the frame timer
(R20 to R22, R300 to R319). -/
namespace Sys2Proof.Machine

/-! Losses and admission (R311, R315, R316). -/

/-- Error line of a receiver or MAC that serves stream `n` (R461). -/
def State.rxLine (s : State) (n : Nat) : Nat := if n < 32 then 148 + (s.strm n).desc.port / 8 else 150

/-- The loss procedure: count, state, the lost verdict, and the stale trigger event (R315, R317). -/
def State.loss (s : State) (n code line : Nat) : State :=
  if !(s.strm n).desc.en then s else
    let s := (s.raise line code n).cnt F.INT_LOSS_TOTAL n
    if (s.strm n).state = 3 then s.noteState n else
      let c := s.rd F.INT_LOSS_CONSEC n + 1
      let s := (s.wr F.INT_LOSS_CONSEC c n).modStrm n (fun x => { x with state := 1 })
      let s := if (s.strm n).desc.limit ≤ c then (s.modStrm n (fun x => { x with state := 3, timerAt := none })).raise 151 0x5104 n else s
      ((s.noteState n).raiseTrigger (s.standIn n)).checkLost

/-- Frames that an encoder descriptor selects (R327, R335): every DECIM-th admitted frame of its stream, while the engine is in
encoder mode. -/
def State.selectEncode (s : State) (n : Nat) (x : Sample) : State :=
  s.each [0, 1] (fun s e =>
    let d := s.encDesc e
    if d.en && d.src == n && decide (n < 32) && s.rdB F.JXS_STATUS_MODE_ACT e then
      let j := FMap.get {} s.intake.jxs e
      let c := j.encCount + 1
      let s := { s with intake.jxs := FMap.set {} s.intake.jxs e { j with encCount := if d.decim ≤ c then 0 else c } }
      if d.decim ≤ c then { s with intake.encQ := s.intake.encQ ++ [(e, n, x)] } else s
    else s)

/-- Admission of a clean frame: it becomes the last good frame and raises the stream's trigger event (R23, R26, R316). -/
def State.admitSample (s : State) (n : Nat) (x : Sample) : State :=
  let s := if (s.strm n).state = 3 then (s.cnt F.INT_LOSS_RESUMES n).raise 151 0x5106 n else s
  let s := (s.wr F.INT_LOSS_CONSEC 0 n).modStrm n (fun y => { y with state := 2, last := some (x.entry, x.stamp), everGood := true })
  (s.noteState n).raiseTrigger { stream := n, entry := x.entry, stale := false, missing := false, stamp := some x.stamp }

/-! Ring entries (R307). -/

/-- The entry of a stream is held by an open frame, a decoder, a warp engine or a queue before them. -/
def State.entryBusy (s : State) (n e : Nat) : Bool :=
  (s.strm n).ready.any (fun x => x.entry == e) ||
  s.intake.waitQ.any (fun (r : ReadyFrame) => r.stream == n && r.sample.entry == e) ||
  s.intake.rerunQ.any (fun (r : RerunWait) => r.stream == n && r.sample.entry == e) ||
  s.intake.jxsQ.any (fun r => r.2.1 == n && r.2.2.entry == e) ||
  s.intake.warps.any (fun (w : Nat × WarpEngine) => match w.2.cur with
    | some c => c.1 == n && c.2.entry == e
    | none => false) ||
  s.intake.jxs.any (fun (w : Nat × JxsEngine) => match w.2.cur with
    | some c => c.1 == n && c.2.entry == e
    | none => false)

/-- A pipeline frame that waits to trigger or is in flight references the entry. -/
def State.entryHeld (s : State) (n e : Nat) : Bool :=
  s.sched.pipes.any (fun p => p.gather.any (fun g => g.stream == n && g.entry == e) ||
    p.frames.any (fun f => f.inputs.any (fun g => g.stream == n && g.entry == e)))

/-- The ring entries of a stream, the one taken longest ago first. -/
def Stream.order (x : Stream) : List Nat :=
  (List.range x.desc.nslot).filter (fun e => !x.used.contains e) ++ x.used.filter (fun e => decide (e < x.desc.nslot))

/-- The oldest entry that is neither the last good one nor in use (R307). -/
def State.takeEntry (s : State) (n : Nat) : Option Nat :=
  let x := s.strm n
  x.order.find? (fun e => !(match x.last with
    | some l => l.1 == e
    | none => false) && !s.entryHeld n e && !s.entryBusy n e)

/-- An accepted frame start takes an entry, the next SEQ and its stamp, and loads the timer; with no entry free the frame is lost
with 0x5107 (R20, R307, R314). `mk` fills in what the kind of stream adds. -/
def State.accept (s : State) (n stamp : Nat) (mk : Sample → Sample) : State :=
  match s.takeEntry n with
  | none => (s.cnt F.INT_CHK_OVERRUN n).loss n 0x5107 (s.rxLine n)
  | some e =>
    let hold := s.rd F.INT_PTP_STATUS_STATE == 2
    let s := s.modStrm n (fun x =>
      let q := (x.seq + 1) % 2 ^ 32
      { x with seq := q, cur := some (mk { entry := e, seq := q, stamp := stamp, gptp := s.gptpAt stamp }), broken := false, holdover := hold,
               used := x.used.filter (fun y => y != e) ++ [e], startAt := s.tick })
    (s.loadTimer n).noteState n

/-- Change the sample being received. -/
def State.modCur (s : State) (n : Nat) (f : Sample → Sample) : State := s.modStrm n (fun x => { x with cur := x.cur.map f })

/-- The open frame or sample is discarded; its further packets are discarded too (R308, R316). -/
def State.dropCur (s : State) (n : Nat) : State :=
  s.modStrm n (fun x => { x with cur := none, broken := true, skipId := match x.cur with
    | some c => if c.id then some c.sampleId else none
    | none => x.skipId })

/-- An open frame breaks (R308). -/
def State.breakFrame (s : State) (n : Nat) : State :=
  if (s.strm n).cur.isSome then (s.dropCur n).loss n 0x5102 (s.rxLine n) else s

/-- A frame that completed under the stream's present DT, WIDTH, HEIGHT and WARP; any other is dropped with the ring it belongs
to (R306). -/
def State.current (s : State) (n : Nat) (x : Sample) : Bool :=
  let d := (s.strm n).desc
  d.en && d.dt == x.desc.dt && d.width == x.desc.width && d.height == x.desc.height && d.warp == x.desc.warp

/-- A completed frame or sample is lost. -/
def State.loseFrame (s : State) (n : Nat) (x : Sample) (code line : Nat) : State :=
  if s.current n x then s.loss n code line else s.raise line code n

/-- A complete frame waits for a warp engine, in order of completion and stream index, or is lost at once while none is in
service (R342, R343). -/
def State.queueWarp (s : State) (n : Nat) (x : Sample) : State :=
  if (List.range 4).all (fun e => !s.rdB F.WRP_STATUS_IN_SERVICE e) then s.loseFrame n x 0x6208 151
  else
    let f : ReadyFrame := { stream := n, sample := x, since := s.tick }
    let before := fun (r : ReadyFrame) => decide (r.since < s.tick) || decide (r.stream < n)
    { s with intake.waitQ := s.intake.waitQ.filter before ++ f :: s.intake.waitQ.filter (fun (r : ReadyFrame) => !before r) }

/-- A camera frame completes under the descriptor and the configuration in force (R22). -/
def State.warpReady (s : State) (n : Nat) (x : Sample) : State :=
  s.queueWarp n { x with desc := (s.strm n).desc, cfg := s.wcfg n }

/-- The open frame of a camera stream is complete (R22); fewer test rows than the descriptor names fail their check (R313). -/
def State.complete? (s : State) (n : Nat) : State :=
  match (s.strm n).cur with
  | some c =>
    if c.ended && c.patDone then
      let d := (s.strm n).desc
      if d.trowMode ≠ 0 ∧ c.trows < d.trowCount then
        ((s.dropCur n).cnt F.INT_CHK_TROW_FAIL n).loss n 0x5112 (s.rxLine n)
      else (s.modStrm n (fun x => { x with cur := none, endAt := s.tick })).warpReady n c
    else s
  | none => s

/-- The frame timer expires: it is loaded again from then on, an open frame or sample is discarded, and the loss is recorded (R314). -/
def State.expire (s : State) (n : Nat) : State :=
  let s := s.modStrm n (fun x => { x with timerAt := x.timerAt.map (fun t => t + x.desc.tmo) })
  if (s.strm n).cur.isSome then (s.dropCur n).loss n 0x5101 151 else s.loss n 0x5103 151

/-- An expiry that is due. -/
def State.expiryDue (s : State) (n : Nat) : Bool :=
  (s.strm n).desc.en && (match (s.strm n).timerAt with
    | some t => decide (t ≤ s.tick)
    | none => false)

/-- An expiry whose tick is over: no frame can complete in it any more (R314). -/
def State.expiryPast (s : State) (n : Nat) : Bool :=
  (s.strm n).desc.en && (match (s.strm n).timerAt with
    | some t => decide (t < s.tick)
    | none => false)
/-- What arrives in a later tick finds the expiry done (R314). -/
def State.lateExpiry (s : State) (n : Nat) : State := if s.expiryPast n then s.expire n else s

/-- A frame whose blanking is not over: its stream may send no frame start yet (R312). -/
def State.blanking (s : State) (x : Sample) : Bool := decide (s.tick < x.patAt + (x.desc.patLines + 1) * x.desc.lineTicks)

/-- A frame start before (PAT_LINES + 1) × LINE_TICKS of blanking breaks the frame before it, although that one has completed (R312; log
entry 30). -/
def State.breakEarly (s : State) (n : Nat) : State :=
  let bad := fun (m : Nat) (x : Sample) => m == n && s.blanking x
  let es := (List.range 4).filter (fun e => match (FMap.get {} s.intake.warps e).cur with
    | some c => bad c.1 c.2
    | none => false)
  let q := s.intake.waitQ.filter (fun (r : ReadyFrame) => !bad r.stream r.sample)
  let rq := s.intake.rerunQ.filter (fun (r : RerunWait) => !bad r.stream r.sample)
  if es = [] ∧ q.length = s.intake.waitQ.length ∧ rq.length = s.intake.rerunQ.length then s
  else
    let s := { s with intake.waitQ := q, intake.rerunQ := rq }
    let s := s.each es (fun s e =>
      let w : WarpEngine := FMap.get {} s.intake.warps e
      ({ s with intake.warps := FMap.set {} s.intake.warps e { w with cur := none } } : State).wr F.WRP_STATUS_BUSY 0 e)
    s.loss n 0x5102 (s.rxLine n)

/-! Unpacking (R301). -/

/-- One group of packed samples: the upper 8 bits of each, then the lower `lb` bits of all, least significant first. -/
def unpackGroup (g lb : Nat) (l : List Byte) : List Nat :=
  let low := leNat (l.drop g)
  (List.range g).map (fun i => (l.getD i 0#8).toNat * 2 ^ lb + low / 2 ^ (lb * i) % 2 ^ lb)

/-- Groups of `n` bytes; `fuel` bounds them. -/
def unpackGo (g lb n : Nat) : Nat → List Byte → List Nat
  | 0, _ => []
  | fuel + 1, l => if l.length < n then [] else unpackGroup g lb (l.take n) ++ unpackGo g lb n fuel (l.drop n)

/-- Samples of a packet's payload. -/
def unpack (dt : Nat) (l : List Byte) : List Nat :=
  match dtBits dt with
  | 10 => unpackGo 4 2 5 l.length l
  | 12 => unpackGo 2 4 3 l.length l
  | 14 => unpackGo 4 6 7 l.length l
  | 16 => (List.range (l.length / 2)).map (fun i => fieldAt l (2 * i) 2)
  | 20 => unpackGo 2 12 5 l.length l
  | _ => l.map (·.toNat)

/-- Bytes that store samples. -/
def storeSamples (sb : Nat) (l : List Nat) : List Byte := (l.map (natLe sb)).flatten

/-- Write line `i` of the frame buffer of the open frame; a failing write breaks the frame. -/
def State.putLine (s : State) (n i : Nat) (l : List Nat) : State :=
  match (s.strm n).cur with
  | none => s
  | some c =>
    let d := (s.strm n).desc
    match s.busWrite mIntake (d.entry c.entry + i * d.lineBytes n []) (storeSamples (d.sampleBytes n) l) with
    | (.ok, s) => s
    | (_, s) => s.breakFrame n

/-! The injected pattern (R309). -/

/-- Sample `x` of pattern line `l`, variant `v`, camera stream `c`, `bits` per sample. -/
def patSample (bits l v c x : Nat) : Nat :=
  match l with
  | 0 => 2 ^ ((x + v) % bits)
  | 1 => 2 ^ bits - 1 - 2 ^ ((x + v) % bits)
  | _ => (x * 241 + l * 965 + v * 439 + c * 729) % 2 ^ bits

def State.putPattern (s : State) (n : Nat) : State :=
  let d := (s.strm n).desc
  s.each (List.range d.patLines) (fun s l => match (s.strm n).cur with
    | some c => s.putLine n (d.height + l) ((List.range (d.samples n [])).map (patSample (dtBits d.dt) l (c.seq % 16) n))
    | none => s)

/-! Streams that a packet concerns. -/

/-- Enabled camera streams of a receiver and virtual channel. -/
def State.camsOn (s : State) (rx vc : Nat) : List Nat :=
  (List.range 32).filter (fun n => let d := (s.strm n).desc; d.en && d.port == rx && d.sel == vc)
/-- Those of a data type. -/
def State.camsOf (s : State) (rx vc dt : Nat) : List Nat := (s.camsOn rx vc).filter (fun n => (s.strm n).desc.dt == dt)
/-- Those that take embedded-data packets as test rows (R313). -/
def State.camsEmb (s : State) (rx vc : Nat) : List Nat :=
  (s.camsOn rx vc).filter (fun n => (s.strm n).desc.trowMode != 0 && (s.strm n).desc.trowEmb)
/-- The streams that a packet of a type concerns: a short packet, all of its channel. -/
def State.camsFor (s : State) (rx vc dt : Nat) : List Nat :=
  if dt < 0x10 then s.camsOn rx vc else if dt = 0x12 then s.camsEmb rx vc else s.camsOf rx vc dt

/-- A packet that no enabled stream claims (R301). -/
def State.unclaimed (s : State) (rx : Nat) : State := s.cnt F.INT_CSI_ERR_UNCLAIMED rx

/-- Do something for the streams a packet concerns, but those in host-assisted pre-processing, whose packets are discarded (R24,
R411). A packet that no stream claims is counted. An expiry of an earlier tick comes first. -/
def State.forCams (s : State) (rx : Nat) (l : List Nat) (f : State → Nat → State) : State :=
  if l = [] then s.unclaimed rx else s.each (l.filter (fun n => !(s.strm n).desc.hostPre)) (fun s n => f (s.lateExpiry n) n)

/-! Test rows (R313). -/

/-- A test row's bytes are added; with the last row the CRC is compared. -/
def State.testRow (s : State) (n : Nat) (l : List Byte) : State :=
  let s := s.modCur n (fun c => { c with trow := c.trow ++ l, trows := c.trows + 1 })
  match (s.strm n).cur with
  | some c =>
    let d := (s.strm n).desc
    if c.trows = d.trowCount then
      let k := if d.trowMode = 2 then c.fnum % 4 else 0
      if crc32c c.trow = d.fld (48 + 4 * k) 4 then s
      else ((s.dropCur n).cnt F.INT_CHK_TROW_FAIL n).loss n 0x5112 (s.rxLine n)
    else s
  | none => s

/-! Commands. -/

/-- CSI_FRAME_START: a clean frame-start packet (R20, R306 to R308, R312, R314). -/
def execCsiFrameStart (rx vc : BitVec 4) (fnum : BitVec 16) (s : State) : Host.Outcome State Fault Refusal :=
  done (s.forCams rx.toNat (s.camsOn rx.toNat vc.toNat) (fun s n =>
    let s := if s.expiryDue n then s.expire n else s
    let s := ((s.breakFrame n).breakEarly n).boundary
    if (s.strm n).desc.en && !(s.strm n).desc.hostPre then s.accept n s.tick (fun x => { x with fnum := fnum.toNat }) else s))

/-- CSI_LONG_PACKET: line `lines` of the open frame, or a break (R301, R302, R307 to R309, R313). -/
def execCsiLongPacket (rx vc : BitVec 4) (dt : BitVec 6) (crcOk : Bool) (payload : List Byte) (s : State) : Host.Outcome State Fault Refusal :=
  let l := s.camsOf rx.toNat vc.toNat dt.toNat
  let s := if crcOk then s else s.cnt F.INT_CSI_ERR_CRC rx.toNat
  done (s.forCams rx.toNat l (fun s n => match (s.strm n).cur with
    | none => s
    | some c =>
      let d := (s.strm n).desc
      if !crcOk || payload.length != d.wordCount n || decide (d.height ≤ c.lines) then s.breakFrame n
      else
        let s := s.putLine n c.lines (unpack d.dt payload)
        let s := s.modCur n (fun x => { x with lines := x.lines + 1, patStarted := x.lines + 1 == d.height, patAt := s.tick })
        if d.trowMode ≠ 0 ∧ !d.trowEmb ∧ d.trowFirst ≤ c.lines ∧ c.lines < d.trowFirst + d.trowCount then s.testRow n payload else s))

/-- CSI_EMBEDDED_DATA: a test row of the streams that take them (R301, R308, R313). -/
def execCsiEmbeddedData (rx vc : BitVec 4) (crcOk : Bool) (payload : List Byte) (s : State) : Host.Outcome State Fault Refusal :=
  let l := s.camsEmb rx.toNat vc.toNat
  let s := if crcOk then s else s.cnt F.INT_CSI_ERR_CRC rx.toNat
  done (s.forCams rx.toNat l (fun s n => match (s.strm n).cur with
    | none => s
    | some c => if !crcOk then s.breakFrame n else if c.trows < (s.strm n).desc.trowCount then s.testRow n payload else s))

/-- CSI_HEADER_ERROR: a corrected header, or one that cannot be corrected (R302, R307, R308). -/
def execCsiHeaderError (rx vc : BitVec 4) (dt : BitVec 6) (uncorr : Bool) (s : State) : Host.Outcome State Fault Refusal :=
  let l := s.camsFor rx.toNat vc.toNat dt.toNat
  if uncorr then done ((s.cnt F.INT_CSI_ERR_ECC_UNCORR rx.toNat).each l State.breakFrame)
  else
    let s := (s.cnt F.INT_CSI_ERR_ECC_CORR rx.toNat).raise (148 + rx.toNat / 8) 0x5120 (l.headD 0xffff)
    done (if dt.toNat = 0 then s.each l State.breakFrame else s)

/-- CSI_UNCLAIMED_PACKET: counted, and so is a payload CRC that does not match, of a long packet (R301, R302). -/
def execCsiUnclaimedPacket (rx vc : BitVec 4) (pkt : CsiPacket) (s : State) : Host.Outcome State Fault Refusal :=
  done (onlyIf (decide (s.camsFor rx.toNat vc.toNat pkt.dt.toNat = [])) s (fun s =>
    (if pkt.crcOk || decide (pkt.dt.toNat < 0x10) then s else s.cnt F.INT_CSI_ERR_CRC rx.toNat).unclaimed rx.toNat))

/-- PATTERN_INJECT_END: the last pattern line has landed, one line per LINE_TICKS after the last active line (R21, R22, R309). -/
def execPatternInjectEnd (c : BitVec 5) (s : State) : Host.Outcome State Fault Refusal :=
  let n := c.toNat
  let s := s.lateExpiry n
  done (match (s.strm n).cur with
    | some x =>
      onlyIf (x.patStarted && !x.patDone && decide (x.patAt + (s.strm n).desc.patLines * (s.strm n).desc.lineTicks ≤ s.tick)) s (fun s =>
        ((s.putPattern n).modCur n (fun x => { x with patDone := true })).complete? n)
    | none => s)

/-- CSI_FRAME_END (R22, R308). -/
def execCsiFrameEnd (rx vc : BitVec 4) (s : State) : Host.Outcome State Fault Refusal :=
  done (s.forCams rx.toNat (s.camsOn rx.toNat vc.toNat) (fun s n => match (s.strm n).cur with
    | some c =>
      if c.lines < (s.strm n).desc.height then s.breakFrame n
      else (s.modCur n (fun x => { x with ended := true })).complete? n
    | none => s))

/-- FRAME_TIMER_EXPIRY: with a frame open only once the tick of the expiry is over, since a frame that completes in it counts as complete
(R314). -/
def execFrameTimerExpiry (n : BitVec 6) (s : State) : Host.Outcome State Fault Refusal :=
  done (onlyIf (s.expiryPast n.toNat || (s.expiryDue n.toNat && (s.strm n.toNat).cur.isNone)) s (fun s => s.expire n.toNat))

end Sys2Proof.Machine
end

