-- ==== Sys2Proof/Machine/Ethernet.lean ====
section
/-! DEFINITION. The Ethernet MACs, gPTP, lidar streams and the reception of JPEG XS codestreams (R320 to R331). -/
namespace Sys2Proof.Machine

/-! Frames and datagrams (R320). The layouts of Ethernet, IP, UDP and RTP are those of their standards (log entry 20). -/

/-- Ones'-complement sum of 16-bit big-endian words. -/
def ocSum (l : List Byte) : Nat :=
  let t := ((List.range ((l.length + 1) / 2)).map (fun i => beAt l (2 * i) 2)).sum
  iter (fun v => v % 65536 + v / 65536) 4 t

/-- A UDP datagram. -/
structure Udp where
  port : Nat := 0
  vid : Option Nat := none
  src : List Byte := []
  data : List Byte := []
  deriving DecidableEq, Repr

/-- What the MAC makes of a frame. -/
inductive Got1 where
  | ignored
  | malformed
  | udp (u : Udp)
  deriving DecidableEq, Repr

/-- The UDP datagram `l`, with the pseudo-header's addresses; `opt` says that a zero checksum is no checksum. -/
def udpOf (l src dst src16 : List Byte) (opt : Bool) (vid : Option Nat) : Got1 :=
  let n := beAt l 4 2
  if l.length < 8 ∨ n < 8 ∨ l.length < n then .malformed
  else
    let d := l.take n
    let ck := beAt l 6 2
    if ck = 0 then (if opt then .udp { port := beAt l 2 2, vid := vid, src := src16, data := d.drop 8 } else .malformed)
    else if ocSum (src ++ dst ++ natBe 4 17 ++ natBe 4 n ++ d) = 65535 then
      .udp { port := beAt l 2 2, vid := vid, src := src16, data := d.drop 8 }
    else .malformed

/-- An IPv4 packet: header checksum, no options, no fragment, UDP. -/
def ipv4Of (l : List Byte) (vid : Option Nat) : Got1 :=
  let n := beAt l 2 2
  if l.length < 20 ∨ fieldAt l 0 1 / 16 ≠ 4 ∨ fieldAt l 0 1 % 16 ≠ 5 ∨ n < 20 ∨ l.length < n ∨ ocSum (l.take 20) ≠ 65535 ∨
      beAt l 6 2 % 16384 ≠ 0 then .malformed
  else if fieldAt l 9 1 ≠ 17 then .ignored
  else udpOf ((l.take n).drop 20) (bytesAt l 12 4) (bytesAt l 16 4) (zeros 10 ++ [0xff#8, 0xff#8] ++ bytesAt l 12 4) true vid

/-- An IPv6 packet: no fragment and no extension header, UDP. -/
def ipv6Of (l : List Byte) (vid : Option Nat) : Got1 :=
  let n := beAt l 4 2
  if l.length < 40 ∨ fieldAt l 0 1 / 16 ≠ 6 ∨ l.length < 40 + n ∨ [0, 43, 44, 51, 60].contains (fieldAt l 6 1) then .malformed
  else if fieldAt l 6 1 ≠ 17 then .ignored
  else udpOf ((l.take (40 + n)).drop 40) (bytesAt l 8 16) (bytesAt l 24 16) (bytesAt l 8 16) false vid

/-- A tag protocol identifier. -/
def isTag (t : Nat) : Bool := t == 0x8100 || t == 0x88A8

/-- A frame whose address the MAC accepts. -/
def frameOf (l : List Byte) : Got1 :=
  let t := beAt l 12 2
  let tagged := isTag t
  let o := if tagged then 18 else 14
  let ty := if tagged then beAt l 16 2 else t
  let vid := if tagged then some (beAt l 14 2 % 4096) else none
  if isTag ty then .malformed
  else if ty = 0x0800 then ipv4Of (l.drop o) vid
  else if ty = 0x86DD then ipv6Of (l.drop o) vid
  else .ignored

/-- The datagram is a stream's: PORT, UDP_PORT, VLAN and SRC_ADDR match (R304, R320). -/
def StreamDesc.takes (d : StreamDesc) (mac : Nat) (u : Udp) : Bool :=
  let v := d.fld 38 2
  let src := bytesAt d.w36 4 16
  d.port == mac && d.fld 36 2 == u.port && (!bitOf v 15 || u.vid == some (v % 4096)) && (src.all (fun b => b == 0#8) || src == u.src)

/-! Lidar packets (R323 to R325). -/

/-- A field's bits as an unsigned number; as an integer. -/
def Spec.nat (f : Spec) (l : List Byte) (base : Nat) : Nat :=
  let b := bytesAt l (base + f.off) f.bytes
  if f.big then beNat b else leNat b
def Spec.int (f : Spec) (l : List Byte) (base : Nat) : Int :=
  if f.signed && f.bytes != 0 then sext (8 * f.bytes) (f.nat l base) else f.nat l base
/-- A present field lies in the packet. -/
def Spec.inside (f : Spec) (l : List Byte) (base : Nat) : Bool := f.bytes == 0 || decide (base + f.off + f.bytes ≤ l.length)

/-- Match bytes and length fit the entry, and the packet contains every field (R323, R324). -/
def Parse.fits (p : Parse) (l : List Byte) : Bool :=
  let blk := p.blkOff + (p.nblk - 1) * p.blkStride
  let pt := blk + p.ptOff + (p.npt - 1) * p.ptStride
  decide (p.matchOff + p.matchLen ≤ l.length) && bytesAt l p.matchOff p.matchLen == p.matchVal.take p.matchLen &&
  (p.pktLen == 0 || l.length == p.pktLen) && p.seq.inside l 0 && p.sample.inside l 0 && (p.timeMode == 0 || p.time.inside l 0) &&
  p.az.inside l blk && p.range.inside l pt && p.intens.inside l pt

/-- One point record, with `t` the packet's time in ns after the sample's first; a TOFF that its 32 bits cannot hold is a free
value (R324; log entry 5). -/
def pointRecord (p : Parse) (elev l : List Byte) (t : Int) (s : State) (b i : Nat) : List Byte × State :=
  let blk := p.blkOff + b * p.blkStride
  let pt := blk + p.ptOff + i * p.ptStride
  let raw := p.range.int l pt
  let range := max 0 (min (roundDiv 0 (raw * p.rscale) 16) (2 ^ 32 - 1))
  let az := roundDiv 0 (p.az.int l blk * p.azScale) 16
  let it := min (max (p.intens.int l pt) 0) 65535
  let off := max (t + b * p.blkDt + i * p.ptDt) 0
  let (toff, s) := if off < 2 ^ 32 then (off.toNat, s) else let (w, s) := s.free; (w.toNat, s)
  (natLe 4 range.toNat ++ natLe 2 (twos 16 az) ++ bytesAt elev (2 * i) 2 ++ natLe 2 it.toNat ++ natLe 1 i ++
    natLe 1 (if raw = 0 then 0 else 1) ++ natLe 4 toff, s)

/-- The records of a packet: block after block, point after point. -/
def packetRecords (p : Parse) (elev l : List Byte) (t : Int) (s : State) : List Byte × State :=
  (List.range (p.nblk * p.npt)).foldl (fun (acc : List Byte × State) j =>
    let (r, s) := pointRecord p elev l t acc.2 (j / p.npt) (j % p.npt)
    (acc.1 ++ r, s)) ([], s)

/-- Indices below the highest received that are missing (R325). -/
def gapCount (l : List Nat) : Nat :=
  let hi := l.foldl Nat.max 0
  (List.range hi).countP (fun k => !l.contains k)

/-- A lidar sample is complete: lost with too great a gap, else on its way through the test packet (R325, R326). -/
def State.endLidar (s : State) (n : Nat) : State :=
  match (s.strm n).cur with
  | none => s
  | some c =>
    let d := (s.strm n).desc
    let s := s.modStrm n (fun x => { x with cur := none, broken := false, endAt := s.tick,
                                            skipId := if c.id then some c.sampleId else none })
    if d.gapLimit < gapCount c.pkts then s.loss n 0x5102 150
    else s.modStrm n (fun x => { x with ready := x.ready ++ [{ c with desc := d }] })

/-- The parser writes a packet's records into the open sample (R324). -/
def State.lidarRecords (s : State) (n : Nat) (l : List Byte) (stamp : Nat) : State :=
  match (s.strm n).cur with
  | none => s
  | some c =>
    let d := (s.strm n).desc
    let p := parseAt d.parse
    let k := if p.seq.bytes = 0 then c.pkts.length else (p.seq.nat l 0 + 2 ^ (8 * p.seq.bytes) - c.seq0) % 2 ^ (8 * p.seq.bytes)
    if d.maxPkts ≤ k then s.raise 150 0x5202 n
    else
      let t : Int := if p.timeMode = 1 then (p.time.nat l 0 : Int) - c.gptp else 10 * ((stamp : Int) - c.stamp)
      let (r, s) := packetRecords p d.elev l t s
      match s.busWrite mIntake (d.entry c.entry + k * p.nblk * p.npt * 16) r with
      | (.ok, s) =>
        let s := s.modCur n (fun x => { x with pkts := x.pkts ++ [k] })
        if c.pkts.length + 1 = d.maxPkts then s.endLidar n else s
      | (_, s) => s.breakFrame n

/-- A packet begins a sample: it takes an entry, whose array is cleared (R307, R324, R325). -/
def State.beginLidar (s : State) (n : Nat) (l : List Byte) (stamp : Nat) : State :=
  let p := parseAt (s.strm n).desc.parse
  let sid := if p.sample.bytes = 0 then none else some (p.sample.nat l 0)
  let s := if s.expiryDue n then s.expire n else s
  let d := (s.strm n).desc
  let s := s.accept n stamp (fun x => { x with seq0 := p.seq.nat l 0, sampleId := sid.getD 0, id := sid.isSome })
  match (s.strm n).cur with
  | some c => (s.store mIntake (d.entry c.entry) (zeros d.lidarBytes)).lidarRecords n l stamp
  | none => s.modStrm n (fun x => { x with broken := true, skipId := sid })

/-- A dropped frame is counted and raised as 0x5301 (R320). -/
def State.ethDrop (s : State) (f : Fld) (mac : Nat) : State := (s.cnt f mac).raise 150 0x5301 0xffff

/-- A datagram of a lidar stream. One with another SAMPLE value ends the sample and begins the next, under the descriptor that the boundary
between them leaves in force (R306, R324, R325). -/
def State.lidarPacket (s : State) (mac n : Nat) (u : Udp) (stamp : Nat) : State :=
  let l := u.data
  let p := parseAt (s.strm n).desc.parse
  if !p.fits l then s.cnt F.INT_ETH_DROP_MALFORMED mac
  else
    let sid := if p.sample.bytes = 0 then none else some (p.sample.nat l 0)
    match (s.strm n).cur with
    | some c =>
      if c.id && some c.sampleId != sid then
        let s := (s.endLidar n).boundary
        let d := (s.strm n).desc
        if !(d.en && d.takes mac u) then s.ethDrop F.INT_ETH_DROP_FILTER mac
        else if d.hostPre || !d.lidar n then s
        else if !(parseAt d.parse).fits l then s.cnt F.INT_ETH_DROP_MALFORMED mac
        else s.beginLidar n l stamp
      else s.lidarRecords n l stamp
    | none =>
      if sid.isSome && (s.strm n).skipId == sid then (if (s.strm n).broken then s else s.raise 150 0x5202 n)
      else s.beginLidar n l stamp

/-! JPEG XS codestreams over RTP (R328 to R331). -/

/-- What a codestream's header declares. -/
structure JxsHeader where
  feature : Bool := false
  lcod : Nat := 0
  wf : Nat := 0
  hf : Nat := 0
  nc : Nat := 0
  cpih : Nat := 0
  nlx : Nat := 0
  nly : Nat := 0
  comps : List (Nat × Nat × Nat) := []
  deriving DecidableEq, Repr

/-- Marker segments behind SOC: marker, offset behind the length field, bytes of content. -/
def jxsSegs (l : List Byte) : Nat → Nat → List (Nat × Nat × Nat)
  | 0, _ => []
  | fuel + 1, o =>
    if l.length < o + 4 then []
    else
      let m := beAt l o 2
      let n := beAt l (o + 2) 2
      if m / 256 ≠ 0xFF ∨ m = 0xFF20 ∨ n < 2 then [] else (m, o + 4, n - 2) :: jxsSegs l fuel (o + 2 + n)

/-- The capabilities that R328 supports: Star-Tetrix and vertically subsampled components (log entry 20). -/
def capOk (l : List Byte) : Bool :=
  (List.range (8 * l.length)).all (fun i => !bitOf (l.getD (i / 8) 0#8).toNat (7 - i % 8) || i == 1 || i == 4)

/-- The header in a codestream's first packet; nothing where SOC, CAP or PIH is absent (R330, R331). -/
def jxsHeader (l : List Byte) : Option JxsHeader :=
  let segs := jxsSegs l l.length 2
  let seg := fun m => segs.find? (fun x => x.1 == m)
  match seg 0xFF50, seg 0xFF12 with
  | some (_, co, cn), some (_, p, pn) =>
    if beAt l 0 2 ≠ 0xFF10 ∨ pn < 24 ∨ l.length < co + cn ∨ l.length < p + pn then none
    else
      let comps := match seg 0xFF13 with
        | some (_, o, n) => (List.range (n / 2)).map (fun i => (fieldAt l (o + 2 * i) 1, fieldAt l (o + 2 * i + 1) 1 / 16, fieldAt l (o + 2 * i + 1) 1 % 16))
        | none => []
      some { feature := capOk (bytesAt l co cn) && !segs.any (fun x => x.1 == 0xFF16 || x.1 == 0xFF17), lcod := beAt l p 4,
             wf := beAt l (p + 8) 2, hf := beAt l (p + 10) 2, nc := fieldAt l (p + 16) 1, cpih := fieldAt l (p + 21) 1 % 16,
             nlx := fieldAt l (p + 22) 1 / 16, nly := fieldAt l (p + 22) 1 % 16, comps := comps }
  | _, _ => none

/-- The component table declares supported depths and sampling (R328). -/
def JxsHeader.compsOk (h : JxsHeader) : Bool :=
  let c := h.comps
  c.length == h.nc && c.all (fun x => decide (8 ≤ x.1) && decide (x.1 ≤ 12)) && (c.headD (0, 0, 0)).2 == (1, 1) &&
  (match h.nc with
   | 1 => true
   | 3 => (c.drop 1).all (fun x => x.2 == (c.getD 1 (0, 0, 0)).2 && [(1, 1), (2, 1), (2, 2)].contains x.2)
   | 4 => h.cpih == 3 && c.all (fun x => x.2 == (1, 1))
   | _ => false)

/-- The checks of R331, in order; `interlaced` is what the payload header says. -/
def StreamDesc.headerOk (d : StreamDesc) (l : List Byte) (interlaced : Bool) : Option JxsHeader :=
  match jxsHeader l with
  | none => none
  | some h =>
    if h.feature && !interlaced && [0, 1, 3].contains h.cpih && decide (1 ≤ h.nlx) && decide (h.nlx ≤ 5) && decide (h.nly ≤ 2) &&
       decide (16 ≤ h.wf) && decide (h.wf ≤ d.width) && decide (16 ≤ h.hf) && decide (h.hf ≤ d.height) && h.compsOk &&
       decide (h.lcod ≤ d.rxBytes) && decide (h.wf * h.hf * d.minBpp ≤ h.lcod * 2048) then some h else none

/-- A codestream is rejected (R331). -/
def State.rejectJxs (s : State) (n : Nat) : State :=
  let e := (s.strm n).desc.dt
  (s.cnt F.JXS_REJECT_HEADER e).loss n 0x6102 (152 + e)

/-- The RTP payload behind the payload header: marker, sequence number, interlaced, data; nothing for a packet the payload format
does not allow, or in slice packetization mode (R329; log entry 20). -/
def rtpOf (l : List Byte) : Option (Bool × Nat × Bool × List Byte) :=
  let b0 := fieldAt l 0 1
  let o := 12 + 4 * (b0 % 16)
  let h := if bitOf b0 4 then o + 4 + 4 * beAt l (o + 2) 2 else o
  let pad := if bitOf b0 5 then (l.getLast?.getD 0#8).toNat else 0
  if b0 / 64 ≠ 2 ∨ l.length < h + 4 + pad then none
  else
    let q := beAt l h 4
    if bitOf q 30 then none
    else some (bitOf (fieldAt l 1 1) 7, beAt l 2 2, bitsOf q 28 27 != 0, (l.take (l.length - pad)).drop (h + 4))

/-- The marker packet has arrived: the codestream is ready for its engine, unless its length differs from Lcod (R329, R331). -/
def State.endRtp (s : State) (n : Nat) : State :=
  match (s.strm n).cur with
  | none => s
  | some c =>
    let d := (s.strm n).desc
    let s := s.modStrm n (fun x => { x with cur := none, broken := false })
    if c.len ≠ c.lcod then s.rejectJxs n
    else { s with intake.jxsQ := s.intake.jxsQ ++ [(d.dt, n, { c with desc := d, cfg := s.wcfg n })] }

/-- Store a payload into the receive area; a gap, or a payload beyond it, loses the sample (R329). -/
def State.rtpStore (s : State) (n seq : Nat) (marker : Bool) (l : List Byte) : State :=
  match (s.strm n).cur with
  | none => s
  | some c =>
    let d := (s.strm n).desc
    let lose := fun (s : State) => (s.breakFrame n).modStrm n (fun x => { x with broken := !marker })
    if seq ≠ c.rtpSeq ∨ d.rxBytes < c.len + l.length then lose s
    else match s.busWrite mIntake (d.entry c.entry + c.len) l with
      | (.ok, s) =>
        let s := s.modCur n (fun x => { x with len := x.len + l.length, rtpSeq := (seq + 1) % 65536 })
        if marker then s.endRtp n else s
      | (_, s) => lose s

/-- A datagram of a JPEG XS stream (R329 to R331). -/
def State.rtpPacket (s : State) (mac n : Nat) (l : List Byte) (stamp : Nat) : State :=
  match rtpOf l with
  | none => s.cnt F.INT_ETH_DROP_MALFORMED mac
  | some (marker, seq, inter, l) =>
    if (s.strm n).cur.isSome then s.rtpStore n seq marker l
    else if (s.strm n).broken then s.modStrm n (fun x => { x with broken := !marker })
    else
      let s := if s.expiryDue n then s.expire n else s
      match (s.strm n).desc.headerOk l inter with
      | none => (s.rejectJxs n).modStrm n (fun x => { x with broken := !marker })
      | some h =>
        let s := s.accept n stamp (fun x => { x with lcod := h.lcod, wf := h.wf, hf := h.hf, rtpSeq := seq, depth := (h.comps.headD (8, 0, 0)).1 })
        let s := if (s.strm n).cur.isSome then s.modStrm n (fun x => { x with comps := if h.nc = 3 then 3 else 1 }) else s
        if (s.strm n).cur.isSome then s.rtpStore n seq marker l else s.modStrm n (fun x => { x with broken := !marker })

/-! Commands. -/

/-- ETH_FRAME_RECEIVE: `frame` from its destination address to before the FCS (R320, R321). -/
def execEthFrameReceive (mac : BitVec 2) (fcsOk : Bool) (frame : List Byte) (s : State) : Host.Outcome State Fault Refusal :=
  let m := mac.toNat
  let c := s.cfg.eth.getD m {}
  let da := bytesAt frame 0 6
  let stamp := (s.tick * 10 - s.rd F.INT_ETH_LAT_RX_NS m) / 10
  done (if !fcsOk then s.ethDrop F.INT_ETH_STAT_FCS m
    else if frame.length + 4 > 9216 || !(da == c.addr || c.groups.contains da) then s
    else match frameOf frame with
      | .ignored => s
      | .malformed => s.ethDrop F.INT_ETH_DROP_MALFORMED m
      | .udp u =>
        let s := s.boundary
        match (List.range' 32 16).find? (fun n => (s.strm n).desc.en && (s.strm n).desc.takes m u) with
        | none => s.ethDrop F.INT_ETH_DROP_FILTER m
        | some n =>
          let s := s.lateExpiry n
          let d := (s.strm n).desc
          if d.hostPre then s else if d.lidar n then s.lidarPacket m n u stamp else s.rtpPacket m n u.data stamp)

/-- LIDAR_TEST_PACKET_END: the test packet of a complete sample has passed the parser (R326). -/
def execLidarTestPacketEnd (n : BitVec 6) (s : State) : Host.Outcome State Fault Refusal :=
  let n := n.toNat
  done (match (s.strm n).ready with
    | [] => s
    | c :: r =>
      let d := c.desc
      let p := parseAt d.parse
      let v := natLe 2 (c.seq % 16)
      let t := bytesAt (d.test.take d.tvarOff ++ v ++ d.test.drop (d.tvarOff + 2)) 0 d.testLen
      let (rcs, s) := if p.fits t then packetRecords p d.elev t 0 s else ([], s)
      let region := bytesAt rcs 0 4096
      let s := (s.store mIntake (d.entry c.entry + d.lidarBytes) region).modStrm n (fun x => { x with ready := r })
      if crc32c region = d.pat.getD (c.seq % 16) 0 then s.admitSample n c
      else (s.cnt F.INT_CHK_PAT_FAIL n).loss n 0x5210 150)

/-- ETH_LINK_CHANGE (R337). -/
def execEthLinkChange (mac speed : BitVec 2) (s : State) : Host.Outcome State Fault Refusal :=
  let m := mac.toNat
  done (((s.wrB F.INT_ETH_STAT_LINK (speed != 0#2) m).wr F.INT_ETH_STAT_SPEED speed.toNat m).raise 150 0x5302 0xffff)

/-- PTP_SYNC_RECEIVE: the firmware sets INT_PTP_OFS (R322). -/
def execPtpSyncReceive (ofs : BitVec 64) (interval : BitVec 32) (s : State) : Host.Outcome State Fault Refusal :=
  let s := ((s.wr F.INT_PTP_OFS_LO_OFS ofs.toNat).wr F.INT_PTP_OFS_HI_OFS (ofs.toNat / 2 ^ 32)).cnt F.INT_PTP_STATUS_SYNCS
  let s := (s.wr F.INT_PTP_STATUS_STATE 1).wr F.INT_PTP_STATUS_PORT s.cfg.gptpMac
  done { s with intake.syncAt := s.tick, intake.syncInt := interval.toNat }

/-- PTP_HOLDOVER: no Sync within three sync intervals (R322). -/
def execPtpHoldover (s : State) : Host.Outcome State Fault Refusal :=
  done (onlyIf (s.rd F.INT_PTP_STATUS_STATE == 1 && decide (s.intake.syncAt + 3 * s.intake.syncInt ≤ s.tick)) s
    (fun s => (s.wr F.INT_PTP_STATUS_STATE 2).raise 150 0x5401 s.cfg.gptpMac))

/-- GPTP_EVENT_TRANSMIT: the MAC stamps the message, adding TX_NS (R321). -/
def execGptpEventTransmit (s : State) : Host.Outcome State Fault Refusal :=
  done { s with intake.txStamp := (s.tick * 10 + s.rd F.INT_ETH_LAT_TX_NS s.cfg.gptpMac) / 10 }

end Sys2Proof.Machine
end

