-- ==== Sys2Proof/Machine/JpegXs.lean ====
section
/-! DEFINITION. The JPEG XS engines: decoding, budgets, resets, and encoding for the recorder (R327 to R340). The decoded samples
and the encoded clip are the commands' operands (log entry 2). -/
namespace Sys2Proof.Machine

def State.jxs (s : State) (e : Nat) : JxsEngine := FMap.get {} s.intake.jxs e
def State.modJxs (s : State) (e : Nat) (f : JxsEngine → JxsEngine) : State :=
  { s with intake.jxs := FMap.set {} s.intake.jxs e (f (s.jxs e)) }

/-- The engine is between samples and not in reset. -/
def JxsEngine.idle (j : JxsEngine) : Bool := !j.out && j.cur.isNone && j.enc.isNone && j.resetAt.isNone
/-- System cycles since the sample started (R47). -/
def State.jxsCycles (s : State) (e : Nat) : Nat := 8 * (s.tick - (s.jxs e).startAt)

/-- A change of mode takes effect between samples (R327). -/
def State.settleMode (s : State) (e : Nat) : State :=
  if (s.jxs e).cur.isNone && (s.jxs e).enc.isNone then s.wr F.JXS_STATUS_MODE_ACT (s.rd F.JXS_CTRL_MODE e) e else s

/-- The engine leaves its sample. -/
def State.jxsDone (s : State) (e : Nat) : State :=
  ((s.modJxs e (fun j => { j with cur := none, enc := none })).wr F.JXS_STATUS_BUSY 0 e).settleMode e

/-- The engine takes a sample up. -/
def State.jxsTake (s : State) (e n : Nat) (f : JxsEngine → JxsEngine) : State :=
  ((s.modJxs e (fun j => { f j with startAt := s.tick })).wr F.JXS_STATUS_BUSY 1 e).wr F.JXS_STATUS_INDEX n e

/-- The engine resets (R332, R338). -/
def State.jxsReset (s : State) (e : Nat) : State :=
  (s.cnt F.JXS_ABORT_RESETS e).modJxs e (fun j => { j with resetAt := some s.tick })

/-- The record of a clip that was not written (R541, R542). -/
def State.missingClip (s : State) (n : Nat) (x : Sample) (code : Nat) : State :=
  s.offer 3 false (natLe 1 n ++ zeros 3 ++ natLe 4 x.seq ++ natLe 2 code)

/-- The engine's buffer, or a read of its source, is uncorrectable: the engine resets and loses its sample (R338, R374). -/
def State.jxsBufferError (s : State) (e : Nat) : State :=
  let j := s.jxs e
  let s := if j.cur.isSome || j.enc.isSome then s.wr F.JXS_LAST_CYCLES (s.jxsCycles e) e else s
  let s := (s.jxsDone e).jxsReset e
  match j.cur, j.enc with
  | some (n, x), _ => s.loseFrame n x 0x6106 (152 + e)
  | none, some (n, x) => (s.raise (152 + e) 0x6106 n).missingClip n x 0x6106
  | none, none => s.raise (152 + e) 0x6106 0xffff

/-- Rows of decoded words, each written at the start of its frame buffer line. -/
def State.putRows (s : State) (e base stride row : Nat) (l : List (BitVec 16)) (rows : Nat) : Option State :=
  (List.range rows).foldl (fun (o : Option State) i => o.bind (fun s =>
    match s.busWrite (mJxs e) (base + i * stride) (((l.drop (i * row)).take row).map (fun w => natLe 2 w.toNat)).flatten with
    | (.ok, s) => some s
    | _ => none)) (some s)

/-- JXS_DECODE_START: the first ready sample of the engine; it waits for a self-test slice of the engine (R327, R517). -/
def execJxsDecodeStart (e : BitVec 1) (s : State) : Host.Outcome State Fault Refusal :=
  let e := e.toNat
  let mine := fun (r : Nat × Nat × Sample) => r.1 == e
  done (match s.intake.jxsQ.find? mine with
    | some (_, n, x) => onlyIf ((s.jxs e).idle && !(s.unit 4 e).running && !s.rdB F.JXS_STATUS_MODE_ACT e) s (fun s =>
        ({ s with intake.jxsQ := delFirst mine s.intake.jxsQ }).jxsTake e n (fun j => { j with cur := some (n, x) }))
    | none => s)

/-- JXS_DECODE_END: the picture, then the test band over lines of 0xA5, or a syntax error (R328, R332, R334). -/
def execJxsDecodeEnd (e : BitVec 1) (ok : Bool) (pix band : List (BitVec 16)) (cycles : BitVec 32) (s : State) :
    Host.Outcome State Fault Refusal :=
  let e := e.toNat
  done (match (s.jxs e).cur with
    | none => s
    | some (n, x) => onlyIf (decide (s.jxsCycles e < x.desc.decBudget)) s (fun s =>
        let s := s.wr F.JXS_LAST_CYCLES cycles.toNat e
        match s.busRead (mJxs e) (x.desc.entry x.entry) x.len with
        | (.ok, _, s) =>
          if !ok then ((s.jxsDone e).cnt F.JXS_REJECT_SYNTAX e).loseFrame n x 0x6103 (152 + e)
          else
            let d := x.desc
            let comps := cfgComps x.cfg
            let line := d.lineBytes n x.cfg
            let base := d.entry x.entry + d.fbOff n
            let all := band ++ List.replicate (d.patLines * d.width * comps - band.length) 0xA5A5#16
            match (s.putRows e base line (x.wf * comps) pix x.hf).bind (fun s =>
                s.putRows e (base + d.height * line) line (d.width * comps) all d.patLines) with
            | some s => ((s.jxsDone e).modStrm n (fun y => { y with endAt := s.tick })).queueWarp n x
            | none => s.jxsBufferError e
        | (_, _, s) => s.jxsBufferError e))

/-- JXS_BUDGET_EXPIRY: the decode reaches DEC_BUDGET (R332). -/
def execJxsBudgetExpiry (e : BitVec 1) (s : State) : Host.Outcome State Fault Refusal :=
  let e := e.toNat
  done (match (s.jxs e).cur with
    | none => s
    | some (n, x) => onlyIf (decide (x.desc.decBudget ≤ s.jxsCycles e)) s (fun s =>
        ((((s.wr F.JXS_LAST_CYCLES (s.jxsCycles e) e).jxsDone e).cnt F.JXS_ABORT_BUDGET e).jxsReset e).loseFrame n x 0x6101 (152 + e)))

/-- JXS_ENGINE_READY: the reset is over (R332, R338). -/
def execJxsEngineReady (e : BitVec 1) (s : State) : Host.Outcome State Fault Refusal :=
  done (onlyIf ((s.jxs e.toNat).resetAt.isSome) s (fun s => s.modJxs e.toNat (fun j => { j with resetAt := none })))

/-- JXS_BUFFER_ERROR (R338). -/
def execJxsBufferError (e : BitVec 1) (s : State) : Host.Outcome State Fault Refusal := done (s.jxsBufferError e.toNat)

/-- JXS_ENCODE_START: the first selected frame of the engine; it waits for a self-test slice of the engine (R327, R335, R517). -/
def execJxsEncodeStart (e : BitVec 1) (s : State) : Host.Outcome State Fault Refusal :=
  let e := e.toNat
  let mine := fun (r : Nat × Nat × Sample) => r.1 == e
  done (match s.intake.encQ.find? mine with
    | some (_, n, x) => onlyIf ((s.jxs e).idle && !(s.unit 4 e).running && s.rdB F.JXS_STATUS_MODE_ACT e) s (fun s =>
        ({ s with intake.encQ := delFirst mine s.intake.encQ }).jxsTake e n (fun j => { j with enc := some (n, x) }))
    | none => s)

/-- Address and length of what an encoder reads: the raw frame, or copy 0 of the tensor (R335). -/
def encSource (d : EncDesc) (n : Nat) (x : Sample) : Nat × Nat :=
  let a := x.desc.entry x.entry
  if d.sel = 1 then (a + fieldAt x.cfg 20 4, fieldAt x.cfg 16 4) else (a, x.desc.height * x.desc.lineBytes n x.cfg)

/-- Pixels of the picture that an encoder takes: the frame's, or those of the tensor (R335). -/
def encPixels (d : EncDesc) (x : Sample) : Nat :=
  if d.sel = 1 then fieldAt x.cfg 4 2 * fieldAt x.cfg 6 2 else x.desc.width * x.desc.height

/-- JXS_ENCODE_END: the clip is written and its record offered (R335, R336, R542). A clip beyond BPP or its entry does not
occur. -/
def execJxsEncodeEnd (e : BitVec 1) (clip : List Byte) (cycles : BitVec 32) (s : State) : Host.Outcome State Fault Refusal :=
  let e := e.toNat
  let d := s.encDesc e
  done (match (s.jxs e).enc with
    | none => s
    | some (n, x) =>
      onlyIf (decide (s.jxsCycles e < d.budget) && decide (clip.length ≤ d.clipBytes) &&
          decide (128 * clip.length ≤ encPixels d x * d.bpp)) s (fun s =>
        let k := (s.jxs e).clipNext
        let s := s.wr F.JXS_LAST_CYCLES cycles.toNat e
        let (a, len) := encSource d n x
        match s.busRead (mJxs e) a len with
        | (.ok, _, s) =>
          (match s.busWrite (mJxs e) (d.clip + k * d.clipBytes) clip with
           | (.ok, s) =>
             (((s.jxsDone e).modJxs e (fun j => { j with clipNext := (k + 1) % Nat.max 1 d.nclip }))).offer 2 false
               (natLe 1 n ++ natLe 1 e ++ natLe 1 k ++ natLe 1 0 ++ natLe 4 x.seq ++ natLe 8 x.stamp ++ natLe 4 clip.length ++
                natLe 4 0 ++ sha384 clip)
           | (_, s) => s.jxsBufferError e)
        | (_, _, s) => s.jxsBufferError e))

/-- JXS_ENCODE_BUDGET_EXPIRY (R336). -/
def execJxsEncodeBudgetExpiry (e : BitVec 1) (s : State) : Host.Outcome State Fault Refusal :=
  let e := e.toNat
  done (match (s.jxs e).enc with
    | none => s
    | some (n, x) => onlyIf (decide ((s.encDesc e).budget ≤ s.jxsCycles e)) s (fun s =>
        ((((s.wr F.JXS_LAST_CYCLES (s.jxsCycles e) e).jxsDone e).cnt F.JXS_TEST_ENC_ABORT e).raise (152 + e) 0x6105 n).missingClip n x 0x6105))

/-- JXS_MODE_WRITE (R327). -/
def execJxsModeWrite (e : BitVec 1) (mode : Bool) (s : State) : Host.Outcome State Fault Refusal :=
  done ((s.wrB F.JXS_CTRL_MODE mode e.toNat).settleMode e.toNat)

end Sys2Proof.Machine
end

