-- ==== Sys2Proof/Machine/TileUnits.lean ====
section
/-! DEFINITION. The tile instructions that hand work to the array, the DMA engine, the message port and the synchronisation
objects, the DMA engine itself, and the end of a part (R159 to R171, R174, R195 to R200). -/
namespace Sys2Proof.Machine

/-! Array instructions (R147, R159 to R162). -/

/-- Tile `t` is a tile of a fused brood other than the lead tile (R128). -/
def State.notLead (s : State) (t : Nat) : Bool := s.fused (tileBrood t) && tileK t != 0

/-- Issue an array instruction: a reserved field halts with cause 0x01, a tile that may not issue one with 0x15, and a full queue
stalls (R147, R128, R162). -/
def State.arrIssue (s : State) (t : BitVec 11) (kind : Nat) (bad : Bool) (ga gb gc : BitVec 5) (ctl : BitVec 10) : State :=
  if 8 ≤ (s.tile t.toNat).q.length then s
  else s.issue t (fun s t =>
    if bad then s.trapAt t 0x01
    else if s.notLead t then s.trapAt t 0x15
    else
      let w (r : BitVec 5) : BitVec 32 := BitVec.ofNat 32 (s.g t r.toNat)
      let op : ArrOp := { kind := kind, a := w ga, b := w gb, c := w gc, ctl := ctl, pc := (s.tile t).pc, ord := (s.tile t).ord }
      (s.modTile t (fun x => { x with q := x.q ++ [op], ord := if kind = 0 then x.ord else x.ord + 1 })).advance t)

def execWld (t : BitVec 11) (ga gb gc : BitVec 5) (ctl : BitVec 10) (s : State) : Host.Outcome State Fault Refusal :=
  done (s.arrIssue t 0 (decide (ctl.toNat % 4 ≠ 0) || fmtReserved (bitsOf ctl.toNat 8 4)) ga gb gc ctl)
def execAstr (t : BitVec 11) (ga gb gc : BitVec 5) (ctl : BitVec 10) (s : State) : Host.Outcome State Fault Refusal :=
  done (s.arrIssue t 1 (decide (5 < bitsOf ctl.toNat 8 6) || fmtReserved (bitsOf ctl.toNat 4 0)) ga gb gc ctl)
def execAdrn (t : BitVec 11) (ga gb gc : BitVec 5) (ctl : BitVec 10) (s : State) : Host.Outcome State Fault Refusal :=
  done (s.arrIssue t 2 (decide (bitsOf ctl.toNat 7 5 ≠ 0)) ga gb gc ctl)
/-- AFENCE issues nothing until every earlier array operation is complete (R162, R496). -/
def execAfence (t : BitVec 11) (s : State) : Host.Outcome State Fault Refusal :=
  done (if s.notLead t.toNat then s.issue t (fun s t => s.trapAt t 0x15)
    else if (s.tile t.toNat).arrIdle then s.issue t (fun s t => s.advance t) else s)

/-! Mesh byte budgets (R195). -/

/-- The part on tile `t` issues `n` bytes; the first byte beyond its budget counts one violation. -/
def State.spend (s : State) (t n : Nat) : State :=
  match s.jobOf t with
  | none => s
  | some j =>
    match s.jobStage j, j.part? t with
    | some x, some p =>
      let s := s.modJob j.id (fun j => j.modPart t (fun p => { p with bytes := p.bytes + n }))
      if x.budget ≠ 0 ∧ !p.overrun ∧ 64 * x.budget < p.bytes + n then
        (s.modJob j.id (fun j => j.modPart t (fun p => { p with overrun := true }))).cnt F.NOC_VIOL_BUDGET
      else s
    | _, _ => s

/-! DMA (R163 to R165). -/

/-- Device address of a SRC or DST field: nothing where a bit that must be 0 is set (R163). -/
def dmaAddr (t : Nat) (v : BitVec 64) : Option Nat :=
  let n := v.toNat
  if bitsOf n 62 48 ≠ 0 then none
  else if v.getLsbD 63 then (if bitsOf n 47 18 ≠ 0 then none else some (tileAddr t (bitsOf n 17 0)))
  else some (bitsOf n 47 0)

/-- The DMA engine of tile `t` may reach every byte of the access (R165). -/
def dmaReach (t a n : Nat) (write : Bool) : Bool :=
  decide (a + n ≤ gddrEnd) || (decide (sysBase ≤ a) && decide (a + n ≤ sysBase + 0x1000000)) ||
  (decide (broodAddr (tileBrood t) 0 ≤ a) && decide (a + n ≤ broodAddr (tileBrood t) 0x40000)) ||
  (decide (tileAddr t 0 ≤ a) && decide (a + n ≤ tileAddr t (if write then 0x10000 else 0x18000)))

/-- The 32 bytes of a descriptor as the engine keeps them, or nothing where R165 halts. -/
def dmaParse (t pc : Nat) (d : List Byte) : Option DmaDesc :=
  let src := BitVec.ofNat 64 (fieldAt d 0 8); let dst := BitVec.ofNat 64 (fieldAt d 8 8)
  let rows := fieldAt d 16 2; let fl := fieldAt d 18 1; let rb := fieldAt d 20 4
  let ss := sext 32 (fieldAt d 24 4); let ds := sext 32 (fieldAt d 28 4)
  match dmaAddr t src, dmaAddr t dst with
  | some a, some b =>
    if rows = 0 ∨ rb = 0 ∨ rb > 1048576 ∨ bitsOf fl 6 5 ≠ 0 ∨ fieldAt d 19 1 ≠ 0 then none
    else if (List.range rows).all (fun i => match rowAt a ss i, rowAt b ds i with
        | some x, some y => dmaReach t x rb false && dmaReach t y rb true
        | _, _ => false) then
      some { src := BitVec.ofNat 64 a, dst := BitVec.ofNat 64 b, rows := rows, rowBytes := rb, srcStride := ss, dstStride := ds,
             sig := if bitOf fl 7 then some (fl % 32) else none, pc := pc }
    else none
  | _, _ => none

/-- DMA reads its descriptor when it issues; a full queue stalls (R164). -/
def execDma (t : BitVec 11) (ga : BitVec 5) (s : State) : Host.Outcome State Fault Refusal :=
  done (if 4 ≤ (s.tile t.toNat).dma.length then s
    else s.issue t (fun s t =>
      let a := s.g t ga.toNat
      if a % 32 ≠ 0 ∨ a + 32 > 0x10000 then s.trapAt t 0x09
      else match s.dataRead t a 32 with
        | (none, s) => s.trapAt t 0x21
        | (some d, s) =>
          match dmaParse t (s.tile t).pc d with
          | none => s.trapAt t 0x09
          | some q => ((s.modTile t (fun x => { x with dma := x.dma ++ [{ q with since := s.tick }] })).spend t (q.rows * q.rowBytes)).advance t))

/-- Read `n` bytes in requests of at most 64 bytes that cross no 64-byte boundary: a request that fails gives no bytes (R164,
R374). `fuel` bounds the requests. The code of the first failure is kept. -/
def State.dmaRead (t : Nat) : Nat → Nat → Nat → State → List (Option Byte) × Option Nat × State
  | 0, _, _, s => ([], none, s)
  | fuel + 1, a, n, s =>
    if n = 0 then ([], none, s) else
      let k := Nat.min n (64 - a % 64)
      let (r, b, s) := s.busRead (mDma t) a k
      let (l, e, s) := State.dmaRead t fuel (a + k) (n - k) s
      match r with
      | .ok => (b.map some ++ l, e, s)
      | _ => (List.replicate k none ++ l, some a, s)

/-- What the failure of an access at address `a` comes to: a halt cause, or the event code of the failed part (R175, R374, R388). -/
def dmaFail (t a : Nat) (write : Bool) : Except Nat Nat :=
  if tileAddr t 0 ≤ a ∧ a < tileAddr t 0x10000 then .error 0x21
  else if tileAddr t 0x10000 ≤ a ∧ a < tileAddr t 0x18000 then .error 0x22
  else if a < gddrEnd then .ok (if write then 0x4021 else 0x4002)
  else .ok 0x4012

/-- Fail the part, or halt the tile, for an access that failed; a tile that has halted with an error stays as it is. -/
def State.dmaFailed (s : State) (t pc a : Nat) (write : Bool) : Bool × State :=
  if (s.tile t).err then (false, s) else match dmaFail t a write with
  | .error c => (true, s.tileHalt t pc c)
  | .ok code => (false, s.markPart t code)

/-- Write the bytes of one row that were read; answers the address of a failed write. -/
def State.dmaWrite (s : State) (t a : Nat) (l : List (Option Byte)) : Option Nat × State :=
  (byteRuns 0 l).foldl (fun (r : Option Nat × State) e =>
    let (b, s) := r.2.busWrite (mDma t) (a + e.1) e.2
    (if b = .ok then r.1 else r.1.or (some (a + e.1)), s)) (none, s)

/-- Whether a part of a transfer that met the fault `f`, if any, stops the queue, and the state after it. -/
def State.dmaOr (s : State) (t pc : Nat) (f : Option Nat) (write : Bool) : Bool × State :=
  match f with
  | some a => s.dmaFailed t pc a write
  | none => (false, s)

/-- Move the given rows of a descriptor, each with the bytes to move, in the order of the list; answers whether the tile still runs
its queue (R164). -/
def State.dmaRows (s : State) (t : Nat) (q : DmaDesc) (rows : List (Nat × Nat)) : Bool × State :=
  runAll (fun (e : Nat × Nat) (s : State) =>
    match rowAt q.src.toNat q.srcStride e.1, rowAt q.dst.toNat q.dstStride e.1 with
    | some a, some b =>
      let (l, f, s) := State.dmaRead t (e.2 / 64 + 2) a e.2 s
      match s.dmaOr t q.pc f false with
      | (true, s) => (false, s)
      | (false, s) =>
        let (w, s) := s.dmaWrite t b l
        match s.dmaOr t q.pc w true with
        | (true, s) => (false, s)
        | (false, s) => (true, s)
    | _, _ => (true, s)) rows s

/-- Every row of a descriptor. -/
def DmaDesc.all (q : DmaDesc) : List (Nat × Nat) := (List.range q.rows).map (fun i => (i, q.rowBytes))
/-- The rows, the last one cut, that the first `n` read requests of a descriptor cover: requests of at most 64 bytes that cross no
64-byte boundary (R164). -/
def DmaDesc.sent (q : DmaDesc) : Nat → List Nat → List (Nat × Nat)
  | _, [] => []
  | n, i :: r =>
    let o := ((rowAt q.src.toNat q.srcStride i).getD 0) % 64
    let k := (o + q.rowBytes + 63) / 64
    if n = 0 then [] else if k ≤ n then (i, q.rowBytes) :: DmaDesc.sent q (n - k) r else [(i, 64 * n - o)]

/-- Every write of the oldest descriptor is complete, and its object is signalled (R164). After a halt the requests already sent, the
first `e.sent` of the descriptor that ran, complete, and nothing is signalled (R177; log entry 11). A descriptor of which the mesh has discarded
a packet does not complete (R187; log entry 38), nor does one whose requests still wait at their source for a place (R41). -/
def execDmaDescComplete (e : DmaEnd) (s : State) : Host.Outcome State Fault Refusal :=
  done (match (s.tile e.tile.toNat).dmaCut with
    | some q => ((s.modTile e.tile.toNat (fun x => { x with dmaCut := none })).dmaRows e.tile.toNat q (q.sent e.sent (List.range q.rows))).2
    | none =>
      match (s.tile e.tile.toNat).dma with
      | [] => s
      | q :: _ =>
        if (s.tile e.tile.toNat).dmaLost || !s.dmaPlaced e.tile.toNat q then s
        else match s.dmaRows e.tile.toNat q q.all with
        | (false, s) => s
        | (true, s) =>
          let s := s.modTile e.tile.toNat (fun x => { x with dma := mapFirst (fun (q : DmaDesc) => { q with since := s.tick }) (x.dma.drop 1) })
          match q.sig with
          | some o => s.localAdd e.tile.toNat o 1
          | none => s)

/-! Object specifiers (R168, R169). -/

/-- What a specifier names. -/
inductive ObjRef where
  | loc (o : Nat)
  | glob (o : Nat)
  deriving DecidableEq, Repr

/-- Decode a specifier; nothing where it is malformed. -/
def objRef (v : Nat) : Option ObjRef :=
  if v ≥ 2 ^ 31 then (if bitsOf v 30 5 = 0 then some (.loc (v % 32)) else none)
  else if bitsOf v 30 16 = 0 then some (.glob (v % 65536)) else none

/-- The synchronisation object plan that governs tile `t`'s job (R169). -/
def State.planOf (s : State) (t : Nat) : List SyncPlanEntry :=
  match (s.jobOf t).bind s.jobStage with
  | some x => x.plan
  | none => []
/-- The plan entry of a global object. -/
def State.planGlob (s : State) (t o : Nat) : Option SyncPlanEntry := (s.planOf t).find? (fun e => !e.isLocal && e.obj == o)

/-! Messages (R166, R167). -/

/-- The declared tile set of tile `t`'s job; of a job of TIL_CTRL.START, the tile alone (R85, R167). -/
def State.tileSet (s : State) (t : Nat) : List Nat :=
  if (s.tile t).job.single then [t]
  else match (s.jobOf t).bind s.jobStage with
    | some x => x.tiles
    | none => []
/-- Logical tile `tile` of chip `chip` is in the declared tile set. The set names logical tiles, and each chip of a model has its own tile of
that number (log entry 37); that of a job of TIL_CTRL.START is this tile of this chip. -/
def State.inSet (s : State) (t chip tile : Nat) : Bool :=
  (s.tileSet t).contains tile && (chip == (s.tile t).job.chip || !(s.tile t).job.single)

/-- MSG: the operands are checked, and the message joins the port's queue, or is dropped outside the tile set (R166, R167). -/
def execMsg (t : BitVec 11) (ga gb gc : BitVec 5) (ctl : BitVec 10) (s : State) : Host.Outcome State Fault Refusal :=
  done (if 4 ≤ (s.tile t.toNat).msgs.length then s
    else s.issue t (fun s t =>
      let a := s.g t ga.toNat; let b := s.g t gb.toNat; let c := s.g t gc.toNat
      let n := ctl.toNat % 32 + 1; let add := ctl.toNat / 32
      let chip := bitsOf b 31 30; let tile := bitsOf b 26 16; let off := bitsOf b 15 0
      let x := s.tile t
      if a % 32 ≠ 0 ∨ a + 32 * n > 0x10000 ∨ x.job.chips ≤ chip ∨ bitsOf b 29 27 ≠ 0 ∨ off % 32 ≠ 0 ∨ off + 32 * n > 0x10000 ∨
          (objRef c).isNone then s.trapAt t 0x0A
      else if !s.inSet t chip tile then (s.cnt F.NOC_VIOL_OUT_OF_SET).advance t
      else
        let m : MsgReq := { src := a, chip := chip, tile := tile, dst := off, spec := BitVec.ofNat 32 c, add := add, units := n,
                            pc := x.pc }
        ((s.modTile t (fun y => { y with msgs := y.msgs ++ [m] })).spend t (32 * n)).advance t))

/-- MFENCE issues nothing until the port has read every earlier message's source (R167). -/
def execMfence (t : BitVec 11) (s : State) : Host.Outcome State Fault Refusal :=
  done (if (s.tile t.toNat).msgs.isEmpty then s.issue t (fun s t => s.advance t) else s)

/-! Synchronisation instructions (R168, R169, R196 to R200). -/

/-- Send an operation on a global object to its brood controller; the instruction at the program counter goes on at once, or
stalls until its answer where `wait` holds. -/
def State.sendOp (s : State) (t kind o v gd : Nat) (wait : Bool) : State :=
  let x := s.tile t
  let op : SyncOp := { tile := t, kind := kind, obj := o, val := BitVec.ofNat 32 v, gd := gd, sentAt := s.tick, job := x.job.job,
                       part := x.job.part }
  let s := { s with mesh.ops := s.mesh.ops ++ [op] }
  if wait then s.modTile t (fun x => { x with blocked := some { kind := kind, obj := o, val := BitVec.ofNat 32 v, gd := gd,
                                                                  pc := x.pc } })
  else s.advance t

/-- SADD and SADDI. -/
def State.syncAdd (s : State) (t spec v : Nat) : State :=
  match objRef spec with
  | some (.loc o) => (s.localAdd t o v).advance t
  | some (.glob o) =>
    (match s.planGlob t o with
     | some e => if e.barrier then s.trapAt t 0x0B else s.sendOp t 0 o v 0 false
     | none => s.trapAt t 0x0B)
  | none => s.trapAt t 0x0B

def execSadd (t : BitVec 11) (ga gb : BitVec 5) (s : State) : Host.Outcome State Fault Refusal :=
  done (s.issue t (fun s t => s.syncAdd t (s.g t ga.toNat) (s.g t gb.toNat)))
def execSaddi (t : BitVec 11) (ga : BitVec 5) (ctl : BitVec 10) (s : State) : Host.Outcome State Fault Refusal :=
  done (s.issue t (fun s t => s.syncAdd t (s.g t ga.toNat) ctl.toNat))

/-- The instruction waits on a local counter that has not reached its value: issue stalls. -/
def State.localWaits (s : State) (t ga gb : Nat) : Bool :=
  match objRef (s.g t ga) with
  | some (.loc o) => decide ((s.lobj t o).toNat < s.g t gb)
  | _ => false

def execSwait (t : BitVec 11) (ga gb : BitVec 5) (s : State) : Host.Outcome State Fault Refusal :=
  done (if s.localWaits t.toNat ga.toNat gb.toNat then s
    else s.issue t (fun s t =>
      match objRef (s.g t ga.toNat) with
      | some (.loc _) => s.advance t
      | some (.glob o) =>
        (match s.planGlob t o with
         | some e => if e.barrier then s.trapAt t 0x0B else s.sendOp t 3 o (s.g t gb.toNat) 0 true
         | none => s.trapAt t 0x0B)
      | none => s.trapAt t 0x0B))

/-- SARV and SBWAIT act on barriers only. -/
def State.barrierOp (s : State) (t kind spec v gd : Nat) : State :=
  match objRef spec with
  | some (.glob o) =>
    (match s.planGlob t o with
     | some e => if e.barrier then s.sendOp t kind o v gd true else s.trapAt t 0x0B
     | none => s.trapAt t 0x0B)
  | _ => s.trapAt t 0x0B

def execSarv (t : BitVec 11) (gd ga : BitVec 5) (s : State) : Host.Outcome State Fault Refusal :=
  done (s.issue t (fun s t => s.barrierOp t 2 (s.g t ga.toNat) 0 gd.toNat))
def execSbwait (t : BitVec 11) (ga gb : BitVec 5) (s : State) : Host.Outcome State Fault Refusal :=
  done (s.issue t (fun s t => s.barrierOp t 4 (s.g t ga.toNat) (s.g t gb.toNat % 65536) 0))

def execSrd (t : BitVec 11) (gd ga : BitVec 5) (s : State) : Host.Outcome State Fault Refusal :=
  done (s.issue t (fun s t =>
    match objRef (s.g t ga.toNat) with
    | some (.loc o) => (s.setG t gd.toNat (s.lobj t o).toNat).advance t
    | some (.glob o) => if (s.planGlob t o).isSome then s.sendOp t 1 o 0 gd.toNat true else s.trapAt t 0x0B
    | none => s.trapAt t 0x0B))
def execSrst (t : BitVec 11) (ga : BitVec 5) (s : State) : Host.Outcome State Fault Refusal :=
  done (s.issue t (fun s t =>
    match objRef (s.g t ga.toNat) with
    | some (.loc o) => (s.setLobj t o 0#32).advance t
    | _ => s.trapAt t 0x0B))

/-! The end of a part (R174). -/

/-- Every array operation, DMA descriptor and message of the tile has completed. -/
def State.unitsDone (s : State) (t : Nat) : Bool :=
  let x := s.tile t
  x.arrIdle && x.dma.isEmpty && x.msgs.isEmpty && !s.mesh.msgs.any (fun m => m.src == t)

/-- The part finishes after END and is reported to the sequencer: clean, or failed where a check or a message of it failed (R29,
R30, R174, R194). -/
def execPartFinish (t : BitVec 11) (s : State) : Host.Outcome State Fault Refusal :=
  done (
    let t := t.toNat
    let x := s.tile t
    onlyIf (x.run == 1 && x.job.ended && s.unitsDone t) s (fun s =>
      let s := s.modTile t (fun y => { y with run := 0 })
      match s.jobOf t with
      | none => s.kickJobs
      | some j =>
        let why := match j.part? t with
          | some p => p.why
          | none => 0
        let s := if x.job.failed then s.failPart j.id t why true
          else s.modJob j.id (fun j => j.modPart t (fun p => { p with status := 1 }))
        (s.checkJob j.id).kickJobs))

end Sys2Proof.Machine
end

