-- ==== Sys2Proof/Machine/Mesh.lean ====
section
/-! DEFINITION. Messages between tiles, operations on global objects, and router buffers (R187 to R201, R226, R227). -/
namespace Sys2Proof.Machine

/-! Messages (R189 to R195). -/

/-- EPOCH of tile `t`'s job: bits 7:0 of the FRAME field of its job block (R85, R189). -/
def State.epochOf (s : State) (t : Nat) : Nat := (s.tile t).job.frame % 256

/-- Header flit and payload of a message (R189, R190). -/
def msgBytes (srcChip src : Nat) (m : MsgReq) (stage epoch : Nat) (payload : List Byte) : List Byte :=
  let h := natLe 2 (m.chip * 16384 + m.tile) ++ natLe 2 (srcChip * 16384 + src) ++ natLe 2 m.dst ++ natLe 1 (m.units - 1) ++
    natLe 1 m.add ++ natLe 4 m.spec.toNat ++ natLe 1 stage ++ natLe 1 epoch ++ zeros 12
  let h := h ++ natLe 2 (crc16 h)
  h ++ natLe 4 (crc32c (h ++ payload)) ++ payload

/-- Bytes of payload that a port holds for retransmission (R191). -/
def State.heldBytes (s : State) (t : Nat) : Nat :=
  (s.mesh.msgs.filter (fun m => m.src == t)).foldl (fun n m => n + (m.bytes.length - 32)) 0

/-! Ports to other chips (R208 to R216). -/

def State.port (s : State) (p : Nat) : Port := FMap.get {} s.mesh.ports p
def State.modPort (s : State) (p : Nat) (f : Port → Port) : State :=
  { s with mesh.ports := FMap.set {} s.mesh.ports p (f (s.port p)) }
/-- CHL_STATUS.STATE: 0 disabled, 1 training, 2 identity, 3 authenticating, 4 up, 5 retraining, 6 refused, 7 down. -/
def State.link (s : State) (p : Nat) : Nat := s.rd F.CHL_STATUS_STATE p
/-- The ports whose peer is chip `c`, in ascending order. -/
def State.portsTo (s : State) (c : Nat) : List Nat := (List.range s.nPorts).filter (fun p => s.cfg.peers.getD p none == some c)
/-- The port that a message between two tiles takes to chip `c` (R210). -/
def State.portTo (s : State) (c a b : Nat) : Option Nat :=
  match s.portsTo c with
  | [] => none
  | [p] => some p
  | p :: q :: _ => if (a + b) % 2 = 0 then some p else some q
/-- Traffic of a port is not lost: it is up, or it retrains with its session key kept, and the traffic waits (R215, R217). -/
def State.carries (s : State) (p : Nat) : Bool :=
  s.link p == 4 || s.link p == 5 || (decide (1 ≤ s.link p) && decide (s.link p ≤ 3) && !(s.port p).full && (s.port p).key.isSome)

/-- A message leaves its port's queue: the source is read into the retransmit buffer and sent (R191). -/
def execMsgSend (t : BitVec 11) (s : State) : Host.Outcome State Fault Refusal :=
  done (
    let t := t.toNat
    let x := s.tile t
    match x.msgs with
    | [] => s
    | m :: r =>
      let waits := s.mesh.msgs.any (fun q => q.src == t && q.chip == m.chip && q.dst == m.tile) ||
        decide (4096 < s.heldBytes t + 32 * m.units)
      if waits then s
      else match s.dataRead t m.src (32 * m.units) with
        | (none, s) => s.tileHalt t m.pc 0x21
        | (some d, s) =>
          let b := msgBytes x.job.chip t m x.job.stage (s.epochOf t) d
          let lost := decide (m.chip ≠ x.job.chip) && !(match s.portTo m.chip t m.tile with
            | some p => s.carries p
            | none => false)
          { s.modTile t (fun y => { y with msgs := r }) with
              mesh.msgs := s.mesh.msgs ++ [{ src := t, chip := m.chip, dst := m.tile, bytes := b, job := x.job.job,
                                             part := x.job.part, sends := 1, sentAt := s.tick, phase := if lost then 5 else 0 }] })

/-- The message of port `t` to `(chip, dst)` that is not yet acknowledged. -/
def State.msg? (s : State) (t chip dst : Nat) : Option Msg :=
  s.mesh.msgs.find? (fun m => m.src == t && m.chip == chip && m.dst == dst)
def State.modMsg (s : State) (t chip dst : Nat) (f : Msg → Msg) : State :=
  { s with mesh.msgs := updFirst (fun m => m.src == t && m.chip == chip && m.dst == dst) f s.mesh.msgs }
def State.dropMsg (s : State) (t chip dst : Nat) : State :=
  { s with mesh.msgs := delFirst (fun m => m.src == t && m.chip == chip && m.dst == dst) s.mesh.msgs }

/-- A job of stage `st` whose frame ends in `ep` is in progress on tile `t` (R192). -/
def State.inProgress (s : State) (t st ep : Nat) : Bool :=
  match s.jobOf t with
  | some j => !j.waiting && j.stage == st && s.epochOf t == ep
  | none => false

/-- Exclusive or of two byte lists, the second padded with zeros. -/
def xorBytes : List Byte → List Byte → List Byte
  | [], _ => []
  | l, [] => l
  | a :: l, b :: m => (a ^^^ b) :: xorBytes l m

/-- The destination port handles a message in the five steps of R192. The answer says what goes back: 1 ACK, 2 NACK, 3 REJECT,
4 an add on its way to a brood controller, 5 nothing. -/
def State.landMsg (s : State) (src dst : Nat) (b : List Byte) : Nat × State :=
  if !s.hosted dst || fieldAt b 26 2 != crc16 (bytesAt b 0 26) then (5, s)
  else if !s.inProgress dst (fieldAt b 12 1) (fieldAt b 13 1) then (3, s.raiseTile dst 0x3004)
  else
    let n := 32 * (fieldAt b 6 1 % 32 + 1)
    let payload := bytesAt b 32 n
    let s := (s.sramWrite (mDma dst) true (tileAddr dst (fieldAt b 4 2)) payload).2
    if fieldAt b 28 4 ≠ crc32c (bytesAt b 0 28 ++ payload) then (2, s.raiseTile dst 0x3001)
    else
      let add := fieldAt b 7 1 % 32
      if add = 0 then (1, s)
      else match objRef (fieldAt b 8 4) with
        | some (.loc o) => (1, s.localAdd dst o add)
        | some (.glob o) =>
          (4, { s with mesh.ops := s.mesh.ops ++ [{ tile := dst, kind := 0, obj := o, val := BitVec.ofNat 32 add, sentAt := s.tick,
                                                    msgSrc := some src }] })
        | none => (1, s)

/-- A message arrives, from this device's mesh or (with `link`) from another chip over a port that is up, addressed to `dst` of this chip, with
hardware errors `err` in its bytes (R211). A message to a tile that is being moved waits in its router (R74). -/
def execMsgArrive (src dst : BitVec 11) (link : Option (BitVec 2 × List Byte)) (err : List Byte) (s : State) :
    Host.Outcome State Fault Refusal :=
  done (
    let a := src.toNat
    let d := dst.toNat
    if s.moving d then s
    else match link with
      | some (p, b) => onlyIf (s.link p.toNat == 4 && fieldAt b 0 2 == s.cfg.chip * 16384 + d) s
          (fun s => (s.landMsg 65535 d (xorBytes b err)).2)
      | none =>
        match s.msg? a s.cfg.chip d with
        | none => s
        | some m =>
          if m.phase ≠ 0 then s
          else
            let (r, s) := s.landMsg a d (xorBytes m.bytes err)
            s.modMsg a s.cfg.chip d (fun m => { m with phase := r }))

/-- Capture the first failure of the mesh (R226). -/
def State.nocFirst (s : State) (kind stage srcChip src off dstChip dst : Nat) : State :=
  if s.rdB F.NOC_FIRST0_VALID then s else
    (((((((s.wr F.NOC_FIRST0_VALID 1).wr F.NOC_FIRST0_KIND kind).wr F.NOC_FIRST0_STAGE stage).wr F.NOC_FIRST0_SRC_CHIP
      srcChip).wr F.NOC_FIRST0_SRC_TILE src).wr F.NOC_FIRST1_OFFSET off).wr F.NOC_FIRST1_DST_CHIP dstChip).wr F.NOC_FIRST1_DST_TILE dst

/-- A port abandons a message: counted, captured, raised, and the source part fails (R194). -/
def State.abandon (s : State) (m : Msg) (code kind : Nat) (fld : Fld) : State :=
  let s := (s.dropMsg m.src m.chip m.dst).cnt fld
  let s := s.nocFirst kind (fieldAt m.bytes 12 1) (fieldAt m.bytes 2 2 / 16384) m.src (fieldAt m.bytes 4 2) m.chip m.dst
  (s.raiseTile m.src code).markJobPart m.src m.job code

/-- Destination chip of an acknowledgement's 13-bit destination. -/
def dstChip (d : BitVec 13) : Nat := d.toNat / 2048
/-- Destination tile of it. -/
def dstTile (d : BitVec 13) : Nat := d.toNat % 2048
/-- The acknowledgement `r` of the message can arrive: it was returned on this device, or the message went to another chip, was not lost, and
its port is up. -/
def State.answered (s : State) (m : Msg) (r : Nat) : Bool :=
  if m.chip = s.cfg.chip then m.phase == r
  else m.phase != 5 && (match s.portTo m.chip m.src m.dst with
    | some p => s.link p == 4
    | none => false)

def execMsgAck (t : BitVec 11) (dst : BitVec 13) (s : State) : Host.Outcome State Fault Refusal :=
  done (match s.msg? t.toNat (dstChip dst) (dstTile dst) with
    | none => s
    | some m => onlyIf (s.answered m 1) s (fun s => s.dropMsg m.src m.chip m.dst))
def execMsgNack (t : BitVec 11) (dst : BitVec 13) (s : State) : Host.Outcome State Fault Refusal :=
  done (match s.msg? t.toNat (dstChip dst) (dstTile dst) with
    | none => s
    | some m => onlyIf (s.answered m 2) s (fun s =>
        if 3 ≤ m.sends then s.abandon m 0x3002 1 F.NOC_FAIL_CRC_FAIL
        else (s.modMsg m.src m.chip m.dst (fun m =>
          { m with sends := m.sends + 1, nacks := m.nacks + 1, phase := 0, sentAt := s.tick })).cnt F.NOC_RETX_COUNT))
def execMsgReject (t : BitVec 11) (dst : BitVec 13) (s : State) : Host.Outcome State Fault Refusal :=
  done (match s.msg? t.toNat (dstChip dst) (dstTile dst) with
    | none => s
    | some m => onlyIf (s.answered m 3) s (fun s => s.abandon m 0x3004 3 F.NOC_FAIL_REJECT))

/-- `v` units of 16 mesh cycles, at least 16 units, have passed since tick `t0` (R226; 1,200 MHz mesh clock, R47). -/
def ackLate (tick t0 v : Nat) : Bool := decide (4 * Nat.max 16 v ≤ 3 * (tick - t0))

def execMsgAckTimeout (t : BitVec 11) (dst : BitVec 13) (s : State) : Host.Outcome State Fault Refusal :=
  done (match s.msg? t.toNat (dstChip dst) (dstTile dst) with
    | none => s
    | some m =>
      let v := s.rd (if m.chip = s.cfg.chip then F.NOC_ACK_TMO_LOCAL else F.NOC_ACK_TMO_CROSS)
      onlyIf (ackLate s.tick m.sentAt v) s (fun s => s.abandon m 0x3003 2 F.NOC_FAIL_ACK_TMO))

/-! Global objects (R196 to R201). -/

/-- Replace the first operation of tile `t` that satisfies `p`. -/
def State.modOp (s : State) (p : SyncOp → Bool) (f : SyncOp → SyncOp) : State := { s with mesh.ops := updFirst p f s.mesh.ops }
/-- A waiting operation's condition holds (R196, R197). -/
def State.opTrue (s : State) (o : SyncOp) : Bool :=
  let v := s.gobj o.obj
  if o.kind = 3 then decide (o.val.toNat ≤ v.toNat) else decide (v.toNat / 65536 ≠ o.val.toNat % 65536)
/-- Waiters of an object whose condition now holds are woken. -/
def State.wake (s : State) (obj : Nat) : State :=
  { s with mesh.ops := s.mesh.ops.map (fun o => if o.phase = 3 && o.obj = obj && s.opTrue o then { o with phase := 4 } else o) }
/-- The object is a barrier. -/
def State.isBarrier (s : State) (o : Nat) : Bool := FMap.get 0 s.swarm.gbar o != 0

/-- Add to a global counter, saturating (R196). The result of a message's add on a barrier is not stated: it is free (log entry 5). -/
def State.globalAdd (s : State) (o v : Nat) : State :=
  if s.isBarrier o then
    let (w, s) := s.free
    s.setGobj o w
  else
    let n := (s.gobj o).toNat + v
    let s := if n < 2 ^ 32 then s else s.cnt F.SYN_VIOL_SAT_GLOBAL
    s.setGobj o (BitVec.ofNat 32 (satAt (2 ^ 32 - 1) n))

/-- Arrive at a barrier: the count, and at P the next phase (R197). -/
def State.barrierArrive (s : State) (o : Nat) : State :=
  let v := (s.gobj o).toNat
  let n := v % 4096 + 1
  if n < FMap.get 0 s.swarm.gbar o then s.setGobj o (BitVec.ofNat 32 (v / 65536 * 65536 + n))
  else s.setGobj o (BitVec.ofNat 32 ((v / 65536 + 1) % 65536 * 65536))

/-- Waits that a brood controller's table holds. -/
def State.tableUsed (s : State) (b : Nat) : Nat := s.mesh.ops.countP (fun o => o.phase == 3 && o.obj / 512 == b)

/-- A controller applies one operation and answers it; a wait enters the wait table, also when its condition holds already, or is answered
with a retry when the table is full (R197 to R201). -/
def State.applyOp (s : State) (o : SyncOp) : State :=
  let b := o.obj / 512
  let p : SyncOp → Bool := fun q => q.tile == o.tile && q.phase == 0 && q.obj / 512 == b
  match o.kind with
  | 0 => ((s.globalAdd o.obj o.val.toNat).modOp p (fun q => { q with phase := 1 })).wake o.obj
  | 1 => s.modOp p (fun q => { q with phase := 1, ans := s.gobj o.obj })
  | 2 =>
    let ph := BitVec.ofNat 32 ((s.gobj o.obj).toNat / 65536)
    ((s.barrierArrive o.obj).modOp p (fun q => { q with phase := 1, ans := ph })).wake o.obj
  | _ =>
    if 64 ≤ s.tableUsed b then s.modOp p (fun q => { q with phase := 2 })
    else
      let s := s.modOp p (fun q => { q with phase := 3 })
      (s.peak F.SYN_WAITS_PEAK (s.tableUsed b)).wake o.obj

/-- The oldest operation of tile `t` that travels to the controller of brood `b` reaches it; `bad` says that its CRC-16 does not match. There
is no order between operations on objects of different broods (R188, R201). -/
def execSyncOpApply (p : SyncPair) (bad : Bool) (s : State) : Host.Outcome State Fault Refusal :=
  done (
    let t := p.tile.toNat
    let b := p.brood.toNat
    let p : SyncOp → Bool := fun o => o.tile == t && o.phase == 0 && o.obj / 512 == b
    match s.mesh.ops.find? p with
    | none => s
    | some o =>
      if bad then
        let s := (s.modOp p (fun q => { q with phase := 5 })).cnt F.NOC_FAIL_SYNC_CHK
        (s.nocFirst 4 (s.tile t).job.stage s.cfg.chip t 0 s.cfg.chip (tileOf b 0)).raise b 0x3005 t
      else s.applyOp o)

/-- Issue resumes after the instruction that waited. -/
def State.resume (s : State) (t : Nat) : State :=
  match (s.tile t).blocked with
  | some _ => (s.modTile t (fun x => { x with blocked := none })).advance t
  | none => s

/-- An operation completes at its tile with value `v` (R199, R201). A message's add returns the ACK (R192). -/
def State.completeOp (s : State) (o : SyncOp) (v : BitVec 32) : State :=
  match o.msgSrc with
  | some src => s.modMsg src s.cfg.chip o.tile (fun m => if m.phase = 4 then { m with phase := 1 } else m)
  | none =>
    if o.kind = 0 then s
    else if o.kind ≤ 2 then (s.setG o.tile o.gd v.toNat).resume o.tile
    else s.resume o.tile

/-- An answer of the controller of brood `b` reaches the tile, the oldest one returning: a value, a retry, the news that a wait has entered the
table, or the wake that ends it (R199 to R201). -/
def execSyncOpResponse (p : SyncPair) (s : State) : Host.Outcome State Fault Refusal :=
  done (
    let p : SyncOp → Bool := fun o => o.tile == p.tile.toNat && o.obj / 512 == p.brood.toNat &&
      (o.phase == 1 || o.phase == 2 || o.phase == 4 || (o.phase == 3 && !o.told))
    match s.mesh.ops.find? p with
    | none => s
    | some o =>
      if o.phase = 2 then s.modOp p (fun o => { o with phase := 7, sentAt := s.tick })
      else if o.phase = 3 then s.modOp p (fun o => { o with told := true })
      else ({ s with mesh.ops := delFirst p s.mesh.ops }).completeOp o o.ans)

/-- The tile resends a wait 32 array cycles after its retry reached it, 5 1/3 ticks at 600 MHz (R47, R200). -/
def execSyncWaitRetry (t : BitVec 11) (s : State) : Host.Outcome State Fault Refusal :=
  done (
    let p : SyncOp → Bool := fun o => o.tile == t.toNat && o.phase == 7 && decide (16 ≤ 3 * (s.tick - o.sentAt))
    onlyIf (s.mesh.ops.any p) s (fun s =>
      (s.modOp p (fun o => { o with phase := 0, sentAt := s.tick })).cnt F.SYN_WAITS_RETRY))

/-- The tile has had no answer to the operation: a wait that has been answered completes only by its wake (R201). -/
def SyncOp.unanswered (o : SyncOp) : Bool :=
  o.phase == 0 || o.phase == 1 || o.phase == 2 || o.phase == 5 || ((o.phase == 3 || o.phase == 4) && !o.told)

/-- An operation has had no answer in time: it completes without effect and the part that issued it fails (R201). -/
def execSyncOpTimeout (t : BitVec 11) (s : State) : Host.Outcome State Fault Refusal :=
  done (
    let t := t.toNat
    let p : SyncOp → Bool := fun o => o.tile == t && o.msgSrc.isNone && o.unanswered &&
      ackLate s.tick o.sentAt (s.rd F.NOC_ACK_TMO_LOCAL)
    match s.mesh.ops.find? p with
    | none => s
    | some o => (({ s with mesh.ops := delFirst p s.mesh.ops }).completeOp o 0#32).markJobPart t o.job 0x3005)

/-! Routes and router buffers (R182 to R184, R187). -/

/-- The router, as column and row, that carries a port (R183). -/
def State.router (s : State) (e : MeshEnd) : Nat × Nat :=
  match e with
  | .tile t => (tileX t.toNat, tileY t.toNat)
  | .brood b => (tileX (tileOf b.toNat 0), tileY (tileOf b.toNat 0))
  | .chan c =>
    let r := c.toNat % 4
    (if c.toNat < 4 then 0 else 63, if s.fuses.variantB then 2 + 4 * r else 4 + 8 * r)
  | .sys p => (8 + 16 * p.toNat, 0)
  | .link p => (8 + 16 * p.toNat, s.nRows - 1)
/-- The numbers from `a` to `b`, in either direction. -/
def walk (a b : Nat) : List Nat := if a ≤ b then List.range' a (b - a + 1) else (List.range' b (a - b + 1)).reverse
/-- The routers that a packet passes: along the row to the destination column, then along the column to the destination row (R184). -/
def State.route (s : State) (a b : MeshEnd) : List (Nat × Nat) :=
  let p := s.router a
  let q := s.router b
  (walk p.1 q.1).map (fun x => (x, p.2)) ++ ((walk p.2 q.2).drop 1).map (fun y => (q.1, y))

/-- The end on this device toward the tile of a message: the tile, or the port to its chip (R211). -/
def State.toward (s : State) (src : Nat) (dst : BitVec 13) : MeshEnd :=
  if dstChip dst = s.cfg.chip then .tile (BitVec.ofNat 11 (dstTile dst))
  else .link (BitVec.ofNat 2 ((s.portTo (dstChip dst) src (dstTile dst)).getD 0))
/-- The two ends of a packet on this device (R184, R211). -/
def State.ends (s : State) (k : MeshPkt) : MeshEnd × MeshEnd :=
  match k with
  | .msg a d => (.tile a, s.toward a.toNat d)
  | .ack a d => (s.toward a.toNat d, .tile a)
  | .op t b => (.tile t, .brood b)
  | .answer t b => (.brood b, .tile t)
  | .access a b => (a, b)

/-- The operation of a tile for a controller that a packet carries. -/
def opIn (t b : Nat) (ans : Bool) (o : SyncOp) : Bool :=
  o.tile == t && o.obj / 512 == b && (if ans then o.phase == 1 || o.phase == 2 || o.phase == 4 || (o.phase == 3 && !o.told) else o.phase == 0)
/-- The packet is on its way. The requests of units other than tiles are not held in the state (log entry 21): one of theirs may always be. -/
def State.onWay (s : State) (k : MeshPkt) : Bool :=
  match k with
  | .msg a d => (match s.msg? a.toNat (dstChip d) (dstTile d) with
    | some m => m.phase == 0
    | none => false)
  | .ack a d => (match s.msg? a.toNat (dstChip d) (dstTile d) with
    | some m => m.phase == 1 || m.phase == 2 || m.phase == 3
    | none => false)
  | .op t b => s.mesh.ops.any (opIn t.toNat b.toNat false)
  | .answer t b => s.mesh.ops.any (opIn t.toNat b.toNat true)
  | .access (.tile t) _ => (s.tile t.toNat).dma != []
  | .access _ (.tile t) => (s.tile t.toNat).dma != []
  | .access _ _ => true

/-- The packet is discarded. A message or an acknowledgement is lost, and so is an operation or its answer; a wake that is lost after the
wait was answered ends no wait (R201); a request or response of a tile's DMA leaves its descriptor incomplete (log entry 38). -/
def State.discard (s : State) (k : MeshPkt) : State :=
  match k with
  | .msg a d => s.modMsg a.toNat (dstChip d) (dstTile d) (fun m => { m with phase := 5 })
  | .ack a d => s.modMsg a.toNat (dstChip d) (dstTile d) (fun m => { m with phase := 5 })
  | .op t b => s.modOp (opIn t.toNat b.toNat false) (fun o => { o with phase := 5 })
  | .answer t b => s.modOp (opIn t.toNat b.toNat true) (fun o =>
      { o with phase := if o.phase = 4 ∧ o.told then 6 else if o.phase = 3 then 3 else 5 })
  | .access (.tile t) _ => s.modTile t.toNat (fun x => { x with dmaLost := true })
  | .access _ (.tile t) => s.modTile t.toNat (fun x => { x with dmaLost := true })
  | .access _ _ => s

/-- Capture the first failure with the fields of a packet (R226): those of a message's header, and for any other packet the stage that its
tile runs, no offset, and for an operation the tile of its controller. -/
def State.nocPkt (s : State) (k : MeshPkt) : State :=
  let ofMsg := fun (a : BitVec 11) (d : BitVec 13) => match s.msg? a.toNat (dstChip d) (dstTile d) with
    | some m => s.nocFirst 5 (fieldAt m.bytes 12 1) s.cfg.chip a.toNat (fieldAt m.bytes 4 2) (dstChip d) (dstTile d)
    | none => s
  let plain := fun (t d : Nat) => s.nocFirst 5 (s.tile t).job.stage s.cfg.chip t 0 s.cfg.chip d
  match k with
  | .msg a d => ofMsg a d
  | .ack a d => ofMsg a d
  | .op t b => plain t.toNat (tileOf b.toNat 0)
  | .answer t b => plain t.toNat (tileOf b.toNat 0)
  | .access (.tile t) e => plain t.toNat ((s.router e).2 * 64 + (s.router e).1)
  | .access e (.tile t) => plain t.toNat ((s.router e).2 * 64 + (s.router e).1)
  | .access e f => s.nocFirst 5 0 s.cfg.chip ((s.router e).2 * 64 + (s.router e).1) 0 s.cfg.chip ((s.router f).2 * 64 + (s.router f).1)

/-- The tile whose packet it is: unit of the event. -/
def pktUnit (k : MeshPkt) : Nat :=
  match k with
  | .msg a _ => a.toNat
  | .ack a _ => a.toNat
  | .op t _ => t.toNat
  | .answer t _ => t.toNat
  | .access (.tile t) _ => t.toNat
  | .access _ (.tile t) => t.toNat
  | .access _ _ => 0xffff

/-- A SEC-DED error in a buffer of the router in column `x` and row `y`, on a packet that passes it (R182, R184, R187). -/
def execRouterBufferError (x : BitVec 6) (y : BitVec 5) (uncorr : Bool) (pkt : MeshPkt) (s : State) :
    Host.Outcome State Fault Refusal :=
  done (
    let e := s.ends pkt
    onlyIf (decide (y.toNat < s.nRows) && s.onWay pkt && (s.route e.1 e.2).contains (x.toNat, y.toNat)) s (fun s =>
      let line := 136 + y.toNat / 4
      if !uncorr then (s.cnt F.NOC_ECC_CORR).raise line 0x3006 (pktUnit pkt)
      else (((s.cnt F.NOC_ECC_UNCORR).raise line 0x3007 (pktUnit pkt)).nocPkt pkt).discard pkt))

def execNocClrCnt (s : State) : Host.Outcome State Fault Refusal :=
  done (s.clearFlds [F.NOC_RETX_COUNT, F.NOC_FAIL_REJECT, F.NOC_FAIL_ACK_TMO, F.NOC_FAIL_CRC_FAIL, F.NOC_FAIL_SYNC_CHK,
    F.NOC_VIOL_OUT_OF_SET, F.NOC_VIOL_BUDGET, F.NOC_ECC_UNCORR, F.NOC_ECC_CORR, F.NOC_FIRST0_VALID])
def execSynClrCnt (s : State) : Host.Outcome State Fault Refusal :=
  done (s.clearFlds [F.SYN_VIOL_SAT_GLOBAL, F.SYN_VIOL_SAT_LOCAL, F.SYN_WAITS_RETRY, F.SYN_WAITS_PEAK, F.SYNC_IO_ERR_TIMEOUTS,
    F.SYNC_IO_ERR_SEQ_MISMATCH])

end Sys2Proof.Machine
end

