-- ==== Sys2Proof/Machine/Links.lean ====
section
/-! DEFINITION. Chip-link ports and the SYNC_IO barrier (R208 to R224, R228, R537). -/
namespace Sys2Proof.Machine

/-- Line of a chip-link port (R461). -/
def linkLine (p : Nat) : Nat := 144 + p
def State.setLink (s : State) (p v : Nat) : State := s.wr F.CHL_STATUS_STATE v p

/-- The groups of lanes of a width, lowest first (R212). -/
def laneGroups : List (Nat × Nat) :=
  [(8, 0xff), (4, 0x0f), (4, 0xf0), (2, 0x03), (2, 0x0c), (2, 0x30), (2, 0xc0), (1, 1), (1, 2), (1, 4), (1, 8), (1, 16), (1, 32),
   (1, 64), (1, 128)]
/-- The widest fully good lane group: its width and its lanes (R212). -/
def widest (good : Nat) : Option (Nat × Nat) := laneGroups.find? (fun g => good &&& g.2 == g.2)

/-- A stage of a pipeline of several chips runs. -/
def State.multiBusy (s : State) : Bool :=
  s.sched.jobs.any (fun j => !j.waiting && match s.pipe? j.pipe with
    | some p => p.desc.multi
    | none => false)

/-- Every port that messages to the other chips of the model take (R210) is up, or retrains with its traffic waiting (R209, R215, R216). -/
def State.linksUp (s : State) : Bool :=
  (List.range s.cfg.chips).all (fun c => c == s.cfg.chip ||
    (s.portsTo c != [] && ((s.portsTo c).take 2).all (fun p => s.link p == 4 || s.link p == 5)))

/-- Multi-chip stages fail in the present frame (R216). -/
def State.failMulti (s : State) : State :=
  s.each ((s.sched.pipes.filter (fun p => p.desc.multi && p.running)).map (fun p => p.desc.stages)).flatten State.failStage

/-- Messages that cross a port that went down are lost (R216). -/
def State.loseCross (s : State) (p : Nat) : State :=
  { s with mesh.msgs := s.mesh.msgs.map (fun m =>
      if m.chip ≠ s.cfg.chip ∧ s.portTo m.chip m.src m.dst = some p then { m with phase := 5 } else m) }

/-- The link is down: no lane group is usable (R216). -/
def State.linkDown (s : State) (p : Nat) : State :=
  let s := (((s.setLink p 7).wr F.CHL_STATUS_WIDTH 0 p).wr F.CHL_LANES_IN_USE 0 p).wr F.CHL_CTRL_RETRAIN 0 p
  let s := (s.cnt F.CHL_EVENTS_DOWN p).modPort p (fun x => { x with step := 0, retryAt := s.tick + ms 10 })
  ((s.raise (linkLine p) 0x3203 p).loseCross p).failMulti

/-- The port refuses its peer: down until the next restart (R213). -/
def State.refuse (s : State) (p : Nat) : State :=
  let s := ((s.setLink p 6).cnt F.CHL_EVENTS_AUTH_FAIL p).wr F.CHL_CTRL_RETRAIN 0 p
  let s := (s.wr F.CHL_STATUS_WIDTH 0 p).wr F.CHL_LANES_IN_USE 0 p
  (s.modPort p (fun x => { x with step := 0, refused := true })).raise (linkLine p) 0x3204 p

/-- Training begins at the lock step; `full` drops the session key and takes every lane for good again. -/
def State.trainPort (s : State) (p : Nat) (full : Bool) : State :=
  let s := (s.setLink p 1).modPort p (fun x =>
    { x with step := 1, full := full, t0 := s.tick, auth := 0, key := if full then none else x.key })
  if full then (s.wr F.CHL_STATUS_AUTH 0 p).wr F.CHL_LANES_GOOD 0xff p else s

/-- The port takes a lane group, or goes down when none is good. -/
def State.takeWidth (s : State) (p : Nat) : Option Nat × State :=
  match widest (s.rd F.CHL_LANES_GOOD p) with
  | some (w, l) => (some w, (s.wr F.CHL_STATUS_WIDTH w p).wr F.CHL_LANES_IN_USE l p)
  | none => (none, s.linkDown p)

/-- The port is up (R212). -/
def State.linkUp (s : State) (p : Nat) : State :=
  ((s.setLink p 4).wr F.CHL_CTRL_RETRAIN 0 p).modPort p (fun x => { x with step := 0, cmpAt := s.tick })

/-- The port leads toward chip 0 from another chip (R218). -/
def State.towardZero (s : State) (p : Nat) : Bool := s.cfg.chip != 0 && s.cfg.peers.getD p none == some 0

/-- What follows authentication: time alignment on the port toward chip 0, the up state on any other. -/
def State.afterAuth (s : State) (p : Nat) : State :=
  if s.towardZero p then s.modPort p (fun x => { x with step := 5 }) else s.linkUp p

/-- The port exists and CHL_CTRL.EN is set. -/
def State.portOn (s : State) (p : Nat) : Bool := decide (p < s.nPorts) && s.rdB F.CHL_CTRL_EN p

/-- A port that the map enables trains once the start has reached step 11 (R212). -/
def execChlTrainStart (port : BitVec 2) (s : State) : Host.Outcome State Fault Refusal :=
  done (let p := port.toNat
    onlyIf (s.portOn p && decide (11 ≤ s.dev.step) && s.link p == 0 && !(s.port p).refused && !(s.port p).out) s (fun s => s.trainPort p true))

/-- Lane lock ends with the lanes of `good` locked (R212). -/
def execChlLockEnd (port : BitVec 2) (good : BitVec 8) (s : State) : Host.Outcome State Fault Refusal :=
  done (let p := port.toNat
    onlyIf ((s.port p).step == 1) s (fun s =>
      let s := s.wr F.CHL_LANES_GOOD (s.rd F.CHL_LANES_GOOD p &&& good.toNat) p
      match s.takeWidth p with
      | (some _, s) => (s.setLink p 2).modPort p (fun x => { x with step := 3 })
      | (none, s) => s))

/-- Digest of the loaded swarm-image set that spans chips (R212, R256). -/
def State.setDigest (s : State) : Option (List Byte) := (s.sched.models.find? (fun m => decide (1 < m.chips))).map (·.digest)

/-- The peer's identity fields arrive (R212, R213). -/
def execChlIdentityReceive (port : BitVec 2) (chip : BitVec 2) (chips : BitVec 3) (gridX gridY : BitVec 8) (ver : IfVersion)
    (digest : List Byte) (s : State) : Host.Outcome State Fault Refusal :=
  done (let p := port.toNat
    onlyIf ((s.port p).step == 3) s (fun s =>
      let s := s.wr F.CHL_STATUS_PEER chip.toNat p
      let ok := s.cfg.peers.getD p none == some chip.toNat && chips.toNat == s.cfg.chips && gridX.toNat == 64 &&
        gridY.toNat == s.nRows && ver.major.toNat == s.rd F.HIF_IFVER_MAJOR &&
        ver.minor.toNat == s.rd F.HIF_IFVER_MINOR &&
        (match s.setDigest with
         | some d => d == digest
         | none => true)
      if !ok then s.refuse p
      else if (s.port p).key.isSome then s.afterAuth p
      else (s.setLink p 3).modPort p (fun x => { x with step := 4, auth := 0 })))

/-- A message of the key exchange arrives and is checked; the session key is in force once this device has received its two
messages: the peer's part of the exchange, and its tag (R537). -/
def execChlAuthMessage (port : BitVec 2) (ok : Bool) (s : State) : Host.Outcome State Fault Refusal :=
  done (let p := port.toNat
    onlyIf ((s.port p).step == 4) s (fun s =>
      if !ok then s.refuse p
      else if (s.port p).auth + 1 < 2 then s.modPort p (fun x => { x with auth := x.auth + 1 })
      else
        let s := (s.modPort p (fun x => { x with auth := 2, key := some s.tick })).wr F.CHL_STATUS_AUTH 1 p
        s.afterAuth p))

/-- The timestamp exchange toward chip 0 completes: the device tick count agrees with chip 0's (R218). -/
def execChlTimeAlign (port : BitVec 2) (latency : BitVec 16) (refTick : BitVec 64) (s : State) :
    Host.Outcome State Fault Refusal :=
  done (let p := port.toNat
    onlyIf ((s.port p).step == 5) s (fun s =>
      let s := { (s.wr F.CHL_LAT_LATENCY latency.toNat p).wr F.SYNC_IO_STATUS_ALIGNED 1 with tick := refTick.toNat }
      s.linkUp p))

/-- The up state has not been reached within 36 ms (R212). -/
def execChlTrainTimeout (port : BitVec 2) (s : State) : Host.Outcome State Fault Refusal :=
  done (let p := port.toNat
    onlyIf ((s.port p).step != 0 && decide ((s.port p).t0 + ms 36 ≤ s.tick)) s (fun s => s.refuse p))

/-- A link block arrives: a bad CRC is replayed, a bad tag takes the link down (R214). -/
def execChlBlockReceive (port : BitVec 2) (crcOk tagOk : Bool) (s : State) : Host.Outcome State Fault Refusal :=
  done (let p := port.toNat
    onlyIf (s.link p == 4) s (fun s =>
      if !crcOk then (s.cnt F.CHL_REPLAY_COUNT p).raise (linkLine p) 0x3201 p
      else if tagOk then s
      else
        let s := ((s.cnt F.CHL_EVENTS_TAG_FAIL p).raise (linkLine p) 0x3205 p).wr F.CHL_STATUS_AUTH 0 p
        let s := (s.setLink p 3).modPort p (fun x => { x with step := 4, auth := 0, key := none, t0 := s.tick })
        (s.loseCross p).failMulti))

/-- A lane is removed, and the port retrains at the next width whose lane group is fully good (R215). -/
def execChlLaneFault (port : BitVec 2) (lane : BitVec 3) (s : State) : Host.Outcome State Fault Refusal :=
  done (let p := port.toNat
    onlyIf (s.link p == 4 || s.link p == 5) s (fun s =>
      let g := s.rd F.CHL_LANES_GOOD p
      let s := s.wr F.CHL_LANES_GOOD (if bitOf g lane.toNat then g - 2 ^ lane.toNat else g) p
      let s := (s.cnt F.CHL_EVENTS_DEGRADE p).raise (linkLine p) 0x3202 p
      match s.takeWidth p with
      | (some _, s) => s.setLink p 5
      | (none, s) => s))

def execChlRetrainEnd (port : BitVec 2) (s : State) : Host.Outcome State Fault Refusal :=
  done (let p := port.toNat
    onlyIf (s.link p == 5) s (fun s => s.setLink p 4))

/-- Every 10 ms a down port repeats full training (R216). -/
def execChlRetryTimer (port : BitVec 2) (s : State) : Host.Outcome State Fault Refusal :=
  done (let p := port.toNat
    onlyIf (s.portOn p && s.link p == 7 && !(s.port p).out && decide ((s.port p).retryAt ≤ s.tick)) s (fun s => s.trainPort p true))

/-- Every multi-chip pipeline is at a frame boundary. -/
def State.multiBoundary (s : State) : Bool :=
  s.sched.pipes.all (fun x => !(x.desc.multi && x.running) || x.boundary)

/-- Every 1 ms the port toward chip 0 compares the time bases; `offset` is the difference in array cycles (R218). A device kept
out of barriers realigns at a frame boundary. -/
def execTimebaseCompare (port : BitVec 2) (offset : BitVec 16) (s : State) : Host.Outcome State Fault Refusal :=
  done (let p := port.toNat
    onlyIf (s.link p == 4 && s.towardZero p && decide ((s.port p).cmpAt + ms 1 ≤ s.tick)) s (fun s =>
      let s := s.modPort p (fun x => { x with cmpAt := s.tick })
      if s.mesh.sio.barred then
        (if s.multiBoundary then
          ({ s.wr F.SYNC_IO_STATUS_ALIGNED 1 with
              mesh.sio.barred := false, tick := (((s.tick : Int) + offset.toInt / 6) % 2 ^ 64).toNat }).tryBarrier
         else s)
      else if 2 < offset.toInt.natAbs then
        { (s.wr F.SYNC_IO_STATUS_ALIGNED 0).raise 182 0x3303 0 with mesh.sio.barred := true }
      else s))

/-- CHL_CTRL.RETRAIN: retrain from the lock step with the session key kept; a violation while a multi-chip stage runs (R228). -/
def execChlRetrain (port : BitVec 2) (s : State) : Host.Outcome State Fault Refusal :=
  done (let p := port.toNat
    if s.multiBusy then s.violation
    else onlyIf (s.portOn p && !(s.port p).refused && !(s.port p).out) s (fun s => (s.trainPort p false).wr F.CHL_CTRL_RETRAIN 1 p))

/-! The SYNC_IO barrier (R220 to R224). -/

/-- At a common tick after entry the device releases SYNC_IO (R220). -/
def execSyncIoRelease (s : State) : Host.Outcome State Fault Refusal :=
  done (onlyIf (s.mesh.sio.pipe.isSome && !s.mesh.sio.released && decide (s.tick % 16 = 0)) s (fun s =>
    { s.wr F.SYNC_IO_STATUS_HOLD 0 with mesh.sio.released := true }))

/-- The device is in no barrier any more. -/
def State.leaveBarrier (s : State) : State :=
  { (s.wr F.SYNC_IO_STATUS_HOLD 1).wr F.SYNC_IO_STATUS_IN_BARRIER 0 with
      mesh.sio.pipe := none, mesh.sio.released := false, mesh.sio.sawHigh := none }

/-- At T0 + 12 a device in the barrier samples the line, which is low while the device itself still holds it. High: it leaves the barrier at T0 + 16, which the command reaches by letting 4 ticks
pass, and its pipeline's stages may start (R220, R222; log entry 15). -/
def execSyncIoSample (high : Bool) (s : State) : Host.Outcome State Fault Refusal :=
  done (onlyIf (s.mesh.sio.pipe.isSome && decide (s.tick % 16 = 12)) s (fun s =>
    let high := high && s.mesh.sio.released
    let s := s.wrB F.SYNC_IO_STATUS_LINE high
    match s.mesh.sio.pipe with
    | some p =>
      if !high then s
      else
        let s := { s with tick := (s.tick + 4) % 2 ^ 64 }
        let seq := (s.rd F.SYNC_IO_STATUS_SEQ + 1) % 65536
        let fr := match (s.pipe? p).bind (fun x => x.frames.find? (·.barrier)) with
          | some f => f.num
          | none => 0
        let s := (s.leaveBarrier.wr F.SYNC_IO_STATUS_SEQ seq).wr F.SYNC_IO_LAST_TICK s.tick
        let s := { s with mesh.sio.sentSeq := seq, mesh.sio.sentFrame := fr, mesh.sio.sentPipe := p, mesh.sio.left := true,
                           mesh.sio.maxFrame := none }
        ((s.modFrame p fr (fun f => { f with barrier := false })).tryBarrier).kickJobs
    | none => s))

/-- A device that stays in a barrier too long withdraws and withholds the frame (R224). -/
def execSyncIoTimeout (s : State) : Host.Outcome State Fault Refusal :=
  done (match s.mesh.sio.pipe with
    | some p =>
      onlyIf (decide (s.mesh.sio.enteredAt + 1024 * s.rd F.SYNC_IO_CTRL_TMO < s.tick)) s (fun s =>
        let s := (s.leaveBarrier.cnt F.SYNC_IO_ERR_TIMEOUTS).raise 158 0x3301 p
        let s := match (s.pipe? p).bind (fun x => x.frames.find? (·.barrier)) with
          | some f => s.withhold p f 0x1F01
          | none => s
        s.settleArbs.tryBarrier)
    | none => s)

/-- A peer's sequence and frame number arrive after a barrier was left. Where they differ, the frame is withheld, and the next barrier is entered
with the highest frame number received (R223). -/
def execBarrierSeqReceive (seq : BitVec 16) (frame : BitVec 32) (s : State) : Host.Outcome State Fault Refusal :=
  done (
    let io := s.mesh.sio
    let p := io.sentPipe
    if !io.left || (seq.toNat = io.sentSeq && frame.toNat = io.sentFrame) then s
    else
      let s := (s.cnt F.SYNC_IO_ERR_SEQ_MISMATCH).raise 158 0x3302 p
      let top := Nat.max frame.toNat (io.maxFrame.getD 0)
      let s := { s with mesh.sio.maxFrame := some top }
      let s := match s.frame? p io.sentFrame with
        | some f => s.withhold p f 0x1F01
        | none => s
      let s := s.modPipe p (fun x => { x with frameNum := (top + (x.frames.countP (·.barrier))) % 2 ^ 32 })
      s.settleArbs.kickJobs)

end Sys2Proof.Machine
end

