-- ==== Sys2Proof/Machine/Warp.lean ====
section
/-! DEFINITION. What a warp engine computes, bit for bit: mesh, sampling, colour, conversion, layouts, jitter and the test region
(R348 to R358). -/
namespace Sys2Proof.Machine

/-- A warp configuration (R346). -/
structure WCfg where
  jitter : Bool := false
  perFrame : Bool := false
  kind : Nat := 0
  near : Bool := false
  clamp : Bool := false
  sh : Nat := 3
  ow : Nat := 0
  oh : Nat := 0
  fmt : Nat := 0
  layout : Nat := 0
  naug : Nat := 1
  rowStride : Nat := 0
  copyBytes : Nat := 0
  tensorOff : Nat := 0
  mesh : Nat := 0
  meshCrc : Nat := 0
  fill : Nat := 0
  seed : Nat := 0
  stream : Nat := 0
  scaleLim : Nat := 0
  rotLim : Nat := 0
  shiftLim : Nat := 0
  gainLim : Nat := 0
  ofsLim : Nat := 0
  bl : List Nat := []
  g : List Nat := []
  ccm : List Int := []
  co : List Int := []
  tone : Array Nat := #[]

/-- The configuration that 1,024 bytes spell. -/
def wcfgAt (c : List Byte) : WCfg :=
  let a := c.toArray
  let n := fun off len => leNat ((List.range len).map (fun i => a.getD (off + i) 0#8))
  { jitter := bitOf (n 0 1) 1, perFrame := bitOf (n 0 1) 2, kind := n 1 1, near := bitOf (n 2 1) 0, clamp := bitOf (n 2 1) 1, sh := n 3 1,
    ow := n 4 2, oh := n 6 2, fmt := n 8 1, layout := n 9 1, naug := n 10 1, rowStride := n 12 4, copyBytes := n 16 4,
    tensorOff := n 20 4, mesh := n 24 8, meshCrc := n 32 4, fill := n 36 2, seed := n 40 8, stream := n 48 4, scaleLim := n 52 2,
    rotLim := n 54 2, shiftLim := n 56 4, gainLim := n 60 2, ofsLim := n 62 2,
    bl := (List.range 4).map (fun i => n (64 + 2 * i) 2), g := (List.range 4).map (fun i => n (72 + 2 * i) 2),
    ccm := (List.range 9).map (fun i => sext 16 (n (80 + 2 * i) 2)), co := (List.range 3).map (fun i => sext 16 (n (98 + 2 * i) 2)),
    tone := ((List.range 257).map (fun i => n (128 + 2 * i) 2)).toArray }

/-- Nodes of a mesh in x and in y (R348). -/
def WCfg.nx (c : WCfg) : Nat := (c.ow + 2 ^ c.sh - 1) / 2 ^ c.sh + 1
def WCfg.ny (c : WCfg) : Nat := (c.oh + 2 ^ c.sh - 1) / 2 ^ c.sh + 1
def WCfg.meshBytes (c : WCfg) : Nat := c.nx * c.ny * 8

/-- A value clamped to the working domain (R351). -/
def toWork (v : Int) : Nat := (max 0 (min v 65535)).toNat

/-! The mesh (R348, R349). -/

/-- Coordinates of a node; nothing for an invalid one. -/
def nodeAt (m : Array Byte) (i : Nat) : Option (Int × Int) :=
  let n := fun off => leNat ((List.range 4).map (fun k => m.getD (8 * i + off + k) 0#8))
  if n 0 = 0x80000000 then none else some (sext 32 (n 0), sext 32 (n 4))

/-- Interpolation of one coordinate. -/
def meshMix (sh fx fy : Nat) (a b c d : Int) : Int :=
  let s : Int := 2 ^ sh
  (a * (s - fx) * (s - fy) + b * fx * (s - fy) + c * (s - fx) * fy + d * fx * fy + 2 ^ (2 * sh - 1)) / 2 ^ (2 * sh)

/-- The source position of an output pixel (R349). -/
def WCfg.meshPos (c : WCfg) (m : Array Byte) (x y : Nat) : Option (Int × Int) :=
  let i := x / 2 ^ c.sh
  let j := y / 2 ^ c.sh
  let k := j * c.nx + i
  match nodeAt m k, nodeAt m (k + 1), nodeAt m (k + c.nx), nodeAt m (k + c.nx + 1) with
  | some a, some b, some d, some e =>
    let fx := x % 2 ^ c.sh
    let fy := y % 2 ^ c.sh
    some (meshMix c.sh fx fy a.1 b.1 d.1 e.1, meshMix c.sh fx fy a.2 b.2 d.2 e.2)
  | _, _, _, _ => none

/-! Source pixels (R351, R352). -/

/-- Lines of a frame buffer: `w` x `h` pixels of `bits` bits, as stored bytes. -/
structure WImg where
  w : Nat
  h : Nat
  bits : Nat
  line : Nat
  sb : Nat
  first : Nat
  data : Array Byte

/-- Stored sample `x` of line `v`. -/
def WImg.raw (m : WImg) (x v : Nat) : Nat :=
  leNat ((List.range m.sb).map (fun k => m.data.getD ((m.first + v) * m.line + x * m.sb + k) 0#8))

/-- Black level and gain of index `p`, into the working domain (R352). -/
def WCfg.norm (c : WCfg) (bits raw p : Nat) : Nat :=
  toWork ((((raw : Int) - (c.bl.getD p 0 : Nat)) * (c.g.getD p 0 : Nat) * 2 ^ 16 + 2 ^ (bits + 11)) / 2 ^ (bits + 12))

/-- Colour of a Bayer position: 0 red, 1 green, 2 blue. -/
def bayer (kind u v : Nat) : Nat :=
  ([[0, 1, 1, 2], [1, 0, 2, 1], [1, 2, 0, 1], [2, 1, 1, 0]].getD (kind - 1) []).getD (u % 2 + 2 * (v % 2)) 0

/-- A coordinate reflected within `n` (R352). -/
def reflect (t : Int) (n : Nat) : Nat := (if t < 0 then -t else if t ≥ n then 2 * n - 2 - t else t).toNat

/-- The 8 neighbours. -/
def around : List (Int × Int) := [(-1, -1), (0, -1), (1, -1), (-1, 0), (1, 0), (-1, 1), (0, 1), (1, 1)]

/-- The three channels of a source pixel inside the image (R352). -/
def WCfg.pix (c : WCfg) (m : WImg) (u v : Nat) : Nat × Nat × Nat :=
  if c.kind = 0 then let n := c.norm m.bits (m.raw u v) 0; (n, n, n)
  else if c.kind ≤ 4 then
    let at1 := fun u v => c.norm m.bits (m.raw u v) (u % 2 + 2 * (v % 2))
    let chan := fun col =>
      if bayer c.kind u v = col then at1 u v
      else
        let q := (around.map (fun d => (reflect ((u : Int) + d.1) m.w, reflect ((v : Int) + d.2) m.h))).filter (fun p => bayer c.kind p.1 p.2 == col)
        ((q.map (fun p => at1 p.1 p.2)).sum + q.length / 2) / q.length
    (chan 0, chan 1, chan 2)
  else if c.kind = 5 then
    let o := 4 * (u / 2)
    (m.raw (o + 1 + 2 * (u % 2)) v * 257, m.raw o v * 257, m.raw (o + 2) v * 257)
  else if c.kind = 6 then (m.raw (3 * u + 2) v * 257, m.raw (3 * u + 1) v * 257, m.raw (3 * u) v * 257)
  else (c.norm m.bits (m.raw (3 * u) v) 0, c.norm m.bits (m.raw (3 * u + 1) v) 1, c.norm m.bits (m.raw (3 * u + 2) v) 2)

/-- A pixel anywhere: the border rule (R353). -/
def WCfg.fetch (c : WCfg) (m : WImg) (u v : Int) : Nat × Nat × Nat :=
  if 0 ≤ u ∧ u < m.w ∧ 0 ≤ v ∧ v < m.h then c.pix m u.toNat v.toNat
  else if c.clamp then c.pix m (min (max u 0) ((m.w : Int) - 1)).toNat (min (max v 0) ((m.h : Int) - 1)).toNat
  else (c.fill, c.fill, c.fill)

/-- The sampler (R353). -/
def WCfg.sample (c : WCfg) (m : WImg) (sx sy : Int) : Nat × Nat × Nat :=
  if c.near then c.fetch m (sx / 2 ^ 16) (sy / 2 ^ 16)
  else
    let ix := (sx - 2 ^ 15) / 2 ^ 16
    let wx := ((sx - 2 ^ 15 - ix * 2 ^ 16) / 2 ^ 8).toNat
    let iy := (sy - 2 ^ 15) / 2 ^ 16
    let wy := ((sy - 2 ^ 15 - iy * 2 ^ 16) / 2 ^ 8).toNat
    let a := c.fetch m ix iy
    let b := c.fetch m (ix + 1) iy
    let d := c.fetch m ix (iy + 1)
    let e := c.fetch m (ix + 1) (iy + 1)
    let mix := fun (p q r t : Nat) => ((p * (256 - wx) + q * wx) * (256 - wy) + (r * (256 - wx) + t * wx) * wy + 2 ^ 15) / 2 ^ 16
    (mix a.1 b.1 d.1 e.1, mix a.2.1 b.2.1 d.2.1 e.2.1, mix a.2.2 b.2.2 d.2.2 e.2.2)

/-! Colour, conversion (R353, R354). -/

/-- Colour matrix row `i`, offset and tone curve. -/
def WCfg.colour (c : WCfg) (p : Nat × Nat × Nat) (i : Nat) : Nat :=
  let k := fun j => c.ccm.getD (3 * i + j) 0
  let o := toWork ((k 0 * p.1 + k 1 * p.2.1 + k 2 * p.2.2 + 2 ^ 11) / 2 ^ 12 + c.co.getD i 0)
  let t := o / 256
  let f := o % 256
  (c.tone.getD t 0 * (256 - f) + c.tone.getD (t + 1) 0 * f + 128) / 256

/-- A working value in OFMT (R354). -/
def WCfg.conv (c : WCfg) (o : Nat) : List Byte :=
  let u8 := (min (roundDiv 0 o 8) 255).toNat
  if c.fmt = 1 then natLe 1 (twos 8 ((u8 : Int) - 128))
  else if c.fmt = 2 then natLe 1 u8
  else natLe 2 ((vcvt (if c.fmt = 0x0A then 3 else 4) (fScale (fOfInt o) (-16))).getD 0)

/-! Jitter (R356, R357). -/

/-- A parameter from a generator word. -/
def jitVal (w lim : Nat) : Int := ((w / 65536 * (2 * lim + 1) / 65536 : Nat) : Int) - lim

/-- The eight parameters of a copy: ds, dr, tx, ty, dg0, dg1, dg2, doff. -/
def WCfg.jit (c : WCfg) (n seq copy : Nat) : List Int :=
  let ctr := 2 * ((if c.perFrame then seq else 0) * 2 ^ 16 + copy)
  let (a0, a1, a2, a3) := rngBlock c.seed ((c.stream + n) % 2 ^ 32) ctr
  let (b0, b1, b2, b3) := rngBlock c.seed ((c.stream + n) % 2 ^ 32) (ctr + 1)
  [jitVal a0 c.scaleLim, jitVal a1 c.rotLim, jitVal a2 c.shiftLim, jitVal a3 c.shiftLim, jitVal b0 c.gainLim, jitVal b1 c.gainLim,
   jitVal b2 c.gainLim, jitVal b3 c.ofsLim]

/-- The geometric variant about the image centre. -/
def geo (j : List Int) (w h : Nat) (p : Int × Int) : Int × Int :=
  let cx : Int := w * 2 ^ 15
  let cy : Int := h * 2 ^ 15
  let ga := 2 ^ 16 + j.getD 0 0
  let gb := j.getD 1 0
  let dx := p.1 - cx
  let dy := p.2 - cy
  (cx + (ga * dx - gb * dy) / 2 ^ 16 + j.getD 2 0, cy + (gb * dx + ga * dy) / 2 ^ 16 + j.getD 3 0)

/-- The photometric variant of channel `i`. -/
def photo (j : List Int) (o i : Nat) : Nat := toWork (((o : Int) * (4096 + j.getD (4 + i) 0) + 2048) / 4096 + j.getD 7 0)

/-! Output (R353, R355, R358). -/

/-- The three converted channels of output pixel (x, y); `j` holds the jitter of a copy above 0. -/
def WCfg.outPixel (c : WCfg) (mesh : Array Byte) (m : WImg) (j : Option (List Int)) (x y : Nat) : List (List Byte) :=
  let p := match c.meshPos mesh x y with
    | none => (c.fill, c.fill, c.fill)
    | some q => let q := (match j with | some j => geo j m.w m.h q | none => q); c.sample m q.1 q.2
  (List.range 3).map (fun i =>
    let o := c.colour p i
    c.conv (match j with | some j => photo j o i | none => o))

/-- Bytes of a row, padded with zeros to ROW_STRIDE. -/
def padTo (n : Nat) (l : List Byte) : List Byte := l ++ zeros (n - l.length)

/-- One copy in its layout (R355). -/
def WCfg.copy (c : WCfg) (mesh : Array Byte) (m : WImg) (j : Option (List Int)) : List Byte :=
  let rows := (List.range c.oh).map (fun y => (List.range c.ow).map (fun x => c.outPixel mesh m j x y))
  let e := ofmtBytes c.fmt
  let plane := fun i => (rows.map (fun r => padTo c.rowStride (r.map (fun p => p.getD i [])).flatten)).flatten
  match c.layout with
  | 0 => (rows.map (fun r => padTo c.rowStride (r.map (fun p => p.flatten ++ zeros e)).flatten)).flatten
  | 1 => plane 0 ++ plane 1 ++ plane 2
  | _ => plane 0

/-- The test region (R358): `m` holds the pattern lines as an image. -/
def WCfg.testRegion (c : WCfg) (m : WImg) : List Byte :=
  let c := { c with near := false, clamp := true }
  let e := ofmtBytes c.fmt
  let tw := Nat.min 64 (m.w - 1)
  ((List.range m.h).map (fun l =>
    padTo (256 * e) ((List.range tw).map (fun x =>
      let p := c.sample m (((x + 1) * 2 ^ 16 : Nat) : Int) ((l * 2 ^ 16 + 2 ^ 15 : Nat) : Int)
      ((List.range 3).map (fun i => c.conv (c.colour p i))).flatten ++ zeros e)).flatten)).flatten

end Sys2Proof.Machine
end

