-- ==== Sys2Proof/Machine/WarpEngines.lean ====
section
/-! DEFINITION. The four warp engines: assignment, completion with the pattern and mesh checks, reruns, aborts, attribution and
withdrawal (R310, R311, R341 to R343, R350, R359 to R363). -/
namespace Sys2Proof.Machine

def State.warp (s : State) (e : Nat) : WarpEngine := FMap.get {} s.intake.warps e
def State.modWarp (s : State) (e : Nat) (f : WarpEngine → WarpEngine) : State :=
  { s with intake.warps := FMap.set {} s.intake.warps e (f (s.warp e)) }
def State.warpServes (s : State) (e : Nat) : Bool := s.rdB F.WRP_STATUS_IN_SERVICE e
/-- The engine can start a warp: a reset is over after 50 µs, and a self-test slice of it is waited for (R361, R517). -/
def State.warpIdle (s : State) (e : Nat) : Bool :=
  s.warpServes e && (s.warp e).cur.isNone && !(s.unit 3 e).running && (match (s.warp e).resetAt with
    | some t => decide (t + us 50 ≤ s.tick)
    | none => true)

/-- The engine of a rerun: the next in service in ascending order modulo 4, which is the first one itself where it is the only
one (R342). -/
def State.rerunEngine (s : State) (first : Nat) : Option Nat :=
  ([1, 2, 3, 4].map (fun i => (first + i) % 4)).find? s.warpServes

/-- A warp starts, with trace point 0x0010 (R439; its SRC is log entry 22). -/
def State.startWarp (s : State) (e n : Nat) (x : Sample) (first : Option Nat) : State :=
  let s := s.trace 0x10 srcIntake [n, e, x.seq, b2n first.isSome]
  let s := s.modWarp e (fun w => { w with cur := some (n, x), startAt := s.tick, rerun := first, resetAt := none })
  ((s.wr F.WRP_STATUS_BUSY 1 e).wrB F.WRP_STATUS_RERUN first.isSome e).wr F.WRP_STATUS_INDEX n e

/-- Trace point 0x0011: the warp of engine `e` ends with a result code, after `cycles` system cycles (R439). -/
def State.traceWarp (s : State) (e n code cycles : Nat) : State := s.trace 0x11 srcIntake [n, e, code, cycles]
/-- System cycles since the engine's warp started: 8 to a tick. -/
def State.warpCycles (s : State) (e : Nat) : Nat := 8 * (s.tick - (s.warp e).startAt)

/-- The copy that the engine writes now: it writes 12 output pixels in a tick, 1.5 in a system cycle, in copy order and the test region
last; 0 while it runs no warp (R341, R363; log entry 30). -/
def State.warpCopy (s : State) (e : Nat) : Nat :=
  match (s.warp e).cur with
  | none => 0
  | some (_, x) =>
    let c := wcfgAt x.cfg
    let k := 12 * (s.tick - (s.warp e).startAt) / Nat.max 1 (c.ow * c.oh)
    if k < c.naug then k else 15

/-- WARP_ASSIGN: a rerun whose engine is idle, else the first waiting frame on the lowest idle engine that no rerun waits for
(R342). -/
def execWarpAssign (s : State) : Host.Outcome State Fault Refusal :=
  let due := fun (r : RerunWait) => match s.rerunEngine r.first with
    | some e => s.warpIdle e
    | none => false
  done (match s.intake.rerunQ.find? due with
    | some r => ({ s with intake.rerunQ := delFirst due s.intake.rerunQ }).startWarp ((s.rerunEngine r.first).getD 0) r.stream r.sample (some r.first)
    | none =>
      match s.intake.waitQ, (List.range 4).find? s.warpIdle with
      | f :: q, some e => ({ s with intake.waitQ := q }).startWarp e f.stream f.sample none
      | _, _ => s)

/-- The engine stops its warp. -/
def State.warpStop (s : State) (e : Nat) : State := (s.modWarp e (fun w => { w with cur := none })).wr F.WRP_STATUS_BUSY 0 e

/-- A mismatch is attributed to an engine; the second within 1 s withdraws it (R360). -/
def State.attribute (s : State) (e n : Nat) : State :=
  let s := (s.cnt F.WRP_ERR_ATTRIB e).raise (154 + e) 0x6201 n
  let l := (s.warp e).attrib.filter (fun t => decide (s.tick < t + ms 1000)) ++ [s.tick]
  let s := s.modWarp e (fun w => { w with attrib := l })
  if 2 ≤ l.length ∧ s.warpServes e then (s.wr F.WRP_STATUS_IN_SERVICE 0 e).raise (154 + e) 0x6202 n else s

/-- An uncorrectable error in the buffers of an engine is counted with the on-chip SRAM words and raised on the engine's line as 0x4011, the code
of a word whose reader its own chapter handles (R361, R388, R604; log entry 21). -/
def State.bufferWord (s : State) (line n : Nat) : State := (s.cnt F.MEM_SRAM_ECC_UNCORR).raise line 0x4011 n

/-- The engine stops, resets, and loses its frame with 0x6205 (R361, R374). -/
def State.warpReset (s : State) (e : Nat) : State :=
  let reset := fun (s : State) => (s.warpStop e).modWarp e (fun w => { w with resetAt := some s.tick })
  match (s.warp e).cur with
  | some (n, x) => (reset (s.traceWarp e n 0x6205 (s.warpCycles e))).loseFrame n x 0x6205 (154 + e)
  | none => (reset s).raise (154 + e) 0x6205 0xffff

/-- What a warp writes, or nothing where a read or a write fails: its tensors, its test region, and the CRCs of the region and of
the mesh (R310, R341, R350, R355, R358). -/
def State.runWarp (s : State) (e n : Nat) (x : Sample) : Option (Nat × Nat) × State :=
  let d := x.desc
  let c := wcfgAt x.cfg
  let line := d.lineBytes n x.cfg
  let a := d.entry x.entry
  match s.busRead (mWarp e) (a + d.fbOff n) ((d.height + d.patLines) * line) with
  | (.ok, fb, s) =>
    (match s.busRead (mWarp e) c.mesh c.meshBytes with
     | (.ok, mesh, s) =>
       let arr := fb.toArray
       let bits := if d.jxs n then x.depth else dtBits d.dt
       let img : WImg := { w := d.width, h := d.height, bits := bits, line := line, sb := d.sampleBytes n, first := 0, data := arr }
       let pat : WImg := { img with h := d.patLines, first := d.height }
       let region := c.testRegion pat
       let copies := (List.range c.naug).map (fun k =>
         (a + c.tensorOff + k * c.copyBytes, c.copy mesh.toArray img (if c.jitter ∧ 0 < k then some (c.jit n x.seq k) else none)))
       let out := copies ++ [(a + c.tensorOff + c.naug * c.copyBytes, region)]
       let r := out.foldl (fun (o : Bool × State) w => match o.2.busWrite (mWarp e) w.1 w.2 with
         | (.ok, s) => (o.1, s)
         | (_, s) => (false, s)) (true, s)
       if r.1 then (some (crc32c region, crc32c mesh), r.2) else (none, r.2)
     | (_, _, s) => (none, s))
  | (_, _, s) => (none, s)

/-- Event code of a pattern mismatch: 0x5110 before the rerun, then that of the loss (R311, R334). -/
def patternCode (d : StreamDesc) (n : Nat) (first : Option Nat) : Nat :=
  if first.isNone then 0x5110 else if d.jxs n then 0x6104 else 0x5111

/-- A completed frame whose pattern does not match: one rerun, then the loss (R311, R334). -/
def State.patternFail (s : State) (e n : Nat) (x : Sample) (first : Option Nat) : State :=
  let d := x.desc
  let s := s.cnt F.INT_CHK_PAT_FAIL n
  let s := if d.jxs n then s.cnt F.JXS_TEST_TEST_FAIL d.dt else s
  match first with
  | none =>
    { s.raise (154 + e) 0x5110 n with intake.rerunQ := s.intake.rerunQ ++ [{ stream := n, sample := x, first := e, since := s.tick }] }
  | some _ => if d.jxs n then s.loseFrame n x 0x6104 (152 + d.dt) else s.loseFrame n x 0x5111 151

/-- WARP_COMPLETE: the mesh CRC and the pattern CRC are compared (R23, R310, R311, R350, R360). `crcErr` and `meshErr` are what a
fault changes in the CRC of the region and of the mesh as read. -/
def execWarpComplete (e : BitVec 2) (crcErr meshErr cycles : BitVec 32) (s : State) : Host.Outcome State Fault Refusal :=
  let e := e.toNat
  let w := s.warp e
  done (match w.cur with
    | none => s
    | some (n, x) => onlyIf (decide (s.tick ≤ w.startAt + x.desc.period)) s (fun s =>
      match s.runWarp e n x with
      | (none, s) => s.warpReset e
      | (some (region, mesh), s) =>
        let c := wcfgAt x.cfg
        let d := x.desc
        let s := (s.cnt F.WRP_PIXELS_COUNT e (c.naug * c.ow * c.oh + d.patLines * 64)).wr F.WRP_LAST_CYCLES cycles.toNat e
        let meshBad := mesh ^^^ meshErr.toNat != c.meshCrc
        let patBad := region ^^^ crcErr.toNat != d.pat.getD (if d.jxs n then 0 else x.seq % 16) 0
        let code := if meshBad then 0x6206 else if patBad then patternCode d n w.rerun else 0
        let s := (s.traceWarp e n code cycles.toNat).warpStop e
        if meshBad then (s.cnt F.WRP_ERR_MESH_CRC e).loseFrame n x 0x6206 (154 + e)
        else if patBad then s.patternFail e n x w.rerun
        else
          let s := match w.rerun with
            | some first => if first = e then s else s.attribute first n
            | none => s
          if s.current n x then (s.admitSample n x).selectEncode n x else s))

/-- WARP_TIMEOUT: one PERIOD after its start the warp is aborted (R343). -/
def execWarpTimeout (e : BitVec 2) (s : State) : Host.Outcome State Fault Refusal :=
  let e := e.toNat
  let w := s.warp e
  done (match w.cur with
    | none => s
    | some (n, x) => onlyIf (decide (w.startAt + x.desc.period ≤ s.tick)) s (fun s =>
        (((s.traceWarp e n 0x6204 (s.warpCycles e)).warpStop e).cnt F.WRP_ERR_TIMEOUT e).loseFrame n x 0x6204 (154 + e)))

/-- WARP_WAIT_TIMEOUT: a frame has waited one PERIOD for an engine, or a rerun for its own (R311, R334, R343). -/
def execWarpWaitTimeout (n : BitVec 6) (s : State) : Host.Outcome State Fault Refusal :=
  let n := n.toNat
  let lateR := fun (r : RerunWait) => r.stream == n && decide (r.since + r.sample.desc.period ≤ s.tick)
  let lateF := fun (r : ReadyFrame) => r.stream == n && decide (r.since + r.sample.desc.period ≤ s.tick)
  done (match s.intake.rerunQ.find? lateR, s.intake.waitQ.find? lateF with
    | some r, _ =>
      let s := { s with intake.rerunQ := delFirst lateR s.intake.rerunQ }
      if r.sample.desc.jxs n then s.loseFrame n r.sample 0x6104 (152 + r.sample.desc.dt) else s.loseFrame n r.sample 0x5111 151
    | none, some r => ({ s with intake.waitQ := delFirst lateF s.intake.waitQ }).loseFrame n r.sample 0x6204 151
    | none, none => s)

/-- WARP_COORD_MISMATCH: the coordinate datapaths disagree (R359, R360). -/
def execWarpCoordMismatch (e : BitVec 2) (s : State) : Host.Outcome State Fault Refusal :=
  let e := e.toNat
  done (match (s.warp e).cur with
    | none => s
    | some (n, x) => ((((s.traceWarp e n 0x6207 (s.warpCycles e)).warpStop e).cnt F.WRP_ERR_COORD e).loseFrame n x 0x6207 (154 + e)).attribute e n)

/-- WARP_BUFFER_ERROR: an uncorrectable error in the line or node buffers (R361). -/
def execWarpBufferError (e : BitVec 2) (s : State) : Host.Outcome State Fault Refusal := 
  done (
    let n := match (s.warp e.toNat).cur with
      | some (n, _) => n
      | none => 0xffff
    (s.bufferWord (154 + e.toNat) n).warpReset e.toNat)

end Sys2Proof.Machine
end

