-- ==== Sys2Proof/Machine/Collector.lean ====
section
/-! DEFINITION. The fault collector: the reaction table, what an event names, fencing, the reactions, the trouble log and the
management records they write (R461 to R471, R484, R486, R542, R605). -/
namespace Sys2Proof.Machine

/-! The reaction table (R464, R465). Pairs of a code and its default reaction: 0 count only, 1 log, 2 fence unit, 3 fail stage,
4 partial restart, 5 full restart, 6 stop ALIVE. -/

/-- Codes of domain 0x1: Swarm, images and frames (02, 04, 06, 01). -/
def manu1 : List (Nat × Nat) :=
  [(0x1010, 2), (0x1011, 2), (0x1012, 1), (0x1013, 0), (0x1014, 0), (0x1020, 1), (0x1021, 1), (0x1022, 1), (0x1023, 4),
   (0x1024, 1), (0x1025, 4), (0x1101, 3), (0x1102, 3), (0x1103, 3), (0x1104, 3), (0x1105, 1), (0x1201, 1), (0x1202, 1),
   (0x1203, 1), (0x1204, 1), (0x1205, 1), (0x1210, 1), (0x1220, 1), (0x1F01, 1), (0x1F02, 1), (0x1F03, 1), (0x1F04, 1)]

/-- Codes of domain 0x2: checking and array (03, 14). -/
def manu2 : List (Nat × Nat) :=
  [(0x2001, 1), (0x2002, 1), (0x2003, 1), (0x2004, 0), (0x2010, 1), (0x2011, 1), (0x2012, 2), (0x2013, 1), (0x2040, 5),
   (0x2041, 1), (0x2042, 1), (0x2043, 0), (0x2101, 2)]

/-- Codes of domain 0x3: mesh, chip links, SYNC_IO (05). -/
def manu3 : List (Nat × Nat) :=
  [(0x3001, 0), (0x3002, 3), (0x3003, 3), (0x3004, 3), (0x3005, 3), (0x3006, 0), (0x3007, 4), (0x3201, 0), (0x3202, 1),
   (0x3203, 3), (0x3204, 1), (0x3205, 3), (0x3301, 3), (0x3302, 3), (0x3303, 3)]

/-- Codes of domain 0x4: memory (10). -/
def manu4 : List (Nat × Nat) :=
  [(0x4001, 0), (0x4002, 3), (0x4003, 1), (0x4004, 0), (0x4005, 3), (0x4006, 1), (0x4007, 1), (0x4008, 6), (0x4009, 5),
   (0x400A, 1), (0x4010, 0), (0x4011, 1), (0x4012, 3), (0x4013, 4), (0x4020, 5), (0x4021, 3)]

/-- Codes of domain 0x5: intake (08). -/
def manu5 : List (Nat × Nat) :=
  [(0x5101, 1), (0x5102, 1), (0x5103, 1), (0x5104, 1), (0x5105, 1), (0x5106, 1), (0x5107, 1), (0x5110, 0), (0x5111, 1),
   (0x5112, 1), (0x5120, 0), (0x5122, 1), (0x5202, 0), (0x5210, 1), (0x5301, 0), (0x5302, 1), (0x5401, 1)]

/-- Codes of domain 0x6: JPEG XS and warp engines (08, 09). -/
def manu6 : List (Nat × Nat) :=
  [(0x6101, 1), (0x6102, 1), (0x6103, 1), (0x6104, 1), (0x6105, 1), (0x6106, 1), (0x6201, 1), (0x6202, 1), (0x6203, 1),
   (0x6204, 1), (0x6205, 1), (0x6206, 1), (0x6207, 1), (0x6208, 1)]

/-- Codes of domain 0x7: host interface (11). -/
def manu7 : List (Nat × Nat) :=
  [(0x7001, 1), (0x7002, 1), (0x7003, 1), (0x7004, 1), (0x7005, 1), (0x7006, 1), (0x7010, 1), (0x7011, 1), (0x7012, 1),
   (0x7020, 0), (0x7021, 0), (0x7030, 1), (0x7031, 1), (0x7040, 1), (0x7050, 1), (0x7051, 1), (0x7052, 1), (0x7053, 1)]

/-- Codes of domain 0x8: firmware (12). -/
def manu8 : List (Nat × Nat) :=
  [(0x8001, 4), (0x8002, 5), (0x8003, 4), (0x8004, 1), (0x8010, 0), (0x8020, 1), (0x8021, 1), (0x8022, 1), (0x8023, 0),
   (0x8024, 1)]

/-- Codes of domain 0x9: Carapace (13). -/
def manu9 : List (Nat × Nat) :=
  [(0x9001, 6), (0x9002, 6), (0x9003, 0), (0x9004, 6), (0x9005, 6), (0x9006, 5), (0x9007, 6), (0x9010, 1), (0x9011, 1),
   (0x9020, 1), (0x9021, 1), (0x9022, 6), (0x9030, 3), (0x9031, 3), (0x9032, 3), (0x9040, 1), (0x9041, 0), (0x9050, 0)]

/-- Codes of domain 0xA: security block (15). -/
def manuA : List (Nat × Nat) :=
  [(0xA001, 1), (0xA002, 1), (0xA003, 1), (0xA004, 1), (0xA005, 1), (0xA006, 1), (0xA010, 1), (0xA011, 1), (0xA012, 1),
   (0xA013, 1)]

/-- Codes of domain 0xB: Cocoon (15). -/
def manuB : List (Nat × Nat) :=
  [(0xB001, 1), (0xB002, 0), (0xB005, 1), (0xB010, 1), (0xB011, 1), (0xB012, 1), (0xB020, 1), (0xB021, 1), (0xB030, 1)]

/-- Codes of domain 0xC: power, start-up, persistent words (16). -/
def manuC : List (Nat × Nat) :=
  [(0xC001, 1), (0xC002, 0), (0xC003, 1), (0xC004, 1), (0xC010, 1), (0xC020, 1), (0xC021, 1), (0xC030, 1), (0xC031, 1),
   (0xC032, 1), (0xC033, 1), (0xC034, 0)]
/-- The table at manufacture, by ascending code (R464; the order and the reaction of 0x1F01 to 0x1F04 are log entry 22's). -/
def manuTable : List (Nat × Nat) :=
  manu1 ++ manu2 ++ manu3 ++ manu4 ++ manu5 ++ manu6 ++ manu7 ++ manu8 ++ manu9 ++ manuA ++ manuB ++ manuC

/-- An entry at manufacture: safety-class and floored at its default where that is fail stage or stronger (R464). -/
def manuEntry (e : Nat × Nat) : React :=
  { code := e.1, react := e.2, floor := if 3 ≤ e.2 then e.2 else 0, safety := decide (3 ≤ e.2) }

/-- The entry of a code in force. -/
def State.entry? (s : State) (code : Nat) : Option React :=
  match s.cara.table.find? (fun e => e.code == code) with
  | some e => some e
  | none => (manuTable.find? (fun e => e.1 == code)).map manuEntry

/-- The reaction in force; a code without an entry is logged (R464). -/
def State.reactionOf (s : State) (code : Nat) : Nat :=
  match s.entry? code with
  | some e => e.react
  | none => 1
def State.decides? (s : State) (code : Nat) : Bool :=
  match s.entry? code with
  | some e => e.decide
  | none => false

/-- One override: a reaction below the floor is clamped and counted, DECIDE is set on other than safety-class entries only (R465). -/
def State.overrideEntry (s : State) (o : Nat × Nat × Bool) : State :=
  match s.entry? o.1 with
  | none => s
  | some e =>
    let r := Nat.min o.2.1 6
    let s := if r < e.floor then s.cnt F.FCL_REACT_CNT0_CLAMP else s
    let e' := { e with react := Nat.max r e.floor, decide := o.2.2 && !e.safety }
    { s with cara.table := insertBy (·.code) e' (s.cara.table.filter (fun x => x.code != o.1)) }

/-- An override word: its code, reaction and DECIDE bit where VALID is set (R575). -/
def overrideWord (w : Nat) : Option (Nat × Nat × Bool) :=
  if bitOf w 0 then some (bitsOf w 31 16, bitsOf w 15 13, bitOf w 12) else none

/-- The table in force after the image's overrides and then the override words in ascending index (R465, R575). -/
def State.buildTable (s : State) : State :=
  let words := (List.range' 0x200 0x200).filterMap (fun i => overrideWord (s.prsForce i).toNat)
  ({ s with cara.table := [] }).each (s.cfg.overrides ++ words) State.overrideEntry

/-! Events (R461, R467, R605). -/

/-- The unit identifier that the collector latches. -/
def Event.unit (e : Event) : Nat := e.uid.getD (e.units.headD 0)

/-- Lines tied inactive (R461). -/
def State.lineTied (s : State) (l : Nat) : Bool :=
  decide (185 ≤ l) || (s.fuses.variantB && ((decide (64 ≤ l) && decide (l < 128)) || (decide (140 ≤ l) && decide (l < 144)) ||
    l == 146 || l == 147))

/-- The stage of a master's job (R392, R467). -/
def State.masterStages (s : State) (m : Nat) : Option (List Nat) :=
  if m < 0x800 then (s.jobOf m).map (fun j => [j.stage])
  else if m < 0x900 then (s.rspJob (m - 0x800)).map (fun j => [j.stage])
  else none

/-- Stages of the pipelines whose trigger set holds a stream. -/
def State.streamStages (s : State) (n : Nat) : List Nat :=
  ((s.sched.pipes.filter (fun p => p.desc.streams.contains n)).map (fun p => p.desc.stages)).flatten

/-- The stages that an event names; nothing where none can be named (R467). -/
def State.named (s : State) (e : Event) : Option (List Nat) :=
  let l := e.line
  let u := e.unit
  if e.stages ≠ [] then some e.stages
  else if l < 128 then some ((s.boundStages.filter (fun x => x.usesBrood l)).map (·.num))
  else if l < 136 then s.masterStages u
  else if l < 144 then (s.jobOf u).map (fun j => [j.stage])
  else if 148 ≤ l ∧ l < 158 then some (s.streamStages u)
  else if l = 158 then (s.pipe? u).map (fun p => p.desc.stages)
  else if l = 159 then s.masterStages e.master
  else if 169 ≤ l ∧ l < 177 then some [u]
  else none

/-- Stages with a job that runs now. -/
def State.runningStages (s : State) : List Nat := ((s.sched.jobs.filter (fun j => !j.waiting)).map (·.stage)).eraseDups

/-- Fail stages by a fault latched at `tick`. -/
def State.failStages (s : State) (l : List Nat) (tick : Nat) : State :=
  ((s.each l (fun s n => s.failStageAt n tick)).settleArbs).kickJobs

/-- The fail stage reaction (R463, R467). -/
def State.failNamed (s : State) (e : Event) : State := s.failStages ((s.named e).getD s.runningStages) e.tick

/-- Every stage fails (R463). -/
def State.failAll (s : State) (tick : Nat) : State := s.failStages (s.sched.binds.map (·.stage)) tick

/-- Codes whose own chapter fences the slot. -/
def selfFence (code : Nat) : Bool := code == 0x1010 || code == 0x1011 || code == 0x2012 || code == 0x2101

/-- The fence unit reaction: whether the unit could be fenced (R466). -/
def State.fenceUnit (s : State) (e : Event) : Bool × State :=
  let l := e.line
  let u := e.unit
  if l < 128 then
    if selfFence e.code then (true, s)
    else if s.hosted u then (true, ((s.takeOutAs (tileBrood u) (s.slotOf (tileBrood u) (tileK u)) false 0).settleArbs).kickJobs)
    else (false, s)
  else if 144 ≤ l ∧ l < 148 then
    let p := l - 144
    let s := if s.link p = 0 ∨ s.link p = 7 then s else s.linkDown p
    (true, s.modPort p (fun x => { x with out := true }))
  else if l = 152 ∨ l = 153 then (true, s.modJxs (l - 152) (fun j => { j with out := true }))
  else if 154 ≤ l ∧ l < 158 then
    (true, if s.warpServes (l - 154) then (s.wr F.WRP_STATUS_IN_SERVICE 0 (l - 154)).raise l 0x6202 u else s)
  else (false, s)

/-! Records (R435, R436, R484, R486, R542, R598). -/

/-- The temperature sensor nearest to an event's unit (R598; log entry 22 for the units it does not list). -/
def State.sensorOf (s : State) (e : Event) : Nat :=
  let l := e.line
  let u := e.unit
  let ofBrood := fun b => 8 * (b / 16) + b % 16 / 2
  let ofStream := fun n => if n < 32 then (s.strm n).desc.port / 2 else 7
  if l < 128 then ofBrood l
  else if l < 132 then 8 + 16 * (l - 128)
  else if l < 136 then 15 + 16 * (l - 132)
  else if l < 144 then ofBrood (tileBrood (u % 2048))
  else if l < 148 then 57 + 2 * (l - 144)
  else if l < 150 ∨ l = 151 then ofStream u
  else if l = 150 then 7
  else if l < 160 then 4
  else if l = 160 then 6
  else if l < 165 then 4
  else if l = 183 ∨ e.code = 0xC001 then u % 64
  else 0

/-- OP of a record: phase and step (R484). Self-test and arbitration number no steps. -/
def Event.phaseStep (e : Event) : Nat :=
  if e.op ≠ 0 then e.op
  else if 0x2010 ≤ e.code ∧ e.code ≤ 0x2013 then 0x500
  else if [0x1010, 0x1011, 0x1013, 0x2040, 0x2041, 0x2042, 0x2043, 0x2101].contains e.code then 0x400
  else 0

/-- The record of an event with the reaction taken; 7 while a DECIDE waits (R484). -/
def State.recordOf (s : State) (e : Event) (r : Nat) : TRec :=
  let n := s.sensorOf e
  { long := e.phaseStep != 0, react := r, code := e.code, unit := e.unit, tick := e.tick, op := e.phaseStep, sensor := n,
    rail := 0, temp := FMap.get 0 s.pwr.temps n, mv := s.rd F.PWR_VOLT_MEAS_MV, line := e.line }

/-- Bytes 0 to 27 of a long record, and its SEQ where the trouble log holds it (R484, R486). -/
def TRec.longBytes (r : TRec) : List Byte :=
  natLe 1 (b2n r.long) ++ natLe 1 r.react ++ natLe 2 r.code ++ natLe 2 r.unit ++ natLe 2 0 ++ natLe 8 r.tick ++ natLe 2 r.op ++
  natLe 1 r.sensor ++ natLe 1 r.rail ++ natLe 2 (twos 16 r.temp) ++ natLe 2 r.mv ++ natLe 2 r.line ++ natLe 2 0 ++ natLe 4 r.seq
/-- A record of the management port: 32 bytes, or the 16 of a short one. -/
def TRec.bytes (r : TRec) : List Byte := if r.long then r.longBytes else r.longBytes.take 16

/-- Write the trouble log; a full ring overwrites its oldest entry with 0x9050 (R486). -/
def State.addTlog (s : State) (r : TRec) : State :=
  let full := decide (4096 ≤ s.cara.tlog.length)
  let s := { s with cara.tlog := ({ r with long := true, seq := s.cara.tlogSeq } :: s.cara.tlog).take 4096,
                    cara.tlogSeq := (s.cara.tlogSeq + 1) % 2 ^ 32 }
  if full then s.raise 184 0x9050 0 else s

/-- Queue a record for the management port; a full queue drops its oldest with 0x9041 (R483). A port that is not enabled queues
nothing. -/
def State.addMgmt (s : State) (r : TRec) : State :=
  if !s.rdB F.SAF_MGMT_EN then s else
    let s := if s.cara.mgmtQ.length < 256 then s else
      (({ s with cara.mgmtQ := s.cara.mgmtQ.drop 1, cara.mgmtLoss := true }).cnt F.SAF_MGMT_STAT_DROPPED).raise 180 0x9041 0
    { s with cara.mgmtAt := if s.cara.mgmtQ = [] then s.tick else s.cara.mgmtAt, cara.mgmtQ := s.cara.mgmtQ ++ [{ r with seq := 0 }] }

/-- SRC of an event's log entry (R435; log entry 22): core 3 writes the entries of units without a code of their own. -/
def lineSrc (l : Nat) : Nat :=
  if 161 ≤ l ∧ l < 165 then l - 161
  else if l = 158 then 4
  else if l = 165 then 5
  else if l = 166 ∨ l = 183 then 6
  else if l = 167 then 8
  else if 168 ≤ l ∧ l ≠ 181 ∧ l ≠ 182 then 7
  else 3

/-- Frame number of the oldest open frame of a pipeline, or of the last one opened. -/
def Pipeline.frameNow (p : Pipeline) : Nat :=
  match p.frames with
  | f :: _ => f.num
  | [] => (p.frameNum + 2 ^ 32 - 1) % 2 ^ 32

/-- The recorder's records of an event: a state record for the six state events, and an event record for each pipeline in hardware
recorder-trigger mode of which it names a stage, where its code is in the trigger list (R541, R542). -/
def State.recordEvent (s : State) (e : Event) (r : Nat) : State :=
  let s := if [0x9010, 0x9011, 0x9020, 0x9021, 0x8024, 0x3203].contains e.code then
      s.offer 5 false (natLe 2 e.code ++ natLe 2 0 ++ natLe 4 e.unit)
    else s
  match s.cfg.triggers.find? (fun t => t.1 == e.code) with
  | none => s
  | some t =>
    let l := (s.named e).getD []
    s.each (s.sched.pipes.filter (fun p => !p.hostRec && p.desc.stages.any (fun n => l.contains n))) (fun s p =>
      s.offer 1 t.2 (natLe 2 e.code ++ natLe 2 e.unit ++ natLe 1 r ++ natLe 1 0 ++ natLe 2 e.line ++
        natLe 4 (e.frame.getD p.frameNow) ++ natLe 1 p.desc.num))

/-! The reactions (R463 to R470, R472). -/

/-- Count a reaction (R491); full restarts have no counter. -/
def State.countReact (s : State) (r : Nat) : State :=
  match r with
  | 0 => s.cnt F.FCL_REACT_CNT1_COUNT
  | 1 => s.cnt F.FCL_REACT_CNT1_LOG
  | 2 => s.cnt F.FCL_REACT_CNT0_FENCE
  | 3 => s.cnt F.FCL_REACT_CNT0_FAIL
  | 4 => s.cnt F.FCL_REACT_CNT0_PARTIAL
  | 6 => s.cnt F.SAF_ALIVE_STOPS
  | _ => s

/-- A restart is called for; a stronger one replaces a weaker, and a device that R475 has latched restarts no more. -/
def State.callRestart (s : State) (r : Nat) : State :=
  if s.dev.latchedOff then s else { s with cara.restartDue := Nat.max s.cara.restartDue r }

/-- What the collector does for a reaction. -/
def State.actReact (s : State) (e : Event) (r : Nat) : State :=
  match r with
  | 3 => s.failNamed e
  | 4 => if e.code = 0x1023 ∧ e.op ≠ 0 then s else (s.failAll e.tick).callRestart 4
  | 5 => (s.failAll e.tick).callRestart 5
  | 6 =>
    let s := { s with cara.selBlock := true, cara.aliveHold := true, cara.stopAt := s.cara.stopAt.or (some e.tick) }
    (s.lifeUp 0x126).failAll e.tick
  | _ => s

/-- An event takes its reaction: count, records where it is above count only, and the action. `entry` is false where the event ring
holds its entry already (R463, R466). -/
def State.takeReaction (s : State) (e : Event) (r : Nat) (entry : Bool) : State :=
  let f := if r = 2 then s.fenceUnit e else (true, s)
  let r := if f.1 then r else 3
  let s := f.2.countReact r
  let s := if r = 0 then s else
    let t := s.recordOf e r
    let s := (s.addTlog t).addMgmt t
    let s := if entry then s.queueEvt { code := e.code, tick := e.tick, units := e.units, ev := e } else s
    s.queueLog { code := e.code, level := if 4 ≤ r then 0 else 1, src := lineSrc e.line, tick := e.tick }
  (s.recordEvent e r).actReact e r

/-- The event waits for a host decision: host-assisted error reaction, DECIDE set, a host attached (R45, R411, R470). -/
def State.waitsHost (s : State) (e : Event) : Bool := e.hostMode && s.attached && s.decides? e.code

/-- ERROR_LINE_LATCH: the oldest asserted line is latched with its code and unit; of those asserted in one tick, the lowest. The
first event of its domain is captured (R461, R471). -/
def execErrorLineLatch (s : State) : Host.Outcome State Fault Refusal :=
  done (match s.cara.asserted with
    | [] => s
    | a :: _ =>
      let same := s.cara.asserted.filter (fun e => e.tick == a.tick)
      let low := same.foldl (fun m e => Nat.min m e.line) a.line
      let p : Event → Bool := fun e => e.tick == a.tick && e.line == low
      let e := (s.cara.asserted.find? p).getD a
      let s := { s with cara.asserted := delFirst p s.cara.asserted }
      if s.lineTied e.line then s else
        let s := s.wr F.FCL_STATUS_LINE (s.rd F.FCL_STATUS_LINE (e.line / 32) ||| 2 ^ (e.line % 32)) (e.line / 32)
        let d := e.code / 4096 - 1
        let s := if s.rdB F.FCL_FIRST_1_VALID d then s else
          (((((((s.wr F.FCL_FIRST_1_VALID 1 d).wr F.FCL_FIRST_1_TYPE e.acc d).wr F.FCL_FIRST_1_MASTER e.master d).wr
            F.FCL_FIRST_1_ADDR_HI (e.addr / 2 ^ 32) d).wr F.FCL_FIRST_0_ADDR_LO e.addr d).wr F.FCL_FIRST_2_TICK s.tick d).wr
            F.FCL_FIRST_3_CODE e.code d).wr F.FCL_FIRST_3_UNIT e.unit d
        { s with cara.latched := s.cara.latched ++ [{ e with tick := s.tick, hostMode := s.modes.react }] })

/-- ERROR_LINE_RAIL_FAULT: the line is latched with 0x9006, and the first faulty line is captured (R461; log entry 22 for the unit). -/
def execErrorLineRailFault (line : BitVec 8) (s : State) : Host.Outcome State Fault Refusal :=
  done (onlyIf (!s.lineTied line.toNat) s (fun s =>
    let s := if s.rdB F.FCL_LINE_CHK_VALID then s else (s.wr F.FCL_LINE_CHK_VALID 1).wr F.FCL_LINE_CHK_LINE line.toNat
    s.raise line.toNat 0x9006 0xffff))

/-- COLLECTOR_REACTION: the oldest latched event takes its reaction from the table, or waits for the host (R463, R468, R470). -/
def execCollectorReaction (s : State) : Host.Outcome State Fault Refusal :=
  done (match s.cara.latched with
    | [] => s
    | e :: r =>
      let s := { s with cara.latched := r }
      if s.waitsHost e then
        (s.addMgmt (s.recordOf e 7)).queueEvt { code := e.code, decide := true, tick := e.tick, units := e.units, ev := e }
      else s.takeReaction e (s.reactionOf e.code) true)

/-- STOP_ALIVE_DELAY_EXPIRY: 1 ms after the latch of a stop-class fault the full restart is due (R472). -/
def execStopAliveDelayExpiry (s : State) : Host.Outcome State Fault Refusal :=
  done (match s.cara.stopAt with
    | some t => onlyIf (decide (t + ms 1 ≤ s.tick)) s (fun s => s.callRestart 5)
    | none => s)

/-! Waiting decisions (R411, R421). -/

/-- Every event that waits for the host takes its reaction-table entry at once (R411). -/
def State.dropDecides (s : State) : State :=
  let l := s.host.decides.map (·.ev) ++ (s.fw.evtQ.filter (·.decide)).map (·.ev)
  let s := { s with host.decides := [], fw.evtQ := s.fw.evtQ.map (fun (x : EvtRec) => { x with decide := false }) }
  s.each l (fun s e => s.takeReaction e (s.reactionOf e.code) false)

/-- DECIDE_TIMEOUT: the oldest event that has waited for 50 ms takes its table entry, with 0x7012 (R421). -/
def execDecideTimeout (s : State) : Host.Outcome State Fault Refusal :=
  let late : Decide → Bool := fun d => decide (d.ev.tick + ms 50 ≤ s.tick)
  done (match s.host.decides.find? late with
    | some d =>
      (({ s with host.decides := delFirst late s.host.decides }).raise 160 0x7012 0).takeReaction d.ev (s.reactionOf d.ev.code) false
    | none => s)

/-! The rings of events, logs and traces (R416, R436 to R438, R448). -/

/-- EVENT_ENTRY_WRITE: the oldest queued event is written as a head entry and its continuations; a DECIDE then waits under the
head's SEQ (R416, R421). -/
def execEventEntryWrite (s : State) : Host.Outcome State Fault Refusal :=
  done (match s.fw.evtQ with
    | [] => s
    | x :: r => onlyIf (!s.handover) s (fun s =>
        let s := { s with fw.evtQ := r }
        let ix := s.rd F.HIF_RING_PROD_PROD 2
        let groups := unitGroups (x.units.length + 1) x.units
        let head := groups.headD []
        let s := s.ringPut 2 (mDsp 3) (evtBytes x.code (if x.decide then 2 else 0) (groups.length - 1) x.tick head)
        let s := s.each (groups.drop 1) (fun s g => s.ringPut 2 (mDsp 3) (evtBytes x.code 1 0 x.tick g))
        let s := if x.decide then { s with host.decides := s.host.decides ++ [{ seq := ix, ev := x.ev }] } else s
        s.msix 1))

/-- LOG_ENTRY_WRITE: the oldest queued log entry is written. MSG, ARG0 to ARG3 and TEXT belong to the image's message catalogue and
are free values (R435, R436; log entry 5). -/
def execLogEntryWrite (s : State) : Host.Outcome State Fault Refusal :=
  done (match s.fw.logQ with
    | [] => s
    | x :: r => onlyIf (!s.handover) s (fun s =>
        let (b, s) := State.freeBs 46 s
        let x := { x with msg := fieldAt b 0 2, args := [fieldAt b 2 4, fieldAt b 6 4, fieldAt b 10 4, fieldAt b 14 4], text := b.drop 18 }
        (({ s with fw.logQ := r }).ringPut 3 (mDsp 3) x.bytes).msix 2))

/-- TRACE_ENTRY_WRITE: the trace queue writes its oldest entry (R437, R438). -/
def execTraceEntryWrite (s : State) : Host.Outcome State Fault Refusal :=
  done (match s.fw.trcQ with
    | [] => s
    | x :: r => onlyIf (!s.handover) s (fun s => (({ s with fw.trcQ := r }).ringPut 4 (mDsp 3) x.bytes).msix 3))

/-- FCL_CTRL.CLR_CNT (R491). -/
def execFclClrCnt (s : State) : Host.Outcome State Fault Refusal :=
  done (let s := s.clearFlds [F.FCL_REACT_CNT0_FENCE, F.FCL_REACT_CNT0_FAIL, F.FCL_REACT_CNT0_PARTIAL, F.FCL_REACT_CNT0_CLAMP,
      F.FCL_REACT_CNT1_COUNT, F.FCL_REACT_CNT1_LOG]
    s.each (List.range 12) (fun s d => s.wr F.FCL_FIRST_1_VALID 0 d))

end Sys2Proof.Machine
end

