-- ==== Sys2Proof/Machine/Views.lean ====
section
/-! DEFINITION. Reading registers: the fields that show another component of the state, a register's value, and which register
windows exist (R6 to R9, R15, R17, R562, R601). -/
namespace Sys2Proof.Machine

/-! What the views show. -/

/-- TIL_STATUS.STATE: 3 while a move is in progress (R85). -/
def State.tilState (s : State) (t : Nat) : Nat := if s.moving t then 3 else (s.tile t).run
/-- An array operation of the tile, or of the fused brood it belongs to, is queued or in flight (R139). -/
def State.arrBusy (s : State) (t : Nat) : Bool := !(s.tile t).arrIdle || !(s.tile (s.lead t)).arrIdle
/-- A weight load is in progress on the tile: it takes 32 array cycles from the tile's own start, 2i + 34j after the lead tile's
(R98, R130, R139). -/
def State.loadBusy (s : State) (t : Nat) : Bool :=
  let x := s.tile (s.lead t)
  let l (o : LoadOp) : Nat := o.start + arrOff (s.arrIndex t)
  x.loads.any (fun o => decide (l o ≤ x.cyc) && decide (x.cyc < l o + 32))
/-- ALIVE toggles: the device has reached the running state and nothing holds the level (R457, R460, R472). -/
def State.aliveRuns (s : State) : Bool :=
  !s.cara.aliveHold && !s.cara.split && !s.cara.dbgHalt && decide (2 ≤ s.cara.dbgKicks) && !s.dev.shutdown && !s.dev.latchedOff
/-- SAF_STATUS.STATE: 0 starting, 1 running, 2 partial restart, 3 full restart, 4 latched (R490). -/
def State.safState (s : State) : Nat :=
  if s.dev.latchedOff then 4
  else match s.dev.phase with
    | 0 => 1
    | 1 => 0
    | n => n
/-- The trouble log entry of a slot (R486). -/
def State.tlogSlot (s : State) (n : Nat) : List Byte :=
  match s.cara.tlog.find? (fun r => r.seq % 4096 == n) with
  | some r => r.longBytes
  | none => zeros 32
/-- The reaction-table entry of an index: the table at manufacture by ascending code (R464; log entry 22). -/
def State.tableEntry (s : State) (n : Nat) : Option React := ((manuTable[n]?).bind (fun e => s.entry? e.1))
/-- Temperature of a sensor, in 1/16 degree. -/
def State.temp (s : State) (n : Nat) : Int := FMap.get 0 s.pwr.temps n
/-- The hottest sensor: the lowest number of those (R579). -/
def State.hottest (s : State) : Nat := (List.range 64).foldl (fun m n => if s.temp m < s.temp n then n else m) 0
/-- MEM_STATUS.STATE: a channel in its retraining window shows 3; a window lasts 2 µs (R384, R392; log entry 21). -/
def State.memState (s : State) (c : Nat) : Nat :=
  let v := s.rd F.MEM_STATUS_STATE c
  if v = 2 ∧ (s.chan c).winAt ≠ 0 ∧ s.tick < (s.chan c).winAt + us 2 then 3 else v
/-- Strongest restart reaction in progress (R491). -/
def State.restartPending (s : State) : Nat := if s.cara.stopAt.isSome then 6 else s.cara.restartDue

/-- The value of a field that shows another component. DESIGN CHOICE (log entry 36): across a move the ARR_ counters, AFMT, OP, BANK
and LEVEL stay with the logical tile, while SPARE and SKEW are those of the hosting slot (R139). -/
def State.readView (s : State) (v : View) (f : Fld) (i : Nat) : Nat :=
  let x := s.tile i
  let b := tileBrood i
  match v with
  | .stored => s.rd f i
  | .TIL_STATUS_JOB_TAG => x.job.tag
  | .TIL_STATUS_STAGE => x.job.stage
  | .TIL_STATUS_FUSED => b2n (s.fused b)
  | .TIL_STATUS_ERR => b2n x.err
  | .TIL_STATUS_STATE => s.tilState i
  | .TIL_PC_PC => x.pc
  | .TIL_MAP_MOVING => b2n (s.moving i)
  | .TIL_MAP_CLASS => s.slotState b (s.slotOf b (tileK i))
  | .TIL_MAP_SLOT => s.slotOf b (tileK i)
  | .TIL_MAP_PHYS => s.physTile i
  | .BRD_STATUS_GOOD_COUNT => s.goodCount i
  | .BRD_STATUS_TEST_BUSY => b2n ((s.brood i).test == 1 || (s.brood i).test == 2)
  | .BRD_STATUS_ROT_BUSY => b2n (s.brood i).move.isSome
  | .BRD_STATUS_NO_MARGIN => b2n (s.spare i).isNone
  | .ARR_STATUS_BUSY => b2n (s.arrBusy i)
  | .ARR_STATUS_FUSED => b2n (s.fused b)
  | .ARR_STATUS_LEAD => b2n (s.fused b && tileK i == 0)
  | .ARR_SPARE_SPARE_COL => (s.slot (s.physTile i)).spareCol
  | .ARR_SPARE_SPARE_ROW => (s.slot (s.physTile i)).spareRow
  | .ARR_SKEW_DONE => b2n (s.slot (s.physTile i)).skewOk
  | .ARR_SKEW_COL_PROG => (s.slot (s.physTile i)).colProg
  | .ARR_SKEW_ROW_PROG => (s.slot (s.physTile i)).rowProg
  | .ARR_BANK_B1_FMT => x.bank1.fmt
  | .ARR_BANK_B0_FMT => x.bank0.fmt
  | .ARR_BANK_LOAD_BUSY => b2n (s.loadBusy i)
  | .ARR_BANK_LOAD_BANK => x.loadBank
  | .ARR_BANK_LAST_BANK => x.lastBank
  | .ARR_BANK_B1_DUAL => b2n x.bank1.dual
  | .ARR_BANK_B0_DUAL => b2n x.bank0.dual
  | .ARR_BANK_B1_LOADED => b2n x.bank1.loaded
  | .ARR_BANK_B0_LOADED => b2n x.bank0.loaded
  | .ARR_RAMP_PHASE => tileK i
  | .ARR_RAMP_LEVEL => x.level
  | .ARR_KMASK0_KMASK => x.bank0.kmask.toNat
  | .ARR_KMASK1_KMASK => x.bank1.kmask.toNat
  | .ARR_NMASK0_NMASK => x.bank0.nmask.toNat
  | .ARR_NMASK1_NMASK => x.bank1.nmask.toNat
  | .SYN_OBJ_VALUE => (s.gobj i).toNat
  | .INT_DESC_UPD_PENDING => b2n s.intake.updWait.isSome
  | .INT_STATE_STATE => (List.range 16).foldl (fun m j => m + (s.strm (16 * i + j)).state % 4 * 4 ^ j) 0
  | .WRP_CFG_UPD_PENDING => b2n s.intake.warpNo.isSome
  | .WRP_STATUS_COPY => s.warpCopy i
  | .JXS_LOAD_RESERVED_CYCLES => jxsSum (s.jxsStreams i 64 {})
  | .MEM_STATUS_STATE => s.memState i
  | .MEM_OUTST_NOW => s.memNow i
  | .MEM_LOST_USED => (s.chan i).lost.length
  | .HIF_ID_DEVICE => if s.fuses.variantB then 0x1024 else 0x2048
  | .HIF_ID_STEP => s.fuses.step
  | .HIF_JOBS_HOST => s.sched.jobs.countP (fun j => j.host)
  | .HIF_JOBS_SEQR => s.sched.jobs.countP (fun j => !j.host)
  | .SAF_STATUS_STATE => s.safState
  | .SAF_STATUS_ALIVE_LVL => b2n s.cara.aliveLevel
  | .SAF_STATUS_ALIVE_RUN => b2n s.aliveRuns
  | .SAF_STATUS_DEBUG => b2n s.cara.debug
  | .SAF_STATUS_SPLIT => b2n s.cara.split
  | .SAF_STATUS_SAFETY => if s.dev.step = 0 then 0 else s.rd F.HIF_ID_SAFETY
  | .SAF_WIN_STAT_LAST => (s.win (s.rd F.SAF_WIN_SEL_STAGE)).last
  | .SAF_WIN_CNT_LATE => (s.win (s.rd F.SAF_WIN_SEL_STAGE)).late
  | .SAF_WIN_CNT_EARLY => (s.win (s.rd F.SAF_WIN_SEL_STAGE)).early
  | .SAF_TLOG_HEAD_NEXT => s.cara.tlogSeq
  | .SAF_TLOG_DATA_WORD => fieldAt (s.tlogSlot (s.rd F.SAF_TLOG_SEL_SLOT)) (4 * i) 4
  | .FCL_STATE_DECIDE_WAIT => s.host.decides.length + s.fw.evtQ.countP (fun e => e.decide)
  | .FCL_STATE_MODE => b2n s.modes.react
  | .FCL_STATE_PENDING => s.restartPending
  | .FCL_REACT_VALID => b2n (s.tableEntry (s.rd F.FCL_REACT_SEL_INDEX)).isSome
  | .FCL_REACT_SAFETY => b2n (((s.tableEntry (s.rd F.FCL_REACT_SEL_INDEX)).map (·.safety)).getD false)
  | .FCL_REACT_DECIDE => b2n (((s.tableEntry (s.rd F.FCL_REACT_SEL_INDEX)).map (·.decide)).getD false)
  | .FCL_REACT_REACTION => ((s.tableEntry (s.rd F.FCL_REACT_SEL_INDEX)).map (·.react)).getD 0
  | .FCL_REACT_FLOOR => ((s.tableEntry (s.rd F.FCL_REACT_SEL_INDEX)).map (·.floor)).getD 0
  | .FCL_REACT_CODE => ((s.tableEntry (s.rd F.FCL_REACT_SEL_INDEX)).map (·.code)).getD 0
  | .SEC_STATUS_OWNER => b2n s.fuses.ownerLock
  | .SEC_STATUS_DEBUG_DISABLE => b2n s.fuses.debugDisable
  | .SEC_STATUS_SPLIT_DISABLE => b2n s.fuses.splitDisable
  | .COC_STATUS_POWER_OK => b2n s.coc.powered
  | .COC_STATUS_FREE => 64 - s.coc.mbox.length
  | .PWR_TEMP_MAX => twos 16 (s.temp s.hottest)
  | .PWR_TEMP_SENSOR => s.hottest
  | .PWR_SENSOR_TEMP => twos 16 (s.temp (s.rd F.PWR_SENSOR_SEL_SENSOR))
  | .PRS_STATUS_BUSY => b2n (!s.prs.queue.isEmpty)
  | .PRS_WORD_VALUE => (s.prsValue i).toNat
  | .PRS_WCNT_LIMIT => b2n (s.prsWord i).limit
  | .PRS_WCNT_WRITES => (s.prsWord i).writes

/-- The present value of a field, within its width. -/
def State.fieldVal (s : State) (f : Fld) (i : Nat) : Nat := s.readView f.view f i % 2 ^ f.w

/-- What a read of a field returns: a write-only field reads 0 (R9). -/
def State.readFld (s : State) (f : Fld) (i : Nat) : Nat := if f.ty = .wo then 0 else s.fieldVal f i

/-! Registers by address. -/

/-- The instance of a register row at an offset of the block registers. -/
def RegRow.inst (r : RegRow) (off : Nat) : Option Nat :=
  if off < r.off then none
  else if r.stride = 0 then (if off = r.off then some 0 else none)
  else if (off - r.off) % r.stride = 0 ∧ (off - r.off) / r.stride < r.n then some ((off - r.off) / r.stride)
  else none

/-- The register at an offset, with its instance; nothing at a reserved offset. -/
def regAt (off : Nat) : Option (RegRow × Nat) := regTab.findSome? (fun r => (r.inst off).map (fun i => (r, i)))

/-- The 32-bit value of the register at an offset; a reserved offset reads 0 (R8). -/
def State.readReg (s : State) (off : Nat) : Nat :=
  match regAt off with
  | some (r, i) => r.flds.foldl (fun m f => m + s.readFld f i * 2 ^ f.lo) 0
  | none => 0

/-- An offset on a hole, on the window of a fused-off unit, or on the window of a logical tile that no slot hosts (R15, R17, R601). -/
def State.regHole (s : State) (off : Nat) : Bool :=
  if off < 0x400000 then !s.hosted (off / 0x800)
  else if off < 0x480000 then decide (s.nBroods ≤ (off - 0x400000) / 0x1000)
  else if off < 0x500000 then !s.hosted ((off - 0x480000) / 0x100)
  else if 0x540000 ≤ off ∧ off < 0x580000 then decide (s.nBroods ≤ (off - 0x540000) / 4 / 512)
  else if 0x640000 ≤ off ∧ off < 0x650000 then decide (s.nPorts ≤ (off - 0x640000) / 0x4000)
  else decide (0x730000 ≤ off)

/-- A window that answers the host before the running state: HIF_, SAF_, PWR_, and MEM_ while the device starts (R562, R566). -/
def State.earlyWindow (s : State) (off : Nat) : Bool :=
  (decide (0x6b0000 ≤ off) && decide (off < 0x6c0000)) || (decide (0x6d0000 ≤ off) && decide (off < 0x6e0000)) ||
  (decide (0x710000 ≤ off) && decide (off < 0x720000)) ||
  (decide (0x690000 ≤ off) && decide (off < 0x6b0000) && s.rd F.HIF_STATE_DEV != 4)

/-- What a host access finds at an offset of the block registers: a hole or not. -/
def State.hostHole (s : State) (off : Nat) : Bool := s.regHole off || (decide (s.dev.step < 12) && !s.earlyWindow off)

end Sys2Proof.Machine
end

