-- ==== Sys2Proof/Machine/Carapace.lean ====
section
/-! DEFINITION. The Carapace outside its collector: ALIVE, the lockstep pair and its tests, its watchdog and debugger, the
management port and the SMBus target, and output exports (R451 to R462, R472, R482 to R485, R490, R570). -/
namespace Sys2Proof.Machine

/-- The main die is out of reset and clocked (R553, R557). -/
def State.mainUp (s : State) : Bool := decide (1 ≤ s.dev.step) && !s.dev.shutdown

/-! ALIVE and the lockstep pair. -/

/-- ALIVE_TOGGLE: the level changes every 250 µs ± 0.5 µs (R472). -/
def execAliveToggle (s : State) : Host.Outcome State Fault Refusal :=
  done (onlyIf (s.mainUp && s.aliveRuns && decide (s.cara.aliveAt + 24950 ≤ s.tick)) s (fun s =>
    ({ s with cara.aliveLevel := !s.cara.aliveLevel, cara.aliveAt := s.tick }).cnt F.SAF_ALIVE_EDGES))

/-- LOCKSTEP_MISMATCH: the comparator finds a difference; in split mode it is off (R452, R457). -/
def execLockstepMismatch (s : State) : Host.Outcome State Fault Refusal :=
  done (onlyIf (s.mainUp && !s.cara.split) s (fun s => s.raise 177 0x9001 0))

/-- A comparator or line path test misses: it is counted and raised. -/
def State.testMissed (s : State) (line unit : Nat) : State := (s.cnt F.SAF_LOCKSTEP_FAIL).raise line 0x9005 unit

/-- COMPARATOR_TEST: one compared bit is inverted, in turn; `flagged` says that the comparator saw it (R453). -/
def execComparatorTest (flagged : Bool) (s : State) : Host.Outcome State Fault Refusal :=
  done (onlyIf (s.mainUp && !s.cara.split && decide (s.cara.testAt + ms 99 ≤ s.tick)) s (fun s =>
    let s := { s with cara.testAt := s.tick, cara.testBit := s.cara.testBit + 1 }
    if flagged then s.cnt F.SAF_LOCKSTEP_TESTS else s.testMissed 177 0))

/-- LINE_PATH_TEST: every line path is driven; `bad` names one whose shadow latch did not record it (R462). -/
def execLinePathTest (bad : Option (BitVec 8)) (s : State) : Host.Outcome State Fault Refusal :=
  done (onlyIf (s.mainUp && decide (s.cara.lineTestAt + ms 99 ≤ s.tick)) s (fun s =>
    let s := { s with cara.lineTestAt := s.tick }
    match bad with
    | some _ => s.testMissed 184 0
    | none => s))

/-- CARAPACE_SRAM_SCRUB: a word of the Carapace SRAM reads with `errs` errors: none, one, or more (R454). -/
def execCarapaceSramScrub (errs : BitVec 2) (s : State) : Host.Outcome State Fault Refusal :=
  done (onlyIf s.mainUp s (fun s =>
    match errs.toNat with
    | 0 => s
    | 1 => s.raise 179 0x9003 0
    | _ => s.raise 179 0x9004 0))

/-! The pair's window watchdog and the debugger (R455, R459, R460). While the debugger halts the pair, `wdtAt` holds the time that
had passed since its last kick. -/

/-- The pair has not kicked within 1 ms. -/
def State.wdtLate (s : State) : Bool := !s.cara.dbgHalt && decide (s.cara.wdtAt + ms 1 ≤ s.tick)

/-- A missing kick. -/
def State.wdtMissed (s : State) : State := ((({ s with cara.wdtAt := s.tick }).cnt F.SAF_WDT_LATE)).raise 178 0x9002 0

/-- CARAPACE_WDT_EXPIRY. -/
def execCarapaceWdtExpiry (s : State) : Host.Outcome State Fault Refusal :=
  done (onlyIf (s.mainUp && s.wdtLate) s State.wdtMissed)

/-- CARAPACE_WDT_KICK: a kick earlier than 50 µs after the last raises 0x9002, as does one that comes too late. -/
def execCarapaceWdtKick (s : State) : Host.Outcome State Fault Refusal :=
  done (onlyIf (s.mainUp && !s.cara.dbgHalt) s (fun s =>
    let s := { s with cara.dbgKicks := satAt 2 (s.cara.dbgKicks + 1) }
    if s.wdtLate then s.wdtMissed
    else if s.tick < s.cara.wdtAt + us 50 then ((({ s with cara.wdtAt := s.tick }).cnt F.SAF_WDT_EARLY)).raise 178 0x9002 0
    else { s with cara.wdtAt := s.tick }))

/-- CLOCK_MONITOR_CHECK: a deviation of more than 1 %, in parts per million (R456). -/
def execClockMonitorCheck (ppm : BitVec 32) (s : State) : Host.Outcome State Fault Refusal :=
  done (onlyIf (s.mainUp && decide (10000 < ppm.toNat)) s (fun s => s.raise 168 0x9007 0))

/-- DEBUG_ACTION: 0 halt, 1 step, 2 resume, other values register and memory writes; each reaches both copies, so none causes a
lockstep difference (R459, R460). -/
def execDebugAction (act : BitVec 3) (s : State) : Host.Outcome State Fault Refusal :=
  done (onlyIf (s.mainUp && s.cara.debug) s (fun s =>
    match act.toNat with
    | 0 => if s.cara.dbgHalt then s else { s with cara.dbgHalt := true, cara.wdtAt := s.tick - s.cara.wdtAt }
    | 2 => if s.cara.dbgHalt then { s with cara.dbgHalt := false, cara.wdtAt := s.tick - s.cara.wdtAt, cara.dbgKicks := 0 } else s
    | _ => s))

/-! The management port (R482 to R484, R531). -/

/-- OWNER_ROOT as 48 bytes. -/
def State.ownerRoot (s : State) : List Byte := bytesAt s.fuses.ownerRoot 0 48
/-- The management key (R531). -/
def State.mgmtKey (s : State) : List Byte :=
  (hmac384 s.fuses.deviceSeed ([0x51#8, 0x4d#8, 0x47#8, 0x54#8] ++ s.ownerRoot)).take 32
/-- A datagram with its tag, where SAF_MGMT.AUTH is set. -/
def State.tagged (s : State) (d : List Byte) : List Byte :=
  if s.rdB F.SAF_MGMT_AUTH then d ++ (hmac384 s.mgmtKey d).take 16 else d
/-- The port is enabled, and step 6 of the start has passed (R566). -/
def State.mgmtUp (s : State) : Bool := s.mainUp && s.rdB F.SAF_MGMT_EN && decide (7 ≤ s.dev.step)

/-- An event datagram of a list of records (R483). -/
def State.datagram (s : State) (l : List TRec) : List Byte :=
  s.tagged (natLe 4 0x52564551 ++ natLe 2 1 ++ natLe 1 l.length ++ natLe 1 (s.rd F.SAF_MGMT_AUTH + 2 * b2n s.cara.mgmtLoss) ++
    natLe 4 s.cara.mgmtSeq ++ natLe 4 0 ++ natLe 8 s.tick ++ natLe 8 s.fuses.serial.toNat ++ (l.map TRec.bytes).flatten)

/-- MGMT_DATAGRAM_SEND: 1 ms after the first record was queued, or at once when 32 are queued, up to 32 records go out to the
configured destination (R482, R483). -/
def execMgmtDatagramSend (s : State) : Host.Outcome State Fault Refusal :=
  done (let q := s.cara.mgmtQ
    onlyIf (s.mgmtUp && !q.isEmpty && (decide (32 ≤ q.length) || decide (s.cara.mgmtAt + ms 1 ≤ s.tick))) s (fun s =>
      let rest := q.drop 32
      ({ s with cara.mgmtSent := s.datagram (q.take 32), cara.mgmtTo := s.cfg.mgmt, cara.mgmtQ := rest, cara.mgmtLoss := false,
                cara.mgmtSeq := (s.cara.mgmtSeq + 1) % 2 ^ 32,
                cara.mgmtAt := ((rest.head?).map (fun (r : TRec) => r.tick)).getD s.cara.mgmtAt }).cnt F.SAF_MGMT_STAT_SENT))

/-- MGMT_FRAME_RECEIVE: the port discards every frame it receives (R482). -/
def execMgmtFrameReceive (_frame : List Byte) (s : State) : Host.Outcome State Fault Refusal := done s

/-- MGMT_LINK_CHANGE: SAF_MGMT.LINK follows the PHY, with 0x9040 (R489, R490). -/
def execMgmtLinkChange (up : Bool) (s : State) : Host.Outcome State Fault Refusal :=
  done (onlyIf (s.mainUp && s.rdB F.SAF_MGMT_LINK != up) s (fun s => (s.wrB F.SAF_MGMT_LINK up).raise 180 0x9040 0))

/-- Bytes of one export datagram carry up to 1,408 bytes of output (R570). -/
def exportBytes : Nat := 1408

/-- The first exported stage of a pipeline from list index `i` on. -/
def PipeDesc.nextExport (d : PipeDesc) (i : Nat) : Option Nat :=
  (List.range d.stages.length).find? (fun j => decide (i ≤ j) && d.exp.getLsbD j)

/-- MGMT_EXPORT_SEND: the next datagram of the oldest export goes out to EXPORT_PORT when no event record waits. LAST marks the last datagram of one
stage's output; an output that reads uncorrectable drops the rest of the export with 0xC034 (R482, R570; log entry 22). -/
def execMgmtExportSend (s : State) : Host.Outcome State Fault Refusal :=
  done (match s.sched.exports with
    | [] => s
    | e :: rest => onlyIf (s.mgmtUp && s.cara.mgmtQ.isEmpty) s (fun s =>
      let s := { s with sched.exports := rest }
      match (s.pipe? e.pipe).bind (fun p => (p.desc.nextExport e.ix).bind (fun i =>
          (p.desc.stages[i]?).bind (fun n => (e.frame.stage? n).map (fun r => (p.desc, i, r))))) with
      | none => s
      | some (d, i, r) =>
        let off := if i = e.ix then e.off else 0
        let n := Nat.min exportBytes (r.bytes - off)
        match s.busRead mCtl (r.addr + off) n with
        | (.ok, b, s) =>
          let fin? := decide (r.bytes ≤ off + n)
          let flags := b2n e.frame.isStale + 2 * b2n e.qm + 4 * s.rd F.SAF_MGMT_AUTH + 8 * b2n fin?
          let h := exportHead e.pipe i flags e.frame.num off r.bytes e.tick
          let e' := if fin? then { e with ix := i + 1, off := 0 } else { e with ix := i, off := off + n }
          let more := !fin? || (d.nextExport (i + 1)).isSome
          let s := s.cnt F.SAF_MGMT_STAT_SENT
          { s with cara.mgmtSent := s.tagged (h ++ b), cara.mgmtTo := { s.cfg.mgmt with port := s.cfg.exportPort }, sched.exports := if more then e' :: s.sched.exports else s.sched.exports }
        | (_, _, s) => s.raise 180 0xC034 e.pipe))

/-! The SMBus target (R485). `lastSm` holds the block that it answers; nothing for a NACK. -/

/-- The address of a register of the SAF_ and FCL_ windows. -/
def safOff (o : Nat) : Nat := 0x6d0000 + o
def fclOff (o : Nat) : Nat := 0x6e0000 + o

/-- SMBUS_READ_STATUS: Block Read 0x01 returns SAF_STATUS. -/
def execSmbusReadStatus (s : State) : Host.Outcome State Fault Refusal :=
  done (onlyIf s.mainUp s (fun s => { s with cara.lastSm := natLe 4 (s.readReg (safOff 4)) }))

/-- SMBUS_READ_LINES: Block Read 0x02 returns FCL_STATUS0 to FCL_STATUS7. -/
def execSmbusReadLines (s : State) : Host.Outcome State Fault Refusal :=
  done (onlyIf s.mainUp s (fun s =>
    { s with cara.lastSm := ((List.range 8).map (fun i => natLe 4 (s.readReg (fclOff (0x10 + 4 * i))))).flatten }))

/-- SMBUS_READ_TLOG: Block Read 0x03 returns the newest long record; zeros from an empty log (log entry 22). -/
def execSmbusReadTlog (s : State) : Host.Outcome State Fault Refusal :=
  done (onlyIf s.mainUp s (fun s =>
    { s with cara.lastSm := match s.cara.tlog with
        | r :: _ => r.longBytes
        | [] => zeros 32 }))

/-- SMBUS_OTHER_COMMAND: every other command is refused with a NACK. -/
def execSmbusOtherCommand (_cmd : BitVec 8) (s : State) : Host.Outcome State Fault Refusal :=
  done (onlyIf s.mainUp s (fun s => { s with cara.lastSm := [] }))

/-- SAF_CTRL.CLR_CNT (R490). -/
def execSafClrCnt (s : State) : Host.Outcome State Fault Refusal :=
  done (
    let s := s.clearFlds [F.SAF_LOCKSTEP_TESTS, F.SAF_LOCKSTEP_FAIL, F.SAF_WDT_EARLY, F.SAF_WDT_LATE, F.SAF_ALIVE_STOPS,
      F.SAF_MGMT_STAT_SENT, F.SAF_MGMT_STAT_DROPPED]
    s.each (s.cara.wins.map (·.1)) (fun s n => s.modWin n (fun w => { w with early := 0, late := 0 })))

end Sys2Proof.Machine
end

