-- ==== Sys2Proof/Machine/HostIf.lean ====
section
/-! DEFINITION. The PCIe endpoint: BAR windows, doorbells, attach and heartbeat, link and resets (R393 to R412, R420, R425). -/
namespace Sys2Proof.Machine

/-! States of the host interface (R407, R411). -/

/-- The PCIe link is up: configuration requests and resets reach the device. -/
def State.linkIs (s : State) : Bool := s.mainUp && s.rd F.HIF_STATE_HOST != 0
/-- Host accesses through the BARs reach the device: the link is up, and the function is in D0 (R393). -/
def State.linkedUp (s : State) : Bool := s.linkIs && !s.host.d3hot

/-- The host interface leaves its state for host-absent (1) or link down (0); on leaving the attached state every hold is released
and every waiting decision takes its table entry (R411). `cause` is an event code, or 0. -/
def State.leaveTo (s : State) (new cause : Nat) : State :=
  let was := s.attached
  let s := s.setHost new cause
  if was then s.dropHolds.dropDecides else s

/-- A PCI function reset clears Bus Master Enable, the MSI-X control, table and pending bits, and returns the function to D0 (R393, R394, R402;
log entry 23). The AER status is kept. -/
def State.msixReset (s : State) : State :=
  { s with host.msixTab := [], host.pend := 0#64, host.msixEn := false, host.msixMask := false, host.busMaster := false, host.d3hot := false }

/-- A bit of the AER uncorrectable error status is set: 12 poisoned request, 15 Completer Abort, 19 ECRC error (R393, R425; log entry 23). -/
def State.aerSet (s : State) (bit : Nat) : State := { s with host.aerUnc := s.host.aerUnc ||| BitVec.ofNat 32 (2 ^ bit) }

/-- A host read completes with Completer Abort, or a host write that fails is dropped: 0x7030, with the address of the part that failed (R381,
R397, R399). -/
def State.completerAbort (s : State) (a : Nat) : State :=
  ((s.cnt F.HIF_PCIE_ERR_CA).aerSet 15).raiseEv { line := 160, code := 0x7030, units := [0], addr := a, master := mHost }

/-- A host read of any memory; `edc` lists the CRC mismatches of each granule in device memory (R375, R381). -/
def State.hostMemRead (s : State) (a n : Nat) (edc : List (BitVec 2)) : Bus × List Byte × State :=
  if a + n ≤ gddrEnd then
    match s.memRead mHost a n edc with
    | (some d, s) => (.ok, d, s)
    | (none, s) => (.bad, [], s)
  else s.busRead mHost a n

/-- A host write of any memory, with the address of the first part that failed. -/
def State.hostMemWrite (s : State) (a : Nat) (d : List Byte) (edc : List (BitVec 2)) : Bus × Nat × State :=
  if a + d.length ≤ gddrEnd then
    match s.memWrite mHost a d edc with
    | (none, s) => (.ok, a, s)
    | (some e, s) => (.bad, e.2, s)
  else s.busWriteAt mHost a d

/-! BAR2 and BAR4 (R395, R397 to R399, R562). -/

/-- A logical tile that is being moved and whose memory window holds an address (R74). -/
def State.movingAt (s : State) (a : Nat) : Option Nat :=
  let t := (a - tileBase) / 0x40000
  if tileBase ≤ a ∧ a < tileBase + 0x20000000 ∧ s.hosted t ∧ s.moving t then some t else none

/-- The host reads `n` bytes at a device address through a BAR; a hole reads 0 and is counted (R15), and a moving tile's memory answers
when the move has ended (R74). -/
def State.hostRead (s : State) (a n : Nat) (edc : List (BitVec 2)) : State :=
  if s.dev.step < 12 then { s.violHole with host.lastRead := some (zeros n) }
  else if let some t := s.movingAt a then s.holdAccess t { kind := 0, addr := a, len := n }
  else match s.hostMemRead a n edc with
    | (.ok, b, s) => { s with host.lastRead := some b }
    | (.hole, _, s) => { s.violHole with host.lastRead := some (zeros n) }
    | (.bad, _, s) => { s.completerAbort a with host.lastRead := none }

/-- The host writes through a BAR. -/
def State.hostWrite (s : State) (a : Nat) (d : List Byte) (edc : List (BitVec 2)) : State :=
  if s.dev.step < 12 then s.violHole
  else if let some t := s.movingAt a then s.holdAccess t { kind := 1, addr := a, data := d }
  else match s.hostMemWrite a d edc with
    | (.ok, _, s) => s
    | (.hole, _, s) => s.violHole
    | (.bad, e, s) => s.completerAbort e

/-- Device address of a BAR2 offset: the low bits of BASE that break its alignment are ignored; the window lies in device memory, so
an address of 15 GiB or more is a hole (R397). -/
def State.bar2Addr (s : State) (off : Nat) : Nat :=
  let units := 2 ^ (s.host.bar2Bits - 28)
  s.rd F.HIF_BAR2_BASE_BASE / units * units * 0x10000000 + off

/-- Device address of a BAR4 offset; nothing for a hole (R398). -/
def State.bar4Addr (s : State) (off : Nat) : Option Nat :=
  if off < 0x10000000 then some (tileBase + s.rd F.HIF_BAR4_SEL_HALF * 0x10000000 + off)
  else if off < 0x12000000 then some (broodBase + (off - 0x10000000))
  else if off < 0x13000000 then some (sysBase + (off - 0x12000000))
  else none

/-- Every byte of a range lies in a window of system SRAM. -/
def inSys (a n lo hi : Nat) : Bool := decide (sysBase + lo ≤ a) && decide (a + n ≤ sysBase + hi)

/-- The host may write these bytes through BAR4 (R399). -/
def State.bar4May (s : State) (a n : Nat) : Bool :=
  match s.region a, s.region (a + n - 1) with
  | .tileData t _, .tileData _ _ => !s.boundStages.any (fun x => x.tiles.contains t)
  | .broodMem b _, .broodMem c _ => !s.boundStages.any (fun x => x.usesBrood b || x.usesBrood c)
  | .sysMem _, _ => inSys a n 0xfe0000 0xff0000 || inSys a n 0xff8000 0x1000000
  | _, _ => false

def execHostBar2Read (at2 : BarPlace) (len : BitVec 13) (s : State) : Host.Outcome State Fault Refusal :=
  done (onlyIf (s.linkedUp && decide (at2.off.toNat < 2 ^ s.host.bar2Bits)) s (fun s =>
    let a := s.bar2Addr at2.off.toNat
    if a < gddrEnd then s.hostRead a len.toNat at2.edc
    else { s.violHole with host.lastRead := some (zeros len.toNat) }))

def execHostBar2Write (at2 : BarPlace) (data : List Byte) (s : State) : Host.Outcome State Fault Refusal :=
  done (onlyIf (s.linkedUp && decide (at2.off.toNat < 2 ^ s.host.bar2Bits)) s (fun s =>
    let a := s.bar2Addr at2.off.toNat
    if a < gddrEnd then s.hostWrite a data at2.edc else s.violHole))

def execHostBar4Read (off : BitVec 29) (len : BitVec 13) (s : State) : Host.Outcome State Fault Refusal :=
  done (onlyIf s.linkedUp s (fun s =>
    match s.bar4Addr off.toNat with
    | some a => s.hostRead a len.toNat []
    | none => { s.violHole with host.lastRead := some (zeros len.toNat) }))

/-- A write outside the cases of R399 is dropped and counted in HIF_VIOL0.HOLE (R426). -/
def execHostBar4Write (off : BitVec 29) (data : List Byte) (s : State) : Host.Outcome State Fault Refusal :=
  done (onlyIf s.linkedUp s (fun s =>
    match s.bar4Addr off.toNat with
    | some a => if s.bar4May a data.length then s.hostWrite a data [] else s.violHole
    | none => s.violHole))

/-- HOLE_ACCESS: a host access to a hole, to the window of a fused-off unit or of a tile that no slot hosts; an address below the
size of BAR0 is an offset of BAR0 (R15, R395, R601; log entry 2). -/
def State.isHole (s : State) (a : Nat) : Bool :=
  if a < 0x2000000 then
    (if a < 0x1000000 then s.hostHole a
     else if a < 0x1001000 then
       let o := a - 0x1000000
       !(decide (o < 0x18) || (decide (0x100 ≤ o) && decide (o < 0x1c0)))
     else !((decide (0x1800000 ≤ a) && decide (a < 0x1800400)) || (decide (0x1801000 ≤ a) && decide (a < 0x1801008))))
  else match s.region a with
    | .hole => true
    | .regs off => s.hostHole off
    | _ => decide (s.dev.step < 12)

def execHoleAccess (write : Bool) (addr : BitVec 48) (s : State) : Host.Outcome State Fault Refusal :=
  done (onlyIf (s.linkedUp && s.isHole addr.toNat) s (fun s =>
    let s := s.violHole
    if write then s else { s with host.lastRead := some (zeros 4) }))

/-- TLP_ERROR_RECEIVE: a request with an ECRC error (0) or a poisoned one (1) is dropped and logged under AER; a correctable link error (2 or 3)
is only counted and logged (R393, R425, R426). -/
def execTlpErrorReceive (kind : BitVec 2) (s : State) : Host.Outcome State Fault Refusal :=
  done (onlyIf s.linkedUp s (fun s =>
    match kind.toNat with
    | 0 => ((s.cnt F.HIF_PCIE_ERR_ECRC).aerSet 19).raise 160 0x7031 0
    | 1 => ((s.cnt F.HIF_PCIE_ERR_POISON).aerSet 12).raise 160 0x7031 0
    | _ => { s.cnt F.HIF_PCIE_ERR_CORR with host.aerCor := s.host.aerCor ||| 1#32 }))

/-! The link and its resets (R393, R407, R412, R425). -/

/-- HIF_LINK takes new values; a change raises vector 4 (R401). -/
def State.setPcie (s : State) (width speed : Nat) : State :=
  if s.rd F.HIF_LINK_WIDTH = width ∧ s.rd F.HIF_LINK_SPEED = speed then s
  else ((s.wr F.HIF_LINK_WIDTH width).wr F.HIF_LINK_SPEED speed).msix 4

/-- PCIE_LINK_UP: the link has trained to `width` lanes at speed code `speed` (HIF_LINK); narrower or slower than 8 lanes at 16 GT/s
raises 0x7004 (R393, R425, R562). -/
def execPcieLinkUp (width : BitVec 5) (speed : BitVec 3) (s : State) : Host.Outcome State Fault Refusal :=
  done (let w := width.toNat
    let v := speed.toNat
    onlyIf (s.mainUp && (w == 1 || w == 2 || w == 4 || w == 8) && decide (1 ≤ v) && decide (v ≤ 4)) s (fun s =>
      let s := s.setPcie w v
      let s := if s.rd F.HIF_STATE_HOST = 0 then { s.setHost 1 0 with host.upAt := s.tick } else s
      if w < 8 ∨ v < 4 then s.raise 160 0x7004 0 else s))

/-- The link goes down with an event (R407, R412). -/
def State.linkGone (s : State) (code : Nat) : State :=
  (((s.leaveTo 0 code).setPcie 0 0).msixReset).raise 160 code 0

def execPcieLinkLoss (s : State) : Host.Outcome State Fault Refusal :=
  done (onlyIf s.linkIs s (fun s => s.linkGone 0x7005))
def execPerstNAssert (s : State) : Host.Outcome State Fault Refusal := done (onlyIf s.mainUp s (fun s => s.linkGone 0x7006))

/-- Function level reset, hot reset and D3hot put the device into host-absent state (R412). -/
def State.funcReset (s : State) (code : Nat) : State := (s.leaveTo 1 code).raise 160 code 0

def execFunctionLevelReset (s : State) : Host.Outcome State Fault Refusal :=
  done (onlyIf s.linkIs s (fun s => (s.funcReset 0x7006).msixReset))
def execHotReset (s : State) : Host.Outcome State Fault Refusal := done (onlyIf s.linkIs s (fun s => (s.funcReset 0x7006).msixReset))
/-- The function enters D3hot: nothing is reset, since No_Soft_Reset is set (R393, R412). -/
def State.toD3hot (s : State) : State := { s.funcReset 0x7006 with host.d3hot := true }
def execD3hotEntry (s : State) : Host.Outcome State Fault Refusal := done (onlyIf s.linkedUp s State.toD3hot)

/-! Configuration space (R393 to R395, R402). The spec gives what it holds; the offsets of the capabilities are the model's, and a host
configuration request is a REG_WRITE at `cfgBase`, outside the device address map (log entry 23). -/

def cfgBase : Nat := 0x300000000000

/-- The bits of BAR2's size that the resizable BAR capability offers: 256 MiB to 16 GiB (R395). -/
def bar2Sizes : Nat := (List.range' 12 7).foldl (fun m k => m + 2 ^ k) 0

/-- The 32-bit word at an offset of configuration space. -/
def State.cfgRead (s : State) (off : Nat) : Nat :=
  let h := s.host
  match off with
  | 0x00 => 0x1F8E + 0x10000 * (if s.fuses.variantB then 0x1024 else 0x2048)
  | 0x04 => 2 + 4 * b2n h.busMaster + 0x100000
  | 0x08 => 0x12000000 + s.fuses.step
  | 0x10 => 4
  | 0x18 => 12
  | 0x20 => 12
  | 0x2c => s.dev.subsys
  | 0x34 => 0x40
  | 0x40 => 0x5001
  | 0x44 => 8 + 3 * b2n h.d3hot
  | 0x50 => 0x3f7011 + 2 ^ 30 * b2n h.msixMask + 2 ^ 31 * b2n h.msixEn
  | 0x54 => 0x1800000
  | 0x58 => 0x1801000
  | 0x70 => 0x10
  | 0x80 => 0x10000 * (s.rd F.HIF_LINK_SPEED + 16 * s.rd F.HIF_LINK_WIDTH)
  | 0x100 => 0x14020001
  | 0x104 => h.aerUnc.toNat
  | 0x110 => h.aerCor.toNat
  | 0x118 => 0x1e0
  | 0x140 => 0x15010003
  | 0x144 => s.fuses.serial.toNat % 2 ^ 32
  | 0x148 => s.fuses.serial.toNat / 2 ^ 32
  | 0x150 => 0x10015
  | 0x154 => bar2Sizes
  | 0x158 => 2 + 0x20 + 256 * (h.bar2Bits - 20)
  | _ => 0

/-- A write of a 32-bit word of configuration space: Bus Master Enable, the power state, the MSI-X function mask and enable, the AER status
(write 1 to clear) and the size of BAR2; any other bit is read-only. -/
def State.cfgWrite (s : State) (off : Nat) (v : BitVec 32) : State :=
  match off with
  | 0x04 => ({ s with host.busMaster := v.getLsbD 2 }).sendPend
  | 0x44 =>
    if v.toNat % 4 = 3 then (if s.host.d3hot then s else s.toD3hot)
    else if v.toNat % 4 = 0 then { s with host.d3hot := false }
    else s
  | 0x50 => ({ s with host.msixMask := v.getLsbD 30, host.msixEn := v.getLsbD 31 }).sendPend
  | 0x104 => { s with host.aerUnc := s.host.aerUnc &&& ~~~ v }
  | 0x110 => { s with host.aerCor := s.host.aerCor &&& ~~~ v }
  | 0x158 =>
    let k := v.toNat / 256 % 64 + 20
    if 28 ≤ k ∧ k ≤ 34 then { s with host.bar2Bits := k } else s
  | _ => s

/-- The 32-bit word that a host read of BAR0 answers: block registers, the MSI-X table, the pending bit array; doorbells and holes read 0 (R395,
R402, R403). -/
def State.bar0Word (s : State) (off : Nat) : Nat :=
  if off < 0x1000000 then (if s.hostHole off then 0 else s.readReg off)
  else if 0x1800000 ≤ off ∧ off < 0x1800400 then (s.msixWord ((off - 0x1800000) / 4)).toNat
  else if 0x1801000 ≤ off ∧ off < 0x1801008 then s.host.pend.toNat / 2 ^ (8 * (off - 0x1801000)) % 2 ^ 32
  else 0

/-- `n` bytes of BAR0: an access wider than a register is one of each register in ascending order, a narrower one answers the addressed bytes
(R7). -/
def State.bar0Read (s : State) (off n : Nat) : List Byte :=
  (List.range n).map (fun i => BitVec.ofNat 8 (s.bar0Word ((off + i) / 4 * 4) / 2 ^ (8 * ((off + i) % 4))))

/-! Doorbells (R402, R403). Until step 12 the doorbell page is handled as a hole (R562); in host-absent state every doorbell except
DB_HB is ignored. -/

/-- A doorbell write reaches its rule. -/
def State.doorbell (s : State) (f : State → State) : State :=
  if !s.linkedUp then s else if s.dev.step < 12 then s.violHole else if s.attached then f s else s

/-- A rejected doorbell value (R602). -/
def State.violIndex (s : State) : State := s.cnt F.HIF_VIOL1_INDEX

/-- DB_CMD: the new producer index is from 1 to N beyond the old one and at most N beyond CONS. -/
def execDbCmd (v : BitVec 32) (s : State) : Host.Outcome State Fault Refusal :=
  done (s.doorbell (fun s =>
    let n := s.ringN 0
    let d := (v.toNat + 2 ^ 32 - s.rd F.HIF_RING_PROD_PROD 0) % 2 ^ 32
    let u := (v.toNat + 2 ^ 32 - s.rd F.HIF_RING_CONS_CONS 0) % 2 ^ 32
    if 1 ≤ d ∧ d ≤ n ∧ u ≤ n then
      { s.wr F.HIF_RING_PROD_PROD v.toNat 0 with host.cmdFull := s.host.cmdFull || u == n }
    else s.violIndex))

/-- A consumer doorbell of ring `r`: it is accepted up to PROD, and it re-arms the ring's vectors. -/
def State.consume (s : State) (r : Nat) (v : BitVec 32) (arm : BitVec 64) : State :=
  s.doorbell (fun s =>
    if (v.toNat + 2 ^ 32 - s.rd F.HIF_RING_CONS_CONS r) % 2 ^ 32 ≤ s.ringUsed r then
      let s := (s.wr F.HIF_RING_CONS_CONS v.toNat r).rearm arm
      if r = 1 then s.releaseHolds else s
    else s.violIndex)

def execDbCpl (v : BitVec 32) (s : State) : Host.Outcome State Fault Refusal := done (s.consume 1 v 0xffffffffffffff01#64)
def execDbEvt (v : BitVec 32) (s : State) : Host.Outcome State Fault Refusal := done (s.consume 2 v 2#64)
def execDbLog (v : BitVec 32) (s : State) : Host.Outcome State Fault Refusal := done (s.consume 3 v 4#64)
def execDbTrc (v : BitVec 32) (s : State) : Host.Outcome State Fault Refusal := done (s.consume 4 v 8#64)

/-- DB_HB: counted always; while attached it restarts the heartbeat (R403, R410). -/
def execDbHb (_v : BitVec 32) (s : State) : Host.Outcome State Fault Refusal :=
  done (if !s.linkedUp then s
    else if s.dev.step < 12 then s.violHole
    else
      let s := s.cnt F.HIF_HEARTBEAT_COUNT
      if s.attached then { s with host.hbAt := s.tick } else s)

/-- DB_TENSOR: an entry that host software has filled becomes the stream's last good entry; beyond stream 47 the page is a hole (R16, R403, R420). -/
def execDbTensor (n : BitVec 6) (v : BitVec 32) (s : State) : Host.Outcome State Fault Refusal :=
  done (if 48 ≤ n.toNat then (if s.linkedUp then s.violHole else s) else s.doorbell (fun s =>
    let n := n.toNat
    let e := v.toNat % 16
    let x := s.strm n
    let good := match x.last with
      | some l => l.1 == e
      | none => false
    if x.desc.en && x.desc.hostPre && decide (e < x.desc.nslot) && !good && !s.entryHeld n e then
      let s := s.modStrm n (fun x => { x with used := x.used.filter (fun y => y != e) ++ [e] })
      (s.loadTimer n).admitSample n { entry := e, stamp := s.tick }
    else s.violIndex))

/-! Attach (R408 to R411). -/

/-- HIF_ATTACH.DETACH enters host-absent state (R407, R426). -/
def State.detach (s : State) : State := if s.attached then s.leaveTo 1 0 else s

/-- An accepted START (R409). -/
def State.attach (s : State) : State :=
  let s := s.wr F.HIF_RING_CONS_CONS (s.rd F.HIF_RING_PROD_PROD 0) 0
  let s := (s.cnt F.HIF_ATTACH_STATUS_ATTACH_ID).wr F.HIF_ATTACH_STATUS_RESULT 1
  let s := { s with host.armed := 0xffffffffffffffff#64, host.hbAt := s.tick, host.cmdFull := false, host.attachAt := s.tick }
  (s.setHost 2 0x7003).raise 160 0x7003 0

/-- HIF_ATTACH.START: while attached a detach comes first; a different major version is refused with 0x7002 (R408, R409). -/
def execHifAttachStart (s : State) : Host.Outcome State Fault Refusal :=
  done (onlyIf s.linkedUp s (fun s =>
    let s := s.detach
    if s.rd F.HIF_HOST_VER_MAJOR = s.rd F.HIF_IFVER_MAJOR then s.attach
    else (s.wr F.HIF_ATTACH_STATUS_RESULT 2).raise 160 0x7002 0))

def execHifAttachDetach (s : State) : Host.Outcome State Fault Refusal := done (onlyIf s.linkedUp s State.detach)

/-- HIF_STATE_READ re-arms vectors 4 and 5 (R402). -/
def execHifStateRead (s : State) : Host.Outcome State Fault Refusal :=
  done (onlyIf s.linkedUp s (fun s => { s.rearm 0x30#64 with host.lastRead := some (s.bar0Read 0x6b0004 4) }))

/-- HEARTBEAT_TIMEOUT: 120 ms ± 0.1 ms without DB_HB while attached (R410). -/
def execHeartbeatTimeout (s : State) : Host.Outcome State Fault Refusal :=
  done (onlyIf (s.attached && decide (s.host.hbAt + (ms 120 - us 100) ≤ s.tick)) s (fun s =>
    (s.leaveTo 1 0x7001).raise 160 0x7001 0))

/-- HIF_CTRL.CLR_CNT (R426). -/
def execHifClrCnt (s : State) : Host.Outcome State Fault Refusal :=
  done (s.clearFlds [F.HIF_LOSS0_CPL, F.HIF_LOSS0_EVT, F.HIF_LOSS1_LOG, F.HIF_LOSS1_TRC, F.HIF_VIOL0_RO_WRITE, F.HIF_VIOL0_HOLE,
    F.HIF_VIOL1_SUBWORD, F.HIF_VIOL1_TAG, F.HIF_VIOL1_INDEX, F.HIF_PCIE_ERR_ECRC, F.HIF_PCIE_ERR_POISON, F.HIF_PCIE_ERR_CA,
    F.HIF_PCIE_ERR_CORR])

end Sys2Proof.Machine
end

