-- ==== Sys2Proof/Machine/Commands.lean ====
section
/-! DEFINITION. The ends of host commands: completion entries, NOP, self-test requests (R414, R415, R520). -/
namespace Sys2Proof.Machine

/-! Commands that wait (R414). -/

/-- The command with a tag is waiting. -/
def State.waiting? (s : State) (tag : Nat) : Option Waiting := s.host.waiting.find? (fun w => w.cmd.tag == tag)

/-- Write the completion entry of a command that is no longer waiting (R415). -/
def State.cmdEntry (s : State) (w : Waiting) (status detail : Nat) : State :=
  let c := w.cmd
  let a := c.a.toNat
  let s := s.trace 0x31 0 [c.op, c.tag, status, s.tick - w.since]
  s.complete { kind := 3, tag := c.tag, status := status,
               pipe := if c.op = 1 then bitsOf a 13 8 else if c.op = 5 then a % 64 else 255,
               stage := if c.op = 1 then a % 256 else 255, frame := if c.op = 1 then c.b.toNat % 2 ^ 32 else 0,
               detail := detail }

/-- Remove a waiting command and write its completion. -/
def State.endWaiting (s : State) (w : Waiting) (status detail : Nat) : State :=
  ({ s with host.waiting := delFirst (fun x => x.cmd.tag == w.cmd.tag) s.host.waiting }).cmdEntry w status detail

/-- The NOPs that no earlier command precedes. -/
def readyNops : List Waiting → List Waiting
  | [] => []
  | w :: r => if w.cmd.op = 12 then w :: readyNops r else []

/-- NOPs complete when every earlier command other than SUBMIT has completed (R414). -/
def State.settleNops (s : State) : State := s.each (readyNops s.host.waiting) (fun s w => s.endWaiting w 0 0)

/-- A waiting command completes (R414). -/
def State.endCmd (s : State) (tag status detail : Nat) : State :=
  match s.waiting? tag with
  | some w => (s.endWaiting w status detail).settleNops
  | none => s

/-- A command is refused with an event of the host interface (R425). -/
def State.refuseCmd (s : State) (tag code detail : Nat) : State := (s.raise 160 code 0).endCmd tag code detail

/-! Self-test requests (R520). -/

/-- A pending request ends with a status. -/
def State.endReq (s : State) (r : SelfTestReq) (status : Nat) : State :=
  let p : SelfTestReq → Bool := fun q => q.tag == r.tag && q.sel == r.sel
  if s.chk.reqs.any p then ({ s with chk.reqs := delFirst p s.chk.reqs }).endCmd r.tag status 0 else s

/-- The pending request of a kind for a unit. -/
def State.req? (s : State) (sel row unit : Nat) : Option SelfTestReq :=
  s.chk.reqs.find? (fun r => r.sel == sel && r.row == row && r.unit == unit)

/-- A brood test that is not done within LFI ends with 0x2043 (R520). -/
def State.lateReqs (s : State) : State :=
  s.each (s.chk.reqs.filter (fun r => r.sel == 1 && decide (r.since + s.lfi < s.tick))) (fun s r => s.endReq r 0x2043)

/-- A slot of a brood has passed a spare test that began at `from`: the brood's request advances (R520). -/
def State.reqPass (s : State) (b slot start : Nat) : State :=
  match s.req? 1 0 b with
  | none => s
  | some r =>
    if start < r.since then s
    else
      let d := if r.done.contains slot then r.done else slot :: r.done
      if (s.goodSlots b).all (fun p => d.contains p) then s.endReq r 0
      else { s with chk.reqs := updFirst (fun q => q.tag == r.tag) (fun (q : SelfTestReq) => { q with done := d }) s.chk.reqs }

/-- A spare test of a brood has failed: its request ends with the failure code. -/
def State.reqFail (s : State) (b code : Nat) : State :=
  match s.req? 1 0 b with
  | some r => s.endReq r code
  | none => s

end Sys2Proof.Machine
end

