-- ==== Sys2Proof/Machine/Objects.lean ====
section
/-! DEFINITION. Signed objects and their verification (R525 to R533, R539). The outcomes of the signature primitives are the
command's operands (log entry 6). -/
namespace Sys2Proof.Machine

/-- Bytes of the payload padded to a multiple of 64 (R527). -/
def objPadded (o : List Byte) : Nat := (fieldAt o 24 8 + 63) / 64 * 64
def objType (o : List Byte) : Nat := fieldAt o 5 1
def objHier (o : List Byte) : Nat := fieldAt o 6 1
def objSigned (o : List Byte) : Bool := bitOf (fieldAt o 7 1) 0
def objVersion (o : List Byte) : Nat := fieldAt o 8 4
def objSvn (o : List Byte) : Nat := fieldAt o 12 4
def objDevice (o : List Byte) : Nat := fieldAt o 32 8
def objDigest (o : List Byte) : List Byte := bytesAt o 40 48
def objPayload (o : List Byte) : List Byte := bytesAt o 128 (fieldAt o 24 8)
/-- The key certificate (R528). -/
def objCert (o : List Byte) : List Byte := bytesAt o (128 + objPadded o) 17504
def certPurpose (c : List Byte) (type : Nat) : Bool := bitOf (fieldAt c 8 4) type
def certKeySvn (c : List Byte) : Nat := fieldAt c 12 4
def certRoot (c : List Byte) : List Byte := bytesAt c 16 436

/-- Length that the layout gives an object (R527). -/
def objLength (o : List Byte) : Nat := 128 + objPadded o + (if objSigned o then 17504 + 384 + 16224 else 0)

/-- Magic, format, reserved fields, lengths and padding (R527); the certificate's where it is used (R528). -/
def objLayoutOk (o : List Byte) (type : Nat) (certUsed : Bool) : Bool :=
  let z := fun off n => (bytesAt o off n).all (fun b => b == 0#8)
  let c := objCert o
  decide (128 ≤ o.length) && fieldAt o 0 4 == 0x424F5351 && fieldAt o 4 1 == 1 && objType o == type && decide (objHier o ≤ 1) &&
  decide (fieldAt o 7 1 ≤ 1) && z 20 4 && z 88 40 && decide (1 ≤ fieldAt o 24 8) && decide (fieldAt o 24 8 < 2 ^ 32) &&
  o.length == objLength o && z (128 + fieldAt o 24 8) (objPadded o - fieldAt o 24 8) &&
  (!certUsed || !objSigned o ||
    (fieldAt c 0 4 == 0x59454B51 && (bytesAt c 5 3).all (fun b => b == 0#8) && (bytesAt c 888 8).all (fun b => b == 0#8)))

/-- The hierarchy is permitted for a type (R529, R533). -/
def State.hierOk (s : State) (type hier : Nat) : Bool :=
  match type with
  | 1 => !s.fuses.ownerLock || hier == 1
  | 7 => !s.fuses.ownerLock || hier == 1
  | 8 => hier == s.cfg.vmode
  | 9 => hier == b2n s.fuses.ownerLock
  | 10 => !s.fuses.ownerLock
  | _ => hier == 0

/-- The counter of a type, 0 for a type without one (R532). -/
def State.svnCounter (s : State) (type : Nat) : Nat := if 1 ≤ type ∧ type ≤ 8 then (s.prsForce (0x107 + type)).toNat else 0

/-- The procedure of R530 on an object's bytes: 0, or the code of the failing step. `sig` says that all four signatures verify. -/
def State.verifyBytes (s : State) (o : List Byte) (type : Nat) (sig : Bool) : Nat :=
  let digestOnly := type == 8 && s.cfg.vmode == 2
  let c := objCert o
  let root := if type = 10 then sha384 (objPayload o) else if objHier o = 0 then s.fuses.pratharRoot else s.fuses.ownerRoot
  if !objLayoutOk o type (!digestOnly) then 0xA001
  else if objDevice o ≠ 0 ∧ objDevice o ≠ s.fuses.serial.toNat then 0xA005
  else if sha384 (objPayload o) ≠ objDigest o then 0xA002
  else if digestOnly then 0
  else if !objSigned o then (if type = 8 then 0xA003 else 0xA001)
  else if !s.hierOk type (objHier o) || root.all (fun b => b == 0#8) || sha384 (certRoot c) != root || fieldAt c 4 1 != objHier o ||
      !certPurpose c type then 0xA003
  else if certKeySvn c < (s.prsForce (0x110 + objHier o)).toNat then 0xA004
  else if !sig then 0xA003
  else if objSvn o < s.svnCounter type then 0xA004
  else 0

/-- Count an object's verification in SEC_VERIFY; a refused one raises its code (R549, R605). -/
def State.countVerify (s : State) (type code : Nat) : State :=
  if code = 0 then s.cnt F.SEC_VERIFY_PASS else (s.cnt F.SEC_VERIFY_FAIL).raise 165 code type

/-- An operation of SEC_OP ends with a result (R551). -/
def State.secEnds (s : State) (result : Nat) : State :=
  ({ s with sec.op := 0, sec.report := [] }.wr F.SEC_OP_STATUS_BUSY 0).wr F.SEC_OP_STATUS_RESULT result

/-- The security core reads the object at `addr` and verifies it: the code, and the object. An object that verifies but fails what its
use asks of its content, `more`, is refused with `refusal` (R526, R530, R538, R539). -/
def State.verifyFor (s : State) (type addr len : Nat) (sig : Bool) (more : List Byte → Bool) (refusal : Nat) : Nat × List Byte × State :=
  match s.busRead mSec addr len with
  | (.ok, o, s) =>
    let v := s.verifyBytes o type sig
    let c := if v = 0 ∧ !more o then refusal else v
    (c, o, s.countVerify type c)
  | (.bad, _, s) => (0xA006, [], s.countVerify type 0xA006)
  | (.hole, _, s) => (0xA001, [], s.countVerify type 0xA001)
def State.verifyObject (s : State) (type addr len : Nat) (sig : Bool) : Nat × List Byte × State :=
  s.verifyFor type addr len sig (fun _ => true) 0

/-- A measurement (R535). -/
def measure (type slot how version svn : Nat) (digest : List Byte) : List Byte :=
  natLe 1 type ++ natLe 1 slot ++ natLe 1 how ++ natLe 1 0 ++ natLe 4 version ++ natLe 4 svn ++ natLe 4 0 ++ bytesAt digest 0 48

end Sys2Proof.Machine
end

