-- ==== Sys2Proof/Machine/MemCmds.lean ====
section
/-! DEFINITION. Device memory and on-chip memory as commands: reads and writes of a master, corrective writes, check lines, refresh,
retraining, scrubs and error injection (R371 to R390). -/
namespace Sys2Proof.Machine

/-! What a failed access does to its master (R374, R375, R381, R432). -/

/-- The stream whose open frame lies in the ring entry that holds an address. -/
def State.openFrameAt (s : State) (a : Nat) : Option Nat :=
  (List.range 48).find? (fun n =>
    let d := (s.strm n).desc
    match (s.strm n).cur with
    | some c => decide (d.entry c.entry ≤ a) && decide (a < d.entry c.entry + d.bufStride)
    | none => false)

/-- The command that is to read the bytes at an address: a LOAD whose object is being verified, or any whose ADDR range holds it (R432). -/
def State.readingCmd (s : State) (a : Nat) : Option Waiting :=
  s.host.waiting.find? (fun w => (w.cmd.op != 2 || w.stage == 1) && [2, 8, 9, 11].contains w.cmd.op &&
    decide (w.cmd.b.toNat ≤ a) && decide (a < w.cmd.b.toNat + Nat.max 64 w.cmd.a.toNat))

/-- The oldest open frame of the pipeline with a stage of the model whose region holds an address. -/
def State.frameReading (s : State) (a : Nat) : Option (Nat × Frame) :=
  s.sched.pipes.findSome? (fun x =>
    if x.desc.stages.any (fun n => match (s.binding? n).bind (fun b => s.modelIn b.slot) with
      | some m => decide (m.regionAt ≤ a) && decide (a < m.regionAt + m.regionBytes)
      | none => false)
    then x.frames.head?.map (fun f => (x.desc.num, f)) else none)

/-- The security block fails the operation of SEC_OP or the verification in progress with 0xA006 (R432, R538, R539, R551). -/
def State.secAccessFails (s : State) : State :=
  if s.sec.op = 1 then (s.secEnds 0xA006).raise 165 0xA006 0
  else if s.sec.op = 2 then (s.countVerify 10 0xA006).secEnds 0xA006
  else if s.sec.op = 4 then
    (({ s.countVerify 9 0xA006 with sec.chalAt := none, sec.nonce := [] }).secEnds 0xA006).raise 165 0xA012 9
  else match s.host.waiting.find? (fun w => w.cmd.op == 2 && w.stage == 1) with
    | some w => (s.countVerify 8 0xA006).endCmd w.cmd.tag 0xA006 0
    | none => s

/-- What a failed access at an address does to its master (R374). A DMA marks its part, a resampler fails its part, a warp or JPEG XS engine
resets and loses its frame, an open frame of the intake breaks, the host gets Completer Abort or its write is dropped, a dispatch core ends the
command that made the access, the sequencer withholds the frame, the security block fails its operation (R432). The controller's own accesses
have no such reader. -/
def State.masterFails (s : State) (m code a : Nat) : State :=
  if m < 0x800 then s.markPart m code
  else if m < 0x880 then
    match s.rspJob (m - 0x800) with
    | some j => (s.failPart j.id (m - 0x800) code true).checkJob j.id
    | none => s
  else if 0x900 ≤ m ∧ m < 0x904 then s.warpReset (m - 0x900)
  else if m = 0x910 ∨ m = 0x911 then s.jxsBufferError (m - 0x910)
  else if m = mIntake then
    match s.openFrameAt a with
    | some n => s.breakFrame n
    | none => s
  else if m = mHost then s.completerAbort a
  else if 0x940 ≤ m ∧ m < 0x944 then
    match s.readingCmd a with
    | some w => s.endCmd w.cmd.tag 0x4002 0
    | none => s
  else if m = mSeq then
    match s.frameReading a with
    | some (p, f) => (s.withhold p f 0x1F01).settleArbs.kickJobs
    | none => s
  else if m = mSec then s.secAccessFails
  else s

/-- MEM_READ: hardware errors strike the stored sectors, the read returns and every sector is decoded (R371, R374, R375, R381). `edc` lists the
CRC mismatches of each granule. -/
def execMemRead (master : BitVec 12) (addr : BitVec 34) (len : BitVec 13) (flips : List (BitVec 272)) (edc : List (BitVec 2)) (s : State) :
    Host.Outcome State Fault Refusal :=
  let m := master.toNat
  let a := addr.toNat
  let n := len.toNat
  done (onlyIf (decide (0 < n) && decide (a + n ≤ gddrEnd)) s (fun s =>
    let s := s.each flips.zipIdx (fun s f => if (a / 32 + f.2) * 32 < a + n then s.hitSec (a / 32 + f.2) f.1 else s)
    match s.memRead m a n edc with
    | (some _, s) => s
    | (none, s) => s.masterFails m 0x4002 a))

/-- MEM_WRITE_COMMIT: the write of a master commits part by part, merging partial sectors; a part may fail with 0x4005 or 0x4021 (R375, R376,
R380, R381). -/
def execMemWriteCommit (master : BitVec 12) (addr : BitVec 34) (data : List Byte) (edc : List (BitVec 2)) (s : State) :
    Host.Outcome State Fault Refusal :=
  let m := master.toNat
  let a := addr.toNat
  done (onlyIf (decide (data ≠ []) && decide (a + data.length ≤ gddrEnd)) s (fun s =>
    match s.memWrite m a data edc with
    | (none, s) => s
    | (some e, s) => s.masterFails m e.1 e.2))

/-- CORRECTIVE_WRITE: the first queued corrected sector is rewritten in one locked access (R373, R380). -/
def execCorrectiveWrite (ch : BitVec 3) (s : State) : Host.Outcome State Fault Refusal :=
  let c := ch.toNat
  done (match (s.chan c).corr with
    | [] => s
    | sec :: r =>
      let s := s.modChan c (fun x => { x with corr := r })
      match s.decodeSec sec with
      | (.bad, _) => s.memFirst c 4 mCtl (32 * sec)
      | (.clean, _) => s
      | (_, d) => (s.cacheTouch (mapAddress (32 * sec)) true).storeSec sec d)

/-! Check lines (R377, R378). -/

/-- CHECK_LINE_EVICT: the least recently used dirty line leaves the cache, written back, or found uncorrectable (R377, R378). `bad` says that a
word of it is struck by an error of two bits. -/
def execCheckLineEvict (ch : BitVec 3) (bad : Bool) (s : State) : Host.Outcome State Fault Refusal :=
  let c := ch.toNat
  done (match ((s.chan c).cache.filter (·.dirty)).getLast? with
    | none => s
    | some l =>
      let s := if bad then
          { s with mem.sram := FMap.set {} s.mem.sram (chkWord c l.line l.way 0) { bits := 2, mask := 3#72 } }
        else s
      s.evictLine c l)

/-! Refresh and retraining (R382 to R385). -/

/-- The next row of every bank of a channel is refreshed (R383). -/
def MemChan.refresh (x : MemChan) : MemChan := { x with refRow := (x.refRow + 1) % 32768 }

/-- REFRESH_DUE: the next rows are refreshed, per bank (R383). -/
def execRefreshDue (ch : BitVec 3) (s : State) : Host.Outcome State Fault Refusal := done (s.modChan ch.toNat MemChan.refresh)

/-- RETRAIN_DUE: the memory device's temperature is known; a move by 8 °C or 250 ms make the channel due (R383, R384). -/
def execRetrainDue (ch : BitVec 3) (temp : BitVec 8) (s : State) : Host.Outcome State Fault Refusal :=
  let c := ch.toNat
  let t := temp.toInt
  let s := (s.wr F.MEM_STATUS_TEMP temp.toNat c).wrB F.MEM_STATUS_REF_X2 (decide (85 < t)) c
  let x := s.chan c
  done (if x.trained && (decide (8 ≤ t - x.trainTemp) || decide (8 ≤ x.trainTemp - t) || decide (x.trainAt + ms 250 ≤ s.tick)) then s.makeDue c
    else s)

/-- The channel may take the next window: due, the lowest such channel, 100 µs after the last window, and granted or overdue in
host-paced training (R384, R385). -/
def State.mayTrain (s : State) (c : Nat) : Bool :=
  let ok := fun i => (s.chan i).dueAt.isSome && (!s.modes.memtrain || s.rdB F.MEM_TRAIN_GRANT i || (s.chan i).overdue)
  ok c && (List.range c).all (fun i => !ok i) &&
    (List.range 8).all (fun i => (s.chan i).winAt == 0 || decide ((s.chan i).winAt + us 100 ≤ s.tick))

/-- RETRAIN_WINDOW: an all-bank refresh and one training; the second consecutive failure raises 0x4009 (R383, R384). A self-test
request for the channel ends with it (R520). -/
def execRetrainWindow (ch : BitVec 3) (ok : Bool) (s : State) : Host.Outcome State Fault Refusal :=
  let c := ch.toNat
  done (onlyIf (s.mayTrain c) s (fun s =>
    let t := (BitVec.ofNat 8 (s.rd F.MEM_STATUS_TEMP c)).toInt
    let s := (s.wr F.MEM_TRAIN_GRANT 0 c).modChan c (fun x => { x.refresh with winAt := s.tick, overdue := false })
    let s := if ok then
        ((s.cnt F.MEM_TRAIN_COUNT c).wr F.MEM_TRAIN_DUE 0 c).modChan c (fun x =>
          { x with dueAt := none, trainAt := s.tick, trainTemp := t, failRun := 0 })
      else if (s.chan c).failRun = 0 then s.modChan c (fun x => { x with failRun := 1 })
      else (s.modChan c (fun x => { x with failRun := 0 })).raiseMem c 0x4009 mCtl 0 5
    match s.req? 2 0 c with
    | some r => s.endReq r (if ok then 0 else 0x4009)
    | none => s))

/-- TRAIN_GRANT_TIMEOUT: a channel has been due for 1 s without a grant (R385). -/
def execTrainGrantTimeout (ch : BitVec 3) (s : State) : Host.Outcome State Fault Refusal :=
  let c := ch.toNat
  done (match (s.chan c).dueAt with
    | some t => onlyIf (s.modes.memtrain && decide (t + ms 1000 ≤ s.tick) && !s.rdB F.MEM_TRAIN_GRANT c && !(s.chan c).overdue) s (fun s =>
        ((s.cnt F.MEM_TRAIN_OVERDUE c).raiseMem c 0x400A mCtl 0 5).modChan c (fun x => { x with overdue := true }))
    | none => s)

/-- MEM_TRAIN_GRANT: permits one host-paced training; ignored in autonomous mode. Before the running state it grants the initial
training (R382, R385). -/
def execMemTrainGrant (ch : BitVec 3) (s : State) : Host.Outcome State Fault Refusal :=
  done (onlyIf (s.modes.memtrain || s.dev.step != 12) s (fun s => s.wr F.MEM_TRAIN_GRANT 1 ch.toNat))

/-! Scrubs (R387, R389, R390). -/

/-- The sector at a position of a channel's scrub order: ascending local address, pseudo-channel 0 first (R387; log entry 21). -/
def scrubSector (c pos : Nat) : Nat := unmapAddress (2 * c + pos % 2) (pos / 2 * 32) / 32
/-- Data sectors of a channel: an eighth of device memory (R364). -/
def chanSectors : Nat := gddrEnd / 32 / 8

/-- The scrub period in minutes: 15 to 1,440, other values acting as the nearest limit (R392). -/
def State.scrubMinutes (s : State) (c : Nat) : Nat := Nat.max 15 (Nat.min 1440 (s.rd F.MEM_SCRUB_PERIOD c))
/-- Device ticks from one sector of the patrol to the next: the period shared out evenly among the channel's sectors, and never less than 1 µs
(R387; log entry 21). -/
def State.scrubStep (s : State) (c : Nat) : Nat := Nat.max (us 1) (s.scrubMinutes c * ms 60000 / chanSectors)

/-- SCRUB_READ: the next sector of the patrol is read, written back where corrected, counted where uncorrectable (R387). -/
def execScrubRead (ch : BitVec 3) (flip : BitVec 272) (s : State) : Host.Outcome State Fault Refusal :=
  let c := ch.toNat
  let pos := (s.chan c).scrubPos
  let sec := scrubSector c pos
  done (onlyIf (decide ((s.chan c).scrubAt + s.scrubStep c ≤ s.tick)) s (fun s =>
  let s := (s.hitSec sec flip).cacheTouch (mapAddress (32 * sec)) false
  let s := match s.decodeSec sec with
    | (.clean, _) => s
    | (.bad, _) => ((s.cnt F.MEM_SCRUB_ERR_UNCORR c).memFirst c 3 mCtl (32 * sec)).raiseMem c 0x4003 mCtl (32 * sec) 0
    | (_, d) => ((s.cnt F.MEM_SCRUB_ERR_CORR c).raiseMem c 0x4001 mCtl (32 * sec) 0).cacheTouch (mapAddress (32 * sec)) true
        |>.storeSec sec d
  let s := if pos + 1 = chanSectors then s.cnt F.MEM_SCRUB_PASSES c else s
  s.modChan c (fun x => { x with scrubPos := (pos + 1) % chanSectors, scrubAt := s.tick })))

/-- Bits that are set in a word of 72 bits. -/
def popcount72 (v : BitVec 72) : Nat := (List.range 72).countP (fun i => v.getLsbD i)

/-- Hardware errors strike an SRAM word. -/
def State.hitWord (s : State) (w : Nat) (flip : BitVec 72) : State :=
  if flip = 0#72 then s else
    let e := FMap.get {} s.mem.sram w
    let m := e.mask ^^^ flip
    { s with mem.sram := FMap.set {} s.mem.sram w (if m = 0#72 then {} else { e with mask := m, bits := popcount72 m }) }

/-- The dirty check line that holds an SRAM word, which is lost where the word is found uncorrectable (R378, R388). -/
def State.scrubLost (s : State) (w : Nat) : State :=
  let c := (w - chkBase) / 0x10000
  if !inChk w then s
  else match (s.chan c).cache.find? (fun l => l.line % 256 * 8 + l.way == (w - chkBase) % 0x10000 / 32) with
    | some l => if l.dirty then (s.dropLine c l.line).loseLine c l.line else s
    | none => s

/-- SRAM_SCRUB_WORD: a scrubber reads the word at `addr`: corrected and written back, or counted and raised the first time it is
found uncorrectable (R388 to R390). Words of the check-symbol caches have addresses of the model's own (log entry 21). -/
def execSramScrubWord (addr : BitVec 48) (flip : BitVec 72) (s : State) : Host.Outcome State Fault Refusal :=
  let w := addr.toNat / 8 * 8
  done (onlyIf (inChk w || (decide (gddrEnd ≤ w) && s.oneRegion w 8)) s (fun s =>
    let s := s.hitWord w flip
    let e := FMap.get {} s.mem.sram w
    if e.bits = 0 then s
    else if e.bits = 1 then { ((s.cnt F.MEM_SRAM_ECC_CORR).raiseSram w 0x4010 mCtl) with mem.sram := FMap.set {} s.mem.sram w {} }
    else if e.seen then s
    else ({ (((s.cnt F.MEM_SRAM_ECC_UNCORR).sramFirst w).raiseSram w 0x4011 mCtl) with
             mem.sram := FMap.set {} s.mem.sram w { e with seen := true } } : State).scrubLost w))

/-! Injection and counters (R392). -/

/-- MEM_INJ_ARM: refused, as a violation, on a safety-capable device with a running pipeline, or where the error names nothing. -/
def execMemInjArm (ch : BitVec 3) (s : State) : Host.Outcome State Fault Refusal :=
  let c := ch.toNat
  done (if (s.rdB F.HIF_ID_SAFETY && s.anyRunning) || s.rd F.MEM_INJ_VALUE c == 0 || decide (67 < s.rd F.MEM_INJ_POS c) then s.violation
    else s.wr F.MEM_INJ_ARM 1 c)

/-- MEM_CLR_CNT. -/
def execMemClrCnt (ch : BitVec 3) (s : State) : Host.Outcome State Fault Refusal :=
  let c := ch.toNat
  let s := s.clearFlds [F.MEM_ECC_CORR, F.MEM_ECC_UNCORR, F.MEM_SCRUB_ERR_CORR, F.MEM_SCRUB_ERR_UNCORR, F.MEM_EDC_RETRY, F.MEM_EDC_FAIL,
    F.MEM_EDC_FORCED, F.MEM_CACHE_HITS, F.MEM_CACHE_MISSES, F.MEM_FIRST1_VALID] c
  done (if c = 0 then s.clearFlds [F.MEM_SRAM_ECC_CORR, F.MEM_SRAM_ECC_UNCORR, F.MEM_SRAM_FIRST0_VALID] else s)

end Sys2Proof.Machine
end

