-- ==== Sys2Proof/Machine/Rotation.lean ====
section
/-! DEFINITION. Spare tests, moves, in-place and shared test slices, ages, reruns and the TIL_ and BRD_ controls
(R70 to R86, R501, R512 to R520). -/
namespace Sys2Proof.Machine

/-! Gaps (R71, R264, R514, R515). -/

/-- Gap records of the resident models. -/
def State.gaps (s : State) : List Gap := (s.sched.models.map (·.gaps)).flatten
/-- A declared gap of a running pipeline on brood `b` is open and has `need` ticks left. -/
def State.gapOpen (s : State) (b need : Nat) : Bool :=
  s.gaps.any (fun g => g.brood == b && (match s.pipe? g.pipe with
    | some p => p.running && decide (p.boundaryAt + g.offset ≤ s.tick) && decide (s.tick + need ≤ p.boundaryAt + g.offset + g.length)
    | none => false))
/-- No running pipeline names the brood and no host job is in flight on it (R71). -/
def State.broodFree (s : State) (b : Nat) : Bool :=
  !s.broodNamed b && !s.sched.jobs.any (fun j => j.host && (match s.jobStage j with
    | some x => x.usesBrood b
    | none => false))
/-- The brood is in a qualifying gap with `need` ticks left. -/
def State.inGap (s : State) (b need : Nat) : Bool := s.gapOpen b need || s.broodFree b
/-- The logical tile runs no job, and no slice of it runs. -/
def State.tileIdle (s : State) (t : Nat) : Bool :=
  !s.busyTile t && !(s.slot (s.physTile t)).inSlice && !s.sched.jobs.any (fun j => !j.waiting && (s.jobTiles j).contains t)
/-- The tile to be moved is idle; in a fused brood all 16 must be (R71). -/
def State.moveIdle (s : State) (b k : Nat) : Bool :=
  if s.fused b then (broodTiles b).all s.tileIdle else s.tileIdle (tileOf b k)
/-- A granted test window is open for `need` more ticks; host-assisted self-test pauses while no host is attached (R45, R516, R520). -/
def State.window (s : State) (need : Nat) : Bool :=
  s.attached && (match s.chk.windowEnd with
  | some e => decide (s.tick + need ≤ e)
  | none => false)
/-- The slot's age exceeds LFI (R513). -/
def State.aged (s : State) (p : Nat) : Bool := decide ((s.slot p).testedAt + s.lfi < s.tick)
/-- Some good slot of the brood is older than LFI. -/
def State.broodAged (s : State) (b : Nat) : Bool := (s.goodSlots b).any (fun p => s.aged (physOf b p))

/-- Raise 0x2042 for the slot that hosts logical index `k` (R513). -/
def State.raiseAge (s : State) (b k : Nat) : State :=
  let p := physOf b (s.slotOf b k)
  (s.raiseFor b 0x2042 [tileOf b k, p] []).modSlot p (fun x => { x with lfiAt := s.tick })
/-- A slot begins to host: 0x2042 at once where its age is already beyond LFI (R513). -/
def State.hostAge (s : State) (b k : Nat) : State :=
  let sl := s.slotOf b k
  if s.slotState b sl = 0 ∧ s.aged (physOf b sl) then s.raiseAge b k else s

/-! The spare test (R70, R77, R512). -/

/-- The cleared spare is ready; its test restarts unless something needs it (R77). -/
def execSpareClearDone (b : BitVec 7) (s : State) : Host.Outcome State Fault Refusal :=
  done (let b := b.toNat
    onlyIf (s.brood b).clearing s (fun s =>
      let s := s.modBrood b (fun x => { x with clearing := false })
      match s.spare b, (s.brood b).retest with
      | some p, true => s.beginTest b p
      | _, _ => s.startTest b))

/-- The spare has failed its test: it is fenced, and rotation stops (R70). -/
def State.spareFailed (s : State) (b sp code : Nat) : State :=
  let s := (s.raiseBrood b code).modBrood b (fun x => { x with test := 0, rotStopped := true })
  ((s.takeOutAs b sp false 0).reqFail b code).kickJobs

def execSpareLbistEnd (b : BitVec 7) (ok : Bool) (s : State) : Host.Outcome State Fault Refusal :=
  done (let b := b.toNat
    let x := s.brood b
    onlyIf (x.test == 1 && decide (x.testAt + us 1800 ≤ s.tick)) s (fun s =>
      if ok then s.modBrood b (fun x => { x with test := 2, testAt := s.tick })
      else
        let sp := s.rd F.BRD_STATUS_TEST_SLOT b
        (s.lastTest b sp 0 1 0 0).spareFailed b sp 0x1010))

/-- A slot has passed a complete test (R513). -/
def State.slotTested (s : State) (p : Nat) : State :=
  s.modSlot p (fun x => { x with testedAt := s.tick, lfiAt := 0, slice := 0 })

/-- The memory BIST and the skew self-check of the spare end (R70, R512). DESIGN CHOICE (log entry 37): where both fail, 0x1011 is raised and
MBIST_FAIL alone is recorded. -/
def execSpareMbistEnd (b : BitVec 7) (memOk : Bool) (skew : List SkewErr) (s : State) : Host.Outcome State Fault Refusal :=
  done (let b := b.toNat
    let x := s.brood b
    onlyIf (x.test == 2 && decide (x.testAt + us 900 ≤ s.tick)) s (fun s =>
      let sp := s.rd F.BRD_STATUS_TEST_SLOT b
      if !memOk then (s.lastTest b sp 0 0 1 0).spareFailed b sp 0x1011
      else if skewBad skew (physOf b sp) then
        ((s.modSlot (physOf b sp) (fun y => { y with skewOk := false })).lastTest b sp 0 0 0 1).spareFailed b sp 0x2101
      else
        let s := ((s.lastTest b sp 0 0 0 0).slotTested (physOf b sp)).wr F.BRD_STATUS_TEST_SLOT 31 b
        let s := s.modBrood b (fun x => { x with test := 3, retest := false })
        (s.reqPass b sp x.testFrom).lateReqs))

/-! Moves (R71 to R76, R80). -/

/-- The next slot after `p`, modulo 17, in state good (R70). -/
def State.nextGood (s : State) (b p : Nat) : Option Nat :=
  ((List.range 17).map (fun i => (p + 1 + i) % 17)).find? (fun q => q != p && s.slotState b q == 0)

/-- Begin moving logical index `k` onto the spare. -/
def State.startMove (s : State) (b k sp : Nat) (forced : Bool) : State :=
  s.modBrood b (fun x => { x with move := some k, movePhase := 1, moveForced := forced, moveTo := sp, moveAt := s.tick })

/-- Rotation is permitted: a grant in host-assisted mode, or a slot older than LFI without one (R72, R516). -/
def State.rotAllowed (s : State) (b : Nat) : Bool :=
  !s.modes.selftest || (s.rdB F.BRD_CTRL_ROT_GRANT b && s.attached) || s.broodAged b

def execRotationMoveStart (b : BitVec 7) (s : State) : Host.Outcome State Fault Refusal :=
  done (let b := b.toNat
    let x := s.brood b
    match s.spare b with
    | none => s
    | some sp =>
      match (s.nextGood b sp).bind (s.kOnSlot b) with
      | none => s
      | some k =>
        onlyIf (x.test == 3 && s.rdB F.BRD_CTRL_ROT_EN b && !x.rotStopped && x.move.isNone && x.spareUser.isNone &&
            x.forcedDue.isEmpty && !x.clearing && s.rotAllowed b && s.inGap b 500 && s.moveIdle b k) s
          (fun s => s.startMove b k sp false))

/-- A forced move that is due starts: onto the spare (R80), or, of a brood that takes a new mapping, onto the slot that the mapping gives
(R63; log entry 18). -/
def execForcedMoveStart (b : BitVec 7) (s : State) : Host.Outcome State Fault Refusal :=
  done (let b := b.toNat
    let x := s.brood b
    match x.remap, s.spare b, x.forcedDue with
    | (k, dst) :: _, _, l => onlyIf (x.move.isNone && l.all (fun j => !s.busyTile (tileOf b j))) s (fun s => s.startMove b k dst true)
    | [], some sp, k :: _ =>
      onlyIf (x.move.isNone && !x.clearing && !x.retest && x.test != 1 && x.test != 2 && !s.busyTile (tileOf b k)) s
        (fun s => s.startMove b k sp true)
    | _, _, _ => s)

/-- DMA engine and message port of the tile are idle: the core is frozen and the transfer begins (R73). -/
def execMoveQuiesced (b : BitVec 7) (s : State) : Host.Outcome State Fault Refusal :=
  done (let b := b.toNat
    let x := s.brood b
    match x.move with
    | some k =>
      let t := tileOf b k
      onlyIf (x.movePhase == 1 && (s.tile t).dma == [] && (s.tile t).msgs == [] && !s.mesh.msgs.any (fun m => m.src == t)) s
        (fun s => s.modBrood b (fun x => { x with movePhase := 2 }))
    | none => s)

/-- The image has been transferred; its CRC-32 agrees, or the move is abandoned (R73, R76). DESIGN CHOICE (log entry 37): ROT_GRANT stays set
when a granted move is abandoned. -/
def State.moveTransferred (s : State) (b : Nat) (crcOk : Bool) : State :=
    let x := s.brood b
    onlyIf (x.move.isSome && x.movePhase == 2) s (fun s =>
      if crcOk then s.modBrood b (fun x => { x with movePhase := 3 })
      else
        let sp := x.moveTo
        let again := x.failedInto == some sp
        let s := (s.raiseBrood b 0x1012).modBrood b (fun x =>
          { x with move := none, movePhase := 0, test := 0, failedInto := if again then none else some sp })
        let s := if again then s.takeOut b sp false
          else if x.remap ≠ [] then s
          else if x.moveForced then (s.modBrood b (fun x => { x with retest := true })).beginTest b sp
          else if x.spareUser.isSome then s
          else s.beginTest b sp
        s.kickJobs)

/-- One forced move of a new mapping is complete: the tiles of the two slots have changed places, since the brood has no spare; the
indices that are where the mapping puts them are done (R63; log entry 18). -/
def State.exchange (s : State) (b k sp : Nat) : State :=
  let old := s.slotOf b k
  let s := match s.kOnSlot b sp with
    | some j => s.hostOn b j old
    | none => s
  let s := s.hostOn b k sp
  s.modBrood b (fun x =>
    let l := x.remap.filter (fun e => s.slotOf b e.1 != e.2)
    { x with remap := l, forcedDue := l.map (·.1), qmHosted := (List.range 16).filter (fun k => s.slotState b (s.slotOf b k) == 1) })

/-- The mapping changes: the logical tile is on the former spare, and the slot it left is the spare if it is good (R73, R78, R81). -/
def State.moveSwitched (s : State) (b : Nat) : State :=
    let x := s.brood b
    match x.move with
    | some k =>
      onlyIf (x.movePhase == 3) s (fun s =>
        let sp := x.moveTo
        let old := s.slotOf b k
        let good := s.slotState b old == 0
        let s := s.modBrood b (fun x =>
          { x with move := none, movePhase := 0, failedInto := none, retest := false, test := 0,
                   forcedDue := x.forcedDue.filter (fun j => j != k), qmHosted := x.qmHosted.filter (fun j => j != k) })
        let s := (if x.remap = [] then s.hostOn b k sp else s.exchange b k sp).cnt F.BRD_ROT_COUNT_MOVES b
        let s := s.trace 0x20 srcSeq [b, old, sp, 12 * (s.tick - x.moveAt)]
        let s := if x.moveForced then s else s.wr F.BRD_CTRL_ROT_GRANT 0 b
        let s := if x.remap ≠ [] then s else if good then (s.setSpare b (some old)).startTest b else s.dropSpare b
        (s.hostAge b k).kickJobs)
    | none => s

/-! The rerun (R501, R502). -/

/-- The failing parts of a job in the order in which they latched. -/
def Job.failing (j : Job) : List PartRun := (j.parts.filter (fun p => p.status == 4)).foldr (insertBy (·.failAt)) []

/-- A job whose failed parts wait starts its rerun: on the spares of their broods, or, for a resampler stage, on the same resamplers
(R248, R501). A part whose tile is being moved, or whose forced move is due, holds the rerun (R75, R80). -/
def execRerunStart (b : BitVec 7) (s : State) : Host.Outcome State Fault Refusal :=
  done (let b := b.toNat
    let isRsp : Job → Bool := fun j => match s.jobStage j with
      | some x => x.kind == 1
      | none => false
    let cand := s.allJobs.find? (fun j => !j.rerun && j.failing != [] && !j.parts.any (fun p => p.status == 2) &&
      (if isRsp j then j.failing.any (fun p => p.unit == b) else (s.brood b).spareUser == some j.id))
    match cand with
    | none => s
    | some j =>
      match s.jobStage j with
      | none => s
      | some x =>
        let moved := if x.kind = 1 then [] else firstOfBrood [] (j.failing.map (·.unit))
        onlyIf (s.sparesReady j moved) s (fun s =>
          if (s.jobTiles j).any s.moveWaits then s.holdJob j
          else (s.rerunJob j x moved).each moved (fun s t => s.hostAge (tileBrood t) (tileK t))))

/-! TIL_ and BRD_ controls (R84 to R86). -/

/-- The stage that a START write on tile `t` runs: bound, of tile programs, in separate mode for its brood, of a pipeline in
host-assisted stage scheduling (R85). DESIGN CHOICE (log entry 37): of several, the first in binding order. -/
def State.startStage (s : State) (t : Nat) : Option (Stage × Pipeline) :=
  s.boundStages.findSome? (fun x =>
    match s.pipeOfStage x.num with
    | some p => if x.kind == 0 && x.tiles.contains t && !x.fusedOn (tileBrood t) && p.hostSched then some (x, p) else none
    | none => none)

/-- The last opened frame of a pipeline as it stands (R85). -/
def Pipeline.lastOpened (p : Pipeline) : Option Frame :=
  p.lastFrame.map (fun f => (p.frames.find? (fun g => g.num == f.num)).getD
    (match p.lastPub with
     | some g => if g.num = f.num then g else f
     | none => f))

/-- TIL_CTRL.START: a one-part job on this tile (R85); a violation where its conditions do not hold, and an access to a hole where no slot
hosts the tile (R601). A job that must wait for a forced move (R80) or for its brood's mode (R68) leaves START set until it starts. -/
def execTilStart (t : BitVec 11) (s : State) : Host.Outcome State Fault Refusal :=
  done (let t := t.toNat
    if !s.hosted t then s.violHole
    else if s.rdB F.TIL_CTRL_START t then s
    else match s.startStage t with
    | none => s.violation
    | some (x, p) =>
      if s.busyTile t || s.moving t then s.violation
      else
        let f := p.lastOpened
        let c : RefCtx := { slot := x.slot, pipe := p.desc.num, frame := f, out := match s.binding? x.num with
          | some bd => bd.scratch
          | none => 0 }
        let fl := jobFlags x t (match f with
          | some g => g.isStale
          | none => false) true
        let id := s.sched.nextJob
        let j : Job :=
          { id := id, stage := x.num, slot := x.slot, pipe := p.desc.num, frame := (f.map (·.num)).getD 0, stamp := (f.map (·.stamp)).getD 0,
            single := true, seed := x.seed, stream := x.stream, refs := x.addrs, addrs := x.addrs.map (s.resolve c), flags := fl,
            outAddr := c.out, waiting := true, parts := [{ unit := t }], startAt := s.tick }
        let s := s.wr F.TIL_CTRL_START 1 t
        { s with sched.singles := s.sched.singles ++ [j], sched.nextJob := id + 1 }.kickJob id)

/-- TIL_CTRL.HALT_REQ: pending on a running or moving tile, and without effect on any other (R84); a hole where no slot hosts the tile
(R601). -/
def execTilHaltReq (t : BitVec 11) (s : State) : Host.Outcome State Fault Refusal :=
  done (let t := t.toNat
    if !s.hosted t then s.violHole
    else onlyIf (s.busyTile t || s.moving t) s (fun s => s.wr F.TIL_CTRL_HALT_REQ 1 t))

/-- The core halts at an instruction boundary with cause 0x30; its part is not retried (R178, R180). -/
def execHaltReqTaken (t : BitVec 11) (s : State) : Host.Outcome State Fault Refusal :=
  done (let t := t.toNat
    onlyIf (s.rdB F.TIL_CTRL_HALT_REQ t && s.busyTile t && !s.moving t) s (fun s =>
      let s := (s.stopTile t).raise (tileBrood t) 0x1105 t
      match s.jobOf t with
      | some j => (s.failPart j.id t 0x1105 false).checkJob j.id
      | none => s))

/-- A write in the BRD_ window of a brood that the variant has fused off is an access to a hole (R15, R86). -/
def State.inBrd (s : State) (b : Nat) (f : State → State) : State := if b < s.nBroods then f s else s.violHole
def execBrdRotGrant (b : BitVec 7) (s : State) : Host.Outcome State Fault Refusal :=
  done (s.inBrd b.toNat (fun s => s.wr F.BRD_CTRL_ROT_GRANT 1 b.toNat))
def execBrdRotEnWrite (b : BitVec 7) (en : Bool) (s : State) : Host.Outcome State Fault Refusal :=
  done (s.inBrd b.toNat (fun s => s.wrB F.BRD_CTRL_ROT_EN en b.toNat))

/-! Ages (R513, R519). -/

/-- Number of instances of a row of R517. -/
def State.rowUnits (s : State) (row : Nat) : Nat :=
  match row with
  | 0 => s.nBroods
  | 1 => s.nBroods
  | 2 => 8
  | 3 => 4
  | 4 => 2
  | 5 => 16
  | 6 => 4
  | 7 => s.nPorts
  | 8 => 1
  | _ => 0
/-- Slices per pass of a row (R517). -/
def rowSlices (row : Nat) : Nat := [32, 8, 64, 16, 16, 8, 8, 16, 32].getD row 0
/-- Longest slice of a row, in device ticks (R517). -/
def rowLen (row : Nat) : Nat := [200, 2000, 200, 5000, 5000, 1000, 1000, 500, 100].getD row 0
/-- Error line and unit identifier of a unit of R517 (R461, R513). -/
def unitLine (row i : Nat) : Nat × Nat :=
  match row with
  | 0 => (i, 0xf000 + i)
  | 1 => (i, 0xf000 + i)
  | 2 => (128 + i, mCtl)
  | 3 => (154 + i, 0xffff)
  | 4 => (152 + i, 0xffff)
  | 5 => (148 + i / 8, 0xffff)
  | 6 => (150, 0xffff)
  | 7 => (144 + i, i)
  | _ => (158, 0xffff)
def State.modUnit (s : State) (row i : Nat) (f : Unit → Unit) : State :=
  { s with chk.units := FMap.set {} s.chk.units (row * 4096 + i) (f (s.unit row i)) }
def State.raiseUnit (s : State) (row i code : Nat) : State := let l := unitLine row i; s.raise l.1 code l.2
/-- The unit's age exceeds LFI; it runs from the last pass, or from the start of the running state. -/
def State.unitAged (s : State) (row i : Nat) : Bool := decide (Nat.max (s.unit row i).passAt s.dev.runAt + s.lfi < s.tick)

/-- A slot (row 15, physical tile number) or a shared unit has been untested for LFI, or for a further LFI (R513, R519). -/
def execSlotAgeLfi (row : BitVec 4) (inst : BitVec 12) (s : State) : Host.Outcome State Fault Refusal :=
  done (let i := inst.toNat
    let s := s.lateReqs
    if row.toNat = 15 then
      (match s.kOnSlot (i / 17) (i % 17) with
       | some k =>
         onlyIf (s.slotState (i / 17) (i % 17) == 0 && s.aged i && decide ((s.slot i).lfiAt + s.lfi < s.tick)) s
           (fun s => s.raiseAge (i / 17) k)
       | none => s)
    else onlyIf (decide (i < s.rowUnits row.toNat) && s.unitAged row.toNat i &&
        decide ((s.unit row.toNat i).lfiAt + s.lfi < s.tick)) s (fun s =>
      (s.raiseUnit row.toNat i 0x2042).modUnit row.toNat i (fun u => { u with lfiAt := s.tick })))

/-! In-place slices (R515, R516). -/

def execInplaceSliceStart (b : BitVec 7) (k : BitVec 4) (s : State) : Host.Outcome State Fault Refusal :=
  done (let b := b.toNat
    let p := physOf b (s.slotOf b k.toNat)
    onlyIf (s.hosted (tileOf b k.toNat) && (s.spare b).isNone && s.inGap b (us 200) && s.tileIdle (tileOf b k.toNat) &&
        (!s.modes.selftest || s.window (us 200) || s.aged p)) s (fun s =>
      s.modSlot p (fun x => { x with inSlice := true, passFrom := if x.slice = 0 then s.tick else x.passFrom })))

/-- A slice ends: the sixteenth completes a pass; a failed one loses the slot (R82, R515). -/
def execInplaceSliceEnd (b : BitVec 7) (k : BitVec 4) (ok : Bool) (s : State) : Host.Outcome State Fault Refusal :=
  done (let b := b.toNat
    let sl := s.slotOf b k.toNat
    let p := physOf b sl
    let x := s.slot p
    onlyIf x.inSlice s (fun s =>
      let s := s.modSlot p (fun x => { x with inSlice := false })
      let s := if !ok then (s.raise b 0x1010 (tileOf b k.toNat)).takeOutAs b sl false 0
        else if x.slice + 1 < 16 then s.modSlot p (fun x => { x with slice := x.slice + 1 })
        else ((s.slotTested p).reqPass b sl x.passFrom).lateReqs
      s.settleArbs.kickJobs))

/-! Shared slices (R517 to R519). -/

/-- A stream serves a stage that is not QM (R518). -/
def State.streamChecked (s : State) (n : Nat) : Bool :=
  s.sched.pipes.any (fun p => p.running && p.desc.streams.contains n && (p.desc.stages.filterMap s.stage?).any (fun x => !x.qm))
/-- The predicted opening of a safety window: the last event plus 15/16 of its period (R518). -/
def windowAt (last period : Nat) : Nat := last + period - period / 16
/-- A slice that ends at `e` ends before every window of these streams opens. -/
def State.streamsClear (s : State) (l : List Nat) (e : Nat) (ev : Stream → Nat) : Bool :=
  l.all (fun n => !s.streamChecked n || ev (s.strm n) == 0 || decide (e ≤ windowAt (ev (s.strm n)) (s.strm n).desc.period))
/-- A slice that ends at `e` ends before the next trigger of the pipelines that satisfy `q`. -/
def State.pipesClear (s : State) (e : Nat) (q : Pipeline → Bool) : Bool :=
  s.sched.pipes.all (fun p => !p.running || !q p || !(p.desc.stages.filterMap s.stage?).any (fun x => !x.qm) ||
    (match p.lastFrame with
     | some f => decide (e ≤ windowAt f.tick p.desc.period)
     | none => true))
/-- Enabled streams that satisfy a condition on their descriptor. -/
def State.streamsOf (s : State) (lo n : Nat) (q : StreamDesc → Bool) : List Nat :=
  (List.range' lo n).filter (fun i => (s.strm i).desc.en && q (s.strm i).desc)
/-- Streams that a unit serves: those of its receiver or MAC, those assigned to its JPEG XS engine and the one its encoder takes frames of, or
every camera and JPEG XS stream (R518). -/
def State.unitStreams (s : State) (row i : Nat) : List Nat :=
  match row with
  | 4 =>
    let e := s.encDesc i
    s.streamsOf 32 16 (fun d => d.sel == 1 && d.dt == i) ++ (if e.en && (s.strm e.src).desc.en then [e.src] else [])
  | 5 => s.streamsOf 0 32 (fun d => d.port == i)
  | 6 => s.streamsOf 32 16 (fun d => d.port == i)
  | _ => (List.range 48).filter (fun n => (s.strm n).desc.en && !(s.strm n).desc.lidar n)

/-- The slice of a unit may start (R517, R518). -/
def State.sliceMayStart (s : State) (row i : Nat) : Bool :=
  let e := s.tick + rowLen row
  match row with
  | 0 => s.inGap i (rowLen 0)
  | 1 => s.inGap i (rowLen 1) && !s.sched.jobs.any (fun j => (match s.jobStage j with
      | some x => x.kind == 1 && x.usesBrood i && !j.waiting
      | none => false))
  | 2 => (s.chan i).trained && s.pipesClear e (fun _ => true)
  | 3 => (FMap.get {} s.intake.warps i).cur.isNone && (match (FMap.get {} s.intake.warps i).resetAt with
        | some t => decide (t + us 50 ≤ s.tick)
        | none => true) &&
      (List.range 4).any (fun j => j != i && s.rdB F.WRP_STATUS_IN_SERVICE j) &&
      s.streamsClear (s.unitStreams 3 i) e (·.endAt)
  | 4 => (FMap.get {} s.intake.jxs i).cur.isNone && (FMap.get {} s.intake.jxs i).enc.isNone &&
      s.streamsClear (s.unitStreams 4 i) e (·.startAt)
  | 5 => (s.unitStreams 5 i).all (fun n => (s.strm n).cur.isNone) && s.streamsClear (s.unitStreams 5 i) e (·.startAt)
  | 6 => (s.unitStreams 6 i).all (fun n => (s.strm n).cur.isNone) && s.streamsClear (s.unitStreams 6 i) e (·.startAt)
  | 7 => s.link i == 4 && !s.multiBusy && s.pipesClear e (fun p => p.desc.multi)
  | _ => s.sched.pipes.all (fun p => p.openAt.isNone && p.frames.all (fun f => f.doneAt.isNone)) && s.pipesClear e (fun _ => true)

/-- A slice of a shared unit starts at its turn, or is postponed (R517 to R519). -/
def execSharedSliceStart (row : BitVec 4) (inst : BitVec 7) (s : State) : Host.Outcome State Fault Refusal :=
  done (let r := row.toNat
    let i := inst.toNat
    let s := s.lateReqs
    onlyIf (decide (i < s.rowUnits r) && !(s.unit r i).running) s (fun s =>
      if s.sliceMayStart r i && (!s.modes.selftest || s.window (rowLen r) || s.unitAged r i || (s.req? 3 r i).isSome) then
        s.modUnit r i (fun u => { u with running := true, passFrom := if u.slice = 0 then s.tick else u.passFrom })
      else
        let s := (s.sysInc (chkHdr + 12) 4).raiseUnit r i 0x2043
        match s.req? 3 r i with
        | some q => s.endReq q 0x2043
        | none => s))

/-- A slice of a shared unit ends (R519). -/
def execSharedSliceEnd (row : BitVec 4) (inst : BitVec 7) (ok : Bool) (s : State) : Host.Outcome State Fault Refusal :=
  done (let r := row.toNat
    let i := inst.toNat
    let u := s.unit r i
    let finish : State → Nat → State := fun s c => match s.req? 3 r i with
      | some q => s.endReq q c
      | none => s
    onlyIf (u.running && decide (i < s.rowUnits r)) s (fun s =>
      if ok then
        if u.slice + 1 < rowSlices r then s.modUnit r i (fun u => { u with running := false, failed := false, slice := u.slice + 1 })
        else finish (s.modUnit r i (fun u =>
          { u with running := false, failed := false, slice := 0, passAt := s.tick, lfiAt := 0 })) 0
      else if u.failed then
        finish ((s.raiseUnit r i 0x2040).modUnit r i (fun u => { u with running := false, failed := false })) 0x2040
      else (s.raiseUnit r i 0x2041).modUnit r i (fun u => { u with running := false, failed := true })))

end Sys2Proof.Machine
end

