-- ==== Sys2Proof/Machine/Frames.lean ====
section
/-! DEFINITION. The sequencer's commands: triggers by expiry, stage starts, the region resampler, window verdicts, publication and
the order hold (R25 to R36, R242 to R248, R478). -/
namespace Sys2Proof.Machine

/-- The gather window of a pipeline has expired: it triggers with stand-ins for the streams that are missing. The tick of expiry is still
open to events, so the trigger comes after it (R25, R26). -/
def execGatherExpiry (p : BitVec 6) (s : State) : Host.Outcome State Fault Refusal :=
  done (match s.pipe? p.toNat with
    | some x =>
      (match x.openAt with
       | some t0 => onlyIf (x.running && !x.hostSched && decide (t0 + x.desc.gather < s.tick)) s (fun s => s.trigger p.toNat)
       | none => s)
    | none => s)

/-! Stage starts (R27 to R30, R36, R37). -/

/-- The units of a stage are in service: hosted tiles, or broods that are not excluded (R82, R266). -/
def State.unitsHosted (s : State) (x : Stage) : Bool :=
  if x.kind = 1 then x.units.all (fun b => decide (b < s.nBroods) && !s.excluded b) else x.tiles.all s.hosted

/-- Jobs that the sequencer has started and that are in flight. -/
def State.seqJobs (s : State) : Nat := s.sched.jobs.countP (fun j => !j.host)
/-- Host-submitted jobs in flight. -/
def State.hostJobs (s : State) : Nat := s.sched.jobs.countP (fun j => j.host)

/-- The next tag of the sequencer's range that is not in flight (R413). -/
def State.nextSeqTag (s : State) : Nat :=
  (((List.range 64).map (fun i => 0xFFC0 + (s.sched.seqTag - 0xFFC0 + i) % 64)).find?
    (fun g => !s.sched.jobs.any (fun j => j.tag == g))).getD s.sched.seqTag

/-- The oldest open frame of a pipeline in which a stage is due; a failed stage keeps back only the stages that consume it (R27, R30). -/
def State.dueFrame (s : State) (x : Pipeline) (st : Stage) : Option Frame :=
  x.frames.find? (fun f => !f.barrier && f.ready st && (match f.stage? st.num with
    | some r => r.status == 0
    | none => false) && !s.sched.jobs.any (fun j => j.pipe == x.desc.num && j.frame == f.num && j.stage == st.num))

/-- The sequencer starts a stage of a hardware-scheduled pipeline for the oldest frame in which it is due. A stage that cannot
run fails for the frame; a first stage without a staging slot withholds it (R27, R36, R82, R216). DESIGN CHOICE (log entry 37): the
entry of a frame withheld by an overrun is written at once, even while earlier frames of the pipeline are open. -/
def execStageStart (p : BitVec 6) (stage : BitVec 8) (s : State) : Host.Outcome State Fault Refusal :=
  done (match s.pipe? p.toNat, s.stage? stage.toNat with
    | some x, some st =>
      (match s.dueFrame x st with
       | none => s
       | some f =>
         onlyIf (s.running && !x.hostSched && x.desc.stages.contains st.num && !s.cara.selBlock) s (fun s =>
           let bad := match s.binding? st.num with
             | some b => b.failed
             | none => false
           if bad || !s.unitsHosted st || (x.desc.multi && !s.linksUp) then s.markFailed p.toNat f.num st.num 0x1F01 []
           else match s.takeSlots p.toNat f.num with
             | none => (s.withhold p.toNat f 0x1F03).settleArbs.kickJobs
             | some s' =>
               if s'.seqJobs < 64 && s'.unitsFree st 0 then
                 let tag := s'.nextSeqTag
                 let s' := { s' with sched.seqTag := 0xFFC0 + (tag - 0xFFC0 + 1) % 64 }
                 s'.makeJob st p.toNat f.num tag false 0 st.seed st.stream st.addrs
               else s))
    | _, _ => s)

/-! The region resampler (R242 to R248). -/

/-- A box list entry (R243). -/
structure Box where
  x0 : Int
  y0 : Int
  x1 : Int
  y1 : Int
  src : Nat
  valid : Bool
  deriving DecidableEq, Repr

/-- The box that 32 bytes spell. -/
def boxOf (b : List Byte) : Box :=
  { x0 := sext 32 (fieldAt b 0 4), y0 := sext 32 (fieldAt b 4 4), x1 := sext 32 (fieldAt b 8 4), y1 := sext 32 (fieldAt b 12 4),
    src := fieldAt b 16 1, valid := bitOf (fieldAt b 17 1) 0 }

/-- Bytes of one element. -/
def RspBlock.esize (k : RspBlock) : Nat := if k.fmt = 0x11 then 2 else 1
/-- An element's value. -/
def RspBlock.value (k : RspBlock) (v : Nat) : Int := if k.fmt = 2 then (v : Int) else sext (8 * k.esize) v
/-- An element's bytes. -/
def RspBlock.bytes (k : RspBlock) (v : Int) : List Byte := natLe k.esize (twos (8 * k.esize) v)
/-- A source position as R245 computes it: `o` + floor((2i + 1) * len / 2n) - 2^15. -/
def samplePos (o len : Int) (i n : Nat) : Int := o + (2 * (i : Int) + 1) * len / (2 * (n : Int)) - 32768

/-- The four-neighbour mix of R245. -/
def bilinear (wx wy a b c d : Int) : Int :=
  let top := a * (256 - wx) + b * wx
  let bot := c * (256 - wx) + d * wx
  (top * (256 - wy) + bot * wy + 32768) / 65536

/-- Result of a part's access: the bytes, or the reason for failing. -/
abbrev Got := Except Nat (List Int)

/-- All channels of a source pixel: read, edge pixel under CLAMP, or FILL (R245). -/
def State.rspFetch (s : State) (m : Nat) (k : RspBlock) (c : RefCtx) (src : BoxSource) (u v : Int) : Got × State :=
  let inside := decide (0 ≤ u) && decide (u < src.w) && decide (0 ≤ v) && decide (v < src.h)
  if !inside && k.mode / 2 % 4 == 0 then (.ok (List.replicate src.c k.fill), s)
  else
    let uu := (min (max u 0) ((src.w : Int) - 1)).toNat
    let vv := (min (max v 0) ((src.h : Int) - 1)).toNat
    let n := src.c * k.esize
    let (r, d, s) := s.busRead m (s.resolve c src.ref + vv * src.rowStride + uu * n) n
    match r with
    | .ok => (.ok ((List.range src.c).map (fun i => k.value (fieldAt d (i * k.esize) k.esize))), s)
    | .bad => (.error 0x4002, s)
    | .hole => (.error 0x1210, s)

/-- The elements of one crop pixel (R245). -/
def State.rspPixel (s : State) (m : Nat) (k : RspBlock) (c : RefCtx) (src : BoxSource) (b : Box) (i j : Nat) : Got × State :=
  let sy := samplePos b.y0 (b.y1 - b.y0) i k.oh
  let sx := samplePos b.x0 (b.x1 - b.x0) j k.ow
  if k.mode % 2 = 1 then s.rspFetch m k c src ((sx + 32768) / 65536) ((sy + 32768) / 65536)
  else
    let iy := sy / 65536
    let wy := (sy - iy * 65536) / 256
    let ix := sx / 65536
    let wx := (sx - ix * 65536) / 256
    let (p00, s) := s.rspFetch m k c src ix iy
    let (p10, s) := s.rspFetch m k c src (ix + 1) iy
    let (p01, s) := s.rspFetch m k c src ix (iy + 1)
    let (p11, s) := s.rspFetch m k c src (ix + 1) (iy + 1)
    (do
      let a ← p00
      let b ← p10
      let d ← p01
      let e ← p11
      .ok ((List.range src.c).map (fun n => bilinear wx wy (a.getD n 0) (b.getD n 0) (d.getD n 0) (e.getD n 0))), s)

/-- Write bytes for a part; a failed write fails it (R376, R16). -/
def State.rspWrite (s : State) (m a : Nat) (d : List Byte) : Except Nat Unit × State :=
  match s.busWrite m a d with
  | (.ok, s) => (.ok {}, s)
  | (.bad, s) => (.error 0x4021, s)
  | (.hole, s) => (.error 0x1210, s)

/-- The crop pixels of a sampled box, from pixel `n` of `OH * OW` on. -/
def State.rspPixels (m : Nat) (k : RspBlock) (c : RefCtx) (src : BoxSource) (b : Box) (out : Nat) :
    Nat → Nat → State → Except Nat Unit × State
  | 0, _, s => (.ok {}, s)
  | fuel + 1, n, s =>
    match s.rspPixel m k c src b (n / k.ow) (n % k.ow) with
    | (.error e, s) => (.error e, s)
    | (.ok l, s) =>
      match s.rspWrite m (out + n * (src.c * k.esize)) ((l.map k.bytes).flatten) with
      | (.error e, s) => (.error e, s)
      | (.ok _, s) => State.rspPixels m k c src b out fuel (n + 1) s

/-- Box `i` of the list: its crop and its status byte (R246). -/
def State.rspBox (s : State) (bn : Nat) (k : RspBlock) (c : RefCtx) (count i : Nat) : Except Nat Unit × State :=
  let m := mRsp bn
  let ch := match k.srcs with
    | x :: _ => x.c
    | [] => 0
  let size := k.oh * k.ow * ch * k.esize
  let out := s.resolve c k.out + i * size
  let mark : Nat → State → Except Nat Unit × State := fun v s => s.rspWrite m (s.resolve c k.status + i) [BitVec.ofNat 8 v]
  let filled : Nat → State → Except Nat Unit × State := fun v s =>
    match s.rspWrite m out ((List.replicate (k.oh * k.ow * ch) (k.bytes k.fill)).flatten) with
    | (.error e, s) => (.error e, s)
    | (.ok _, s) => mark v s
  if Nat.min count k.max ≤ i then mark 4 s
  else
    let (r, d, s) := s.busRead m (s.resolve c k.list + 32 + 32 * i) 32
    match r with
    | .bad => (.error 0x4002, s)
    | .hole => (.error 0x1210, s)
    | .ok =>
      let b := boxOf d
      if !b.valid then filled 1 s
      else if b.x1 ≤ b.x0 ∨ b.y1 ≤ b.y0 then filled 2 s
      else match k.srcs[b.src]? with
        | none => filled 3 (s.modBrood bn (fun x => { x with rspViol := x.rspViol + 1 }))
        | some src =>
          match State.rspPixels m k c src b out (k.oh * k.ow) 0 s with
          | (.error e, s) => (.error e, s)
          | (.ok _, s) => mark 0 s

/-- Box `i` as far as its first `n` elements: the datapaths disagree on the next one, and nothing further is written (R248). -/
def State.rspCut (s : State) (bn : Nat) (k : RspBlock) (c : RefCtx) (count i n : Nat) : Except Nat Unit × State :=
  let m := mRsp bn
  let ch := match k.srcs with
    | x :: _ => x.c
    | [] => 0
  let out := s.resolve c k.out + i * (k.oh * k.ow * ch * k.esize)
  let stop : Except Nat Unit × State → Except Nat Unit × State := fun e => match e with
    | (.error e, s) => (.error e, s)
    | (.ok _, s) => (.error 0x1210, s)
  if Nat.min count k.max ≤ i then (.error 0x1210, s)
  else
    let (r, d, s) := s.busRead m (s.resolve c k.list + 32 + 32 * i) 32
    match r with
    | .bad => (.error 0x4002, s)
    | .hole => (.error 0x1210, s)
    | .ok =>
      let b := boxOf d
      let n := Nat.min n (k.oh * k.ow * ch)
      let filled := stop (s.rspWrite m out ((List.replicate n (k.bytes k.fill)).flatten))
      if !b.valid ∨ b.x1 ≤ b.x0 ∨ b.y1 ≤ b.y0 then filled
      else match k.srcs[b.src]? with
        | none => filled
        | some src =>
          match State.rspPixels m k c src b out (n / ch) 0 s with
          | (.error e, s) => (.error e, s)
          | (.ok _, s) =>
            if n % ch = 0 then (.error 0x1210, s)
            else match s.rspPixel m k c src b (n / ch / k.ow) (n / ch % k.ow) with
              | (.error e, s) => (.error e, s)
              | (.ok l, s) => stop (s.rspWrite m (out + n / ch * (ch * k.esize)) (((l.take (n % ch)).map k.bytes).flatten))

/-- The boxes of part `p` of `n`, in ascending order, until one fails (R242). With `cut`, the datapaths disagree after so many whole boxes
and so many elements of the next one (R248). -/
def State.rspBoxes (bn : Nat) (k : RspBlock) (c : RefCtx) (count : Nat) (cut : Option (Nat × Nat)) :
    List Nat → State → Except Nat Unit × State
  | [], s => (if cut.isSome then .error 0x1210 else .ok {}, s)
  | i :: r, s =>
    match cut with
    | some (0, n) => s.rspCut bn k c count i n
    | _ =>
      match s.rspBox bn k c count i with
      | (.error e, s) => (.error e, s)
      | (.ok _, s) => State.rspBoxes bn k c count (cut.map (fun e => (e.1 - 1, e.2))) r s

/-- The whole part: the header, then its boxes (R242, R243, R247). The first part counts the violation of a list that is too
long. -/
def State.rspPart (s : State) (bn : Nat) (k : RspBlock) (c : RefCtx) (p n : Nat)
    (cut : Option (Nat × Nat)) : Except Nat Unit × State :=
  let (r, d, s) := s.busRead (mRsp bn) (s.resolve c k.list) 32
  match r with
  | .bad => (.error 0x4002, s)
  | .hole => (.error 0x1210, s)
  | .ok =>
    let count := fieldAt d 0 4
    let s := if k.max < count ∧ p = 0 then s.modBrood bn (fun x => { x with rspViol := x.rspViol + 1 }) else s
    State.rspBoxes bn k c count cut ((List.range k.max).filter (fun i => i % n == p)) s

/-- The part on the resampler of brood `b` ends. With `fault` its two datapaths disagree on an output element, after so many whole boxes of
the part and so many elements of the next one; it writes nothing further (R248; log entry 16). The block's references are those that
resolved at the job's start (R259). -/
def execResamplerPartEnd (b : BitVec 7) (fault : Option (Nat × Nat)) (s : State) : Host.Outcome State Fault Refusal :=
  done (let b := b.toNat
    match s.rspJob b with
    | none => s
    | some j =>
      match j.rsp with
      | some k =>
        let ix := ((j.parts.map (·.unit)).findIdx? (fun u => u == b)).getD 0
        match s.rspPart b k {} ix j.parts.length fault with
        | (.ok _, s) => (s.modJob j.id (fun j => j.modPart b (fun p => { p with status := 1 }))).checkJob j.id
        | (.error e, s) =>
          let s := if e = 0x1210 then s.raiseBrood b 0x1210 else s
          (s.failPart j.id b e true).checkJob j.id
      | none => s)

/-! Windows, publication, order (R33 to R36, R478). -/

/-- WIN_MAX of a stage's running job is reached (R478). -/
def execStageWinMax (stage : BitVec 8) (s : State) : Host.Outcome State Fault Refusal :=
  done (let st := stage.toNat
    match (s.win st).startAt, s.jobOfStage st with
    | some t0, some j =>
      (match s.jobStage j with
       | some x =>
         onlyIf (decide (t0 + x.winMax ≤ s.tick)) s (fun s =>
           let arb := s.chk.arbs.any (fun a => a.cap.job == j.id)
           let s := s.modWin st (fun w => { w with late := satAt 65535 (w.late + 1) })
           let s := s.raiseFor (winLine st) (if arb then 0x9032 else 0x9031) [st] [st]
           ((s.killJob j.id (if arb then 0x1F02 else 0x1F01)).settleArbs).kickJobs)
       | none => s)
    | _, _ => s)

/-- The oldest frame of a pipeline is published once it has been clean for 16 Carapace cycles and every event that the collector
latched before their end has taken its reaction, or is withheld with its outcome (R32 to R36, R468). -/
def execPublish (p : BitVec 6) (s : State) : Host.Outcome State Fault Refusal :=
  done (match s.pipe? p.toNat with
    | none => s
    | some x =>
      match x.frames with
      | [] => s
      | f :: _ =>
        if f.outcome ≠ 0 then
          onlyIf (!s.sched.jobs.any (fun j => j.pipe == p.toNat && j.frame == f.num)) s
            (fun s => (s.withhold p.toNat f f.outcome).settleArbs.kickJobs)
        else match f.doneAt with
          | some d =>
            let early := fun (e : Event) => decide (e.tick < d + 4)
            onlyIf (decide (d + 4 ≤ s.tick) && !s.cara.selBlock && !s.cara.asserted.any early && !s.cara.latched.any early) s
              (fun s => s.publishFrame x f)
          | none => s)

/-- The oldest frame has not finished within two frame periods: it is withheld and later frames proceed (R34, R36). DESIGN CHOICE (log
entry 37): the periods run from the tick of the frame's trigger. -/
def execOrderHoldExpiry (p : BitVec 6) (s : State) : Host.Outcome State Fault Refusal :=
  done (match s.pipe? p.toNat with
    | none => s
    | some x =>
      match x.frames with
      | [] => s
      | f :: _ => onlyIf (f.doneAt.isNone && decide (f.tick + 2 * x.desc.period ≤ s.tick)) s
          (fun s => (s.withhold p.toNat f 0x1F04).settleArbs.kickJobs))

end Sys2Proof.Machine
end

