-- ==== Sys2Proof/Machine/Image.lean ====
section
/-! DEFINITION. Swarm images: the header, the section table and its records, and what makes them malformed (R244, R255 to R264). -/
namespace Sys2Proof.Machine

/-- `n` bytes at an offset are all 0. -/
def zeroAt (l : List Byte) (off n : Nat) : Bool := (bytesAt l off n).all (fun b => b == 0#8)
/-- Round up to a multiple. -/
def roundUp (n m : Nat) : Nat := (n + m - 1) / m * m

/-- An entry of the section table (R257). -/
structure SecEnt where
  type : Nat
  model : Nat
  target : Nat
  off : Nat
  bytes : Nat
  dest : Nat
  deriving DecidableEq, Repr

/-- Section table entry `i` (R257). -/
def secEnt (img : List Byte) (i : Nat) : SecEnt :=
  let e := bytesAt img (fieldAt img 28 4 + 24 * i) 24
  { type := fieldAt e 0 2, model := fieldAt e 2 2, target := fieldAt e 4 4, off := fieldAt e 8 8, bytes := fieldAt e 16 4,
    dest := fieldAt e 20 4 }
/-- The whole section table. -/
def secTable (img : List Byte) : List SecEnt := (List.range (fieldAt img 24 4)).map (secEnt img)
/-- A section's payload. -/
def SecEnt.data (e : SecEnt) (img : List Byte) : List Byte := if e.type = 6 then [] else bytesAt img e.off e.bytes

/-- Magic, reserved fields and header ranges (R255). -/
def headerOk (img : List Byte) : Bool :=
  decide (256 ≤ img.length) && fieldAt img 0 4 == 0x4D575351 && zeroAt img 12 4 && zeroAt img 88 168 &&
  decide (1 ≤ fieldAt img 10 1) && decide (fieldAt img 10 1 ≤ 4) && decide (fieldAt img 11 1 < fieldAt img 10 1) &&
  fieldAt img 16 8 == img.length && fieldAt img 28 4 % 8 == 0 &&
  decide (fieldAt img 28 4 + 24 * fieldAt img 24 4 ≤ img.length) && decide (1 ≤ fieldAt img 32 4) &&
  decide (fieldAt img 32 4 ≤ 64)

/-! References (R259). -/

/-- KIND, SEL and the zero bits of a reference are in their ranges. -/
def refOk (r : BitVec 64) : Bool :=
  let v := r.toNat
  let kind := v / 2 ^ 60
  let sel := bitsOf v 55 48
  bitsOf v 59 56 == 0 && decide (kind < 8) &&
    (if kind = 3 ∨ kind = 5 then true else if kind = 4 then decide (sel ≤ 47) else sel == 0)

/-! Resampler blocks (R244). -/

/-- The source entry at an offset of a stage table. -/
def sourceAt (tab : List Byte) (o : Nat) : BoxSource :=
  { ref := BitVec.ofNat 64 (fieldAt tab o 8), w := fieldAt tab (o + 8) 2, h := fieldAt tab (o + 10) 2, c := fieldAt tab (o + 12) 2,
    rowStride := fieldAt tab (o + 16) 4 }
/-- The resampler block at an offset of a stage table. -/
def rspAt (tab : List Byte) (o : Nat) : RspBlock :=
  { list := BitVec.ofNat 64 (fieldAt tab o 8), out := BitVec.ofNat 64 (fieldAt tab (o + 8) 8),
    status := BitVec.ofNat 64 (fieldAt tab (o + 16) 8), oh := fieldAt tab (o + 24) 2, ow := fieldAt tab (o + 26) 2,
    fmt := fieldAt tab (o + 28) 1, mode := fieldAt tab (o + 29) 1, fill := sext 32 (fieldAt tab (o + 32) 4),
    max := fieldAt tab (o + 36) 2,
    srcs := (List.range (fieldAt tab (o + 38) 1)).map (fun n => sourceAt tab (o + 64 + 24 * n)) }
/-- Length of the block at an offset. -/
def rspLen (tab : List Byte) (o : Nat) : Nat := 64 + 24 * fieldAt tab (o + 38) 1
/-- FILL lies in the range of FMT. -/
def fillOk (fmt : Nat) (v : Int) : Bool :=
  match fmt with
  | 1 => decide (-128 ≤ v) && decide (v ≤ 127)
  | 2 => decide (0 ≤ v) && decide (v ≤ 255)
  | 0x11 => decide (-32768 ≤ v) && decide (v ≤ 32767)
  | _ => false
/-- Every reference of a block. -/
def RspBlock.refs (k : RspBlock) : List (BitVec 64) := k.list :: k.out :: k.status :: k.srcs.map (·.ref)
/-- The block at an offset keeps to R244. -/
def rspOk (tab : List Byte) (o : Nat) : Bool :=
  let k := rspAt tab o
  let e := if k.fmt = 0x11 then 2 else 1
  decide (o + rspLen tab o ≤ tab.length) && decide (1 ≤ k.oh) && decide (k.oh ≤ 64) && decide (1 ≤ k.ow) && decide (k.ow ≤ 64) &&
  decide (k.mode < 4) && zeroAt tab (o + 30) 2 && fillOk k.fmt k.fill && decide (1 ≤ k.max) && decide (k.max ≤ 4096) &&
  decide (1 ≤ k.srcs.length) && decide (k.srcs.length ≤ 16) && zeroAt tab (o + 39) 25 && k.refs.all refOk &&
  (List.range k.srcs.length).all (fun n => zeroAt tab (o + 64 + 24 * n + 14) 2 && zeroAt tab (o + 64 + 24 * n + 20) 4) &&
  k.srcs.all (fun x => decide (1 ≤ x.w) && decide (x.w ≤ 16384) && decide (1 ≤ x.h) && decide (x.h ≤ 16384) && decide (1 ≤ x.c) &&
    decide (x.c ≤ 1024) && x.c * e % 32 == 0 && k.srcs.all (fun y => y.c == x.c) && x.rowStride % 32 == 0 &&
    decide (x.w * x.c * e ≤ x.rowStride))

/-! Stage descriptors (R260, R261). -/

/-- Brood entry `n` of the descriptor at an offset. -/
def broodAt (tab : List Byte) (o n : Nat) : BroodUse :=
  { brood := fieldAt tab (o + 96 + 4 * n) 1, fused := fieldAt tab (o + 97 + 4 * n) 1 == 1,
    tmask := BitVec.ofNat 16 (fieldAt tab (o + 98 + 4 * n) 2) }
/-- The stage descriptor at an offset of a stage table. -/
def stageAt (tab : List Byte) (o : Nat) : Stage :=
  let fl := fieldAt tab (o + 2) 1
  { num := fieldAt tab o 1, kind := fieldAt tab (o + 1) 1, qm := bitOf fl 0, sync := bitOf fl 1, entry := fieldAt tab (o + 4) 2,
    broods := (List.range (fieldAt tab (o + 6) 2)).map (broodAt tab o), winMin := fieldAt tab (o + 8) 4,
    winMax := fieldAt tab (o + 12) 4, budget := fieldAt tab (o + 16) 4,
    consumes := ((List.range 4).map (fun i => fieldAt tab (o + 20 + i) 1)).filter (fun n => n != 255),
    outBytes := fieldAt tab (o + 24) 4,
    addrs := (List.range 4).map (fun i => BitVec.ofNat 64 (fieldAt tab (o + 32 + 8 * i) 8)),
    seed := BitVec.ofNat 64 (fieldAt tab (o + 64) 8), stream := BitVec.ofNat 32 (fieldAt tab (o + 72) 4),
    rsp := if fieldAt tab (o + 1) 1 = 1 then some (rspAt tab (fieldAt tab (o + 28) 4)) else none }
/-- Length of the descriptor at an offset, padded (R260). -/
def stageLen (tab : List Byte) (o : Nat) : Nat := roundUp (96 + 4 * fieldAt tab (o + 6) 2) 32
/-- Every reference of a stage. -/
def Stage.refs (x : Stage) : List (BitVec 64) := x.addrs ++ (match x.rsp with
  | some k => k.refs
  | none => [])
/-- The descriptor at an offset keeps to R65 and R260. -/
def stageOk (nBroods : Nat) (tab : List Byte) (o : Nat) : Bool :=
  let x := stageAt tab o
  let nb := fieldAt tab (o + 6) 2
  let rsp := fieldAt tab (o + 28) 4
  decide (o + stageLen tab o ≤ tab.length) && decide (x.kind ≤ 1) && decide (fieldAt tab (o + 2) 1 < 4) && x.entry % 4 == 0 &&
  decide (x.entry ≤ 0x3FFC) && decide (1 ≤ nb) && decide (nb ≤ 128) && decide (x.winMin < x.winMax) && x.outBytes % 64 == 0 &&
  zeroAt tab (o + 76) 20 && zeroAt tab (o + 96 + 4 * nb) (stageLen tab o - (96 + 4 * nb)) && x.addrs.all refOk &&
  (if x.kind = 1 then x.entry == 0 && rspOk tab rsp else rsp == 0) &&
  (List.range nb).all (fun n =>
    let u := broodAt tab o n
    decide (u.brood < nBroods) && decide (fieldAt tab (o + 97 + 4 * n) 1 ≤ 1) &&
    (if x.kind = 1 then !u.fused && u.tmask == 0#16 else !u.fused || u.tmask == 0xffff#16) &&
    x.broods.countP (fun v => v.brood == u.brood) == 1)

/-- The stages of a stage table with the model index each carries. Descriptors stand at multiples of 32 bytes (R260 pads them so); a
resampler block may stand anywhere (R244), and bytes of neither are 0. No bytes are both: a block's first source has C above 0 where a
descriptor holds zeros. `none` where something else stands. -/
def stageTable (nBroods : Nat) (tab : List Byte) : Nat → Nat → Option (List (Nat × Stage))
  | 0, _ => some []
  | fuel + 1, o =>
    if tab.length ≤ o then some []
    else if o % 32 == 0 && stageOk nBroods tab o then
      (stageTable nBroods tab fuel (o + stageLen tab o)).map (fun l => (fieldAt tab (o + 3) 1, stageAt tab o) :: l)
    else if rspOk tab o then stageTable nBroods tab fuel (o + rspLen tab o)
    else if fieldAt tab o 1 = 0 then stageTable nBroods tab fuel (o + 1)
    else none

/-! Records of 12, 16 and 64 bytes (R262 to R264). -/

/-- Pieces of `n` bytes. -/
def records (n : Nat) (l : List Byte) : List (List Byte) := (List.range (l.length / n)).map (fun i => bytesAt l (n * i) n)

/-- A synchronisation plan record: its stage and its object (R262). -/
def planAt (r : List Byte) : Nat × SyncPlanEntry :=
  (fieldAt r 0 1, { isLocal := bitOf (fieldAt r 3 1) 0, tile := fieldAt r 4 2, obj := fieldAt r 6 2, barrier := fieldAt r 1 1 == 1,
                    scopeP := fieldAt r 2 1 == 1, init := BitVec.ofNat 32 (fieldAt r 8 4) })
/-- A plan record keeps to R168 and R262 for the stage that declares it. -/
def planOk (nTiles : Nat) (x : Stage) (r : List Byte) : Bool :=
  let e := (planAt r).2
  decide (fieldAt r 1 1 ≤ 1) && decide (fieldAt r 2 1 ≤ 1) && decide (fieldAt r 3 1 ≤ 1) &&
  (if e.isLocal then !e.barrier && decide (e.tile < nTiles) && decide (8 ≤ e.obj) && decide (e.obj ≤ 31)
   else e.tile == 0 && x.usesBrood (e.obj / 512)) &&
  (!e.barrier || (decide (1 ≤ e.init.toNat) && decide (e.init.toNat ≤ 2048)))

/-- A pipeline descriptor (R263). -/
def pipeAt (r : List Byte) (slot : Nat) : PipeDesc :=
  let fl := fieldAt r 2 1
  { num := fieldAt r 0 1, multi := bitOf fl 0, expMgmt := bitOf fl 1, expLink := bitOf fl 2, nslot := fieldAt r 3 1,
    cam := BitVec.ofNat 32 (fieldAt r 4 4), net := BitVec.ofNat 16 (fieldAt r 8 2), gather := fieldAt r 12 4,
    period := fieldAt r 16 4, exp := BitVec.ofNat 32 (fieldAt r 20 4),
    stages := (List.range (fieldAt r 1 1)).map (fun i => fieldAt r (32 + i) 1), slot := slot }
/-- No number stands twice. -/
def distinct : List Nat → Bool
  | [] => true
  | a :: r => !r.contains a && distinct r
/-- Bits set in a number below 2^n. -/
def ones (n v : Nat) : Nat := (List.range n).countP (fun i => bitOf v i)
/-- A pipeline descriptor keeps to R263; its stages are the carrying model's (R268). -/
def pipeOk (declared : List Nat) (r : List Byte) : Bool :=
  let d := pipeAt r 0
  let n := fieldAt r 1 1
  decide (d.num ≤ 63) && decide (1 ≤ n) && decide (n ≤ 32) && decide (fieldAt r 2 1 < 8) && decide (2 ≤ d.nslot) &&
  decide (d.nslot ≤ 8) && zeroAt r 10 2 && zeroAt r 24 8 && (bytesAt r (32 + n) (32 - n)).all (fun b => b == 0xff#8) &&
  decide (1 ≤ ones 32 d.cam.toNat + ones 16 d.net.toNat) && decide (ones 32 d.cam.toNat + ones 16 d.net.toNat ≤ 32) &&
  distinct d.stages && d.stages.all (fun n => declared.contains n)

/-- A gap record (R264). -/
def gapAt (r : List Byte) (slot : Nat) : Gap :=
  { pipe := fieldAt r 0 1, brood := fieldAt r 1 1, offset := fieldAt r 4 4, length := fieldAt r 8 4, slot := slot }
def gapOk (nBroods : Nat) (r : List Byte) : Bool :=
  decide (fieldAt r 0 1 ≤ 63) && decide (fieldAt r 1 1 < nBroods) && zeroAt r 2 2 && decide (500 ≤ fieldAt r 8 4) && zeroAt r 12 4

/-! The whole image. -/

/-- A decoded image: its models and their pipelines. -/
structure Img where
  models : List Model := []
  pipes : List PipeDesc := []
  deriving DecidableEq, Repr

/-- Type, model, size, alignment and target of a section (R257). -/
def sectionOk (nTiles nBroods : Nat) (img : List Byte) (e : SecEnt) : Bool :=
  let all := e.model == 0xFFFF && (e.type == 7 || e.type == 8 || e.type == 10)
  decide (1 ≤ e.type) && decide (e.type ≤ 10) && (decide (e.model < fieldAt img 32 4) || all) && e.off % 32 == 0 &&
  (e.type == 6 || decide (e.off + e.bytes ≤ img.length)) &&
  (match e.type with
   | 1 => e.target == 0 && e.dest == 0 && e.bytes == 64
   | 2 => decide (e.target < nTiles) && e.dest % 4 == 0 && decide (e.dest + e.bytes ≤ 0x4000)
   | 3 => decide (e.target < nTiles) && decide (0x40 ≤ e.dest) && decide (e.dest + e.bytes ≤ 0x10000)
   | 4 => decide (e.target < nBroods) && decide (e.dest + e.bytes ≤ 0x40000)
   | 5 => e.target == 0
   | 6 => e.target == 0
   | 7 => e.target == 0 && e.dest == 0
   | 8 => e.target == 0 && e.dest == 0 && e.bytes % 12 == 0
   | 9 => e.target == 0 && e.dest == 0 && e.bytes % 64 == 0
   | _ => e.target == 0 && e.dest == 0 && e.bytes % 16 == 0)

/-- Sections of a type that belong to model `m`, those of every model included. -/
def secsOf (tab : List SecEnt) (type m : Nat) : List SecEnt :=
  tab.filter (fun e => e.type == type && (e.model == m || e.model == 0xFFFF))

/-- Stages of model `m` in one stage table; a table of one model must carry its index throughout (R257). -/
def tableStages (nBroods : Nat) (img : List Byte) (m : Nat) (e : SecEnt) : Option (List Stage) :=
  match stageTable nBroods (e.data img) ((e.data img).length + 1) 0 with
  | none => none
  | some l =>
    if (e.model = m ∧ l.any (fun p => p.1 != m)) ∨ l.any (fun p => decide (fieldAt img 32 4 ≤ p.1)) then none
    else some ((l.filter (fun p => p.1 == m)).map (fun p => p.2))

/-- Stages of model `m` in every stage table that may hold some. -/
def imgStages (nBroods : Nat) (img : List Byte) (tab : List SecEnt) (m : Nat) : Option (List Stage) :=
  ((secsOf tab 7 m).mapM (tableStages nBroods img m)).map List.flatten

/-- NAME is ASCII, zero-padded (R258). -/
def nameOk (n : List Byte) : Bool :=
  n.all (fun b => decide (b.toNat < 128)) && (n.dropWhile (fun b => b != 0#8)).all (fun b => b == 0#8)

/-- Entry of model `m`. -/
def modelEnt (img : List Byte) (tab : List SecEnt) (m : Nat) : List Byte :=
  match tab.find? (fun e => e.type == 1 && e.model == m) with
  | some e => e.data img
  | none => []

/-- Total bytes of sections of some types that model `m` owns. -/
def secTotal (tab : List SecEnt) (m : Nat) (types : List Nat) : Nat :=
  (tab.filter (fun e => e.model == m && types.contains e.type)).foldl (fun n e => n + e.bytes) 0

/-- Model `m` of the image, or `none` where an entry, section or record breaks R255 to R264. -/
def imgModel (nTiles nBroods : Nat) (img : List Byte) (tab : List SecEnt) (m : Nat) : Option Model :=
  let e := modelEnt img tab m
  let own := tab.filter (fun x => x.model == m && (x.type == 2 || x.type == 3 || x.type == 4 || x.type == 5 || x.type == 6))
  match imgStages nBroods img tab m with
  | none => none
  | some st =>
    let plans := ((secsOf tab 8 m).map (fun x => (records 12 (x.data img)).map (fun r => (x.model, r)))).flatten
    let mine := plans.filter (fun p => st.any (fun x => x.num == fieldAt p.2 0 1))
    let gaps := (secsOf tab 10 m).map (fun x => (records 16 (x.data img)).map (fun r => (x.model, r)))
    let pipes := ((secsOf tab 9 m).map (fun x => records 64 (x.data img))).flatten
    let pnums := pipes.map (fun r => fieldAt r 0 1)
    let ok := (tab.countP (fun x => x.type == 1 && x.model == m)) == 1 && decide (fieldAt e 0 1 ≤ 63) && zeroAt e 1 1 && nameOk (bytesAt e 16 16) &&
      fieldAt e 4 4 % 65536 == 0 && zeroAt e 40 24 && fieldAt e 2 2 == st.length && distinct (st.map (·.num)) &&
      fieldAt e 32 4 == secTotal tab m [2, 3] && fieldAt e 36 4 == secTotal tab m [4] &&
      (tab.filter (fun x => x.model == m && (x.type == 5 || x.type == 6))).all (fun x => decide (x.dest + x.bytes ≤ fieldAt e 4 4)) &&
      plans.all (fun p => p.1 == 0xFFFF || st.any (fun x => x.num == fieldAt p.2 0 1)) &&
      mine.all (fun p => st.any (fun x => x.num == fieldAt p.2 0 1 && planOk nTiles x p.2)) &&
      gaps.flatten.all (fun g => gapOk nBroods g.2) && pipes.all (pipeOk (st.map (·.num)))
    if ok then
      some { slot := fieldAt e 0 1, name := bytesAt e 16 16, id := BitVec.ofNat 64 (fieldAt e 8 8), chips := fieldAt img 10 1, digest := bytesAt img 40 48,
             regionBytes := fieldAt e 4 4,
             sections := own.map (fun x => { type := x.type, target := x.target, dest := x.dest, zero := x.type == 6,
                                             off := x.off, bytes := x.bytes }),
             stages := st.map (fun x => { x with slot := fieldAt e 0 1,
                                                 plan := (mine.filter (fun p => fieldAt p.2 0 1 == x.num)).map (fun p => (planAt p.2).2) }),
             gaps := (gaps.flatten.filter (fun g => g.1 == m || pnums.contains (fieldAt g.2 0 1))).map
               (fun g => gapAt g.2 (fieldAt e 0 1)) }
    else none

/-- Pipelines that the models of an image carry. -/
def imgPipes (img : List Byte) (tab : List SecEnt) (models : List Model) : List PipeDesc :=
  (models.zipIdx.map (fun p => ((secsOf tab 9 p.2).map (fun x => (records 64 (x.data img)).map (fun r => pipeAt r p.1.slot))).flatten)).flatten

/-- The decoded image, or `none` where it breaks R255 to R264 (the 0x1203 checks that need the image alone). -/
def parseImage (nTiles nBroods : Nat) (img : List Byte) : Option Img :=
  let tab := secTable img
  if !tab.all (sectionOk nTiles nBroods img) then none
  else match (List.range (fieldAt img 32 4)).mapM (imgModel nTiles nBroods img tab) with
    | none => none
    | some ms =>
      let pipes := imgPipes img tab ms
      let plansAll := ((tab.filter (fun e => e.type == 8 && e.model == 0xFFFF)).map (fun e => records 12 (e.data img))).flatten
      let gapsAll := ((tab.filter (fun e => e.type == 10 && e.model == 0xFFFF)).map (fun e => records 16 (e.data img))).flatten
      if distinct (ms.map (·.slot)) && distinct (pipes.map (·.num)) &&
          distinct ((pipes.map (·.stages)).flatten) &&
          plansAll.all (fun r => ms.countP (fun m => m.stages.any (fun x => x.num == fieldAt r 0 1)) == 1) &&
          gapsAll.all (fun r => pipes.any (fun p => p.num == fieldAt r 0 1))
      then some { models := ms, pipes := pipes } else none

end Sys2Proof.Machine
end

