-- ==== Sys2Proof/Machine/Models.lean ====
section
/-! DEFINITION. Loading, unloading and switching models: the checks of R265 that need the device, device memory, sections, objects,
bindings (R63, R202, R205, R265 to R270). -/
namespace Sys2Proof.Machine

/-! Device memory that the models take (R265, R269; the places are the model's, log entry 17). -/

/-- First address that model regions and staging slots take. -/
def heapBase : Nat := 0x200000000

/-- The pipeline descriptor that lists a stage: a loaded one, or one of an image. -/
def pipeListing (pipes : List PipeDesc) (n : Nat) : Option PipeDesc := pipes.find? (fun p => p.stages.contains n)

/-- The staging and scratch slots of bindings to stages of `out` bytes in pipelines of `n` staging slots. -/
def slotSpans (binds : List Binding) (out n : Nat → Nat) : List (Nat × Nat) :=
  (binds.map (fun b => [(b.base, n b.stage * out b.stage), (b.scratch, out b.stage)])).flatten

/-- Region and image copy of models. -/
def modelSpans (ms : List Model) : List (Nat × Nat) :=
  (ms.map (fun m => [(m.regionAt, m.regionBytes), (m.copyAt, m.copyBytes)])).flatten

/-- OUT_BYTES of a stage, where a model of the list declares it. -/
def outBytesIn (ms : List Model) (n : Nat) : Nat :=
  match ms.findSome? (fun m => m.stage? n) with
  | some x => x.outBytes
  | none => 0

/-- Spans of device memory in use: model regions and image copies, staging and scratch slots, slots of frames and published sets; those of a
load in progress, and the image copies of the start. -/
def State.spans (s : State) (kept : List Model) : List (Nat × Nat) :=
  modelSpans kept ++ s.sec.copies.map (fun c => (c.addr, c.bytes)) ++
  (match s.sched.loading with
   | some l => modelSpans l.models ++ slotSpans l.binds (outBytesIn l.models)
       (fun n => ((l.pipes.find? (fun p => p.desc.stages.contains n)).map (·.desc.nslot)).getD 0)
   | none => []) ++
  slotSpans s.sched.binds (fun n => ((s.stage? n).map (·.outBytes)).getD 0) (fun n => ((s.pipeOfStage n).map (·.desc.nslot)).getD 0) ++
  (s.sched.pipes.map (fun p => ((p.frames ++ p.sets.map (·.2) ++ p.lastPub.toList).map (fun f =>
    f.stages.map (fun r => (r.addr, r.bytes)))).flatten)).flatten

/-- The first 64 KiB boundary at or above `pos` with `size` free bytes; `fuel` bounds the spans passed. -/
def fitAt (used : List (Nat × Nat)) (size : Nat) : Nat → Nat → Option Nat
  | 0, _ => none
  | fuel + 1, pos =>
    if gddrEnd < pos + size then none
    else match used.find? (fun u => decide (0 < u.2) && decide (u.1 < pos + size) && decide (pos < u.1 + u.2)) with
      | some u => fitAt used size fuel (roundUp (u.1 + u.2) 65536)
      | none => some pos
/-- A place for `size` bytes. -/
def fit (used : List (Nat × Nat)) (size : Nat) : Option Nat := fitAt used (Nat.max size 1) (used.length + 1) heapBase

/-- Place models one after the other. -/
def placeModels : List (Nat × Nat) → List Model → Option (List Model × List (Nat × Nat))
  | used, [] => some ([], used)
  | used, m :: r =>
    match fit used m.regionBytes with
    | none => none
    | some a =>
      match placeModels ((a, m.regionBytes) :: used) r with
      | some (l, u) => some ({ m with regionAt := a } :: l, u)
      | none => none

/-- Bind the listed stages of a pipeline to a model, with a place for their staging and scratch slots. -/
def placeBinds (m : Model) (nslot : Nat) : List (Nat × Nat) → List Nat → Option (List Binding × List (Nat × Nat))
  | used, [] => some ([], used)
  | used, n :: r =>
    let out := match m.stage? n with
      | some x => x.outBytes
      | none => 0
    match fit used (nslot * out) with
    | none => none
    | some a =>
      let used := (a, nslot * out) :: used
      match fit used out with
      | none => none
      | some sc =>
        match placeBinds m nslot ((sc, out) :: used) r with
        | some (l, u) => some ({ stage := n, slot := m.slot, base := a, scratch := sc } :: l, u)
        | none => none

/-- The bindings of every pipeline of an image. -/
def placePipes (models : List Model) : List (Nat × Nat) → List PipeDesc → Option (List Binding × List (Nat × Nat))
  | used, [] => some ([], used)
  | used, p :: r =>
    match models.find? (fun m => m.slot == p.slot) with
    | none => none
    | some m =>
      match placeBinds m p.nslot used p.stages with
      | none => none
      | some (l, used) =>
        match placePipes models used r with
        | some (k, u) => some (l ++ k, u)
        | none => none

/-! The checks of R265. -/

/-- Every plan entry of a list of models, with its stage and slot. -/
def planEntries (ms : List Model) : List (Nat × Nat × SyncPlanEntry) :=
  (ms.map (fun m => (m.stages.map (fun x => x.plan.map (fun e => (m.slot, x.num, e)))).flatten)).flatten

/-- The rule of R205 over the plans of all models. -/
def plansOk (ms : List Model) : Bool :=
  let l := planEntries ms
  l.all (fun a => l.all (fun b =>
    if a.2.2.isLocal != b.2.2.isLocal || a.2.2.obj != b.2.2.obj then true
    else if a.2.2.isLocal then
      a.2.2.tile != b.2.2.tile || (a.1 == b.1 && a.2.1 == b.2.1) || (!a.2.2.scopeP && !b.2.2.scopeP)
    else a.2.1 == b.2.1))

/-- An on-chip address: tile memory, brood memory or system SRAM (R259). -/
def State.onChip (s : State) (a : Nat) : Bool :=
  if tileBase ≤ a ∧ a < tileBase + s.nTiles * 0x40000 then
    let o := (a - tileBase) % 0x40000
    decide (o < 0x18000) || (decide (0x20000 ≤ o) && decide (o < 0x24000))
  else (decide (broodBase ≤ a) && decide (a < broodBase + s.nBroods * 0x40000)) ||
    (decide (sysBase ≤ a) && decide (a < sysBase + 0x1000000))

/-- A reference of stage `x` of model `m` names a stage and an offset that R265 admits. The tensor of a stream runs to the end of its ring
entry; a stream without an enabled descriptor has no tensor yet to hold the offset against (log entry 17). -/
def State.refLoads (s : State) (img : Img) (m : Model) (x : Stage) (r : BitVec 64) : Bool :=
  let v := r.toNat
  let sel := bitsOf v 55 48
  let off := bitsOf v 47 0
  let outOf : Nat → Nat := fun n => match m.stage? n with
    | some y => y.outBytes
    | none => (match img.models.findSome? (fun k => k.stage? n) with
      | some y => y.outBytes
      | none => (match s.stage? n with
        | some y => y.outBytes
        | none => 0))
  let listed := pipeListing (img.pipes ++ s.sched.pipes.map (·.desc)) x.num
  match v / 2 ^ 60 with
  | 1 => decide (off < m.regionBytes)
  | 2 => decide (off < x.outBytes)
  | 3 => (match listed with
          | some p => (p.stages.takeWhile (fun n => n != x.num)).contains sel && decide (off < outOf sel)
          | none => false)
  | 4 => !(s.strm sel).desc.en || decide (s.tensorOff sel + off < (s.strm sel).desc.bufStride)
  | 5 => (match listed with
          | some p => p.stages.contains sel && decide (off < outOf sel)
          | none => false)
  | 6 => s.onChip off
  | 7 => decide (off < 64)
  | _ => true

/-- Sections of two lists overlap: same memory, same target, ranges that meet. Device sections meet only in their own model. -/
def sectionsMeet (a b : Section) (same : Bool) : Bool :=
  let kind : Section → Nat := fun x => if x.type = 6 then 5 else x.type
  kind a == kind b && a.target == b.target && (decide (kind a < 5) || same) && decide (a.dest < b.dest + b.bytes) &&
    decide (b.dest < a.dest + a.bytes)

/-- No section overlaps another of the list. -/
def sectionsApart : List (Nat × Section) → Bool
  | [] => true
  | a :: r => !r.any (fun b => sectionsMeet a.2 b.2 (a.1 == b.1)) && sectionsApart r

/-- Sections of models, with their slot. -/
def slotSections (ms : List Model) : List (Nat × Section) := (ms.map (fun m => m.sections.map (fun x => (m.slot, x)))).flatten

/-- Every brood that hosts a logical tile on a QM-only slot can be mapped under a set of stages (R63). -/
def State.qmMappable (s : State) (set : List Stage) : Bool :=
  (List.range s.nBroods).all (fun b => (s.brood b).qmHosted == [] || (s.mapPlan set b).isSome)

/-- Stages of an image that its pipelines bind. -/
def Img.bound (img : Img) : List Stage :=
  (img.pipes.map (fun p => match img.models.find? (fun m => m.slot == p.slot) with
    | some m => p.stages.filterMap m.stage?
    | none => [])).flatten

/-- A model of this slot has a bound stage. -/
def State.slotBound (s : State) (slot : Nat) : Bool := s.sched.binds.any (fun b => b.slot == slot)

/-- What a load will make: the placed models, the bindings and the models that stay. -/
structure Plan where
  models : List Model
  binds : List Binding
  kept : List Model
  copyAt : Nat
  deriving DecidableEq, Repr

/-- The checks of R265, in its order: the code and the slot it names, or what the load will make. `copy` is where a copy of the image stands
already. -/
def State.checkImage (s : State) (b : List Byte) (copy : Option Nat) : Except (Nat × Nat) (Img × Plan) :=
  if !headerOk b then .error (0x1203, 0xffff)
  else if fieldAt b 8 1 ≠ 64 ∨ fieldAt b 9 1 ≠ s.nRows then .error (0x1201, 0xffff)
  else if fieldAt b 10 1 ≠ s.cfg.chips ∨ fieldAt b 11 1 ≠ s.cfg.chip then .error (0x1201, 0xffff)
  else if fieldAt b 4 2 ≠ s.rd F.HIF_IFVER_MAJOR then .error (0x1202, 0xffff)
  else match parseImage s.nTiles s.nBroods b with
    | none => .error (0x1203, 0xffff)
    | some img =>
      let slots := img.models.map (·.slot)
      let u := slots.headD 0xffff
      let kept := s.sched.models.filter (fun m => !slots.contains m.slot || s.slotBound m.slot)
      if !plansOk (kept ++ img.models) then .error (0x1203, u)
      else if !img.models.all (fun m => m.stages.all (fun x => x.refs.all (s.refLoads img m x))) then .error (0x1203, u)
      else if !sectionsApart (slotSections img.models) ||
          (slotSections img.models).any (fun a => (slotSections kept).any (fun b => sectionsMeet a.2 b.2 (a.1 == b.1))) then
        .error (0x1204, u)
      else match placeModels (s.spans kept) img.models with
        | none => .error (0x1204, u)
        | some (ms, used) =>
          match placePipes ms used img.pipes with
          | none => .error (0x1204, u)
          | some (binds, used) =>
            match copy.orElse (fun _ => fit used b.length) with
            | none => .error (0x1204, u)
            | some copyAt =>
            if s.running && !s.qmMappable (s.loadedStages ++ img.bound) then .error (0x1204, u)
            else match slots.find? s.slotBound with
              | some sl => .error (0x1205, sl)
              | none =>
                if img.pipes.any (fun p => (s.pipe? p.num).isSome) || img.bound.any (fun x => (s.binding? x.num).isSome) then
                  .error (0x1205, u)
                else .ok (img, { models := ms, binds := binds, kept := kept, copyAt := copyAt })

/-! Writing (R63, R202, R266, R267). -/

/-- Where a section of a model goes: its device address. -/
def Model.secAddr (m : Model) (x : Section) : Nat := (x.place).getD (m.regionAt + x.dest)

/-- Pieces of at most 1 KiB. -/
def pieces1k (slot a : Nat) (d : List Byte) : List SectionPiece :=
  (List.range ((d.length + 1023) / 1024)).map (fun i =>
    { slot := slot, addr := a + 1024 * i, data := (d.drop (1024 * i)).take 1024 })

/-- The section is for a tile that runs a job of a bound stage now. -/
def State.secBusy (s : State) (x : Section) : Bool :=
  (x.type == 2 || x.type == 3) && (s.busyTile x.target || s.moving x.target) && s.boundStages.any (fun y => y.tiles.contains x.target)

/-- What a section writes: a part of the image, or zeros (R257). -/
def Section.payload (x : Section) (img : List Byte) : List Byte := if x.zero then zeros x.bytes else bytesAt img x.off x.bytes

/-- Write the sections of one model: at once, or as pieces where the tile is busy. The answer is 0, or the status of the write that failed
(R432, R604). -/
def State.writeSections (img : List Byte) (m : Model) : List Section → State → Nat × State
  | [], s => (0, s)
  | x :: r, s =>
    let d := x.payload img
    if !s.secHosted x then State.writeSections img m r s
    else if s.secBusy x then
      State.writeSections img m r { s with sched.pieces := s.sched.pieces ++ pieces1k m.slot (m.secAddr x) d }
    else match s.busWriteAt (mDsp 2) (m.secAddr x) d with
      | (.bad, e, s) => (s.badStatus e, s)
      | (_, _, s) => State.writeSections img m r s

/-- Write the sections of every model until one fails. -/
def State.writeModels (img : List Byte) : List Model → State → Nat × State
  | [], s => (0, s)
  | m :: r, s =>
    match State.writeSections img m m.sections s with
    | (0, s) => State.writeModels img r s
    | e => e

/-- Write the copy of the image, unless it stands there already (R267). -/
def State.writeCopy (s : State) (img : List Byte) (a : Nat) (stands : Bool) : Bool × State :=
  if stands then (true, s)
  else match s.busWrite (mDsp 2) a img with
    | (.ok, s) => (true, s)
    | (_, s) => (false, s)

/-- An object that some plan of a resident model declares. -/
def State.declared (s : State) (isLocal : Bool) (tile obj : Nat) : Bool :=
  s.sched.models.any (fun m => m.stages.any (fun x => x.plan.any (fun e =>
    e.isLocal == isLocal && e.obj == obj && (!isLocal || e.tile == tile))))

/-- Set to zero a global object (a counter from then on). -/
def State.zeroGlobal (s : State) (o : Nat) : State :=
  { s.setGobj o 0#32 with swarm.gbar := FMap.set 0 s.swarm.gbar o 0 }

/-- The objects of a loaded image: undeclared ones to zero, PIPELINE-scope ones to their initial values (R202). -/
def State.loadObjects (s : State) (ms : List Model) : State :=
  let st := (ms.map (·.stages)).flatten
  let bs := (st.map (fun x => x.broods.map (·.brood))).flatten.eraseDups
  let ts := (st.map (·.tiles)).flatten.eraseDups
  let s := s.each bs (fun s b => s.each ((List.range' (b * 512) 512).filter (fun o => !s.declared false 0 o)) State.zeroGlobal)
  let s := s.each ts (fun s t => s.each ((List.range' 8 24).filter (fun o => !s.declared true t o)) (fun s o => s.setLobj t o 0#32))
  s.each st State.pipeObjs

/-- Broods with a QM-hosted tile are to take the mapping that the loaded set calls for: forced moves of the logical indices that change
their slot become due (R63; log entry 18). -/
def State.remapQm (s : State) : State :=
  let set := s.loadedStages
  s.each ((List.range s.nBroods).filter (fun b => (s.brood b).qmHosted != [])) (fun s b =>
    match s.mapPlan set b with
    | some (l, _) =>
      let m := l.filter (fun e => s.slotOf b e.1 != e.2)
      s.modBrood b (fun x => { x with remap := m, forcedDue := m.map (·.1) })
    | none => s)

/-- A pipeline as it is loaded: stopped, with every staging slot free. -/
def Pipeline.fresh (d : PipeDesc) : Pipeline := { desc := d, free := List.range d.nslot }

/-- The sections are written: the slots become resident, their pipelines and bindings with them (R265). -/
def State.commitLoad (s : State) (l : Loading) : State :=
  let s := { s with sched.loading := none, sched.models := l.models.foldl (fun k m => insertBy (·.slot) m k) s.sched.models,
                    sched.pipes := s.sched.pipes ++ l.pipes }
  let s := { s with sched.binds := s.sched.binds ++ l.binds }
  let s := { s with sched.binds := s.sched.binds.map (fun (b : Binding) =>
    { b with failed := match s.stage? b.stage with
        | some x => !s.unitsHosted x
        | none => false }) }
  (s.loadObjects l.models).remapQm

/-- Load the models of a checked image (R265): the completion status, DETAIL, and the state. The slots stay empty while pieces wait for busy
tiles (R266, R267). -/
def State.applyImage (s : State) (b : List Byte) (img : Img) (pl : Plan) (copy : Bool) (digest : List Byte) (meas : Nat → List Byte) :
    Nat × Nat × State :=
  let s := { s with sched.models := pl.kept }
  let ms := pl.models.map (fun (m : Model) => { m with imgDigest := digest, meas := meas m.slot, copyAt := pl.copyAt, copyBytes := b.length })
  match State.writeModels b ms s with
  | (code + 1, s) => (code + 1, 0, { s with sched.pieces := [] })
  | (0, s) =>
    match s.writeCopy b pl.copyAt copy with
    | (false, s) => (0x4002, 0, { s with sched.pieces := [] })
    | (true, s) =>
      let l : Loading := { models := ms, pipes := img.pipes.map Pipeline.fresh, binds := pl.binds }
      (0, ms.foldl (fun n m => n + 2 ^ m.slot) 0,
        if s.sched.pieces = [] then s.commitLoad l else { s with sched.loading := some l })

/-- The digest of one image: bytes 40 to 87 read as zero (R256). -/
def imageDigest (img : List Byte) : List Byte := sha384 (bytesAt img 0 40 ++ zeros 48 ++ img.drop 88)

/-- Check and load a swarm image; a refusal raises its event (R265, R271, R605). -/
def State.loadImage (s : State) (img : List Byte) (copy : Option Nat) (meas : Nat → List Byte) : Nat × Nat × State :=
  match s.checkImage img copy with
  | .error (code, slot) => (code, 0, s.raise 163 code slot)
  | .ok (i, pl) => s.applyImage img i pl copy.isSome (imageDigest img) meas

/-! Commands (R265, R266, R269, R270, R414). -/

/-- HOW of a model's measurement: the hierarchy whose signatures were checked, or digest only (R535). -/
def State.modelHow (s : State) (o : List Byte) : Nat := if s.cfg.vmode = 2 then 2 else objHier o

/-- The verification of a waiting LOAD ends: the object is accepted and its image loaded, or the command fails (R265, R530). -/
def State.finishLoad (s : State) (w : Waiting) (sig : Bool) : State :=
  let a := w.cmd.b.toNat
  let n := w.cmd.a.toNat
  match s.verifyObject 8 a n sig with
  | (0, o, s) =>
    (match s.busRead (mDsp 2) a n with
     | (.ok, _, s) =>
       let meas := fun slot => measure 8 slot (s.modelHow o) (objVersion o) (objSvn o) (objDigest o)
       match s.loadImage (objPayload o) none meas with
       | (code, mask, s) =>
         if code = 0 ∧ s.sched.loading.isSome then
           { s with host.waiting := updFirst (fun x => x.cmd.tag == w.cmd.tag) (fun (x : Waiting) =>
               { x with stage := 2, detail := mask }) s.host.waiting }
         else s.endCmd w.cmd.tag code mask
     | (_, _, s) => s.endCmd w.cmd.tag 0x4002 0)
  | (code, _, s) => s.endCmd w.cmd.tag code 0

/-- The tile in whose window an address lies. -/
def pieceTile (a : Nat) : Nat := (a - tileBase) / 0x40000

/-- A piece can be written: its tile neither runs a job nor moves. -/
def State.pieceFits (s : State) (p : SectionPiece) : Bool :=
  !s.busyTile (pieceTile p.addr) && !s.moving (pieceTile p.addr) &&
    !s.sched.jobs.any (fun j => !j.waiting && (s.jobTiles j).contains (pieceTile p.addr))

/-- Piece `p` is written where its tile is hosted; the answer is 0, or the status of the write that failed (R432, R604). -/
def State.putPiece (s : State) (p : SectionPiece) : Nat × State :=
  if s.hosted (pieceTile p.addr) then
    match s.busWriteAt (mDsp 2) p.addr p.data with
    | (.bad, e, s) => (s.badStatus e, s)
    | (_, _, s) => (0, s)
  else (0, s)

/-- The load in progress ends its command with a status. -/
def State.loadEnds (s : State) (code : Nat) : State :=
  match s.host.waiting.find? (fun w => w.cmd.op == 2 && w.stage == 2) with
  | some w => s.endCmd w.cmd.tag code (if code = 0 then w.detail else 0)
  | none => s

/-- The load in progress becomes resident and its command completes when no piece is left; one whose piece failed is dropped, its slots
empty. -/
def State.pieceEnds (s : State) (code : Nat) : State :=
  match s.sched.loading with
  | none => s
  | some l =>
    if code ≠ 0 then ({ s with sched.pieces := [], sched.loading := none }).loadEnds code
    else if s.sched.pieces != [] then s
    else (s.commitLoad l).loadEnds 0

/-- The first piece whose tile is idle is written; the load whose last piece it was completes (R266). -/
def execSectionPieceWrite (s : State) : Host.Outcome State Fault Refusal :=
  done (match s.sched.pieces.find? s.pieceFits with
    | none => s
    | some p =>
      let r := ({ s with sched.pieces := delFirst s.pieceFits s.sched.pieces } : State).putPiece p
      r.2.pieceEnds r.1)

/-- Why a switch of stage `st` to slot `slot` is refused: true where it is (R270). -/
def State.switchBad (s : State) (st slot : Nat) : Bool :=
  match s.modelIn slot, s.stage? st, s.binding? st with
  | some m, some old, some b =>
    (match m.stage? st, s.modelIn b.slot with
     | some x, some om =>
       x.sync != old.sync || m.chips != om.chips || !s.qmMappable (x :: s.loadedStages.filter (fun y => y.num != st))
     | _, _ => true)
  | _, _, _ => true

/-- The broods of an incoming stage whose 16 logical tiles are idle change to its mode; the others do at its next job (R68, R269). -/
def State.switchModes (s : State) (x : Stage) : State :=
  if x.kind = 1 then s
  else s.each (x.broods.filter (fun u => !(broodTiles u.brood).any s.busyTile)) (fun s u => s.wrB F.BRD_STATUS_MODE u.fused u.brood)

/-- Apply a switch: the binding, PIPELINE-scope objects, the brood modes, the staging slots where the outputs are larger (R269). -/
def State.applySwitch (s : State) (st slot : Nat) : State :=
  match (s.modelIn slot).bind (fun m => m.stage? st), s.pipeOfStage st, s.stage? st with
  | some x, some p, some old =>
    let s' := { s with sched.binds := updFirst (fun b => b.stage == st) (fun (b : Binding) =>
      { b with slot := slot, failed := !s.unitsHosted x }) s.sched.binds }
    let s' := if x.outBytes ≤ old.outBytes then s' else
      match fit (s.spans s.sched.models) (p.desc.nslot * x.outBytes) with
      | none => s'
      | some a =>
        let sc := (fit ((a, p.desc.nslot * x.outBytes) :: s.spans s.sched.models) x.outBytes).getD a
        { s' with sched.binds := updFirst (fun b => b.stage == st) (fun (b : Binding) => { b with base := a, scratch := sc }) s'.sched.binds }
    ((s'.pipeObjs x).switchModes x).remapQm
  | _, _, _ => s

/-- The oldest pending switch whose pipeline is at a frame boundary is applied, or refused if it no longer can be (R269, R270). -/
def execSwitchApply (s : State) : Host.Outcome State Fault Refusal :=
  done (
    let due : Nat × Nat × Option Nat → Bool := fun e => match s.pipeOfStage e.1 with
      | some p => p.boundary
      | none => true
    match s.sched.switches.find? due with
    | none => s
    | some (st, slot, tag) =>
      let s := { s with sched.switches := delFirst due s.sched.switches }
      let fin : State → Nat → State := fun s c => match tag with
        | some g => s.endCmd g c 0
        | none => s
      if s.switchBad st slot then fin (s.raise 163 0x1220 slot) 0x1220 else fin (s.applySwitch st slot) 0)

end Sys2Proof.Machine
end

