-- ==== Sys2Proof/Machine/HostCmds.lean ====
section
/-! DEFINITION. The commands of the command ring: how an entry is taken, and each opcode (R38, R40, R42, R413, R414, R419 to R423, R520,
R542). FULL_BIST_END stands with the restarts. -/
namespace Sys2Proof.Machine

/-! Taking an entry (R405, R413, R414). -/

/-- The entry that 64 bytes spell (R413). -/
def cmdAt (l : List Byte) : Cmd :=
  { op := fieldAt l 0 1, flags := fieldAt l 1 1, tag := fieldAt l 2 2, a := BitVec.ofNat 32 (fieldAt l 4 4),
    b := BitVec.ofNat 64 (fieldAt l 8 8), seed := BitVec.ofNat 64 (fieldAt l 16 8), stream := BitVec.ofNat 32 (fieldAt l 24 4),
    refs := (List.range 4).map (fun i => BitVec.ofNat 64 (fieldAt l (32 + 8 * i) 8)), rest := fieldAt l 28 4 != 0 }

/-- The dispatch cores take commands: attached, running, no handover, and an entry is waiting (R411, R424, R443). -/
def State.cmdReady (s : State) : Bool :=
  s.attached && s.running && !s.handover && s.rd F.HIF_RING_CFG_ESIZE 0 != 0 && s.ringUsed 0 != 0

/-- The entry at CONS is consumed; vector 5 follows if the ring had been full (R401). -/
def State.consumed (s : State) : State :=
  let s := s.wr F.HIF_RING_CONS_CONS (s.rd F.HIF_RING_CONS_CONS 0 + 1) 0
  if s.host.cmdFull then ({ s with host.cmdFull := false }).msix 5 else s

/-- A tag of the sequencer's range, or one that is in flight (R40, R414). -/
def State.tagBad (s : State) (tag : Nat) : Bool :=
  decide (0xFFC0 ≤ tag) || (s.waiting? tag).isSome || s.sched.jobs.any (fun j => j.host && j.tag == tag)

/-- Take the entry at CONS if it satisfies `mine`, and do what it asks. A bad tag drops it with a violation (R414). -/
def State.takeCmd (s : State) (mine : Cmd → Bool) (f : Cmd → State → State) : State :=
  if !s.cmdReady then s
  else
    let ix := s.rd F.HIF_RING_CONS_CONS 0
    match s.busRead (mDsp 0) (s.ringSlot 0 ix) 64 with
    | (.ok, l, s') =>
      let c := cmdAt l
      if !mine c then s
      else if s.tagBad c.tag then s'.consumed.cnt F.HIF_VIOL1_TAG
      else f c (s'.consumed.trace 0x30 0 [c.op, c.tag, ix, 0])
    | _ => s

/-- The fields that only SUBMIT uses are 0 (R413). -/
def Cmd.plain (c : Cmd) : Bool :=
  c.flags == 0 && c.seed == 0#64 && c.stream == 0#32 && c.refs.all (fun r => r == 0#64) && !c.rest

/-- A command waits for its completion. -/
def State.begin (s : State) (c : Cmd) : State := { s with host.waiting := s.host.waiting ++ [{ cmd := c, since := s.tick }] }

/-- Take a command of opcode `op`; a field outside its row completes it with 0x7020 (R414). -/
def State.opcode (s : State) (op : Nat) (sel : Cmd → Bool) (ok : Cmd → Bool) (f : Cmd → State → State) : State :=
  s.takeCmd (fun c => c.op == op && sel c) (fun c s =>
    let s := s.begin c
    if c.plain && ok c then f c s else s.refuseCmd c.tag 0x7020 0)

def Cmd.arg (c : Cmd) : Nat := c.a.toNat
def Cmd.addr (c : Cmd) : Nat := c.b.toNat

/-- Mark the waiting command with a step number (R414). -/
def State.stageCmd (s : State) (tag n : Nat) : State :=
  { s with host.waiting := updFirst (fun w => w.cmd.tag == tag) (fun (w : Waiting) => { w with stage := n }) s.host.waiting }

/-! SUBMIT (R38, R419). -/

/-- Every field lies inside the row of SUBMIT, and an override field is used only with its FLAGS bit (R413, R414). -/
def Cmd.submitForm (c : Cmd) : Bool :=
  decide (c.flags < 64) && decide (c.arg < 2 ^ 14) && decide (c.addr < 2 ^ 32) && (c.seed == 0#64 || bitOf c.flags 0) &&
  (c.stream == 0#32 || bitOf c.flags 1) && c.refs.zipIdx.all (fun r => r.1 == 0#64 || bitOf c.flags (2 + r.2)) && !c.rest

/-- The inputs of a frame that a SUBMIT opens: the last good entry of every stream, stale unless the stream is receiving
(R419; log entry 24). -/
def State.hostInputs (s : State) (x : Pipeline) : List GatherEntry :=
  x.desc.streams.map (fun n => let g := s.standIn n; if (s.strm n).state = 2 then { g with stale := false } else g)

/-- How far frame number `num` lies beyond the last frame opened; 1 where none has been. -/
def Pipeline.ahead (x : Pipeline) (num : Nat) : Nat :=
  match x.lastFrame with
  | some f => (num + 2 ^ 32 - f.num) % 2 ^ 32
  | none => 1

/-- The stage and pipeline of an acceptable SUBMIT (R419). A stage that the frame already runs, or a frame that has ended, is refused. -/
def State.submitTo (s : State) (c : Cmd) : Option (Stage × Pipeline) :=
  let p := bitsOf c.arg 13 8
  let st := c.arg % 256
  match s.pipe? p, s.stage? st with
  | some x, some g =>
    let d := x.ahead c.addr
    if !c.submitForm || !x.hostSched || !x.desc.stages.contains st || decide (2 ^ 31 ≤ d) then none
    else if d ≠ 0 then some (g, x)
    else match s.frame? p c.addr with
      | some f =>
        let fresh := match f.stage? st with
          | some r => r.status == 0
          | none => false
        if f.outcome == 0 && fresh && !s.sched.jobs.any (fun j => j.pipe == p && j.frame == f.num && j.stage == st) then some (g, x)
        else none
      | none => none
  | _, _ => none

/-- A refused SUBMIT completes as a command (R414, R415). -/
def State.submitEnds (s : State) (c : Cmd) (status : Nat) : State := s.cmdEntry { cmd := c, since := s.tick } status 0

/-- The job of an accepted SUBMIT: the overrides take the place of the stage descriptor's fields (R261, R419). A stage that cannot run
fails for the frame at once (R82, R216). -/
def State.submitJob (s : State) (c : Cmd) (g : Stage) (x : Pipeline) : State :=
  let p := x.desc.num
  let bad := match s.binding? g.num with
    | some b => b.failed
    | none => true
  if bad || !s.unitsHosted g || (x.desc.multi && !s.linksUp) then
    (s.markFailed p c.addr g.num 0x1F01 []).complete
      { kind := 2, flags := if g.qm then 2 else 0, tag := c.tag, status := 0x1F01, pipe := p, stage := g.num, frame := c.addr }
  else
    s.makeJob g p c.addr c.tag true c.flags (if bitOf c.flags 0 then c.seed else g.seed)
      (if bitOf c.flags 1 then c.stream else g.stream)
      (g.addrs.zipIdx.map (fun r => if bitOf c.flags (2 + r.2) then c.refs.getD r.2 0#64 else r.1))

/-- The first SUBMIT with a new frame number opens the frame (R419). -/
def State.submitOpen (s : State) (c : Cmd) (x : Pipeline) : State :=
  if x.ahead c.addr = 0 then s
  else
    let inputs := s.hostInputs x
    s.openFrame x.desc.num c.addr inputs (inputs.foldl (fun m g => Nat.max m (g.stamp.getD 0)) 0)

def execSubmitCmd (s : State) : Host.Outcome State Fault Refusal :=
  done (s.takeCmd (fun c => c.op == 1 && (s.tagBad c.tag || (s.submitTo c).isNone || decide (s.hostJobs < 448))) (fun c s =>
    match s.submitTo c with
    | none => (s.raise 160 0x7020 0).submitEnds c 0x7020
    | some (g, x) =>
      let s := s.submitOpen c x
      match s.takeSlots x.desc.num c.addr with
      | some s => s.submitJob c g x
      | none =>
        match s.frame? x.desc.num c.addr with
        | some f => ((s.withhold x.desc.num f 0x1F03).settleArbs.kickJobs).submitEnds c 0x1F03
        | none => s.submitEnds c 0x1F03))

/-! LOAD, UNLOAD, SWITCH (R265, R269, R270, R414). -/

/-- LOAD: the object is verified next (OBJECT_VERIFY_END). -/
def execLoadCmd (s : State) : Host.Outcome State Fault Refusal :=
  done (s.opcode 2 (fun _ => true) (fun c => decide (0 < c.arg) && decide (c.addr + c.arg ≤ gddrEnd))
    (fun c s => s.stageCmd c.tag 1))

/-- UNLOAD: an empty slot changes nothing; a slot with a bound stage is refused. -/
def execUnloadCmd (s : State) : Host.Outcome State Fault Refusal :=
  done (s.opcode 3 (fun _ => true) (fun c => decide (c.arg < 64) && c.addr == 0) (fun c s =>
    if (s.modelIn c.arg).isNone then s.endCmd c.tag 0 0
    else if s.slotBound c.arg then (s.raise 163 0x1205 c.arg).endCmd c.tag 0x1205 0
    else
      ({ s with sched.models := s.sched.models.filter (fun m => m.slot != c.arg) } : State).endCmd c.tag 0 (2 ^ c.arg)))

/-- SWITCH: refused with 0x1220, or queued for the pipeline's next frame boundary. -/
def execSwitchCmd (s : State) : Host.Outcome State Fault Refusal :=
  done (s.opcode 4 (fun _ => true) (fun c => decide (c.arg < 2 ^ 14) && c.addr == 0) (fun c s =>
    let st := c.arg % 256
    let slot := bitsOf c.arg 13 8
    if s.switchBad st slot then (s.raise 163 0x1220 slot).endCmd c.tag 0x1220 0
    else { s with sched.switches := s.sched.switches ++ [(st, slot, some c.tag)] }))

/-! PIPE and MODE (R42, R414). -/

def execPipeCmd (s : State) : Host.Outcome State Fault Refusal :=
  done (s.opcode 5 (fun _ => true) (fun c => c.a &&& ~~~ 0x13f#32 == 0#32 && c.addr == 0 && (s.pipe? (c.arg % 64)).isSome)
    (fun c s => s.stageCmd c.tag 1))

/-- A pipeline starts or stops at a frame boundary; one whose streams are all lost does not trigger (R317). -/
def State.setRunning (s : State) (p : Nat) (on : Bool) : State :=
  (s.modPipe p (fun x => { x with running := on, stopLost := false, gather := [], openAt := none })).checkLost

/-- PIPE_APPLY: the oldest PIPE command whose pipeline is at a frame boundary takes effect. No pipeline starts while full-chip BIST
runs (R521). -/
def execPipeApply (s : State) : Host.Outcome State Fault Refusal :=
  done (
    let due : Waiting → Bool := fun w => w.cmd.op == 5 && (match s.pipe? (w.cmd.arg % 64) with
      | some x => x.boundary && s.chk.bistAt.isNone
      | none => true)
    match s.host.waiting.find? due with
    | some w => onlyIf s.running s (fun s => (s.setRunning (w.cmd.arg % 64) (bitOf w.cmd.arg 8)).endCmd w.cmd.tag 0 0)
    | none => s)

/-- INDEX of a MODE command names what its function needs (R414). -/
def State.modeOk (s : State) (c : Cmd) : Bool :=
  let fn := c.arg % 8
  let ix := bitsOf c.arg 15 8
  c.a &&& ~~~ 0x1ff07#32 == 0#32 && c.addr == 0 &&
  (match fn with
   | 0 => (s.pipe? ix).isSome
   | 1 => decide (ix < 48) && (s.strm ix).desc.en &&
       (bitOf c.arg 16 || (s.strm ix).desc.warp != 255 || (s.strm ix).desc.lidar ix)
   | 2 => (s.pipe? ix).isSome
   | 3 => ix == 0
   | 4 => ix == 0
   | 5 => ix == 0
   | _ => false)

def execModeCmd (s : State) : Host.Outcome State Fault Refusal :=
  done (s.opcode 6 (fun _ => true) s.modeOk (fun c s => s.stageCmd c.tag 1))

/-- HOST_PRE of a stream changes, in its descriptor and in the stream descriptor table; the stream resynchronises (R304, R306, R414). -/
def State.setHostPre (s : State) (n : Nat) (on : Bool) : State :=
  let a := descTable + 128 * n
  let s := match s.readN mIntake a 1 with
    | (some v, s) => s.store mIntake a (natLe 1 (v - (if bitOf v 1 then 2 else 0) + (if on then 2 else 0)))
    | (none, s) => s
  s.setDesc n { (s.strm n).desc with hostPre := on }

/-- Memory training changes its mode (R385). -/
def State.setMemtrain (s : State) (on : Bool) : State :=
  ({ s with modes.memtrain := on }).each (List.range 8) (fun s c =>
    let s := s.wrB F.MEM_TRAIN_DUE (on && (s.chan c).dueAt.isSome) c
    if on then s else (s.wr F.MEM_TRAIN_GRANT 0 c).modChan c (fun x => { x with overdue := false }))

/-- The instant at which a mode change takes effect has come (R42). -/
def State.modeDue (s : State) (c : Cmd) : Bool :=
  let ix := bitsOf c.arg 15 8
  let atBoundary := match s.pipe? ix with
    | some x => x.boundary
    | none => true
  match c.arg % 8 with
  | 0 => atBoundary
  | 1 => s.sched.pipes.all (fun p => !p.desc.streams.contains ix || p.boundary)
  | 2 => atBoundary
  | 4 => (List.range s.nBroods).all (fun b => (s.brood b).move.isNone) && s.chk.units.all (fun u => !u.2.running) &&
      s.swarm.slots.all (fun x => !x.2.inSlice)
  | _ => true

/-- A mode change takes effect. -/
def State.applyMode (s : State) (c : Cmd) : State :=
  let ix := bitsOf c.arg 15 8
  let on := bitOf c.arg 16
  match c.arg % 8 with
  | 0 => s.modPipe ix (fun x => { x with hostSched := on, gather := [], openAt := none })
  | 1 => s.setHostPre ix on
  | 2 => s.modPipe ix (fun x => { x with hostRec := on })
  | 3 => { s with modes.react := on }
  | 4 => { s with modes.selftest := on }
  | _ => s.setMemtrain on

/-- MODE_APPLY: the oldest MODE command that can take effect does. -/
def execModeApply (s : State) : Host.Outcome State Fault Refusal :=
  done (
    match s.host.waiting.find? (fun w => w.cmd.op == 6 && s.modeDue w.cmd) with
    | some w => onlyIf s.running s (fun s => (s.applyMode w.cmd).endCmd w.cmd.tag 0 0)
    | none => s)

/-! REACT (R421). -/

def execReactCmd (s : State) : Host.Outcome State Fault Refusal :=
  done (s.opcode 7 (fun _ => true) (fun c => decide (c.arg ≤ 5) && decide (c.addr < 2 ^ 32)) (fun c s =>
    match s.host.decides.find? (fun d => d.seq == c.addr) with
    | some d =>
      let s := { s with host.decides := delFirst (fun x => x.seq == d.seq) s.host.decides }
      (s.takeReaction d.ev c.arg false).endCmd c.tag 0 0
    | none => s.refuseCmd c.tag 0x7020 0))

/-! Contexts (R422, R423). The payloads of the sections are laid out by the model (log entry 25). -/

/-- A section of a context. -/
def ctxSection (type target : Nat) (payload : List Byte) : List Byte :=
  natLe 2 type ++ zeros 2 ++ natLe 4 payload.length ++ natLe 8 target ++ payload

/-- TYPE 1: device-wide modes, host pre-processing of the streams, modes of the pipelines, bindings. -/
def State.ctxModes (s : State) : List Byte :=
  let pre := (List.range 48).foldl (fun m n => if (s.strm n).desc.hostPre then m + 2 ^ n else m) 0
  natLe 1 (b2n s.modes.react + 2 * b2n s.modes.selftest + 4 * b2n s.modes.memtrain) ++ natLe 1 s.sched.pipes.length ++
  natLe 2 s.sched.binds.length ++ natLe 8 pre ++
  (s.sched.pipes.map (fun p => natLe 1 p.desc.num ++ natLe 1 (b2n p.hostSched + 2 * b2n p.hostRec))).flatten ++
  (s.sched.binds.map (fun b => natLe 1 b.stage ++ natLe 1 b.slot)).flatten
/-- TYPE 2: frame numbers and run states. -/
def State.ctxPipes (s : State) : List Byte :=
  (s.sched.pipes.map (fun p => natLe 1 p.desc.num ++ natLe 3 (b2n p.running) ++ natLe 4 p.frameNum)).flatten
/-- TYPE 3: objects of PIPELINE scope. -/
def State.ctxObjects (s : State) : List Byte :=
  ((s.boundStages.map (fun x => x.plan.filter (·.scopeP))).flatten.map (fun e =>
    let v := s.readObj e
    natLe 2 v.1 ++ natLe 2 0 ++ natLe 4 v.2.1 ++ natLe 4 v.2.2.toNat ++
      natLe 4 (if e.isLocal then 0 else FMap.get 0 s.swarm.gbar e.obj))).flatten
/-- TYPE 7: last good entries and stamps. -/
def State.ctxStreams (s : State) : List Byte :=
  ((List.range 48).filterMap (fun n => (s.strm n).last.map (fun l =>
    ctxSection 7 n (natLe 4 l.1 ++ natLe 4 (b2n (s.strm n).everGood) ++ natLe 8 l.2)))).flatten
/-- Streams with a last good entry. -/
def State.ctxStreamCount (s : State) : Nat := (List.range 48).countP (fun n => (s.strm n).last.isSome)

/-- Memories that programs keep: TYPE, TARGET, address, length. -/
def State.ctxMems (s : State) : List (Nat × Nat × Nat × Nat) :=
  s.sched.models.map (fun m => (4, m.slot, m.regionAt, m.regionBytes)) ++
  ((sortNat (s.boundStages.map (·.tiles)).flatten.eraseDups).filter s.hosted).map (fun t => (5, t, tileAddr t 64, 0xffc0)) ++
  ((sortNat (s.boundStages.map (fun x => x.broods.map (·.brood))).flatten.eraseDups).filter (fun b => !s.excluded b)).map
    (fun b => (6, b, broodAddr b 0, 0x40000))

/-- Read memory sections; the status of the first that cannot be read. -/
def readMems : List (Nat × Nat × Nat × Nat) → State → Except Nat (List Byte) × State
  | [], s => (.ok [], s)
  | (type, target, a, n) :: r, s =>
    match s.busRead (mDsp 0) a n with
    | (.ok, d, s) =>
      (match readMems r s with
       | (.ok l, s) => (.ok (ctxSection type target d ++ l), s)
       | e => e)
    | (_, _, s) => (.error (s.badStatus a), s)

/-- RES_DIGEST. -/
def State.resDigest (s : State) : List Byte := sha384 (s.sched.models.map (fun m => bytesAt m.imgDigest 0 48)).flatten

/-- The narrowest chip-link port (R422). -/
def State.chlWidth (s : State) : Nat :=
  (List.range s.nPorts).foldl (fun m p => Nat.min m (s.rd F.CHL_STATUS_WIDTH p)) 15

/-- The header of a context whose sections are `n` bytes long (R422). -/
def State.ctxHeader (s : State) (n count : Nat) : List Byte :=
  natLe 4 0x58544351 ++ natLe 2 (s.rd F.HIF_IFVER_MAJOR) ++ natLe 2 (s.rd F.HIF_IFVER_MINOR) ++ natLe 1 64 ++ natLe 1 s.nRows ++
  natLe 1 s.cfg.chips ++ natLe 1 s.cfg.chip ++ natLe 1 (s.rd F.HIF_LINK_WIDTH) ++ natLe 1 s.chlWidth ++ natLe 2 0 ++
  natLe 8 (128 + n) ++ natLe 8 s.tick ++ s.resDigest ++ natLe 4 count ++ zeros 44

/-- SAVE and RESTORE are refused while a pipeline or full-chip BIST runs (R422, R425). -/
def State.ctxBusy (s : State) : Bool := s.anyRunning || s.chk.bistAt.isSome

def execSaveCmd (s : State) : Host.Outcome State Fault Refusal :=
  done (s.opcode 8 (fun _ => true) (fun c => c.addr % 64 == 0 && decide (c.addr + c.arg ≤ gddrEnd)) (fun c s =>
    if s.ctxBusy then s.refuseCmd c.tag 0x7021 0
    else
      let mems := s.ctxMems
      match readMems mems s with
      | (.error e, s) => s.endCmd c.tag e 0
      | (.ok l, s) =>
        let body := ctxSection 1 0 s.ctxModes ++ ctxSection 2 0 s.ctxPipes ++ ctxSection 3 0 s.ctxObjects ++ l ++ s.ctxStreams
        let ctx := s.ctxHeader body.length (3 + mems.length + s.ctxStreamCount) ++ body
        if c.arg < ctx.length then s.refuseCmd c.tag 0x7050 ctx.length
        else match s.busWrite (mDsp 0) c.addr ctx with
          | (.ok, s) => s.endCmd c.tag 0 ctx.length
          | (_, s) => s.endCmd c.tag (s.badStatus c.addr) 0))

/-- The sections of a context: exactly `n` that fill the bytes. -/
def ctxSections : Nat → List Byte → Option (List (Nat × Nat × List Byte))
  | 0, l => if l = [] then some [] else none
  | n + 1, l =>
    let len := fieldAt l 4 4
    if l.length < 16 + len || fieldAt l 2 2 != 0 then none
    else (ctxSections n (l.drop (16 + len))).map (fun r => (fieldAt l 0 2, fieldAt l 8 8, bytesAt l 16 len) :: r)

/-- A section has the structure of its TYPE. -/
def State.ctxSectionOk (s : State) (x : Nat × Nat × List Byte) : Bool :=
  let n := x.2.2.length
  match x.1 with
  | 1 => x.2.1 == 0 && decide (12 ≤ n) && n == 12 + 2 * fieldAt x.2.2 1 1 + 2 * fieldAt x.2.2 2 2
  | 2 => x.2.1 == 0 && n % 8 == 0
  | 3 => x.2.1 == 0 && n % 16 == 0
  | 4 => decide (x.2.1 < 64) && (match s.modelIn x.2.1 with
      | some m => m.regionBytes == n
      | none => true)
  | 5 => decide (x.2.1 < 2048) && n == 0xffc0
  | 6 => decide (x.2.1 < 128) && n == 0x40000
  | 7 => decide (x.2.1 < 48) && n == 16
  | _ => false

/-- The checks of R423, in order: 0, or the refusal. -/
def State.ctxCheck (s : State) (l : List Byte) : Nat × List (Nat × Nat × List Byte) :=
  match if decide (128 ≤ l.length) && fieldAt l 0 4 == 0x58544351 && fieldAt l 16 8 == l.length
      then ctxSections (fieldAt l 80 4) (l.drop 128) else none with
  | none => (0x7050, [])
  | some x =>
    if !x.all s.ctxSectionOk then (0x7050, [])
    else if fieldAt l 8 1 ≠ 64 ∨ fieldAt l 9 1 ≠ s.nRows ∨ fieldAt l 10 1 ≠ s.cfg.chips ∨ fieldAt l 11 1 ≠ s.cfg.chip then (0x7051, [])
    else if fieldAt l 4 2 ≠ s.rd F.HIF_IFVER_MAJOR then (0x7052, [])
    else if bytesAt l 32 48 ≠ s.resDigest then (0x7053, [])
    else (0, x)

/-- Restore bindings and modes. -/
def State.ctxSetModes (s : State) (l : List Byte) : State :=
  let m := fieldAt l 0 1
  let np := fieldAt l 1 1
  let pre := fieldAt l 4 8
  let s := ({ s with modes.react := bitOf m 0, modes.selftest := bitOf m 1 }).setMemtrain (bitOf m 2)
  let s := s.each ((List.range 48).filter (fun n => (s.strm n).desc.en && (s.strm n).desc.hostPre != bitOf pre n))
    (fun s n => s.setHostPre n (bitOf pre n))
  let s := s.each (List.range np) (fun s i => s.modPipe (fieldAt l (12 + 2 * i) 1) (fun x =>
    { x with hostSched := bitOf (fieldAt l (13 + 2 * i) 1) 0, hostRec := bitOf (fieldAt l (13 + 2 * i) 1) 1 }))
  s.each (List.range (fieldAt l 2 2)) (fun s i =>
    let st := fieldAt l (12 + 2 * np + 2 * i) 1
    let slot := fieldAt l (13 + 2 * np + 2 * i) 1
    match s.binding? st with
    | some b => if b.slot = slot || s.switchBad st slot then s else s.applySwitch st slot
    | none => s)
/-- Restore frame numbers. -/
def State.ctxSetPipes (s : State) (l : List Byte) : State :=
  s.each (List.range (l.length / 8)) (fun s i =>
    let n := fieldAt l (8 * i + 4) 4
    s.modPipe (fieldAt l (8 * i) 1) (fun x =>
      { x with frameNum := n, lastFrame := x.lastFrame.map (fun (f : Frame) => { f with num := (n + 2 ^ 32 - 1) % 2 ^ 32 }) }))
/-- Restore synchronisation objects. -/
def State.ctxSetObjects (s : State) (l : List Byte) : State :=
  s.each (List.range (l.length / 16)) (fun s i =>
    let e := l.drop (16 * i)
    let s := s.putObj (fieldAt e 0 2, fieldAt e 4 4, BitVec.ofNat 32 (fieldAt e 8 4))
    if fieldAt e 0 2 = 65535 then { s with swarm.gbar := FMap.set 0 s.swarm.gbar (fieldAt e 4 4) (fieldAt e 12 4) } else s)

/-- Restore a memory section; the answer is 0, or the status of a word or sector that could not be merged (R432, R604). -/
def State.ctxStore (s : State) (a : Nat) (d : List Byte) : Nat × State :=
  match s.busWriteAt (mDsp 0) a d with
  | (.bad, e, s) => (s.badStatus e, s)
  | (_, _, s) => (0, s)

/-- Restore one section. -/
def State.ctxApply (s : State) (x : Nat × Nat × List Byte) : Nat × State :=
  match x.1 with
  | 1 => (0, s.ctxSetModes x.2.2)
  | 2 => (0, s.ctxSetPipes x.2.2)
  | 3 => (0, s.ctxSetObjects x.2.2)
  | 4 => (match s.modelIn x.2.1 with
      | some m => s.ctxStore m.regionAt x.2.2
      | none => (0, s))
  | 5 => if s.hosted x.2.1 then s.ctxStore (tileAddr x.2.1 64) x.2.2 else (0, s)
  | 6 => if x.2.1 < s.nBroods ∧ !s.excluded x.2.1 then s.ctxStore (broodAddr x.2.1 0) x.2.2 else (0, s)
  | _ => (0, s.modStrm x.2.1 (fun y =>
      { y with last := some (fieldAt x.2.2 0 4, fieldAt x.2.2 8 8), everGood := fieldAt x.2.2 4 4 != 0 }))

/-- Restore sections in order until one fails. -/
def State.ctxApplyAll : List (Nat × Nat × List Byte) → State → Nat × State
  | [], s => (0, s)
  | x :: r, s =>
    match s.ctxApply x with
    | (0, s) => State.ctxApplyAll r s
    | e => e

def execRestoreCmd (s : State) : Host.Outcome State Fault Refusal :=
  done (s.opcode 9 (fun _ => true) (fun c => c.addr % 64 == 0 && decide (c.addr + c.arg ≤ gddrEnd)) (fun c s =>
    if s.ctxBusy then s.refuseCmd c.tag 0x7021 0
    else match s.busRead (mDsp 0) c.addr c.arg with
      | (.ok, l, s) =>
        let r := s.ctxCheck l
        if r.1 ≠ 0 then s.refuseCmd c.tag r.1 0
        else match State.ctxApplyAll r.2 s with
          | (0, s) => s.endCmd c.tag 0 (fieldAt l 12 1 + 256 * s.rd F.HIF_LINK_WIDTH)
          | (e, s) => s.endCmd c.tag e 0
      | (_, _, s) => s.endCmd c.tag (s.badStatus c.addr) 0))

/-! SELFTEST (R520, R521). -/

/-- A SELFTEST entry with this selector. -/
def Cmd.selects (n : Nat) (c : Cmd) : Bool := c.arg % 256 == n

/-- A request is pending until its unit's test ends; an earlier one for the unit refuses it with 0x7021. -/
def State.addReq (s : State) (c : Cmd) (sel row unit : Nat) (f : State → State) : State :=
  if (s.req? sel row unit).isSome then s.refuseCmd c.tag 0x7021 0
  else f { s with chk.reqs := s.chk.reqs ++ [{ sel := sel, row := row, unit := unit, tag := c.tag, since := s.tick }] }

def execSelftestBrood (s : State) : Host.Outcome State Fault Refusal :=
  done (s.opcode 10 (Cmd.selects 1) (fun c => bitsOf c.arg 15 8 == 0 && decide (c.arg / 65536 < s.nBroods) && c.addr == 0) (fun c s =>
    s.addReq c 1 0 (c.arg / 65536) id))

/-- A channel is retrained in its next window, granted or not. -/
def execSelftestRetrain (s : State) : Host.Outcome State Fault Refusal :=
  done (s.opcode 10 (Cmd.selects 2) (fun c => bitsOf c.arg 15 8 == 0 && decide (c.arg / 65536 < 8) && c.addr == 0) (fun c s =>
    let ch := c.arg / 65536
    s.addReq c 2 0 ch (fun s => (s.makeDue ch).modChan ch (fun x => { x with overdue := true }))))

/-- One pass of a unit: it begins again with its first slice. -/
def execSelftestSlicePass (s : State) : Host.Outcome State Fault Refusal :=
  done (s.opcode 10 (Cmd.selects 3) (fun c => decide (bitsOf c.arg 15 8 ≤ 8) &&
      decide (c.arg / 65536 < s.rowUnits (bitsOf c.arg 15 8)) && c.addr == 0) (fun c s =>
    let row := bitsOf c.arg 15 8
    let i := c.arg / 65536
    s.addReq c 3 row i (fun s => s.modUnit row i (fun u => { u with slice := 0, failed := false }))))

/-- Full-chip BIST starts with every pipeline stopped (R521). -/
def execSelftestFullBist (s : State) : Host.Outcome State Fault Refusal :=
  done (s.opcode 10 (Cmd.selects 4) (fun c => c.arg == 4 && c.addr == 0) (fun c s =>
    if s.ctxBusy then s.refuseCmd c.tag 0x7021 0 else { s.stageCmd c.tag 1 with chk.bistAt := some s.tick }))

def execSelftestWindow (s : State) : Host.Outcome State Fault Refusal :=
  done (s.opcode 10 (Cmd.selects 5) (fun c => bitsOf c.arg 15 8 == 0 && decide (0 < c.arg / 65536) && s.modes.selftest && c.addr == 0)
    (fun c s =>
      if s.chk.windowEnd.isSome then s.refuseCmd c.tag 0x7021 0
      else { s.stageCmd c.tag 1 with chk.windowEnd := some (s.tick + us (c.arg / 65536)) }))

def execTestWindowEnd (s : State) : Host.Outcome State Fault Refusal :=
  done (match s.chk.windowEnd with
    | some t => onlyIf (decide (t ≤ s.tick)) s (fun s =>
        let s := { s with chk.windowEnd := none }
        match s.host.waiting.find? (fun w => w.cmd.op == 10 && w.cmd.selects 5) with
        | some w => s.endCmd w.cmd.tag 0 0
        | none => s)
    | none => s)

/-! RECORD, NOP and the rest (R414, R542). -/

/-- RECORD: 64 bytes of host data are offered to the mailbox, or refused with 0xB002. -/
def execRecordCmd (s : State) : Host.Outcome State Fault Refusal :=
  done (s.opcode 11 (fun _ => true) (fun c => c.a &&& 0xc0fe0000#32 == 0#32 && c.addr % 64 == 0 && (match s.pipe? (bitsOf c.arg 29 24) with
      | some p => p.hostRec
      | none => false)) (fun c s =>
    match s.busRead (mDsp 2) c.addr 64 with
    | (.ok, d, s) =>
      if !s.coc.powered || decide (64 ≤ s.coc.mbox.length + s.coc.offers.length) then
        (s.raise 167 0xB002 0).endCmd c.tag 0xB002 0
      else (s.stageCmd c.tag 1).offer 4 (bitOf c.arg 16) (natLe 2 (c.arg % 65536) ++ zeros 6 ++ d)
    | (.bad, _, s) => s.endCmd c.tag (s.badStatus c.addr) 0
    | (.hole, _, s) => s.refuseCmd c.tag 0x7020 0))

def execNopCmd (s : State) : Host.Outcome State Fault Refusal :=
  done (s.opcode 12 (fun _ => true) (fun c => c.arg == 0 && c.addr == 0) (fun _ s => s.settleNops))

/-- An opcode or selector that no row of R414 or R520 lists. -/
def Cmd.unlisted (c : Cmd) : Bool := c.op == 0 || decide (12 < c.op) || (c.op == 10 && (c.arg % 256 == 0 || decide (5 < c.arg % 256)))

/-- ILLEGAL_COMMAND: the entry completes with 0x7020; one that cannot be read completes with 0x4002 and TAG 0 (R414, R432). -/
def execIllegalCommand (s : State) : Host.Outcome State Fault Refusal :=
  done (onlyIf s.cmdReady s (fun s =>
    match s.busRead (mDsp 0) (s.ringSlot 0 (s.rd F.HIF_RING_CONS_CONS 0)) 64 with
    | (.ok, _, _) => s.takeCmd Cmd.unlisted (fun c s => (s.begin c).refuseCmd c.tag 0x7020 0)
    | (_, _, s) => s.consumed.complete { kind := 3, status := 0x4002 }))

end Sys2Proof.Machine
end

