-- ==== Sys2Proof/Machine/Firmware.lean ====
section
/-! DEFINITION. Device firmware: the watchdogs of its processors, dispatch core faults, and Molt (R429 to R432, R440 to R450). -/
namespace Sys2Proof.Machine

/-! The window watchdogs (R429, R430). Processors 0 to 3 are the dispatch cores, 4 the security core, 5 the power manager core. -/

def State.wdtAge (s : State) (p : Nat) : Nat := s.tick - FMap.get 0 s.fw.wdtAt p
/-- A new window begins. -/
def State.wdtRestart (s : State) (p : Nat) : State := { s with fw.wdtAt := FMap.set 0 s.fw.wdtAt p s.tick }
/-- The windows of the four dispatch cores begin. -/
def State.dspRestart (s : State) : State := s.each [0, 1, 2, 3] State.wdtRestart

/-- Dispatch core `n` runs. -/
def State.coreRuns (s : State) (n : Nat) : Bool := bitOf (s.rd F.FW_STATUS_CORE_RUN) n
/-- The longest window of a dispatch core: 5 ms during the switch and check steps of a handover. -/
def State.dspMax (s : State) : Nat := if s.fw.moltStep = 3 ∨ s.fw.moltStep = 4 then ms 5 else ms 20

/-! Molt: states, results, aborts (R441 to R445). -/

/-- FW_VER_ACTIVE and FW_VER_STAGED as words (R450). -/
def State.verActive (s : State) : Nat :=
  s.rd F.FW_VER_ACTIVE_MAJOR * 2 ^ 24 + s.rd F.FW_VER_ACTIVE_MINOR * 2 ^ 16 + s.rd F.FW_VER_ACTIVE_PATCH
def State.verStaged (s : State) : Nat :=
  s.rd F.FW_VER_STAGED_MAJOR * 2 ^ 24 + s.rd F.FW_VER_STAGED_MINOR * 2 ^ 16 + s.rd F.FW_VER_STAGED_PATCH
def State.setActive (s : State) (v : Nat) : State :=
  ((s.wr F.FW_VER_ACTIVE_MAJOR (v / 2 ^ 24)).wr F.FW_VER_ACTIVE_MINOR (v / 2 ^ 16)).wr F.FW_VER_ACTIVE_PATCH v
def State.setStaged (s : State) (v : Nat) : State :=
  ((s.wr F.FW_VER_STAGED_MAJOR (v / 2 ^ 24)).wr F.FW_VER_STAGED_MINOR (v / 2 ^ 16)).wr F.FW_VER_STAGED_PATCH v

def State.molt (s : State) : Nat := s.rd F.FW_MOLT_STATUS_STATE
def State.emergency (s : State) : Bool := s.rdB F.FW_STATUS_EMERG

/-- A Molt enters a state (R442, R439). -/
def State.moltTo (s : State) (new reason : Nat) : State :=
  { (s.trace 0x40 0 [s.molt, new, reason, s.verStaged]).wr F.FW_MOLT_STATUS_STATE new with fw.moltAt := s.tick }
/-- A Molt ends, or a request is refused: STATE IDLE, with a result (R441, R450). -/
def State.moltEnds (s : State) (result reason : Nat) : State :=
  let h := s.handover
  let s := ({ s.moltTo 0 reason with fw.moltStep := 0 }).setStaged 0
  let s := (s.wr F.FW_MOLT_STATUS_RESULT result).wr F.FW_MOLT_STATUS_REASON reason
  if h then s.flushCompl else s

/-- The staged image is refused (R441). -/
def State.moltImage (s : State) : State := (s.moltEnds 4 0).raise 161 0x8021 0

/-- The four dispatch cores are reset to the entry of the active bank (R443, R445). -/
def State.dspReset (s : State) : State := (s.wr F.FW_STATUS_CORE_RUN 15).dspRestart

/-- A Molt is aborted before its commit point; after the switch the old image resumes from its record (R445). -/
def State.moltAbort (s : State) (reason : Nat) : State :=
  if s.molt = 0 then s
  else
    let s := if 3 ≤ s.fw.moltStep then s.dspReset else s
    (s.moltEnds 5 reason).raise 161 0x8022 0

/-! Expiries and faults (R429 to R432). -/

/-- FW_FAULT takes the capture (R430, R432, R450). -/
def State.fwFault (s : State) (core cause : Nat) : State :=
  (((s.wr F.FW_FAULT_VALID 1).wr F.FW_FAULT_CORE core).wr F.FW_FAULT_CAUSE cause).wr F.FW_FAULT_TICK s.tick

/-- A dispatch core stops. -/
def State.stopCore (s : State) (n cause : Nat) : State :=
  let run := s.rd F.FW_STATUS_CORE_RUN
  (s.wr F.FW_STATUS_CORE_RUN (if bitOf run n then run - 2 ^ n else run)).fwFault n cause

/-- The watchdog of dispatch core `n` expires, or was kicked early (R430, R445). -/
def State.dspExpire (s : State) (n : Nat) (early : Bool) : State :=
  let s := (s.wdtRestart n).cnt F.FW_WDT_STAT_DSP
  let s := if early then s.cnt F.FW_WDT_STAT_EARLY else s
  let s := (s.stopCore n (if early then 2 else 1)).raise (161 + n) 0x8001 n
  if s.fw.moltStep = 3 ∨ s.fw.moltStep = 4 then s.moltAbort 6 else s

/-- The operations of the security core that are in progress fail (R430): the SEC_OP operation, loads under verification, the
verification of a staged image. -/
def State.secFails (s : State) (code : Nat) : State :=
  let s := if s.sec.op = 0 then s else
    ({ s with sec.op := 0 }.wr F.SEC_OP_STATUS_BUSY 0).wr F.SEC_OP_STATUS_RESULT code
  let s := if s.molt = 2 then s.moltImage else s
  s.each (s.host.waiting.filter (fun w => w.cmd.op == 2 && w.stage == 1)) (fun s w => s.endCmd w.cmd.tag code 0)

/-- The watchdog of the security core expires: the core is reset. -/
def State.secExpire (s : State) (early : Bool) : State :=
  let s := (s.wdtRestart 4).cnt F.FW_WDT_STAT_SEC
  let s := if early then s.cnt F.FW_WDT_STAT_EARLY else s
  (({ s with fw.secDown := true }.wr F.FW_STATUS_SEC_RUN 0).secFails 0x8002).raise 165 0x8002 0

/-- The watchdog of the power manager core expires: the core is reset and the rail request is 0.80 V. -/
def State.pwrExpire (s : State) (early : Bool) : State :=
  let s := (s.wdtRestart 5).cnt F.FW_WDT_STAT_PWR
  let s := if early then s.cnt F.FW_WDT_STAT_EARLY else s
  ((({ s with fw.pwrDown := true }.wr F.FW_STATUS_PWR_RUN 0).wr F.PWR_VOLT_REQ_MV 800).wr F.PWR_STATUS_AVS 0).raise 166 0x8004 0

/-- FW_WDT_KICK: a kick inside the window restarts it; one before its minimum counts as an expiry, and so does one after its maximum,
whose kick was missing. A host write is dropped (R429 to R431). -/
def execFwWdtKick (host : Bool) (mask : BitVec 4) (s : State) : Host.Outcome State Fault Refusal :=
  done (if host then onlyIf (s.linkedUp && s.dev.step == 12) s State.violation
    else s.each ((List.range 4).filter (fun n => mask.getLsbD n && s.coreRuns n)) (fun s n =>
      if s.wdtAge n < us 500 then s.dspExpire n true
      else if s.dspMax < s.wdtAge n then s.dspExpire n false
      else s.wdtRestart n))

def execDispatchWdtExpiry (core : BitVec 2) (s : State) : Host.Outcome State Fault Refusal :=
  done (onlyIf (s.coreRuns core.toNat && decide (s.dspMax ≤ s.wdtAge core.toNat)) s (fun s => s.dspExpire core.toNat false))
def execSecurityWdtExpiry (s : State) : Host.Outcome State Fault Refusal :=
  done (onlyIf (s.rdB F.FW_STATUS_SEC_RUN && decide (ms 200 ≤ s.wdtAge 4)) s (fun s => s.secExpire false))
def execPowerWdtExpiry (s : State) : Host.Outcome State Fault Refusal :=
  done (onlyIf (s.rdB F.FW_STATUS_PWR_RUN && decide (ms 10 ≤ s.wdtAge 5)) s (fun s => s.pwrExpire false))

/-- INTERNAL_KICK_REGISTER: the first kick after a reset of the core shows that its firmware runs again (R430). -/
def execInternalKickRegister (sec : Bool) (s : State) : Host.Outcome State Fault Refusal :=
  done (if sec then
      if s.fw.secDown then ({ s with fw.secDown := false }.wr F.FW_STATUS_SEC_RUN 1).wdtRestart 4
      else onlyIf (s.rdB F.FW_STATUS_SEC_RUN) s (fun s =>
        if s.wdtAge 4 < ms 1 then s.secExpire true else if ms 200 < s.wdtAge 4 then s.secExpire false else s.wdtRestart 4)
    else
      if s.fw.pwrDown then (({ s with fw.pwrDown := false }.wr F.FW_STATUS_PWR_RUN 1).wr F.PWR_STATUS_AVS 1).wdtRestart 5
      else onlyIf (s.rdB F.FW_STATUS_PWR_RUN) s (fun s =>
        if s.wdtAge 5 < us 100 then s.pwrExpire true else if ms 10 < s.wdtAge 5 then s.pwrExpire false else s.wdtRestart 5))

/-- DISPATCH_CORE_FAULT: `cause` 0 uncorrectable code or stack, 1 illegal instruction, 2 or 3 fetch bus error (R432). A fault of the
new image in the check step is a failed check (R445). -/
def execDispatchCoreFault (core : BitVec 2) (cause : BitVec 2) (s : State) : Host.Outcome State Fault Refusal :=
  done (onlyIf (s.coreRuns core.toNat) s (fun s =>
    let n := core.toNat
    let s := (s.stopCore n (Nat.min 5 (3 + cause.toNat))).raise (161 + n) 0x8003 n
    if s.fw.moltStep = 3 ∨ s.fw.moltStep = 4 then s.moltAbort 5 else s))

/-! Molt (R440 to R448). -/

/-- Device address of the image, and the inactive bank (R442). -/
def State.moltSrc (s : State) : Nat := s.rd F.FW_MOLT_SRC_LO_ADDR * 64 + s.rd F.FW_MOLT_SRC_HI_ADDR_HI * 2 ^ 32
def State.moltLen (s : State) : Nat := s.rd F.FW_MOLT_LEN_BYTES
def bankAddr (b : Nat) : Nat := sysBase + b * 0x200000
def State.idleBank (s : State) : Nat := 1 - s.rd F.FW_STATUS_BANK

/-- A request is refused. -/
def State.moltRefuse (s : State) (result code : Nat) : State :=
  ((s.wr F.FW_MOLT_STATUS_RESULT result).wr F.FW_MOLT_STATUS_REASON 0).raise 161 code 0

/-- FW_MOLT_REQ: the checks of R441 up to staging. -/
def execFwMoltReq (s : State) : Host.Outcome State Fault Refusal :=
  done (onlyIf (s.linkedUp && s.dev.step == 12) s (fun s =>
    if s.molt ≠ 0 ∨ !s.attached then s.moltRefuse 2 0x8023
    else if s.emergency then s.moltRefuse 3 0x8020
    else if s.moltLen = 0 ∨ 0x200000 < s.moltLen ∨ gddrEnd < s.moltSrc + s.moltLen then s.moltRefuse 4 0x8021
    else s.moltTo 1 0))

/-- MOLT_STAGING_END: the image is in the inactive bank (R442). One that cannot be read is refused. -/
def execMoltStagingEnd (s : State) : Host.Outcome State Fault Refusal :=
  done (onlyIf (s.molt == 1) s (fun s =>
    match s.busRead (mDsp 2) s.moltSrc s.moltLen with
    | (.ok, d, s) =>
      (match s.busWrite (mDsp 2) (bankAddr s.idleBank) d with
       | (.ok, s) => ({ s with fw.moltLen := d.length }.setStaged (objVersion d)).moltTo 2 0
       | (_, s) => s.moltImage)
    | (_, _, s) => s.moltImage))

/-- MOLT_VERIFY_END: READY, or IDLE with result 4 (R441, R442). -/
def execMoltVerifyEnd (r1 s1 r2 s2 : Bool) (s : State) : Host.Outcome State Fault Refusal :=
  done (onlyIf (s.molt == 2 && s.rdB F.FW_STATUS_SEC_RUN) s (fun s =>
    match s.verifyObject 2 (bankAddr s.idleBank) s.fw.moltLen (r1 && s1 && r2 && s2) with
    | (code, o, s) =>
      if code = 0 ∧ fieldAt o 18 2 = s.rd F.HIF_IFVER_MAJOR then s.moltTo 3 0 else s.moltImage))

/-- A LOAD, SAVE, RESTORE or SELFTEST command is in progress (R442). -/
def State.longCmd (s : State) : Bool := s.host.waiting.any (fun w => [2, 8, 9, 10].contains w.cmd.op)

/-- The handover record (R443). The state block is the image's own: its bytes and their number are free values (log entry 5). -/
def State.moltRecord (s : State) : State :=
  let (w, s) := s.free
  let (blk, s) := State.freeBs 4028 s
  let r := natLe 4 0x564F4851 ++ natLe 4 s.verActive ++ natLe 4 s.verStaged ++
    natLe 4 (s.rd F.HIF_IFVER_MAJOR * 65536 + s.rd F.HIF_IFVER_MINOR) ++ natLe 8 s.tick ++ natLe 4 (s.rd F.HIF_RING_CONS_CONS 0) ++
    natLe 4 (w.toNat % 4029) ++ zeros 32 ++ blk
  s.store (mDsp 0) (sysBase + 0x400000) (r ++ natLe 4 (crc32c r))

/-- MOLT_HANDOVER_START: quiesce, record, switch and check; `checkOk` is the outcome of the new image's check step (R443, R445). -/
def execMoltHandoverStart (checkOk : Bool) (s : State) : Host.Outcome State Fault Refusal :=
  done (onlyIf (s.molt == 3 && !s.longCmd) s (fun s =>
    let s := { (s.moltTo 4 0).moltRecord.dspReset with fw.moltStep := 4 }
    if checkOk then s else s.moltAbort 5))

/-- The commit point: the staged bank becomes active (R444). -/
def State.moltCommit (s : State) : State :=
  let new := s.verStaged
  let idle := s.idleBank
  let r := s.busRead (mDsp 0) (bankAddr idle) 128
  let o := r.2.1
  let s := r.2.2.trace 0x41 0 [s.verActive, new, s.tick - s.fw.moltAt, 0]
  let s := ((s.wr F.FW_STATUS_BANK s.idleBank).setActive new).cnt F.FW_MOLT_STATUS_COUNT
  let s := s.wr F.HIF_IFVER_MINOR (fieldAt o 16 2)
  let s := { s with sec.molted := true, sec.manifest := s.sec.manifest.map (fun m =>
    if fieldAt m 0 1 = 2 then measure 2 0xff (objHier o) (objVersion o) (objSvn o) (objDigest o) else m) }
  (s.moltEnds 1 0).raise 161 0x8024 0

/-- FW_MOLT_COMMIT: written by dispatch core 0; a host write is dropped (R444, R450). -/
def execFwMoltCommit (host : Bool) (s : State) : Host.Outcome State Fault Refusal :=
  done (if host then onlyIf (s.linkedUp && s.dev.step == 12) s State.violation
    else if s.molt ≠ 4 ∨ s.emergency ∨ s.cara.restartDue ≠ 0 then s.moltAbort 7
    else s.moltCommit)

def execFwMoltAbort (s : State) : Host.Outcome State Fault Refusal := done (s.moltAbort 3)

/-- MOLT_READY_TIMEOUT: READY has lasted longer than TMO; 0 acts as 1 (R445, R450). -/
def execMoltReadyTimeout (s : State) : Host.Outcome State Fault Refusal :=
  done (onlyIf (s.molt == 3 && decide (s.fw.moltAt + ms (Nat.max 1 (s.rd F.FW_MOLT_CTRL_TMO)) < s.tick)) s (fun s => s.moltAbort 4))

/-- FW_CTRL.CLR_CNT (R450). -/
def execFwClrCnt (s : State) : Host.Outcome State Fault Refusal :=
  done (s.clearFlds [F.FW_WDT_STAT_DSP, F.FW_WDT_STAT_SEC, F.FW_WDT_STAT_PWR, F.FW_WDT_STAT_EARLY, F.FW_TRACE_DROP_COUNT, F.FW_FAULT_VALID])

end Sys2Proof.Machine
end

