-- ==== Sys2Proof/Machine/PowerCmds.lean ====
section
/-! DEFINITION. Power, clock and temperature: the hardware limits, thermal shutdown, adaptive voltage, the power budget, and the commands of
the persistent word block (R433, R434, R555 to R557, R572 to R577, R598). -/
namespace Sys2Proof.Machine

/-! The array clock (R433, R434, R47, R556). -/

/-- Array clock that the actions in force allow. -/
def limitMhz (l : List Nat) : Nat := if l.any (fun r => r == 1 || r == 3 || r == 5) then 150 else if l.contains 0 then 300 else 600
/-- Array clock in force: the firmware asks for a lower clock, never for a higher one. -/
def State.mhz (s : State) : Nat := Nat.min s.pwr.budgetMhz (limitMhz s.pwr.limits)

/-- PWR_STATUS and FW_STATUS show the actions and the clock. -/
def State.showPower (s : State) : State :=
  let l := s.pwr.limits
  let e := !l.isEmpty
  let s := ((s.wrB F.PWR_STATUS_EMERG e).wrB F.FW_STATUS_EMERG e).wr F.PWR_STATUS_ACTIONS (l.foldl (fun m r => m ||| 2 ^ r) 0)
  (s.wr F.PWR_STATUS_ARRAY (if s.mhz = 600 then 0 else if s.mhz = 300 then 1 else 2)).wrB F.PWR_STATUS_FW_THROTTLE
    (decide (s.pwr.budgetMhz < 600))

/-- An action of row `r` starts: counted, reported, and a Molt is aborted before its commit point (R433, R445, R578). -/
def State.limitStart (s : State) (r unit code : Nat) (cnt : Fld) : State :=
  if s.pwr.limits.contains r then s
  else
    let s := ({ s with pwr.limits := s.pwr.limits ++ [r], pwr.coolAt := FMap.erase s.pwr.coolAt r }.cnt cnt).showPower
    let s := (s.raise 166 code unit).trace 0x50 srcPwr [s.mhz, r, unit, twos 32 (FMap.get 0 s.pwr.temps unit)]
    s.moltAbort 1

/-- The end condition of an action holds, or not. The tick since which it has held is kept plus 1. -/
def State.limitCool (s : State) (r : Nat) (holds : Bool) : State :=
  if !s.pwr.limits.contains r then s
  else if !holds then { s with pwr.coolAt := FMap.erase s.pwr.coolAt r }
  else if FMap.get 0 s.pwr.coolAt r = 0 then { s with pwr.coolAt := FMap.set 0 s.pwr.coolAt r (s.tick + 1) }
  else s

/-- Hold time of a row's end condition. -/
def limitHold (r : Nat) : Nat := if r ≤ 1 then ms 10 else ms 1

/-! Temperatures (R433, R557, R575, R598). -/

/-- Thermal shutdown: every main-die clock stops, ALIVE is held low, the word is written, PWR_OFF_N goes low; no event (R557). -/
def State.thermalShutdown (s : State) : State :=
  let s := { s with pwr.limits := s.pwr.limits ++ [2] }.showPower
  let s := { s with dev.shutdown := true, cara.aliveHold := true, cara.aliveLevel := false }
  { (s.lifeUp 0x122).prsFlush with dev.pwrOffN := false }

/-- Lifetime words that follow the hottest sensor (R575, R577). -/
def State.thermalLife (s : State) (hot : Int) : State :=
  let s := if 1440 ≤ hot ∧ s.prs.cold then { s.lifeUp 0x121 with prs.cold := false }
    else if hot ≤ 640 then { s with prs.cold := true } else s
  if (s.prsNext 0x12a).toInt + 16 ≤ hot then s.prsRequest 0x12a (BitVec.ofInt 32 hot) else s

/-- SENSOR_SAMPLE: sensor n reads the n-th value, in 1/16 °C; a sensor beyond the list keeps its value (R598). -/
def execSensorSample (temps : List (BitVec 16)) (s : State) : Host.Outcome State Fault Refusal :=
  done (onlyIf s.mainUp s (fun s =>
    let s := { s with pwr.temps := (temps.take 64).zipIdx.foldl (fun (m : FMap Int) (e : BitVec 16 × Nat) => FMap.set 0 m e.2 e.1.toInt) s.pwr.temps }
    let n := s.hottest
    let hot : Int := s.temp n
    let s := s.thermalLife hot
    if 2080 ≤ hot then s.thermalShutdown
    else
      let s := if 1840 ≤ hot then s.limitStart 0 n 0xC001 F.PWR_ACT_CNT_T115 else s
      let s := if 1952 ≤ hot then s.limitStart 1 n 0xC001 F.PWR_ACT_CNT_T122 else s
      (s.limitCool 0 (decide (hot ≤ 1760))).limitCool 1 (decide (hot ≤ 1872))))

/-- LIMIT_ACTION_END: the end condition of row `row` has held for its time (R433). -/
def execLimitActionEnd (row : BitVec 3) (s : State) : Host.Outcome State Fault Refusal :=
  done (let r := row.toNat
    let c := FMap.get 0 s.pwr.coolAt r
    onlyIf (s.mainUp && s.pwr.limits.contains r && c != 0 && decide (c + limitHold r ≤ s.tick + 1)) s (fun s =>
      let s := { s with pwr.limits := s.pwr.limits.filter (fun x => x != r), pwr.coolAt := FMap.erase s.pwr.coolAt r }.showPower
      let unit := if r ≤ 1 then s.hottest else 0
      (s.raise 166 0xC002 unit).trace 0x50 srcPwr [s.mhz, r, unit, twos 32 (s.temp unit)]))

/-! The core rail, rail 0 (R433, R555, R591). -/

/-- CORE_CURRENT_LIMIT: the core current, in A, has been measured; above 460 A it has lasted for 20 µs. -/
def execCoreCurrentLimit (amps : BitVec 16) (s : State) : Host.Outcome State Fault Refusal :=
  done (onlyIf s.mainUp s (fun s =>
    let q := satAt 65535 (4 * amps.toNat)
    let s := (s.wr F.PWR_CURR_NOW q).peak F.PWR_CURR_PEAK q
    if 460 < amps.toNat then (s.limitStart 3 0 0xC003 F.PWR_ACT_CNT_CURR).limitCool 3 false
    else s.limitCool 3 (decide (amps.toNat ≤ 400))))

/-- CORE_VOLTAGE_LIMIT: the core rail voltage, in mV, has been measured; out of range it has lasted for 5 µs. -/
def execCoreVoltageLimit (mv : BitVec 16) (s : State) : Host.Outcome State Fault Refusal :=
  done (onlyIf s.mainUp s (fun s =>
    let v := mv.toNat
    let s := s.wr F.PWR_VOLT_MEAS_MV v
    if v < 620 ∨ 830 < v then (s.limitStart 5 0 0xC004 F.PWR_ACT_CNT_VOLT).limitCool 5 false
    else s.limitCool 5 (decide (640 ≤ v) && decide (v ≤ 810))))

/-- AVS_STEP: one step of 5 mV within the clamp of 650 to 800 mV, while the power image runs, and at most one in 20 µs (R433, R555). -/
def execAvsStep (up : Bool) (s : State) : Host.Outcome State Fault Refusal :=
  done (onlyIf (s.mainUp && s.rdB F.PWR_STATUS_AVS && decide (s.pwr.avsNext ≤ s.tick)) s (fun s =>
    let v := s.rd F.PWR_VOLT_REQ_MV
    { s with pwr.avsNext := s.tick + us 20 }.wr F.PWR_VOLT_REQ_MV (Nat.min 800 (Nat.max 650 (if up then v + 5 else v - 5)))))

/-- POWER_BUDGET_TIMER: the core rail power, in W, has been above the budget for 10 ms, or below 90 % of it for 100 ms (R556). -/
def execPowerBudgetTimer (watts : BitVec 16) (s : State) : Host.Outcome State Fault Refusal :=
  done (onlyIf (s.mainUp && s.rdB F.FW_STATUS_PWR_RUN) s (fun s =>
    let w := watts.toNat
    let old := s.pwr.budgetMhz
    let new := if s.cfg.budget < w then (if old = 600 then 300 else 150)
      else if 10 * w < 9 * s.cfg.budget then (if old = 150 then 300 else 600) else old
    if new = old then s
    else
      let s := { s with pwr.budgetMhz := new }.showPower
      (s.raise 166 0xC010 0).trace 0x51 srcPwr [new, s.mhz, 0, 0]))

def execPwrClrCnt (s : State) : Host.Outcome State Fault Refusal :=
  done (s.clearFlds [F.PWR_CURR_PEAK, F.PWR_ACT_CNT_T115, F.PWR_ACT_CNT_T122, F.PWR_ACT_CNT_CURR, F.PWR_ACT_CNT_VOLT])

/-! Persistent words (R572 to R577). -/

/-- PERSISTENT_WRITE: the oldest requested write becomes durable, or is refused. The block is on VDD_AON, so a thermal shutdown does not
stop it. -/
def execPersistentWrite (s : State) : Host.Outcome State Fault Refusal :=
  done (match s.prs.queue with
    | [] => s
    | e :: r => { s with prs.queue := r }.prsDo e.1 e.2)

/-- LIFETIME_COUNTER_FLUSH: counter 0x121 + `idx` has risen, and 60 s have passed since its last write (R577). -/
def execLifetimeCounterFlush (idx : BitVec 4) (s : State) : Host.Outcome State Fault Refusal :=
  done (let i := 0x121 + idx.toNat
    onlyIf (decide (i ≤ 0x12a) && decide (FMap.get 0 s.prs.lifeAt i + ms 60000 ≤ s.tick)) s (fun s => s.lifeWrite i))

/-- POWERED_HOUR: a further hour of VDD_AON time is complete (R575). -/
def execPoweredHour (s : State) : Host.Outcome State Fault Refusal :=
  done (onlyIf (s.dev.power && decide (s.prs.hourAt + ms 3600000 ≤ s.tick)) s (fun s =>
    { s.prsRequest 0x120 (s.prsNext 0x120 + 1) with prs.hourAt := s.prs.hourAt + ms 3600000 }))

def execPrsClrCnt (s : State) : Host.Outcome State Fault Refusal :=
  done (s.clearFlds [F.PRS_STATUS_REFUSED, F.PRS_STATUS_UNCORR])

end Sys2Proof.Machine
end

