-- ==== Sys2Proof/Machine/Security.lean ====
section
/-! DEFINITION. The security block: operations of SEC_OP, verification of objects, identity, attestation, enrolment, debug unlock
(R524 to R539, R551). What the signature and encryption primitives give are operands or free values (log entry 6). -/
namespace Sys2Proof.Machine

/-! Operations (R551). -/

def State.secAddr (s : State) : Nat := s.rd F.SEC_OP_ADDR_LO_ADDR * 64 + s.rd F.SEC_OP_ADDR_HI_ADDR_HI * 2 ^ 32

/-- An operation is started: LAST_OP names it, and it is in progress. -/
def State.secBegin (s : State) (op : Nat) : State :=
  (({ s with sec.op := op, sec.opAt := s.tick, sec.opAddr := s.secAddr, sec.opLen := s.rd F.SEC_OP_LEN_BYTES }.wr
    F.SEC_OP_STATUS_BUSY 1).wr F.SEC_OP_STATUS_LAST_OP op).wr F.SEC_OP_STATUS_RESULT 0

/-! Attestation (R535, R536). -/

/-- The measurements of the running set, in the order of R535. -/
def State.measurements (s : State) : List (List Byte) :=
  let of : Nat → List (List Byte) := fun t => s.sec.manifest.filter (fun m => fieldAt m 0 1 == t)
  of 1 ++ of 2 ++ of 3 ++ of 4 ++ of 5 ++
    [measure 6 0xff 3 (s.rd F.COC_VER_VERSION) s.coc.svn s.coc.digest] ++ (if s.cara.split then of 7 else []) ++
    s.sched.models.map (·.meas)

/-- The report up to its signatures, as it stands now. -/
def State.formReport (s : State) : List Byte :=
  let ms := s.measurements
  let flags := s.rd F.HIF_ID_SAFETY + 2 * b2n s.cara.split + 4 * b2n s.cara.debug + 8 * b2n s.fuses.ownerLock + 16 * b2n s.sec.molted
  natLe 4 0x54544151 ++ natLe 1 1 ++ natLe 1 flags ++ natLe 2 ms.length ++ natLe 8 s.fuses.serial.toNat ++ natLe 8 s.tick ++ zeros 8 ++
    ((List.range 8).map (fun i => natLe 4 (s.rd F.SEC_NONCE_NONCE i))).flatten ++ s.ownerRoot ++
    natLe 4 (s.rd F.HIF_IFVER_MAJOR * 65536 + s.rd F.HIF_IFVER_MINOR) ++ zeros 12 ++ (ms.map (fun m => bytesAt m 0 64)).flatten

/-- Bytes of the two signatures (R535). -/
def sigBytes : Nat := 384 + 16224

/-- Start of an operation (R551): ignored with a violation while one is in progress; a reserved OP, or a capacity too small for the
report, ends with 0x7020. The challenge is written at once (R538). -/
def State.secStart (s : State) (op : Nat) : State :=
  if s.rdB F.SEC_OP_STATUS_BUSY then s.violation
  else
    let s := s.secBegin op
    if op < 1 ∨ 4 < op then s.secEnds 0x7020
    else if !s.rdB F.FW_STATUS_SEC_RUN then s.secEnds 0x8002
    else if op = 1 then
      let r := s.formReport
      if s.sec.opLen < r.length + sigBytes ∨ gddrEnd < s.sec.opAddr + r.length + sigBytes then s.secEnds 0x7020
      else { s with sec.report := r }
    else if op = 3 then
      let s := s.each (List.range 8) (fun s i => let (w, s) := s.free; s.wr F.SEC_CHAL_CHAL w.toNat i)
      { s.secEnds 0 with sec.chalAt := some s.tick, sec.nonce := ((List.range 8).map (fun i => natLe 4 (s.rd F.SEC_CHAL_CHAL i))).flatten }
    else s

/-- A write of SEC_OP with START and this OP (R551). -/
def State.secOp (s : State) (op : Nat) : State :=
  if s.linkedUp && s.dev.step == 12 then (s.wr F.SEC_OP_OP op).secStart op else s

def execSecAttest (s : State) : Host.Outcome State Fault Refusal := done (s.secOp 1)
def execSecEnrol (s : State) : Host.Outcome State Fault Refusal := done (s.secOp 2)
def execSecDebugChallenge (s : State) : Host.Outcome State Fault Refusal := done (s.secOp 3)
def execSecDebugUnlock (s : State) : Host.Outcome State Fault Refusal := done (s.secOp 4)

/-- ATTEST_REPORT_DONE: the report is written with its signatures, once the identity keys are ready (R534 to R536, R539). -/
def execAttestReportDone (sig : List Byte) (s : State) : Host.Outcome State Fault Refusal :=
  done (onlyIf (s.sec.op == 1 && s.rdB F.FW_STATUS_SEC_RUN && s.sec.slhReady && s.running) s (fun s =>
    match s.busWriteAt mSec s.sec.opAddr (s.sec.report ++ bytesAt sig 0 sigBytes) with
    | (.ok, _, s) => s.secEnds 0
    | (_, a, s) => (s.secEnds 0xA006).raiseEv { line := 165, code := 0xA006, units := [0], addr := a, master := mSec, acc := 1 }))

/-- DEBUG_CHALLENGE_EXPIRY: 60 s after its issue a challenge serves no more (R538). -/
def execDebugChallengeExpiry (s : State) : Host.Outcome State Fault Refusal :=
  done (match s.sec.chalAt with
    | some t => onlyIf (decide (t + ms 60000 ≤ s.tick)) s (fun s => { s with sec.chalAt := none, sec.nonce := [] })
    | none => s)

/-! The ends of verifications (R526, R530, R538, R539). -/

/-- What enrolment asks of its object beside its verification (R526). -/
def State.enrolOk (s : State) (o : List Byte) : Bool :=
  !s.fuses.ownerLock && objDevice o == s.fuses.serial.toNat && (objPayload o).length == 436 && certRoot (objCert o) == objPayload o

/-- Enrolment (R526): the fuses are burnt and the wrapped management key is written behind the object; its RSA-OAEP encryption is a free
value. -/
def State.finishEnrol (s : State) (sig : Bool) : State :=
  match s.verifyFor 10 s.sec.opAddr s.sec.opLen sig s.enrolOk 0xA011 with
  | (code, o, s) =>
    let root := objPayload o
    if code = 0xA006 then s.secEnds 0xA006
    else if code = 0xA011 then s.secEnds 0xA011
    else if code ≠ 0 ∨ s.fuses.ownerLock then (s.secEnds 0xA011).raise 165 0xA011 10
    else
      let s := { s with fuses.ownerRoot := sha384 root, fuses.ownerLock := true }
      let (w, s) := State.freeBs 384 s
      ((s.store mSec (s.sec.opAddr + (s.sec.opLen + 63) / 64 * 64) w).secEnds 0).raise 165 0xA010 10

/-- Debug is unlocked (R460). -/
def State.debugUnlock (s : State) : State :=
  (({ s with cara.debug := true }.wr F.SEC_STATUS_DEBUG 1).wr F.HIF_ID_SAFETY 0).raise 184 0x9011 0

/-- The token answers the challenge, which is not yet 60 s old at START (R538). -/
def State.tokenOk (s : State) (o : List Byte) : Bool :=
  (match s.sec.chalAt with
    | some t => decide (s.sec.opAt < t + ms 60000)
    | none => false) && objPayload o == s.sec.nonce ++ natLe 8 s.fuses.serial.toNat

/-- Debug unlock (R538): a challenge serves for one attempt. -/
def State.finishUnlock (s : State) (sig : Bool) : State :=
  match s.verifyFor 9 s.sec.opAddr s.sec.opLen sig s.tokenOk 0xA012 with
  | (code, _, s) =>
    let s := { s with sec.chalAt := none, sec.nonce := [] }
    if code = 0 ∧ !s.fuses.debugDisable then (s.debugUnlock).secEnds 0
    else if code = 0xA012 then s.secEnds 0xA012
    else (s.secEnds (if code = 0xA006 then 0xA006 else 0xA012)).raise 165 0xA012 9

/-- OBJECT_VERIFY_END: of the operation of SEC_OP and the loads that wait for their verification, the oldest ends. The operands say
which of the four signatures verify. A LOAD waits while the sections of an earlier one are still being written (log entry 17). -/
def execObjectVerifyEnd (r1 s1 r2 s2 : Bool) (s : State) : Host.Outcome State Fault Refusal :=
  done (
    let sig := r1 && s1 && r2 && s2
    let secWaits := s.sec.op == 2 || s.sec.op == 4
    onlyIf (s.rdB F.FW_STATUS_SEC_RUN && s.running) s (fun s =>
      match s.host.waiting.find? (fun w => w.cmd.op == 2 && w.stage == 1) with
      | some w =>
        if secWaits && decide (s.sec.opAt ≤ w.since) then (if s.sec.op = 2 then s.finishEnrol sig else s.finishUnlock sig)
        else if s.sched.loading.isSome then s
        else s.finishLoad w sig
      | none => if s.sec.op = 2 then s.finishEnrol sig else if s.sec.op = 4 then s.finishUnlock sig else s))

/-! Identity (R534). -/

def execIdRsaReady (s : State) : Host.Outcome State Fault Refusal :=
  done (onlyIf (s.mainUp && !s.sec.rsaReady) s (fun s => { s with sec.rsaReady := true }.wr F.SEC_STATUS_ID_RSA 1))
def execIdReady (s : State) : Host.Outcome State Fault Refusal :=
  done (onlyIf (s.mainUp && s.sec.rsaReady && !s.sec.slhReady) s (fun s => { s with sec.slhReady := true }.wr F.SEC_STATUS_ID_READY 1))

def execSecClrCnt (s : State) : Host.Outcome State Fault Refusal := done (s.clearFlds [F.SEC_VERIFY_PASS, F.SEC_VERIFY_FAIL])

end Sys2Proof.Machine
end

