-- ==== Sys2Proof/Machine/Cocoon.lean ====
section
/-! DEFINITION. The Cocoon recorder: mailbox, hash chain, epoch seals, export, firmware update, watchdog (R540 to R552).
Its signatures are operands (log entry 6); it is untouched by every restart of the main die (R540). -/
namespace Sys2Proof.Machine

/-- The recorder core runs. -/
def State.cocRuns (s : State) : Bool := s.coc.powered && !s.coc.resetting

/-- COC_STATUS.FREE follows the mailbox. -/
def State.cocFree (s : State) : State := s.wr F.COC_STATUS_FREE (64 - s.coc.mbox.length)

/-! The mailbox (R541, R542). -/

/-- The oldest waiting RECORD command completes. -/
def State.recordEnds (s : State) (status : Nat) : State :=
  match s.host.waiting.find? (fun w => w.cmd.op == 11) with
  | some w => s.endCmd w.cmd.tag status 0
  | none => s

/-- The 128 bytes of a mailbox record (R541). -/
def MboxRec.bytes (r : MboxRec) : List Byte :=
  natLe 1 r.kind ++ natLe 1 r.flags ++ natLe 2 r.loss ++ natLe 4 r.mseq ++ natLe 8 r.tick ++ natLe 8 r.time ++ bytesAt r.body 0 104

/-- A record offered takes the next MSEQ and enters the mailbox, or is dropped where it finds it full. A host request that finds it
full was refused when its command ran, and one dropped here completes with 0xB002 (R541, R542). -/
def State.takeRecord (s : State) (r : MboxRec) : State :=
  if 64 ≤ s.coc.mbox.length ∧ r.kind = 4 then (s.raise 167 0xB002 0).recordEnds 0xB002
  else
    let n := s.rd F.COC_MSEQ_NEXT
    let s := s.wr F.COC_MSEQ_NEXT (n + 1)
    if 64 ≤ s.coc.mbox.length then
      (({ s with coc.drops := s.coc.drops + 1 }).cnt F.COC_ERR_DROPPED).raise 167 0xB001 0
    else
      let s := ({ s with coc.mbox := s.coc.mbox ++ [{ r with mseq := n, loss := satAt 65535 s.coc.drops }], coc.drops := 0 }).cocFree
      if r.kind = 4 then s.recordEnds 0 else s

/-- MAILBOX_RECORD: the oldest record offered; records offered while the Cocoon has no power are dropped (R550). -/
def execMailboxRecord (s : State) : Host.Outcome State Fault Refusal :=
  done (match s.coc.offers with
    | [] => s
    | r :: rest =>
      let s := { s with coc.offers := rest }
      if s.coc.powered then s.takeRecord r
      else if r.kind = 4 then (s.raise 167 0xB002 0).recordEnds 0xB002 else s)

/-! The chain and its epochs (R543, R545). -/

def State.openEpoch (s : State) : Option Epoch := s.coc.epochs.find? (fun e => !e.closed)

/-- The open epoch closes and its seal waits, or it stays open until one of the 4 seals that wait is done (R545). -/
def State.closeEpoch (s : State) : State :=
  match s.openEpoch with
  | none => s
  | some _ =>
    if 4 ≤ s.rd F.COC_STATUS_SEALS then { s with coc.closeDue := true }
    else
      (({ s with coc.closeDue := false, coc.epochs := updFirst (fun e => !e.closed) (fun e => { e with closed := true }) s.coc.epochs }).cnt
        F.COC_STATUS_SEALS).wr F.COC_EPOCH_OPEN (s.rd F.COC_EPOCH_OPEN + 1)

/-- Append one entry (R543); the first of the Cocoon's life follows the digest of the identity key block, a free value. -/
def State.chainAppend (s : State) (time : Nat) (r : List Byte) (close : Bool) : State :=
  let (prev, s) := if s.coc.head = [] then State.freeBs 48 s else (s.coc.head, s)
  let n := s.rd F.COC_ESEQ_LAST + 1
  let s := s.wr F.COC_ESEQ_LAST n
  let num := s.rd F.COC_EPOCH_OPEN
  let s := match s.openEpoch with
    | some _ => s
    | none => { s with coc.epochs := { num := num, first := n } :: s.coc.epochs, coc.openAt := s.tick }
  let d := natLe 4 n ++ natLe 4 num ++ natLe 8 time ++ prev ++ bytesAt r 0 128 ++ zeros 16
  let h := sha384 d
  let s := { s with coc.chain := { eseq := n, epoch := num, data := d ++ h } :: s.coc.chain, coc.head := h,
                    coc.epochs := updFirst (fun e => !e.closed) (fun e => { e with count := e.count + 1 }) s.coc.epochs }
  let full := match s.openEpoch with
    | some e => decide (4096 ≤ e.count)
    | none => false
  if close || full then s.closeEpoch else s

/-- The oldest sealed epoch. -/
def State.oldestSealed (s : State) : Option Epoch := s.coc.epochs.reverse.find? (fun e => e.sealed)

/-- The oldest sealed epoch is erased (R545). -/
def State.eraseEpoch (s : State) (e : Epoch) : State :=
  (({ s with coc.epochs := s.coc.epochs.filter (fun x => x.num != e.num), coc.chain := s.coc.chain.filter (fun x => x.epoch != e.num) }).cnt
    F.COC_ERR_OVERWRITTEN).raise 167 0xB005 0

/-- The next record of the mailbox leaves it for the chain; an update chunk goes to the inactive flash bank (R547). -/
def State.recordOut (s : State) (time : Nat) (r : MboxRec) (rest : List MboxRec) : State :=
  let s := ({ s with coc.mbox := rest }).cocFree
  if r.kind = 0x10 then
    if s.coc.upd = 1 then
      let l := (s.coc.staged ++ r.body).take s.coc.updLen
      { s with coc.staged := l, coc.upd := if s.coc.updLen ≤ l.length then 2 else 1 }
    else s
  else s.chainAppend time r.bytes (bitOf r.flags 0)

/-- CHAIN_APPEND: `time` is the Cocoon's time; `full` says that the flash has no room left, so the oldest sealed epoch goes; with none
sealed the record waits (R543, R545). -/
def execChainAppend (time : BitVec 64) (full : Bool) (s : State) : Host.Outcome State Fault Refusal :=
  done (onlyIf s.cocRuns s (fun s => match s.coc.mbox with
    | [] => s
    | r :: rest =>
      if full && r.kind != 0x10 then
        match s.oldestSealed with
        | some e => (s.eraseEpoch e).recordOut time.toNat r rest
        | none => s
      else s.recordOut time.toNat r rest))

/-- EPOCH_TIMER: 300 s after its first entry the open epoch closes (R545). -/
def execEpochTimer (s : State) : Host.Outcome State Fault Refusal :=
  done (onlyIf (s.cocRuns && s.openEpoch.isSome && !s.coc.closeDue && decide (s.coc.openAt + ms 300000 ≤ s.tick)) s State.closeEpoch)

/-- The epoch whose seal is being made: the oldest closed one without it. -/
def State.sealing (s : State) : Option Epoch := s.coc.epochs.reverse.find? (fun e => e.closed && !e.sealed && decide (e.tries < 2))

/-- The seal of an epoch with its signatures (R545). -/
def State.sealBytes (s : State) (e : Epoch) (time : Nat) (sig : List Byte) : List Byte :=
  let last := e.first + e.count - 1
  let head := match s.coc.chain.find? (fun x => x.eseq == last) with
    | some x => bytesAt x.data 208 48
    | none => zeros 48
  natLe 4 0x4C455351 ++ natLe 4 e.num ++ natLe 4 e.first ++ natLe 4 last ++ head ++ natLe 8 time ++ natLe 8 s.fuses.serial.toNat ++
    natLe 4 (s.rd F.COC_VER_VERSION) ++ natLe 1 (b2n e.interrupted) ++ zeros 43 ++ bytesAt sig 0 sigBytes

/-- A verified recorder image is applied after the seal of the first epoch that closed after its verification, with a KIND 0x80 entry: old
and new VERSION and the new digest (R547). -/
def State.updApply (s : State) (num time : Nat) : State :=
  if s.coc.upd = 3 ∧ s.coc.updEpoch ≤ num then
    let old := s.rd F.COC_VER_VERSION
    let s := ({ s with coc.upd := 0, coc.digest := s.coc.updDigest, coc.staged := [] }.wr F.COC_VER_VERSION s.coc.updVer).wr F.COC_STATUS_UPD 2
    let s := s.chainAppend time (natLe 1 0x80 ++ zeros 23 ++ natLe 4 old ++ natLe 4 s.coc.updVer ++ bytesAt s.coc.updDigest 0 48) false
    ({ s with coc.svn := Nat.max s.coc.svn s.coc.updSvn }).raise 167 0xB021 0
  else s

/-- The seal of epoch `num` leaves the queue; an epoch that waited for it closes, and a verified update is applied. -/
def State.sealOut (s : State) (num time : Nat) : State :=
  let s := s.wr F.COC_STATUS_SEALS (s.rd F.COC_STATUS_SEALS - 1)
  (if s.coc.closeDue then s.closeEpoch else s).updApply num time

/-- Change the epoch with this number. -/
def State.modEpoch (s : State) (num : Nat) (f : Epoch → Epoch) : State :=
  { s with coc.epochs := updFirst (fun e => e.num == num) f s.coc.epochs }

/-- SEAL_DONE: the oldest waiting seal is written, or its signing fails: it is retried once, then raised (R545). -/
def execSealDone (ok : Bool) (time : BitVec 64) (sig : List Byte) (s : State) : Host.Outcome State Fault Refusal :=
  done (onlyIf s.cocRuns s (fun s => match s.sealing with
    | none => s
    | some e =>
      if ok then (s.modEpoch e.num (fun x => { x with sealed := true, stamp := s.sealBytes e time.toNat sig })).sealOut e.num time.toNat
      else
        let s := s.modEpoch e.num (fun x => { x with tries := x.tries + 1 })
        if e.tries = 0 then s else (s.raise 167 0xB030 0).sealOut e.num time.toNat))

/-! Reset, power and resumption (R544, R548, R550). -/

/-- COCOON_RESUME: after a reset or a loss of power the chain goes on behind its last correct entry; `torn` is the count of torn
entries discarded. -/
def execCocoonResume (powerLoss : Bool) (torn : BitVec 8) (time : BitVec 64) (s : State) : Host.Outcome State Fault Refusal :=
  done (onlyIf ((s.coc.resetting || !s.coc.powered) && powerLoss == !s.coc.powered) s (fun s =>
    let s := (({ s with coc.powered := true, coc.resetting := false }).wr F.COC_STATUS_POWER_OK 1).wr F.COC_STATUS_RUN 1
    let s := { s with coc.epochs := updFirst (fun e => !e.closed) (fun e => { e with interrupted := true }) s.coc.epochs }
    let s := s.closeEpoch.chainAppend time.toNat (natLe 1 0x81 ++ zeros 23 ++ natLe 4 torn.toNat) false
    if powerLoss then s.raise 167 0xB012 0 else s))

/-- COCOON_WDT_EXPIRY. -/
def execCocoonWdtExpiry (s : State) : Host.Outcome State Fault Refusal :=
  done (onlyIf s.cocRuns s (fun s =>
    ((({ s with coc.resetting := true }).wr F.COC_STATUS_RUN 0).cnt F.COC_ERR_RESETS).raise 167 0xB010 0))

/-- An update in progress is refused, and the running image stays (R547). -/
def State.updRefused (s : State) : State :=
  (({ s with coc.upd := 0, coc.staged := [] }).wr F.COC_STATUS_UPD 3).raise 167 0xB020 0

/-- COCOON_POWER_FAIL: the mailbox is lost; an update that was not yet verified ends (log entry 26), and so does an export. -/
def execCocoonPowerFail (s : State) : Host.Outcome State Fault Refusal :=
  done (onlyIf s.coc.powered s (fun s =>
    let s := (({ s with coc.powered := false, coc.resetting := false, coc.mbox := [], coc.exportReq := none }).wr F.COC_STATUS_POWER_OK 0).wr
      F.COC_STATUS_RUN 0
    let s := if s.rd F.COC_EXPORT_STATE = 1 then s.wr F.COC_EXPORT_STATE 3 else s
    let s := if s.coc.upd = 1 ∨ s.coc.upd = 2 then s.updRefused else s
    s.cocFree.raise 167 0xB011 0))

/-! Export (R546). -/

/-- COC_XADDR. -/
def State.cocAddr (s : State) : Nat := s.rd F.COC_XADDR_LO_ADDR * 64 + s.rd F.COC_XADDR_HI_ADDR_HI * 2 ^ 32
/-- Bytes of an exported epoch: its entries and its seal. -/
def Epoch.bytes (e : Epoch) : Nat := e.count * 256 + 128 + sigBytes

/-- COC_CTRL.EXPORT: the export starts, or it is refused. -/
def State.cocExport (s : State) : State :=
  if s.rd F.COC_EXPORT_STATE = 1 then s
  else match s.coc.epochs.find? (fun e => e.num == s.rd F.COC_EXPORT_EPOCH) with
    | some e =>
      if !e.sealed || decide (s.rd F.COC_XLEN_BYTES < e.bytes) || decide (gddrEnd < s.cocAddr + e.bytes) then s.wr F.COC_EXPORT_STATE 3
      else { s.wr F.COC_EXPORT_STATE 1 with coc.exportReq := some (e.num, s.cocAddr) }
    | none => s.wr F.COC_EXPORT_STATE 3

def execCocExport (s : State) : Host.Outcome State Fault Refusal :=
  done (onlyIf (s.linkedUp && s.dev.step == 12 && s.cocRuns) s State.cocExport)

/-- COC_EXPORT_DONE: the entries in order, then the seal. An epoch erased meanwhile is refused. -/
def execCocExportDone (s : State) : Host.Outcome State Fault Refusal :=
  done (match s.coc.exportReq with
    | none => s
    | some (n, a) => onlyIf (s.cocRuns && s.running) s (fun s =>
      let s := { s with coc.exportReq := none }
      match s.coc.epochs.find? (fun e => e.num == n && e.sealed) with
      | none => s.wr F.COC_EXPORT_STATE 3
      | some e =>
        let d := ((s.coc.chain.filter (fun x => x.epoch == n)).reverse.map (·.data)).flatten ++ e.stamp
        match s.busWrite (mDsp 2) a d with
        | (.ok, s) => s.wr F.COC_EXPORT_STATE 2
        | (_, s) => s.wr F.COC_EXPORT_STATE 3))

/-! Recorder firmware update (R547). -/

/-- COC_CTRL.UPD_START; refused while an earlier update is in progress, whose state stays. -/
def State.cocUpdStart (s : State) : State :=
  if s.coc.upd ≠ 0 then s.raise 167 0xB020 0
  else
    let n := s.rd F.COC_XLEN_BYTES
    if n = 0 ∨ gddrEnd < s.cocAddr + n then s.updRefused
    else ({ s with coc.upd := 1, coc.updAt := s.cocAddr, coc.updLen := n, coc.updSent := 0, coc.staged := [] }).wr F.COC_STATUS_UPD 1

def execCocUpdStart (s : State) : Host.Outcome State Fault Refusal :=
  done (onlyIf (s.linkedUp && s.dev.step == 12 && s.cocRuns) s State.cocUpdStart)

/-- UPDATE_CHUNK_SEND: dispatch core 2 passes the next chunk while at least 16 records are free. -/
def execUpdateChunkSend (s : State) : Host.Outcome State Fault Refusal :=
  done (onlyIf (s.cocRuns && s.coc.upd == 1 && decide (s.coc.updSent < s.coc.updLen) && s.coreRuns 2 && s.running &&
      decide (s.coc.mbox.length + s.coc.offers.length + 16 ≤ 64)) s (fun s =>
    let n := Nat.min 104 (s.coc.updLen - s.coc.updSent)
    match s.busRead (mDsp 2) (s.coc.updAt + s.coc.updSent) n with
    | (.ok, d, s) => ({ s with coc.updSent := s.coc.updSent + n }).offer 0x10 false d
    | (_, _, s) => s.updRefused))

/-- The procedure of R530 against the Cocoon's own root and counter. -/
def State.updOk (s : State) (sig : Bool) : Bool :=
  let o := s.coc.staged
  let c := objCert o
  objLayoutOk o 6 true && (objDevice o == 0 || objDevice o == s.fuses.serial.toNat) && sha384 (objPayload o) == objDigest o && objSigned o &&
    !s.coc.recRoot.all (fun b => b == 0#8) && sha384 (certRoot c) == s.coc.recRoot && certPurpose c 6 && sig && decide (s.coc.svn ≤ objSvn o)

/-- RECORDER_UPDATE_VERIFY: the staged image is held for the next epoch boundary, or refused. The operands say which of the four
signatures verify. -/
def execRecorderUpdateVerify (r1 s1 r2 s2 : Bool) (s : State) : Host.Outcome State Fault Refusal :=
  done (onlyIf (s.cocRuns && s.coc.upd == 2) s (fun s =>
    if s.updOk (r1 && s1 && r2 && s2) then
      { s with coc.upd := 3, coc.updEpoch := s.rd F.COC_EPOCH_OPEN, coc.updVer := objVersion s.coc.staged, coc.updDigest := objDigest s.coc.staged,
               coc.updSvn := objSvn s.coc.staged }
    else s.updRefused))

def execCocClrCnt (s : State) : Host.Outcome State Fault Refusal :=
  done (s.clearFlds [F.COC_ERR_DROPPED, F.COC_ERR_RESETS, F.COC_ERR_OVERWRITTEN])

end Sys2Proof.Machine
end

