-- ==== Sys2Proof/Machine/Start.lean ====
section
/-! DEFINITION. Power good, the start sequence, loss of power, partial and full restarts, the end of full-chip BIST, exports received from a
peer (R62, R63, R382, R386, R424, R447, R475, R479 to R481, R521, R532, R553 to R571). What the start reads and finds is the operand of its
command (log entries 6 and 27). -/
namespace Sys2Proof.Machine

/-! What stays (R9, R386, R424, R480, R540, R553). -/

/-- A map without the entries that equal the default. -/
def trim {α : Type} [DecidableEq α] (d : α) (m : FMap α) : FMap α := m.filter (fun e => !decide (e.2 = d))
/-- Every entry changed by a function that keeps the default. -/
def mapVals {α : Type} [DecidableEq α] (d : α) (f : α → α) (m : FMap α) : FMap α := trim d (m.map (fun e => (e.1, f e.2)))

/-- What the fuses say of the physical tiles (R87). -/
def fuseSlots (m : FMap Slot) : FMap Slot := mapVals {} (fun x => { spareRow := x.spareRow, spareCol := x.spareCol }) m

/-- The offset of a register key lies in a window. -/
def keyIn (k lo hi : Nat) : Bool := decide (lo ≤ k / 32) && decide (k / 32 < hi)
/-- A field of the COC_ window. -/
def cocKey (k : Nat) : Bool := keyIn k 0x700000 0x710000
/-- PROD or CONS of the event, log or trace ring. -/
def ringKey (k : Nat) : Bool :=
  [2, 3, 4].any (fun r => k == F.HIF_RING_PROD_PROD.key r || k == F.HIF_RING_CONS_CONS.key r)
/-- A register field that a full restart leaves alone (R9, R424, R480). -/
def fullKeeps (lost : Bool) (k : Nat) : Bool :=
  keyIn k 0x6d0000 0x6e0000 || cocKey k || keyIn k 0x720000 0x730000 || (!lost && ringKey k)
/-- The field that a key stands for, by the register tables. -/
def fldOf (k : Nat) : Option Fld := (regAt (k / 32)).bind (fun r => r.1.flds.find? (fun f => f.lo == k % 32))
/-- A register field that a partial restart leaves alone: in the windows of the blocks that it resets RW, ROS and RWP fields, the units
that are out of service, INT_LOSS.CONSEC, the gPTP MAC, and MEM_STATUS (R9, R319, R322, R466, R479; log entry 27). -/
def partialKeeps (k : Nat) : Bool :=
  decide (0x6b0000 ≤ k / 32) || (match fldOf k with
    | some f => f.ty == .rw || f.ty == .ros || f.ty == .rwp || f.off == F.MEM_STATUS_STATE.off ||
        (f.off == F.INT_LOSS_CONSEC.off && f.lo == F.INT_LOSS_CONSEC.lo) || (f.off == F.INT_PTP_STATUS_PORT.off && f.lo == F.INT_PTP_STATUS_PORT.lo) ||
        (f.off == F.WRP_STATUS_IN_SERVICE.off && f.lo == F.WRP_STATUS_IN_SERVICE.lo)
    | none => false)

/-! Power good, reset and loss of power (R553, R557, R572). -/

/-- The main die before power good; fuses, persistent words and the Cocoon stay (R553). -/
def State.offState (s : State) : State :=
  { tick := s.tick, fuses := s.fuses, freeCtr := s.freeCtr, pending := s.pending, coc := s.coc, prs := { s.prs with vol := [] },
    regs := s.regs.filter (fun e => cocKey e.1), pwr := { temps := s.pwr.temps }, host := { bar2Bits := s.host.bar2Bits },
    swarm := { slots := fuseSlots s.swarm.slots },
    dev := { power := s.dev.power, pwrOffN := s.dev.pwrOffN, shutdown := s.dev.shutdown } }

/-- POWER_GOOD: RST_N rises; the start sequence is next. A device in thermal shutdown starts only after a loss of power (R557). -/
def execPowerGood (s : State) : Host.Outcome State Fault Refusal :=
  done (onlyIf (s.dev.rstLow && !s.dev.shutdown) s (fun s =>
    let s := { s with dev.rstLow := false, dev.power := true, dev.step := 1, dev.phase := 1 }
    if s.cocRuns then s.wr F.COC_STATUS_RUN 1 else s))

/-- RST_N_ASSERT: the main die returns to its state before power good. -/
def execRstNAssert (s : State) : Host.Outcome State Fault Refusal := done { s.offState with dev.rstLow := true }

/-- POWER_LOSS: a write that is not complete leaves its word at the old value; PWR_OFF_N is released (R557, R572). -/
def execPowerLoss (s : State) : Host.Outcome State Fault Refusal :=
  done (let o := s.offState
    { o with prs := { words := s.prs.words, hourAt := s.tick }, pwr := {}, dev := { power := false } })

/-! The objects of the start image (R530, R532, R560). -/

/-- The outcome of the verification of an object against the counters as well. -/
def State.objResult (s : State) (o : StartObj) : Nat :=
  if o.result ≠ 0 then o.result
  else if o.keySvn < (s.prsForce (0x110 + o.hier)).toNat || decide (o.svn < s.svnCounter o.type) then 0xA004
  else 0

/-- A directory whose CRC agrees (R559). -/
def dirOk (d : List Byte) : Bool := decide (4096 ≤ d.length) && fieldAt d 4092 4 == crc32c (d.take 4092)
/-- The directory in use. -/
def startDir (inp : StartIn) : Option (List Byte) := [inp.dir0, inp.dir1].find? dirOk
/-- A directory has an entry with this TYPE, COPY and SLOT (R559). -/
def dirLists (d : List Byte) (o : StartObj) : Bool :=
  (List.range (Nat.min 250 (fieldAt d 6 2))).any (fun k =>
    fieldAt d (64 + 16 * k) 1 == o.type && fieldAt d (65 + 16 * k) 1 == o.copy && fieldAt d (66 + 16 * k) 1 == o.slot)
/-- What a start finds when it reads only the objects that the directory in use locates (R559). -/
def locate (inp : StartIn) : StartIn :=
  { inp with objs := match startDir inp with
      | some d => inp.objs.filter (dirLists d)
      | none => [] }

/-- Copy `c` of an object. -/
def startObj? (inp : StartIn) (type slot c : Nat) : Option StartObj :=
  inp.objs.find? (fun o => o.type == type && o.copy == c && o.slot == slot)

/-- The copy that a start uses: the first that is not refused. -/
def startPick (inp : StartIn) (type slot : Nat) (check : StartObj → Nat) : Option StartObj :=
  ([startObj? inp type slot 0, startObj? inp type slot 1].filterMap id).find? (fun o => check o == 0)

/-- Verify copy 1 after copy 0 was refused or is absent; `code` is the refusal of copy 0. -/
def State.tryCopy1 (s : State) (inp : StartIn) (type slot code : Nat) (check : StartObj → Nat) : Except Nat StartObj × State :=
  match startObj? inp type slot 1 with
  | some o =>
    let r := check o
    let s := s.countVerify type r
    if r = 0 then (.ok o, s.wr F.PWR_START_COPY 1) else (.error r, s)
  | none => (.error code, s)

/-- Verify an object: copy 0 first, then, with 0xC031, copy 1 (R560). -/
def State.tryObj (s : State) (inp : StartIn) (type slot : Nat) (check : StartObj → Nat) : Except Nat StartObj × State :=
  match startObj? inp type slot 0 with
  | some o =>
    let r := check o
    let s := s.countVerify type r
    if r = 0 then (.ok o, s) else (s.raise 166 0xC031 type).tryCopy1 inp type slot r check
  | none => s.tryCopy1 inp type slot 0xA001 check

/-! Failed starts (R566). -/

/-- The start fails at a step. -/
def State.startFails (s : State) (step code : Nat) : State :=
  (((s.setDev 4).wr F.PWR_START_STEP step).wr F.PWR_START_CODE code).raise 166 0xC030 step

def State.failedStart (s : State) : Bool := s.rd F.HIF_STATE_DEV == 4

/-- Run a start step, unless the start has failed. -/
def State.startStep (s : State) (n : Nat) (f : State → State) : State := if s.failedStart then s else f { s with dev.step := n }

/-- A step that needs an object of the image set: its measurement is taken (R535), or the start fails. -/
def State.needObj (s : State) (inp : StartIn) (step type : Nat) (f : StartObj → State → State) : State :=
  if s.failedStart then s
  else match s.tryObj inp type 0xff s.objResult with
    | (.ok o, s) =>
      f o { s with sec.manifest := s.sec.manifest ++ [measure type 0xff o.hier o.version o.svn o.digest] }
    | (.error code, s) => s.startFails step code

/-! Steps 1 to 6 (R453, R462, R559 to R568, R574, R576). -/

/-- A persistent word that reads uncorrectable (R574). -/
def State.badWord (s : State) (idx : Nat) : State :=
  if idx < 4096 then ((s.modPrs idx (fun w => { w with bad := true })).cnt F.PRS_STATUS_UNCORR).raise 181 0xC021 idx else s

/-- A persistent word is read with a single-bit error: it is corrected and rewritten once, or a second such error makes it uncorrectable
(R574). -/
def State.corrWord (s : State) (idx : Nat) : State :=
  if 4096 ≤ idx ∨ (s.prsWord idx).bad then s
  else if (s.prsWord idx).err then s.badWord idx
  else (s.modPrs idx (fun w => { w with err := true })).prsRequest idx (s.prsWord idx).value

/-- The words are read at a start or restart (R574). -/
def State.readWords (s : State) (bad corr : List Nat) : State := (s.each bad State.badWord).each corr State.corrWord

/-- Step 1: words are read, comparator and lines are tested. -/
def State.start1 (s : State) (inp : StartIn) : State :=
  let s := s.readWords inp.badWords inp.corrWords
  let s := if inp.testsOk then s.cnt F.SAF_LOCKSTEP_TESTS else s.testMissed 177 0
  { s with cara.testAt := s.tick, cara.lineTestAt := s.tick, cara.wdtAt := s.tick }

/-- A setting of the image that differs from its word is written (R576). -/
def State.setting (s : State) (e : Nat × BitVec 32) : State :=
  if s.prsNext e.1 = e.2 then s else s.prsNow e.1 e.2
/-- Index of a persistent setting (R576). -/
def settingOk (i : Nat) : Bool := (decide (0x100 ≤ i) && decide (i ≤ 0x102)) || (decide (0x200 ≤ i) && decide (i ≤ 0x3ff))

/-- The checks of R567 at step 5. -/
def State.cfgPasses (s : State) (inp : StartIn) : Bool :=
  inp.cfgOk && inp.gridX == 64 && inp.gridY == s.nRows && inp.subsys == (match startDir inp with
    | some d => fieldAt d 8 4
    | none => 0) && inp.cfg.settings.all (fun e => settingOk e.1)

/-- Ring `r` lies where the image puts it (R404). -/
def State.placeRing (s : State) (e : (Nat × Nat) × Nat) : State :=
  if e.2 < 5 then
    ((s.wr F.HIF_RING_BASE_BASE (e.1.1 / 4096) e.2).wr F.HIF_RING_CFG_LOG2N e.1.2 e.2).wr F.HIF_RING_CFG_ESIZE ([4, 4, 2, 4, 2].getD e.2 0) e.2
  else s

/-- Split mode is read at each start (R457); the fuse refuses it (R524). -/
def State.splitRead (s : State) : State :=
  if !s.cfg.split then s
  else if s.fuses.splitDisable then s.raise 184 0x9010 1
  else { s with cara.split := true }.raise 184 0x9010 0

/-- The checked configuration image comes into force. -/
def State.configure (s : State) (inp : StartIn) : State :=
  if !s.cfgPasses inp then s.startFails 5 0xC030
  else
    let c := inp.cfg
    let s := { s with cfg := c, dev.subsys := inp.subsys,
                      modes := { react := c.reactHost, selftest := c.selftestHost, memtrain := c.trainHost } }
    let s := s.each c.rings.zipIdx State.placeRing
    let s := s.each (List.range s.nPorts) (fun s p => s.wrB F.CHL_CTRL_EN (c.peers.getD p none).isSome p)
    (s.each c.settings State.setting).splitRead

/-- The Carapace firmware starts: the reaction table is built and the management port is set (R464, R465, R482, R490, R531). -/
def State.carapaceStarts (s : State) : State :=
  let s := s.buildTable
  ((s.wrB F.SAF_MGMT_EN s.cfg.mgmtEn).wrB F.SAF_MGMT_IPV6 s.cfg.mgmtV6).wrB F.SAF_MGMT_AUTH (s.cfg.mgmtAuth && s.fuses.ownerLock)

/-- Step 6: safety and power images, and the bench image in split mode. -/
def State.start6 (s : State) (inp : StartIn) : State :=
  s.needObj inp 6 3 (fun _ s => s.needObj inp 6 5 (fun _ s =>
    let run : State → State := fun s => ((s.carapaceStarts.wr F.FW_STATUS_PWR_RUN 1).wr F.PWR_STATUS_AVS 1).wdtRestart 5
    if s.cara.split then s.needObj inp 6 7 (fun _ s => run s) else run s))

/-! Step 7: device memory (R365, R366, R382, R386). -/

def allChans : List Nat := List.range 8

/-- Every channel is ready at a speed. -/
def State.memReady (s : State) (speed : Nat) : State :=
  s.each allChans (fun s c => ((s.wr F.MEM_STATUS_STATE 2 c).wr F.MEM_STATUS_SPEED speed c).modChan c (fun x =>
    { x with trained := true, trainAt := s.tick,
             trainTemp := (BitVec.ofNat 8 (s.rd F.MEM_STATUS_TEMP c)).toInt }))

/-- Channels that cannot be trained are reported (R382). -/
def State.chansFail (s : State) (bad : List Nat) : State :=
  s.each bad (fun s c => ((s.wr F.MEM_STATUS_STATE 5 c).modChan c (fun x => { x with trained := false })).raiseMem c 0x4008 mCtl 0 5)

/-- Channels that cannot be trained fail the start. -/
def State.memFails (s : State) (bad : List Nat) : State := (s.chansFail bad).startFails 7 0x4008

/-- Every channel enters a state of MEM_STATUS: 1 training, 4 self-refresh (R386, R392). -/
def State.chansTo (s : State) (n : Nat) : State := s.each allChans (fun s c => s.wr F.MEM_STATUS_STATE n c)

/-- Train every channel: at full speed, and, where one fails, all at reduced speed. -/
def State.trainAll (s : State) (inp : StartIn) : State :=
  let s := s.chansTo 1
  let bad := allChans.filter (fun c => !inp.trainFull.getLsbD c)
  if !s.cfg.reduced ∧ bad = [] then s.memReady 0
  else
    let s := if s.cfg.reduced then s else s.each bad (fun s c => s.raiseMem c 0x4007 mCtl 0 5)
    let bad := allChans.filter (fun c => !inp.trainReduced.getLsbD c)
    if bad = [] then s.memReady 1 else (s.memReady 1).memFails bad

/-- Host-paced initial training: a channel without a grant is trained without one after 1 s (R382). -/
def State.initialGrants (s : State) : State :=
  if !s.cfg.trainHost then s
  else s.each allChans (fun s c =>
    if s.rdB F.MEM_TRAIN_GRANT c then s.wr F.MEM_TRAIN_GRANT 0 c
    else (s.cnt F.MEM_TRAIN_OVERDUE c).raiseMem c 0x400A mCtl 0 5)

/-- Step 7. `old` is the speed that a full restart resumes at, nothing at power-on and where the contents are lost. -/
def State.start7 (s : State) (inp : StartIn) (powerOn : Bool) (old : Option Nat) : State :=
  match old with
  | none =>
    let absent := allChans.filter (fun c => !inp.density.getLsbD c)
    if absent ≠ [] then s.memFails absent
    else (if powerOn then s.initialGrants else s).trainAll inp
  | some v =>
    if v = b2n s.cfg.reduced ∧ inp.verified = 0xff#8 then s.memReady v else s.trainAll inp

/-! Step 8 and full-chip BIST: tests of every good slot, and the mapping (R58 to R63, R82, R111, R512). -/

/-- A good slot fails its test: it is fenced, the persistent word first (R79, R512). -/
def State.slotFails (s : State) (code p : Nat) : State :=
  let b := p / 17
  let sl := p % 17
  if s.slotState b sl ≠ 0 ∨ s.nBroods ≤ b then s
  else
    let s := s.prsNow b (s.prsForce b ||| BitVec.ofNat 32 (2 ^ sl))
    let s := ((s.lifeUp 0x129).setSlotState b sl 2).lastTest b sl 0 (b2n (code == 0x1010)) (b2n (code == 0x1011)) (b2n (code == 0x2101))
    (s.modSlot p (fun x => { x with skewOk := false })).raiseBrood b code

/-- The skew lines and the column select of every good slot are programmed from its fuses (R111). -/
def State.programSlots (s : State) : State :=
  s.each (List.range s.nBroods) (fun s b => s.each (s.goodSlots b) (fun s p =>
    s.modSlot (physOf b p) (fun x => { x with rowProg := x.spareRow, colProg := x.spareCol, skewOk := false })))
/-- The good slots have passed the skew self-check (R111, R139). -/
def State.skewPassed (s : State) : State :=
  s.each (List.range s.nBroods) (fun s b => s.each (s.goodSlots b) (fun s p =>
    s.modSlot (physOf b p) (fun x => { x with skewOk := true })))

/-- The tests of every slot: those named fail, the other good ones pass. -/
def State.testSlots (s : State) (lbist mbist skew : List Nat) : State :=
  let s := s.each lbist (fun s p => s.slotFails 0x1010 p)
  let s := s.each mbist (fun s p => s.slotFails 0x1011 p)
  let s := (s.programSlots.each skew (fun s p => s.slotFails 0x2101 p)).skewPassed
  s.each (List.range s.nBroods) (fun s b => s.each (s.goodSlots b) (fun s p => s.slotTested (physOf b p)))

/-- A brood that its persistent word excludes stays out of service (R60). -/
def State.outBrood (s : State) (b : Nat) : State :=
  let s := s.each (List.range 16) (fun s k => s.wr (fMapValid k) 0 b)
  ((s.wr F.BRD_STATUS_EXCLUDED 1 b).setSpare b none).wr F.BRD_STATUS_TEST_SLOT 31 b

/-- A brood that cannot be mapped is excluded: the word, 0x1023 and the replacement flag (R63, R82); raised during a start, the event takes no
partial restart (actReact). -/
def State.excludeBrood (s : State) (b : Nat) : State :=
  ((s.prsNow b (s.prsForce b ||| 0x80000000#32)).raiseBrood b 0x1023).setReplace 0x1023 b

/-- Map one brood, with 0x1022 where it has no margin. -/
def State.mapOne (s : State) (set : List Stage) (b : Nat) : State :=
  if s.wordExcluded b then s.outBrood b
  else
    let s := s.mapBrood set b
    if s.excluded b then s.excludeBrood b
    else if (s.spare b).isNone then s.raiseBrood b 0x1022 else s
/-- Map every brood (R62). -/
def State.mapAll (s : State) (set : List Stage) : State := s.each (List.range s.nBroods) (fun s b => s.mapOne set b)

/-- Step 8: the loaded pipeline set is treated as empty (R63). -/
def State.start8 (s : State) (inp : StartIn) : State :=
  let s := s.each (List.range s.nBroods) State.readSlots
  (s.testSlots inp.lbistFail inp.mbistFail (skewFails inp.skew)).mapAll []

/-! Steps 9 to 12 (R63, R532, R533, R561, R563, R567 to R569). -/

/-- Step 9: the dispatch image, its interface version against the configuration's. -/
def State.start9 (s : State) (inp : StartIn) : State :=
  s.needObj inp 9 2 (fun o s =>
    let c := startPick inp 1 0xff s.objResult
    if (c.map (·.ifMajor)).getD 0 ≠ o.ifMajor then s.startFails 9 0xC030
    else (((s.setActive o.version).wr F.HIF_IFVER_MAJOR o.ifMajor).wr F.HIF_IFVER_MINOR o.ifMinor).dspReset)

/-- A model image of the start is verified, and held against the digest that the configuration image gives (R533, R568). -/
def State.modelResult (s : State) (digest : List Byte) (o : StartObj) : Nat :=
  let r := s.objResult o
  if r ≠ 0 then r else if sha384 o.payload ≠ o.digest ∨ o.digest ≠ digest then 0xA002 else 0

/-- Load the image of a start model; refused, its slot stays empty (R566). -/
def State.startLoadImage (s : State) (slot : Nat) (img : List Byte) (c : ImageCopy) (copy : Option Nat) : State :=
  match s.loadImage img copy (fun n => measure 8 n c.how c.version c.svn c.digest) with
  | (code, _, s) =>
    if code = 0 then
      (match s.sched.models.find? (fun m => m.slot == slot) with
       | some m => { s with sec.copies := s.sec.copies.filter (fun k => k.slot != slot) ++ [{ c with addr := m.copyAt, bytes := m.copyBytes }] }
       | none => s)
    else s.raise 166 0xC032 slot

/-- One start model is verified and loaded, and its copy and digest are recorded (R563, R566). -/
def State.startModel (s : State) (inp : StartIn) (e : Nat × List Byte) : State :=
  match s.tryObj inp 8 e.1 (s.modelResult e.2) with
  | (.ok o, s) =>
    s.startLoadImage e.1 o.payload
      { slot := e.1, digest := o.digest, how := if s.cfg.vmode = 2 then 2 else o.hier, version := o.version, svn := o.svn } none
  | (.error _, s) => s.raise 166 0xC032 e.1

/-- At a full restart the security block holds the copy in device memory against the digest recorded at power-on; one that differs, or
that cannot be read, is refused with 0xA002 (R563). -/
def State.keptModel (s : State) (e : Nat × List Byte) : State :=
  match s.sec.copies.find? (fun c => c.slot == e.1) with
  | none => s.raise 166 0xC032 e.1
  | some c =>
    match s.busRead mSec c.addr c.bytes with
    | (.ok, img, s) =>
      if sha384 img = c.digest then (s.countVerify 8 0).startLoadImage e.1 img c (some c.addr)
      else (s.countVerify 8 0xA002).raise 166 0xC032 e.1
    | (_, _, s) => (s.countVerify 8 0xA002).raise 166 0xC032 e.1

/-- At the end of step 10 the broods with a QM-hosted tile are mapped for the loaded set (R63). -/
def State.remapStart (s : State) : State :=
  s.each ((List.range s.nBroods).filter (fun b => (s.brood b).qmHosted != [])) (fun s b =>
    let s := s.mapBrood s.loadedStages b
    if s.excluded b then s.excludeBrood b else s)

/-- Stages whose tiles are not all in service stay failed (R82). -/
def State.bindFailed (s : State) : State :=
  { s with sched.binds := s.sched.binds.map (fun (b : Binding) => { b with failed := match s.stage? b.stage with
      | some x => !s.unitsHosted x
      | none => false }) }

def State.start10 (s : State) (inp : StartIn) (kept : Bool) : State :=
  ((s.each s.cfg.startModels (fun s e => if kept then s.keptModel e else s.startModel inp e)).remapStart).bindFailed

/-- Every entry of the enabled streams' rings is cleared at a full restart (R315). -/
def State.clearEntries (s : State) : State :=
  s.each (List.range 48) (fun s n =>
    let d := (s.strm n).desc
    if d.en then
      let s := s.clearRange d.buf (d.buf + d.nslot * d.bufStride)
      { s with mem.chk := FMap.clear s.mem.chk (fun k => decide (d.buf ≤ 32 * k) && decide (32 * k < d.buf + d.nslot * d.bufStride)) }
    else s)

/-- A sequence runs at this start (R569). -/
def sensorRuns (powerOn : Bool) (q : List SensorStep) : Bool := powerOn || q.any (·.rep)

/-- The time base of chip 0 is the reference: SYNC_IO_STATUS.ALIGNED is always 1 there (R227). -/
def State.chip0 (s : State) : State := if s.cfg.chip = 0 then s.wr F.SYNC_IO_STATUS_ALIGNED 1 else s

/-- SYNC_IO_CTRL.EN and INT_ETH_LAT take what the configuration image gives, and the JPEG XS engines their modes (R228, R339, R340). -/
def State.ioSetup (s : State) : State :=
  let s := (s.wrB F.SYNC_IO_CTRL_EN (decide (1 < s.cfg.chips))).chip0
  let s := s.each [0, 1] State.settleMode
  let s := s.wr F.INT_PTP_STATUS_PORT s.cfg.gptpMac
  s.each (s.cfg.eth.take 4).zipIdx (fun s c => (s.wr F.INT_ETH_LAT_TX_NS c.1.txNs c.2).wr F.INT_ETH_LAT_RX_NS c.1.rxNs c.2)

/-- The start list: modes, and the pipelines that start (R568). -/
def State.startListed (s : State) (e : Nat × Nat) : State :=
  let s := s.modPipe e.1 (fun x => { x with hostSched := bitOf e.2 1, hostRec := bitOf e.2 2 })
  if bitOf e.2 0 then s.setRunning e.1 true else s

/-- A sensor control sequence goes out on its I2C ports, entry by entry; a write to a port in `nack` is not acknowledged three times and stops
it with 0xC033 (R19, R569). -/
def State.runSensor (nack : List Nat) (s : State) : List SensorStep → State
  | [] => s
  | e :: r =>
    if e.len = 0 then State.runSensor nack s r
    else if nack.contains e.port then s.raise 166 0xC033 e.port
    else State.runSensor nack { s with intake.sensorOut := s.intake.sensorOut ++ [(e.port, e.target, natLe e.len e.data.toNat)] } r

/-- A switch request of the configuration image: queued for the frame boundary, or refused (R269, R270; log entry 17). -/
def State.cfgSwitch (s : State) (e : Nat × Nat) : State :=
  if s.switchBad e.1 e.2 then s.raise 163 0x1220 e.2
  else { s with sched.switches := s.sched.switches ++ [(e.1, e.2, none)] }

/-- Step 11. -/
def State.start11 (s : State) (inp : StartIn) (powerOn : Bool) : State :=
  let s := s.each s.cfg.tables (fun s e => s.store mIntake e.1 e.2)
  let s := s.installTables.ioSetup
  let s := if powerOn then s else s.clearEntries
  let s := { s with intake.sensorOut := [] }.each (s.cfg.sensor.filter (sensorRuns powerOn)) (State.runSensor inp.nack)
  (s.each s.cfg.switches State.cfgSwitch).each s.cfg.startList State.startListed

/-- The objects that the start has used. -/
def State.usedObjs (s : State) (inp : StartIn) (kept : Bool) : List StartObj :=
  ([1, 2, 3, 4, 5] ++ (if s.cara.split then [7] else [])).filterMap (fun t => startPick inp t 0xff s.objResult) ++
  (if kept then [] else s.cfg.startModels.filterMap (fun e => startPick inp 8 e.1 (s.modelResult e.2)))

/-- Raise a counter word to a value, with 0xA013 for the write; a write refused at the endurance limit leaves it (R532, R573). -/
def State.raiseCounter (s : State) (idx v unit : Nat) : State :=
  if (s.prsForce idx).toNat < v then
    let s := s.prsNow idx (BitVec.ofNat 32 v)
    if (s.prsForce idx).toNat < v then s else s.raise 165 0xA013 unit
  else s

/-- The anti-rollback counters of each TYPE and the key counters of each hierarchy take the largest numbers of the start (R532). -/
def State.raiseCounters (s : State) (l : List StartObj) : State :=
  let s := s.each (List.range' 1 8) (fun s t =>
    s.raiseCounter (0x107 + t) ((l.filter (fun o => o.type == t)).foldl (fun m o => Nat.max m o.svn) 0) t)
  s.each [0, 1] (fun s h => s.raiseCounter (0x110 + h) ((l.filter (fun o => o.hier == h)).foldl (fun m o => Nat.max m o.keySvn) 0) 0)

/-- Step 12: running. -/
def State.start12 (s : State) (inp : StartIn) (powerOn kept : Bool) : State :=
  let s := s.raiseCounters (s.usedObjs inp kept)
  let s := if powerOn then s.lifeUp 0x123 else s
  let s := (((s.wr F.PWR_START_DONE 1).wr F.PWR_START_STEP 12).wr F.PWR_START_MS_HI (inp.ms / 256)).wr F.PWR_START_CODE (inp.ms % 256)
  let s := if s.cara.split || s.cara.debug then s else s.wr F.HIF_ID_SAFETY 1
  { s with cara.aliveHold := false, cara.selBlock := false, cara.stopAt := none, cara.aliveAt := s.tick, cara.restartDue := 0,
           cara.zeroFill := false, dev.phase := 0, dev.runAt := s.tick, sec.molted := false }.setDev 1

/-- Steps 1 to 12 (R561). `old` is the memory speed that a full restart with kept contents resumes at. -/
def State.startAll (s : State) (inp : StartIn) (powerOn : Bool) (old : Option Nat) : State :=
  let kept := old.isSome
  let s := s.startStep 1 (fun s => s.start1 inp)
  let s := s.startStep 2 (fun s => if (startDir inp).isSome then s else s.startFails 2 0xC030)
  let s := s.startStep 3 id
  let s := s.startStep 4 (fun s => s.needObj inp 4 4 (fun _ s => (s.wr F.FW_STATUS_SEC_RUN 1).wdtRestart 4))
  let s := s.startStep 5 (fun s => s.needObj inp 5 1 (fun _ s => s.configure inp))
  let s := s.startStep 6 (fun s => s.start6 inp)
  let s := s.startStep 7 (fun s => s.start7 inp powerOn old)
  let s := s.startStep 8 (fun s => s.start8 inp)
  let s := s.startStep 9 (fun s => s.start9 inp)
  let s := s.startStep 10 (fun s => s.start10 inp kept)
  let s := s.startStep 11 (fun s => s.start11 inp powerOn)
  s.startStep 12 (fun s => s.start12 inp powerOn kept)

/-- START_SEQUENCE: the start of power-on. -/
def execStartSequence (inp : StartIn) (s : State) : Host.Outcome State Fault Refusal :=
  done (onlyIf (s.dev.step == 1 && s.dev.phase == 1 && !s.dev.latchedOff && !s.dev.shutdown && !s.failedStart) s (fun s =>
    s.startAll (locate inp) true none))

/-! The full restart (R424, R475, R480). -/

/-- The compute die after its reset; `lost` says that device memory is declared lost (R386). -/
def State.fullReset (s : State) (lost : Bool) : State :=
  let c := s.cara
  let r : State :=
    { tick := s.tick, fuses := s.fuses, freeCtr := s.freeCtr, pending := s.pending, coc := s.coc, prs := { s.prs with vol := [] },
      regs := s.regs.filter (fun e => fullKeeps lost e.1), pwr := { temps := s.pwr.temps }, host := { bar2Bits := s.host.bar2Bits },
      mem := if lost then {} else { cells := s.mem.cells.filter (fun e => decide (e.1 < gddrEnd)), chk := s.mem.chk },
      chans := if lost then [] else mapVals {} (fun (x : MemChan) => { lost := x.lost }) s.chans,
      swarm := { slots := fuseSlots s.swarm.slots },
      dev := { power := s.dev.power, rstLow := false, step := 1, phase := 3, pwrOffN := s.dev.pwrOffN },
      cara := { tlog := c.tlog, tlogSeq := c.tlogSeq, mgmtQ := c.mgmtQ, mgmtSeq := c.mgmtSeq, mgmtLoss := c.mgmtLoss, mgmtAt := c.mgmtAt,
                mgmtSent := c.mgmtSent, mgmtTo := c.mgmtTo, wins := mapVals {} (fun (w : Win) => { w with startAt := none }) c.wins, aliveLevel := c.aliveLevel,
                aliveHold := true, restarts := c.restarts, lastSm := c.lastSm },
      sec := { rsaReady := s.sec.rsaReady, slhReady := s.sec.slhReady, copies := if lost then [] else s.sec.copies } }
  (r.wrB F.SEC_STATUS_ID_RSA s.sec.rsaReady).wrB F.SEC_STATUS_ID_READY s.sec.slhReady

/-- Full restarts that began within the last 600 s (R475). -/
def State.recentRestarts (s : State) : List Nat := s.cara.restarts.filter (fun t => decide (s.tick < t + ms 600000))

/-- The third full restart within 600 s does not complete: the device is latched (R475). -/
def State.latchOff (s : State) : State :=
  let s := ((s.raise 184 0x9022 0).lifeUp 0x126).prsFlush
  { s with dev.latchedOff := true, cara.aliveHold := true, cara.restartDue := 0 }.setDev 3

/-- FULL_RESTART: due from the collector, or by a partial restart whose device memory was lost. Every pending switch request is discarded with
0x1220 (R270). -/
def execFullRestart (inp : StartIn) (s : State) : Host.Outcome State Fault Refusal :=
  done (onlyIf (s.cara.restartDue == 5 && s.mainUp && !s.dev.latchedOff) s (fun s =>
    let s := s.writeBack
    let lost := s.cara.zeroFill || !inp.writeBack
    let speed := s.rd F.MEM_STATUS_SPEED
    let recent := s.recentRestarts
    let sw := s.sched.switches
    let s := (s.lifeUp 0x124).lifeFlush
    let s := { s.fullReset lost with cara.restarts := recent ++ [s.tick] }
    let s := if lost then s else s.chansTo 4
    let s := (s.raise 184 0x9021 0).each sw (fun s e => s.raise 163 0x1220 e.2.1)
    if 2 ≤ recent.length then s.latchOff
    else
      let s := (if lost then s.raiseMem 0 0x4020 mCtl 0 5 else s).setDev 3
      s.startAll (locate inp) false (if lost then none else some speed)))

/-! The partial restart (R202, R267, R319, R386, R424, R447, R479). -/

/-- Host jobs fail with 0x7040, and every open frame is withheld with 0x1F01 (R424, R479). -/
def State.quiesce (s : State) : State :=
  let s := s.each (s.sched.jobs.filter (·.host)) (fun s j => (s.killJob j.id 0x7040).raise 160 0x7040 0)
  s.each ((s.sched.pipes.map (fun p => p.frames.map (fun f => (p.desc.num, f)))).flatten) (fun s e => s.withhold e.1 e.2 0x1F01)

/-- A load that waits for section pieces leaves its slots empty; it and a running full-chip BIST end with 0x7040, pending switches with
0x1220 (R267, R270; log entry 27). -/
def State.dropCmds (s : State) : State :=
  let s := { s with sched.pieces := [], sched.loading := none }
  let s := s.each (s.host.waiting.filter (fun w => (w.cmd.op == 2 && w.stage == 2) || (w.cmd.op == 10 && w.cmd.selects 4)))
    (fun s w => s.endCmd w.cmd.tag 0x7040 0)
  let sw := s.sched.switches
  ({ s with sched.switches := [], chk.bistAt := none }).each sw (fun s e =>
    let s := s.raise 163 0x1220 e.2.1
    match e.2.2 with
    | some g => s.endCmd g 0x1220 0
    | none => s)

/-- A stream keeps its last good entry, its stamp, its counters and its lost state (R319). -/
def restartStream (tick : Nat) (x : Stream) : Stream :=
  let x := { x with cur := none, ready := [], broken := false, skipId := none }
  if !x.desc.en || x.state == 3 then { x with timerAt := none }
  else { x with state := 1, timerAt := some (tick + x.desc.tmo) }

/-- The blocks that a partial restart resets are as after reset; tile and brood memories are cleared (R9, R479). -/
def State.partialReset (s : State) : State :=
  let s := { s with
    regs := s.regs.filter (fun e => partialKeeps e.1), prs.vol := [],
    chans := mapVals {} (fun (x : MemChan) => { x with cache := [], corr := [], edcAt := [], dueAt := none, failRun := 0, overdue := false }) s.chans,
    swarm := { slots := mapVals {} (fun (x : Slot) => { x with inSlice := false, slice := 0 }) s.swarm.slots,
               broods := mapVals {} (fun (x : Brood) => { rspViol := x.rspViol }) s.swarm.broods },
    mesh := { ports := mapVals {} (fun (x : Port) => { out := x.out }) s.mesh.ports },
    sched.singles := [], chk.arbs := [], chk.units := mapVals {} (fun (u : Unit) => { u with running := false }) s.chk.units,
    intake := { s.intake with
      streams := mapVals {} (restartStream s.tick) s.intake.streams, updWait := none, warpNo := none, warpNew := [], warpDone := [],
      jxs := mapVals {} (fun (j : JxsEngine) => { out := j.out }) s.intake.jxs, warps := [], waitQ := [], rerunQ := [], jxsQ := [],
      encQ := [] } }
  ((s.clearRange tileBase (tileBase + 0x20000000)).clearRange broodBase (broodBase + 0x2000000)).each [0, 1] State.settleMode

/-- Every channel is trained at reduced speed; one that fails keeps the restart from completing (R382; log entry 27). -/
def State.resumeReduced (s : State) (inp : RestartIn) : State :=
  match allChans.filter (fun c => !inp.trainReduced.getLsbD c) with
  | [] => s.memReady 1
  | bad => ((s.memReady 1).chansFail bad).setDev 4

/-- Device memory resumes from self-refresh; a channel whose verification fails is trained afresh, and where one fails at full speed all are
trained at reduced speed (R382, R386). -/
def State.memResume (s : State) (inp : RestartIn) : State :=
  let speed := s.rd F.MEM_STATUS_SPEED
  let s := s.chansTo 4
  if inp.verified = 0xff#8 then s.memReady speed
  else if speed = 1 then s.resumeReduced inp
  else match allChans.filter (fun c => !inp.verified.getLsbD c && !inp.trainFull.getLsbD c) with
    | [] => s.memReady speed
    | bad => (s.each bad (fun s c => s.raiseMem c 0x4007 mCtl 0 5)).resumeReduced inp

/-- An address of the intake or warp tables of system SRAM (R303, R345). -/
def inTables (a : Nat) : Bool :=
  (decide (warpTable ≤ a) && decide (a < warpTable + 0x10000)) || (decide (descTable ≤ a) && decide (a < sysBase + 0x1000000))

/-- Restore: the on-chip sections of every resident model from their copies, and the intake and warp tables, whose copy holds what was last
written to them: every word is written whole, so no error is left in one (R267, R386, R389; log entry 21). -/
def State.restoreAll (s : State) : State :=
  let s := s.each s.sched.models (fun s m => s.restore m m.sections)
  { s with mem.sram := FMap.clear s.mem.sram inTables }

/-- Re-arm: objects are reset, PIPELINE-scope ones to their initial values; dispatch cores restart (R202, R447). -/
def State.rearmAll (s : State) : State :=
  let s := { s with swarm.gobj := [], swarm.gbar := [] }
  (s.each ((s.sched.models.map (·.stages)).flatten) State.pipeObjs).bindFailed

/-- The blocks are reset, device memory resumes, the broods are mapped, sections are restored, objects and streams re-armed. -/
def State.partialRun (s : State) (inp : RestartIn) : State :=
  let s := { s.partialReset with dev.step := 5 }.memResume inp
  if s.failedStart then s else
  let s := s.each (List.range s.nBroods) State.readSlots
  let s := { s with dev.step := 6 }.readWords inp.badWords inp.corrWords
  let s := (s.programSlots.each (skewFails inp.skew) (fun s p => s.slotFails 0x2101 p)).skewPassed.mapAll s.loadedStages
  let s := { s with dev.step := 7 }.restoreAll
  let s := { s with dev.step := 8 }.rearmAll.chip0
  let s := { s.dspReset with cara.wins := mapVals {} (fun (w : Win) => { w with startAt := none }) s.cara.wins, cara.restartDue := 0,
                             dev.step := 12, dev.phase := 0 }
  (s.setDev 1).checkLost

/-- PARTIAL_RESTART: where the write-back fails, or the contents are lost, it becomes a full restart with the zero fill (R386). -/
def execPartialRestart (inp : RestartIn) (s : State) : Host.Outcome State Fault Refusal :=
  done (onlyIf (s.cara.restartDue == 4 && s.dev.step == 12 && !s.dev.shutdown && !s.dev.latchedOff) s (fun s =>
    let s := { (s.lifeUp 0x125).lifeFlush with cara.partials := s.cara.partials ++ [s.tick], dev.phase := 2, dev.step := 1 }
    let s := ((s.setDev 2).raise 184 0x9020 0).moltAbort 2
    let s := { s with dev.step := 2 }.quiesce.dropCmds.writeBack
    if s.cara.zeroFill || !inp.writeBack then
      { s.raiseMem 0 0x4020 mCtl 0 5 with cara.zeroFill := true, dev.step := 12, dev.phase := 0 }.callRestart 5
    else s.partialRun inp))

/-! Full-chip BIST (R521). -/

/-- A shared unit passes its slices, or fails (R519). -/
def State.unitTested (s : State) (bad : List Nat) (row i : Nat) : State :=
  if bad.contains (row * 4096 + i) then (s.raiseUnit row i 0x2040).modUnit row i (fun u => { u with running := false, failed := false })
  else s.modUnit row i (fun u => { u with running := false, failed := false, slice := 0, passAt := s.tick, lfiAt := 0 })

/-- The code of the first failure. -/
def firstFailure (lbist mbist skew units : List Nat) : Nat :=
  if lbist ≠ [] then 0x1010 else if mbist ≠ [] then 0x1011 else if skew ≠ [] then 0x2101 else if units ≠ [] then 0x2040 else 0

/-- FULL_BIST_END: the operands name the physical tiles that fail each test, the accumulator errors of the skew self-check (R112, R113), and the
shared units, as row * 4096 + instance. A halted tile stays halted (R179). -/
def execFullBistEnd (lbist mbist : List (BitVec 12)) (skew : List SkewErr) (units : List (BitVec 16)) (s : State) : Host.Outcome State Fault Refusal :=
  done (onlyIf (s.chk.bistAt.isSome && s.running) s (fun s =>
    let l := lbist.map (·.toNat)
    let m := mbist.map (·.toNat)
    let k := skewFails skew
    let u := units.map (·.toNat)
    let code := firstFailure (l.filter (fun p => s.slotState (p / 17) (p % 17) == 0))
      (m.filter (fun p => s.slotState (p / 17) (p % 17) == 0)) (k.filter (fun p => s.slotState (p / 17) (p % 17) == 0)) u
    let s := s.testSlots l m k
    let s := s.each (List.range 9) (fun s row => s.each (List.range (s.rowUnits row)) (fun s i => s.unitTested u row i))
    let s := (s.clearRange tileBase (tileBase + 0x20000000)).clearRange broodBase (broodBase + 0x2000000)
    let s := { s with swarm.tiles := mapVals {} (fun (x : TileState) => { cyc := x.cyc, job := x.job, run := x.run, err := x.err, pc := x.pc }) s.swarm.tiles,
                      chk.bistAt := none }
    let s := ((s.mapAll s.loadedStages).restoreAll).rearmAll
    match s.host.waiting.find? (fun w => w.cmd.op == 10 && w.cmd.selects 4) with
    | some w => s.endCmd w.cmd.tag code 0
    | none => s))

/-! Exports from a peer (R571). -/

/-- CHIP_EXPORT_RECEIVE: the next entry of the port's export ring takes the output with its header; a full ring overwrites its oldest. -/
def execChipExportReceive (port : BitVec 2) (data : List Byte) (s : State) : Host.Outcome State Fault Refusal :=
  done (let p := port.toNat
    match s.cfg.expRings[p]? with
    | some (base, n, size) =>
      onlyIf (s.link p == 4 && s.running && decide (0 < n)) s (fun s =>
        let i := FMap.get 0 s.sched.expNext p
        let s := s.store mCtl (base + i % n * size) (data.take size)
        { s with sched.expNext := FMap.set 0 s.sched.expNext p (i + 1) })
    | none => s)

end Sys2Proof.Machine
end

