-- ==== Sys2Proof/Machine/RegWrite.lean ====
section
/-! DEFINITION. Writes to registers: violations, protected windows, the action of every writable field, doorbells and the MSI-X table
(R6 to R11, R15, R395, R396, R402, R403, R450, R490, R491, R551, R552, R562, R580, R602). -/
namespace Sys2Proof.Machine

/-- The state that a command's effect leaves. -/
def State.after (s : State) (f : State → Host.Outcome State Fault Refusal) : State :=
  match f s with
  | .next t => t
  | _ => s

/-! Which registers a host may write (R396, R431, R450, R490, R491, R551, R552, R580). -/

/-- The host-writable registers of the protected windows. -/
def hostOpen : List Nat :=
  [F.SAF_CTRL_CLR_CNT.off, F.SAF_WIN_SEL_STAGE.off, F.SAF_TLOG_SEL_SLOT.off, F.FCL_CTRL_CLR_CNT.off, F.FCL_REACT_SEL_INDEX.off,
   F.SEC_CTRL_CLR_CNT.off, F.SEC_OP_START.off, F.SEC_OP_ADDR_LO_ADDR.off, F.SEC_OP_ADDR_HI_ADDR_HI.off, F.SEC_OP_LEN_BYTES.off,
   F.COC_CTRL_EXPORT.off, F.COC_EXPORT_EPOCH.off, F.COC_XADDR_LO_ADDR.off, F.COC_XADDR_HI_ADDR_HI.off, F.COC_XLEN_BYTES.off,
   F.PRS_CTRL_CLR_CNT.off]
/-- A window whose host writes are dropped but for its host-writable registers (R396). -/
def guarded (off : Nat) : Bool :=
  (decide (0x6d0000 ≤ off) && decide (off < 0x710000)) || (decide (0x720000 ≤ off) && decide (off < 0x730000))
/-- A host write to the register at an offset is performed. -/
def hostMay (off : Nat) : Bool :=
  if off = F.FW_WDT_KICK_KICK.off ∨ off = F.FW_MOLT_COMMIT_COMMIT.off then false
  else !guarded off || hostOpen.contains off ||
    (decide (F.SEC_NONCE_NONCE.off ≤ off) && decide (off < F.SEC_NONCE_NONCE.off + 32))

/-! Violations (R8, R9, R602). -/

/-- The bits of a register that some field has. -/
def RegRow.used (r : RegRow) : Nat := r.flds.foldl (fun m f => m ||| (2 ^ f.w - 1) * 2 ^ f.lo) 0
/-- The bits of a written value that belong to a field. -/
def Fld.cut (f : Fld) (v : Nat) : Nat := v / 2 ^ f.lo % 2 ^ f.w
/-- The write sets a reserved bit, or gives a read-only field another value. -/
def State.writeBad (s : State) (r : RegRow) (i v : Nat) : Bool :=
  v &&& (2 ^ 32 - 1 - r.used) != 0 ||
    r.flds.any (fun f => (f.ty == .ro || f.ty == .ros) && f.cut v != s.fieldVal f i)

/-! The fields (R9). -/

/-- Registers whose whole write is one operation: INT_DESC_UPD and WRP_CFG_UPD (R306, R347). -/
def wholeOp (off : Nat) : Bool := off == F.INT_DESC_UPD_INDEX.off || off == F.WRP_CFG_UPD_INDEX.off

/-- RW and W1C fields take the write; an RWP word is requested of the persistent word block (R9, R572). -/
def State.writeFld (s : State) (i v : Nat) (f : Fld) : State :=
  match f.ty with
  | .rw => if wholeOp f.off then s else s.wr f (f.cut v) i
  | .w1c => s.wr f (s.rd f i &&& (2 ^ f.w - 1 - f.cut v)) i
  | .rwp => if prsListed i then s.prsRequest i (BitVec.ofNat 32 v) else s
  | _ => s

/-- A port whose CHL_CTRL.EN is 0 is disabled (R228; log entry 28). -/
def State.portOff (s : State) (p : Nat) : State :=
  if s.rdB F.CHL_CTRL_EN p ∨ s.link p = 0 then s
  else
    let s := (((s.setLink p 0).wr F.CHL_STATUS_WIDTH 0 p).wr F.CHL_LANES_IN_USE 0 p).wr F.CHL_CTRL_RETRAIN 0 p
    let s := s.wr F.CHL_STATUS_AUTH 0 p
    ((s.modPort p (fun x => { x with step := 0, key := none })).loseCross p).failMulti

/-- What the W1S and WO bits of a write do, and what follows from an RW field, for the windows of tiles, broods, mesh, intake, engines and
memory: `o` is the register's offset in instance 0. -/
def State.actLow (s : State) (o i v : Nat) : State :=
  let bit := bitOf v
  if o = F.TIL_CTRL_START.off then
    let s := if bit 1 then s.after (execTilHaltReq (BitVec.ofNat 11 i)) else s
    if bit 0 then s.after (execTilStart (BitVec.ofNat 11 i)) else s
  else if o = F.BRD_CTRL_ROT_GRANT.off then (if bit 1 then s.after (execBrdRotGrant (BitVec.ofNat 7 i)) else s)
  else if o = F.ARR_CTRL_CLR_CNT.off then (if bit 0 then s.after (execArrClrCnt (BitVec.ofNat 11 i)) else s)
  else if o = F.NOC_CTRL_CLR_CNT.off then (if bit 0 then s.after execNocClrCnt else s)
  else if o = F.SYN_CTRL_CLR_CNT.off then (if bit 0 then s.after execSynClrCnt else s)
  else if o = F.CHL_CTRL_RETRAIN.off then (if bit 1 then s.after (execChlRetrain (BitVec.ofNat 2 i)) else s).portOff i
  else if o = F.INT_CTRL_CLR_CNT.off then (if bit 0 then s.after execIntClrCnt else s)
  else if o = F.INT_DESC_UPD_INDEX.off then s.after (execIntDescUpd (BitVec.ofNat 6 v))
  else if o = F.JXS_CTRL_MODE.off then (if bit 1 then s.after (execJxsClrCnt (BitVec.ofNat 1 i)) else s).settleMode i
  else if o = F.WRP_CTRL_CLR_CNT.off then (if bit 0 then s.after (execWrpClrCnt (BitVec.ofNat 2 i)) else s)
  else if o = F.WRP_CFG_UPD_INDEX.off then s.after (execWrpCfgUpd (BitVec.ofNat 6 v))
  else if o = F.MEM_CTRL_CLR_CNT.off then (if bit 0 then s.after (execMemClrCnt (BitVec.ofNat 3 i)) else s)
  else if o = F.MEM_TRAIN_GRANT.off then (if bit 30 then s.after (execMemTrainGrant (BitVec.ofNat 3 i)) else s)
  else if o = F.MEM_INJ_ARM.off then (if bit 31 then s.after (execMemInjArm (BitVec.ofNat 3 i)) else s)
  else s

/-- The same for the windows from HIF_ on. -/
def State.actHigh (s : State) (o v : Nat) : State :=
  let bit := bitOf v
  if o = F.HIF_CTRL_CLR_CNT.off then (if bit 0 then s.after execHifClrCnt else s)
  else if o = F.HIF_ATTACH_START.off then
    let s := if bit 1 then s.after execHifAttachDetach else s
    if bit 0 then s.after execHifAttachStart else s
  else if o = F.FW_CTRL_CLR_CNT.off then (if bit 0 then s.after execFwClrCnt else s)
  else if o = F.FW_WDT_KICK_KICK.off then s.after (execFwWdtKick false (BitVec.ofNat 4 v))
  else if o = F.FW_MOLT_CTRL_REQ.off then
    let s := if bit 1 then s.after execFwMoltAbort else s
    if bit 0 then s.after execFwMoltReq else s
  else if o = F.FW_MOLT_COMMIT_COMMIT.off then (if bit 0 then s.after (execFwMoltCommit false) else s)
  else if o = F.SAF_CTRL_CLR_CNT.off then (if bit 0 then s.after execSafClrCnt else s)
  else if o = F.FCL_CTRL_CLR_CNT.off then (if bit 0 then s.after execFclClrCnt else s)
  else if o = F.SEC_CTRL_CLR_CNT.off then (if bit 0 then s.after execSecClrCnt else s)
  else if o = F.SEC_OP_START.off then (if bit 0 then s.secStart (bitsOf v 3 1) else s)
  else if o = F.COC_CTRL_EXPORT.off then
    let s := if bit 0 then s.after execCocClrCnt else s
    let s := if bit 1 then s.after execCocExport else s
    if bit 2 then s.after execCocUpdStart else s
  else if o = F.PWR_CTRL_CLR_CNT.off then (if bit 0 then s.after execPwrClrCnt else s)
  else if o = F.PRS_CTRL_CLR_CNT.off then (if bit 0 then s.after execPrsClrCnt else s)
  else s

/-- A logical tile that is being moved and whose ARR_ window holds an offset of the block registers. The TIL_ window answers during a move: R84
and R85 say what it gives then (R74; log entry 37). -/
def State.arrMoving (s : State) (off : Nat) : Option Nat :=
  let t := (off - 0x480000) / 0x100
  if 0x480000 ≤ off ∧ off < 0x500000 ∧ s.moving t then some t else none

/-- An access of device firmware to a hole is not performed, and is raised on the issuing core's line (R16). DESIGN CHOICE (log entry 37): the
spec gives the fault no code of its own; 0x8003, a dispatch core's bus error, is raised. -/
def State.fwHole (s : State) : State := s.raise 161 0x8003 0

/-- A 32-bit write to the register at an offset of the block registers; it counts at most one violation (R602). -/
def State.writeReg (s : State) (host : Bool) (off v : Nat) : State :=
  if (if host then s.hostHole off else s.regHole off) then (if host then s.violHole else s.fwHole)
  else if let some t := s.arrMoving off then s.holdAccess t { kind := 2, host := host, addr := off, data := natLe 4 v }
  else if host && !hostMay off then s.violation
  else match regAt off with
    | none => if v = 0 then s else s.violation
    | some (r, i) =>
      let bad := s.writeBad r i v
      let t := s.each r.flds (fun s f => s.writeFld i v f)
      let t := (t.actLow r.off i v).actHigh r.off v
      if bad && decide (t.rd F.HIF_VIOL0_RO_WRITE ≤ s.rd F.HIF_VIOL0_RO_WRITE) then t.violation else t

/-! Doorbells and the MSI-X table (R395, R402, R403). -/

/-- A 32-bit write to the doorbell page. -/
def State.writeDb (s : State) (o : Nat) (v : BitVec 32) : State :=
  if o = 0 then s.after (execDbCmd v)
  else if o = 4 then s.after (execDbCpl v)
  else if o = 8 then s.after (execDbEvt v)
  else if o = 12 then s.after (execDbLog v)
  else if o = 16 then s.after (execDbTrc v)
  else if o = 20 then s.after (execDbHb v)
  else if 0x100 ≤ o ∧ o < 0x1c0 then s.after (execDbTensor (BitVec.ofNat 6 ((o - 0x100) / 4)) v)
  else s.violHole

/-- A write to word `k` of the MSI-X table; a vector that is unmasked while it is pending is raised (log entry 23). -/
def State.writeMsix (s : State) (k : Nat) (v : BitVec 32) : State :=
  let w := match k % 4 with
    | 0 => v &&& ~~~ 3#32
    | 3 => v &&& 1#32
    | _ => v
  let s := { s with host.msixTab := if w = msixDef k then FMap.erase s.host.msixTab k else FMap.place (FMap.erase s.host.msixTab k) k w }
  s.sendPend

/-- A 32-bit write at an offset of BAR0 (R395). DESIGN CHOICE (log entry 37): a write to the pending bit array, which is read-only, counts one
violation whatever its value. -/
def State.writeBar0 (s : State) (a : Nat) (v : BitVec 32) : State :=
  if a < 0x1000000 then s.writeReg true a v.toNat
  else if a < 0x1001000 then s.writeDb (a - 0x1000000) v
  else if 0x1800000 ≤ a ∧ a < 0x1800400 then s.writeMsix ((a - 0x1800000) / 4) v
  else if 0x1801000 ≤ a ∧ a < 0x1801008 then s.violation
  else s.violHole

/-- A 32-bit write: an address below the size of BAR0 is an offset of BAR0, one from `cfgBase` an offset of configuration space, any other a
device address (log entries 2 and 23). In D3hot only configuration requests are taken (R393). -/
def State.write32 (s : State) (host : Bool) (a : Nat) (v : BitVec 32) : State :=
  if host then
    if s.host.d3hot && !(decide (cfgBase ≤ a) && decide (a < cfgBase + 0x1000)) then s
    else if a < 0x2000000 then s.writeBar0 a v
    else if cfgBase ≤ a ∧ a < cfgBase + 0x1000 then s.cfgWrite (a - cfgBase) v
    else match s.region a with
      | .regs off => s.writeReg true off v.toNat
      | .hole => s.violHole
      | _ => s
  else match s.region a with
    | .regs off => s.writeReg false off v.toNat
    | .hole => s.fwHole
    | _ => s

/-- Where a write of fewer than 32 bits falls, it is no register write: a hole counts as one (R15), else R7 holds. -/
def State.writeSub (s : State) (host : Bool) (a : Nat) : State :=
  if host && (s.host.d3hot || (decide (cfgBase ≤ a) && decide (a < cfgBase + 0x1000))) then s
  else if host && s.isHole (a / 4 * 4) then s.violHole else s.cnt F.HIF_VIOL1_SUBWORD

/-- REG_WRITE: `host` says who writes: the host through a BAR, or device firmware. `size` is in bytes; a 64-bit access is two 32-bit ones in
ascending order, and one of any other size, or one that is not aligned to 4 bytes, is a sub-word write (R7; log entry 28). -/
def execRegWrite (host : Bool) (addr : BitVec 48) (size : BitVec 4) (data : BitVec 64) (s : State) : Host.Outcome State Fault Refusal :=
  let a := addr.toNat
  let lo := data.setWidth 32
  let hi := (data >>> 32).setWidth 32
  done (onlyIf (if host then s.linkIs else s.mainUp) s (fun s =>
    if size = 8#4 ∧ a % 4 = 0 then (s.write32 host a lo).write32 host (a + 4) hi
    else if size = 4#4 ∧ a % 4 = 0 then s.write32 host a lo
    else s.writeSub host a))

/-! The ends of moves (R73, R74, R76). -/

/-- An access that stalled is performed (R74). -/
def State.perform (s : State) (a : HeldAccess) : State :=
  match a.kind with
  | 0 => s.hostRead a.addr a.len []
  | 1 => s.hostWrite a.addr a.data []
  | _ => s.writeReg a.host a.addr (leNat a.data)

/-- Once no move of the brood is in progress, the accesses that it stalled are performed, oldest first (R74). -/
def State.releaseHeld (s : State) (b : Nat) : State :=
  if (s.brood b).move.isSome then s
  else (s.modBrood b (fun x => { x with held := [] })).each (s.brood b).held State.perform

def execMoveTransferEnd (b : BitVec 7) (crcOk : Bool) (s : State) : Host.Outcome State Fault Refusal :=
  done ((s.moveTransferred b.toNat crcOk).releaseHeld b.toNat)
def execMoveSwitchEnd (b : BitVec 7) (s : State) : Host.Outcome State Fault Refusal :=
  done ((s.moveSwitched b.toNat).releaseHeld b.toNat)

end Sys2Proof.Machine
end

