-- ==== Sys2Proof/Machine/TileScalar.lean ====
section
/-! DEFINITION. Scalar, load, store and control instructions of a tile (R146 to R154, R174, R175). -/
namespace Sys2Proof.Machine

/-! Shared forms. -/

/-- A scalar operation on two registers. -/
def State.alu (s : State) (t : BitVec 11) (gd ga gb : BitVec 5) (f : Nat → Nat → Nat) : State :=
  s.issue t (fun s t => (s.setG t gd.toNat (f (s.g t ga.toNat) (s.g t gb.toNat))).advance t)
/-- A scalar operation on a register and an immediate. -/
def State.aluImm (s : State) (t : BitVec 11) (gd ga : BitVec 5) (imm : Nat) (f : Nat → Nat → Nat) : State :=
  s.issue t (fun s t => (s.setG t gd.toNat (f (s.g t ga.toNat) imm)).advance t)
/-- The sign-extended immediate as a 32-bit word (R146). -/
def simm (imm : BitVec 15) : Nat := twos 32 imm.toInt
/-- The address ga + imm, modulo 2^32. -/
def State.ea (s : State) (t : Nat) (ga : BitVec 5) (imm : BitVec 15) : Nat := (s.g t ga.toNat + simm imm) % 2 ^ 32

/-! Scalar operations on 32-bit values; results are cut to 32 bits when they are written. -/
def sAdd (a b : Nat) : Nat := a + b
def sSub (a b : Nat) : Nat := a + 2 ^ 32 - b
def sAnd (a b : Nat) : Nat := a &&& b
def sOr (a b : Nat) : Nat := a ||| b
def sXor (a b : Nat) : Nat := a ^^^ b
def sSll (a b : Nat) : Nat := a * 2 ^ (b % 32)
def sSrl (a b : Nat) : Nat := a / 2 ^ (b % 32)
def sSra (a b : Nat) : Nat := twos 32 (sext 32 a / 2 ^ (b % 32))
def sSlt (a b : Nat) : Nat := b2n (decide (sext 32 a < sext 32 b))
def sSltu (a b : Nat) : Nat := b2n (decide (a < b))
def sMin (a b : Nat) : Nat := if sext 32 a ≤ sext 32 b then a else b
def sMax (a b : Nat) : Nat := if sext 32 a ≤ sext 32 b then b else a
def sMul (a b : Nat) : Nat := a * b
def sMulh (a b : Nat) : Nat := twos 32 (sext 32 a * sext 32 b / 2 ^ 32)
def sMulhu (a b : Nat) : Nat := a * b / 2 ^ 32

def execAdd (t : BitVec 11) (gd ga gb : BitVec 5) (s : State) : Host.Outcome State Fault Refusal := done (s.alu t gd ga gb sAdd)
def execSub (t : BitVec 11) (gd ga gb : BitVec 5) (s : State) : Host.Outcome State Fault Refusal := done (s.alu t gd ga gb sSub)
def execAndR (t : BitVec 11) (gd ga gb : BitVec 5) (s : State) : Host.Outcome State Fault Refusal := done (s.alu t gd ga gb sAnd)
def execOrR (t : BitVec 11) (gd ga gb : BitVec 5) (s : State) : Host.Outcome State Fault Refusal := done (s.alu t gd ga gb sOr)
def execXor (t : BitVec 11) (gd ga gb : BitVec 5) (s : State) : Host.Outcome State Fault Refusal := done (s.alu t gd ga gb sXor)
def execSll (t : BitVec 11) (gd ga gb : BitVec 5) (s : State) : Host.Outcome State Fault Refusal := done (s.alu t gd ga gb sSll)
def execSrl (t : BitVec 11) (gd ga gb : BitVec 5) (s : State) : Host.Outcome State Fault Refusal := done (s.alu t gd ga gb sSrl)
def execSra (t : BitVec 11) (gd ga gb : BitVec 5) (s : State) : Host.Outcome State Fault Refusal := done (s.alu t gd ga gb sSra)
def execSlt (t : BitVec 11) (gd ga gb : BitVec 5) (s : State) : Host.Outcome State Fault Refusal := done (s.alu t gd ga gb sSlt)
def execSltu (t : BitVec 11) (gd ga gb : BitVec 5) (s : State) : Host.Outcome State Fault Refusal := done (s.alu t gd ga gb sSltu)
def execMin (t : BitVec 11) (gd ga gb : BitVec 5) (s : State) : Host.Outcome State Fault Refusal := done (s.alu t gd ga gb sMin)
def execMax (t : BitVec 11) (gd ga gb : BitVec 5) (s : State) : Host.Outcome State Fault Refusal := done (s.alu t gd ga gb sMax)
def execMul (t : BitVec 11) (gd ga gb : BitVec 5) (s : State) : Host.Outcome State Fault Refusal := done (s.alu t gd ga gb sMul)
def execMulh (t : BitVec 11) (gd ga gb : BitVec 5) (s : State) : Host.Outcome State Fault Refusal := done (s.alu t gd ga gb sMulh)
def execMulhu (t : BitVec 11) (gd ga gb : BitVec 5) (s : State) : Host.Outcome State Fault Refusal :=
  done (s.alu t gd ga gb sMulhu)

/-! Immediates: ADDI and SLTI sign-extend, ANDI, ORI and XORI zero-extend, shifts use bits 4:0 (R146). -/

def execAddi (t : BitVec 11) (gd ga : BitVec 5) (imm : BitVec 15) (s : State) : Host.Outcome State Fault Refusal :=
  done (s.aluImm t gd ga (simm imm) sAdd)
def execAndi (t : BitVec 11) (gd ga : BitVec 5) (imm : BitVec 15) (s : State) : Host.Outcome State Fault Refusal :=
  done (s.aluImm t gd ga imm.toNat sAnd)
def execOri (t : BitVec 11) (gd ga : BitVec 5) (imm : BitVec 15) (s : State) : Host.Outcome State Fault Refusal :=
  done (s.aluImm t gd ga imm.toNat sOr)
def execXori (t : BitVec 11) (gd ga : BitVec 5) (imm : BitVec 15) (s : State) : Host.Outcome State Fault Refusal :=
  done (s.aluImm t gd ga imm.toNat sXor)
def execSlli (t : BitVec 11) (gd ga : BitVec 5) (imm : BitVec 15) (s : State) : Host.Outcome State Fault Refusal :=
  done (s.aluImm t gd ga imm.toNat sSll)
def execSrli (t : BitVec 11) (gd ga : BitVec 5) (imm : BitVec 15) (s : State) : Host.Outcome State Fault Refusal :=
  done (s.aluImm t gd ga imm.toNat sSrl)
def execSrai (t : BitVec 11) (gd ga : BitVec 5) (imm : BitVec 15) (s : State) : Host.Outcome State Fault Refusal :=
  done (s.aluImm t gd ga imm.toNat sSra)
def execSlti (t : BitVec 11) (gd ga : BitVec 5) (imm : BitVec 15) (s : State) : Host.Outcome State Fault Refusal :=
  done (s.aluImm t gd ga (simm imm) sSlt)
def execLui (t : BitVec 11) (gd : BitVec 5) (imm : BitVec 20) (s : State) : Host.Outcome State Fault Refusal :=
  done (s.issue t (fun s t => (s.setG t gd.toNat (imm.toNat * 4096)).advance t))

/-! Loads and stores (R143, R146, R149). -/

/-- Load `n` bytes; `f` extends them. -/
def State.loadG (s : State) (t : BitVec 11) (gd ga : BitVec 5) (imm : BitVec 15) (n : Nat) (f : Nat → Nat) : State :=
  s.issue t (fun s t => match s.tileLoad t (s.ea t ga imm) n n with
    | (.ok b, s) => (s.setG t gd.toNat (f (leNat b))).advance t
    | (.error c, s) => s.trapAt t c)
/-- Store the low `n` bytes of a register. -/
def State.storeG (s : State) (t : BitVec 11) (gs ga : BitVec 5) (imm : BitVec 15) (n : Nat) : State :=
  s.issue t (fun s t => match s.tileStore t (s.ea t ga imm) n (natLe n (s.g t gs.toNat)) with
    | (none, s) => s.advance t
    | (some c, s) => s.trapAt t c)

def execLw (t : BitVec 11) (gd ga : BitVec 5) (imm : BitVec 15) (s : State) : Host.Outcome State Fault Refusal :=
  done (s.loadG t gd ga imm 4 id)
def execLh (t : BitVec 11) (gd ga : BitVec 5) (imm : BitVec 15) (s : State) : Host.Outcome State Fault Refusal :=
  done (s.loadG t gd ga imm 2 (fun v => twos 32 (sext 16 v)))
def execLhu (t : BitVec 11) (gd ga : BitVec 5) (imm : BitVec 15) (s : State) : Host.Outcome State Fault Refusal :=
  done (s.loadG t gd ga imm 2 id)
def execLb (t : BitVec 11) (gd ga : BitVec 5) (imm : BitVec 15) (s : State) : Host.Outcome State Fault Refusal :=
  done (s.loadG t gd ga imm 1 (fun v => twos 32 (sext 8 v)))
def execLbu (t : BitVec 11) (gd ga : BitVec 5) (imm : BitVec 15) (s : State) : Host.Outcome State Fault Refusal :=
  done (s.loadG t gd ga imm 1 id)
def execSw (t : BitVec 11) (gs ga : BitVec 5) (imm : BitVec 15) (s : State) : Host.Outcome State Fault Refusal :=
  done (s.storeG t gs ga imm 4)
def execSh (t : BitVec 11) (gs ga : BitVec 5) (imm : BitVec 15) (s : State) : Host.Outcome State Fault Refusal :=
  done (s.storeG t gs ga imm 2)
def execSb (t : BitVec 11) (gs ga : BitVec 5) (imm : BitVec 15) (s : State) : Host.Outcome State Fault Refusal :=
  done (s.storeG t gs ga imm 1)

/-! Branches and jumps (R146, R149, R154). -/

/-- A conditional branch. -/
def State.branch (s : State) (t : BitVec 11) (ga gb : BitVec 5) (off : BitVec 15) (c : Nat → Nat → Bool) : State :=
  s.issueC t (fun s t =>
    if c (s.g t ga.toNat) (s.g t gb.toNat) then s.jump t (((s.tile t).pc : Int) + 4 * off.toInt) id else s.advance t)

def execBeq (t : BitVec 11) (ga gb : BitVec 5) (off : BitVec 15) (s : State) : Host.Outcome State Fault Refusal :=
  done (s.branch t ga gb off (fun a b => a == b))
def execBne (t : BitVec 11) (ga gb : BitVec 5) (off : BitVec 15) (s : State) : Host.Outcome State Fault Refusal :=
  done (s.branch t ga gb off (fun a b => a != b))
def execBlt (t : BitVec 11) (ga gb : BitVec 5) (off : BitVec 15) (s : State) : Host.Outcome State Fault Refusal :=
  done (s.branch t ga gb off (fun a b => decide (sext 32 a < sext 32 b)))
def execBge (t : BitVec 11) (ga gb : BitVec 5) (off : BitVec 15) (s : State) : Host.Outcome State Fault Refusal :=
  done (s.branch t ga gb off (fun a b => decide (sext 32 b ≤ sext 32 a)))
def execBltu (t : BitVec 11) (ga gb : BitVec 5) (off : BitVec 15) (s : State) : Host.Outcome State Fault Refusal :=
  done (s.branch t ga gb off (fun a b => decide (a < b)))
def execBgeu (t : BitVec 11) (ga gb : BitVec 5) (off : BitVec 15) (s : State) : Host.Outcome State Fault Refusal :=
  done (s.branch t ga gb off (fun a b => decide (b ≤ a)))
def execJal (t : BitVec 11) (gd : BitVec 5) (off : BitVec 20) (s : State) : Host.Outcome State Fault Refusal :=
  done (s.issueC t (fun s t =>
    let pc := (s.tile t).pc
    s.jump t ((pc : Int) + 4 * off.toInt) (fun s => s.setG t gd.toNat (pc + 4))))
def execJalr (t : BitVec 11) (gd ga : BitVec 5) (imm : BitVec 15) (s : State) : Host.Outcome State Fault Refusal :=
  done (s.issueC t (fun s t =>
    let pc := (s.tile t).pc
    s.jump t (s.ea t ga imm : Int) (fun s => s.setG t gd.toNat (pc + 4))))

/-! Hardware loops (R152 to R154). -/

/-- Start a loop on counter `lc`, or skip its body where the trip count is 0. -/
def State.startLoop (s : State) (t lc trips body : Nat) : State :=
  let x := s.tile t
  let last := x.pc + 4 * body
  if x.loops.any (fun l => l.lc == lc) || decide (last > 0x3FFC) || x.loops.any (fun l => decide (l.last < last)) then
    s.trapAt t 0x06
  else if trips = 0 then s.goOn t x.pc last
  else
    (s.modTile t (fun x => { x with loops := { lc := lc, first := x.pc + 4, last := last, trips := trips } :: x.loops,
                                    lc := FMap.set 0#32 x.lc lc 0#32 })).modTile t (fun x => { x with pc := x.pc + 4 })

def execLoop (t : BitVec 11) (lc : BitVec 2) (gb : BitVec 5) (body : BitVec 12) (s : State) :
    Host.Outcome State Fault Refusal :=
  done (s.issueC t (fun s t =>
    if lc = 3#2 ∨ body = 0#12 then s.trapAt t 0x01 else s.startLoop t lc.toNat (s.g t gb.toNat) body.toNat))
def execLoopi (t : BitVec 11) (lc : BitVec 2) (count : BitVec 11) (body : BitVec 12) (s : State) :
    Host.Outcome State Fault Refusal :=
  done (s.issueC t (fun s t =>
    if lc = 3#2 ∨ body = 0#12 ∨ count = 0#11 then s.trapAt t 0x01 else s.startLoop t lc.toNat count.toNat body.toNat))
def execRdlc (t : BitVec 11) (gd : BitVec 5) (lc : BitVec 15) (s : State) : Host.Outcome State Fault Refusal :=
  done (s.issue t (fun s t =>
    if 2 < lc.toNat then s.trapAt t 0x01
    else (s.setG t gd.toNat (FMap.get 0#32 (s.tile t).lc lc.toNat).toNat).advance t))

/-! CSRs (R150). -/

/-- The content of a CSR; nothing for a reserved number. -/
def State.csr (s : State) (t n : Nat) : Option Nat :=
  let x := s.tile t
  let fu := s.fused (tileBrood t)
  match n with
  | 0 => some t
  | 1 => some (tileY t * 256 + tileX t)
  | 2 => some (tileBrood t)
  | 3 => some (tileK t + 256 * b2n fu + 512 * b2n (fu && tileK t == 0))
  | 4 => some (x.job.chip + 256 * x.job.chips)
  | 5 => some ((x.cyc - x.cyc0) % 2 ^ 32)
  | 6 => some (s.tick % 2 ^ 32)
  | 7 => some x.tickHi.toNat
  | _ => none

def execCsrr (t : BitVec 11) (gd : BitVec 5) (csr : BitVec 15) (s : State) : Host.Outcome State Fault Refusal :=
  done (s.issue t (fun s t => match s.csr t csr.toNat with
    | none => s.trapAt t 0x01
    | some v =>
      let s := if csr = 6#15 then s.modTile t (fun x => { x with tickHi := BitVec.ofNat 32 (s.tick / 2 ^ 32) }) else s
      (s.setG t gd.toNat v).advance t))

/-! TRAP, END and words that are no instruction (R147, R174, R175). -/

def execTrap (t : BitVec 11) (code : BitVec 15) (s : State) : Host.Outcome State Fault Refusal :=
  done (s.issueC t (fun s t => s.trapAt t (if code.toNat < 128 then 0x80 + code.toNat else 0x01)))
def execEndProg (t : BitVec 11) (s : State) : Host.Outcome State Fault Refusal :=
  done (s.issueC t (fun s t => s.modTile t (fun x => { x with job := { x.job with ended := true } })))
/-- A word that R147 rejects halts with cause 0x01, the all-zero word with cause 0x02; a legal word is no such event. -/
def execIllegalInstruction (t : BitVec 11) (word : BitVec 32) (s : State) : Host.Outcome State Fault Refusal :=
  done (s.issue t (fun s t =>
    if word = 0#32 then s.trapAt t 0x02 else if legalWord word.toNat then s else s.trapAt t 0x01))

end Sys2Proof.Machine
end

