-- ==== Sys2Proof/Machine/TileVector.lean ====
section
/-! DEFINITION. Vector instructions of a tile (R155 to R158, R281 to R286, R606). -/
namespace Sys2Proof.Machine

/-- A lane-wise operation on two registers. -/
def State.vec2 (s : State) (t : BitVec 11) (vd va vb : BitVec 4) (f : Nat → Nat → Nat) : State :=
  s.issue t (fun s t => (s.setV t vd.toNat (List.zipWith f (s.v t va.toNat) (s.v t vb.toNat))).advance t)
/-- A lane-wise operation on three registers. -/
def State.vec3 (s : State) (t : BitVec 11) (vd va vb vc : BitVec 4) (f : Nat → Nat → Nat → Nat) : State :=
  s.issue t (fun s t =>
    (s.setV t vd.toNat (List.zipWith (fun p c => f p.1 p.2 c) ((s.v t va.toNat).zip (s.v t vb.toNat)) (s.v t vc.toNat))).advance t)
/-- An operation on all lanes of one register; a reserved fn gives nothing and halts with cause 0x01 (R147). -/
def State.vec1 (s : State) (t : BitVec 11) (vd va : BitVec 4) (f : List Nat → Option (List Nat)) : State :=
  s.issue t (fun s t => match f (s.v t va.toNat) with
    | some l => (s.setV t vd.toNat l).advance t
    | none => s.trapAt t 0x01)
/-- A lane-wise function that may be reserved, on every lane. -/
def laneMap (f : Nat → Option Nat) (l : List Nat) : Option (List Nat) := l.mapM f

def execVadd (t : BitVec 11) (vd va vb : BitVec 4) (s : State) : Host.Outcome State Fault Refusal := done (s.vec2 t vd va vb sAdd)
def execVsub (t : BitVec 11) (vd va vb : BitVec 4) (s : State) : Host.Outcome State Fault Refusal := done (s.vec2 t vd va vb sSub)
def execVmul (t : BitVec 11) (vd va vb : BitVec 4) (s : State) : Host.Outcome State Fault Refusal := done (s.vec2 t vd va vb sMul)
def execVand (t : BitVec 11) (vd va vb : BitVec 4) (s : State) : Host.Outcome State Fault Refusal := done (s.vec2 t vd va vb sAnd)
def execVor (t : BitVec 11) (vd va vb : BitVec 4) (s : State) : Host.Outcome State Fault Refusal := done (s.vec2 t vd va vb sOr)
def execVxor (t : BitVec 11) (vd va vb : BitVec 4) (s : State) : Host.Outcome State Fault Refusal := done (s.vec2 t vd va vb sXor)
def execVsll (t : BitVec 11) (vd va vb : BitVec 4) (s : State) : Host.Outcome State Fault Refusal := done (s.vec2 t vd va vb sSll)
def execVsrl (t : BitVec 11) (vd va vb : BitVec 4) (s : State) : Host.Outcome State Fault Refusal := done (s.vec2 t vd va vb sSrl)
def execVsra (t : BitVec 11) (vd va vb : BitVec 4) (s : State) : Host.Outcome State Fault Refusal := done (s.vec2 t vd va vb sSra)
def execVmin (t : BitVec 11) (vd va vb : BitVec 4) (s : State) : Host.Outcome State Fault Refusal := done (s.vec2 t vd va vb sMin)
def execVmax (t : BitVec 11) (vd va vb : BitVec 4) (s : State) : Host.Outcome State Fault Refusal := done (s.vec2 t vd va vb sMax)
def execVclt (t : BitVec 11) (vd va vb : BitVec 4) (s : State) : Host.Outcome State Fault Refusal := done (s.vec2 t vd va vb sSlt)
def execVceq (t : BitVec 11) (vd va vb : BitVec 4) (s : State) : Host.Outcome State Fault Refusal :=
  done (s.vec2 t vd va vb (fun a b => b2n (a == b)))
def execVsel (t : BitVec 11) (vd va vb vc : BitVec 4) (s : State) : Host.Outcome State Fault Refusal :=
  done (s.vec3 t vd va vb vc (fun a b c => if c ≠ 0 then a else b))
def execVfadd (t : BitVec 11) (vd va vb : BitVec 4) (s : State) : Host.Outcome State Fault Refusal := done (s.vec2 t vd va vb fAdd)
def execVfsub (t : BitVec 11) (vd va vb : BitVec 4) (s : State) : Host.Outcome State Fault Refusal := done (s.vec2 t vd va vb fSub)
def execVfmul (t : BitVec 11) (vd va vb : BitVec 4) (s : State) : Host.Outcome State Fault Refusal := done (s.vec2 t vd va vb fMul)
def execVfma (t : BitVec 11) (vd va vb vc : BitVec 4) (s : State) : Host.Outcome State Fault Refusal :=
  done (s.vec3 t vd va vb vc fFma)
def execVfmin (t : BitVec 11) (vd va vb : BitVec 4) (s : State) : Host.Outcome State Fault Refusal := done (s.vec2 t vd va vb fMin)
def execVfmax (t : BitVec 11) (vd va vb : BitVec 4) (s : State) : Host.Outcome State Fault Refusal := done (s.vec2 t vd va vb fMax)
def execVfclt (t : BitVec 11) (vd va vb : BitVec 4) (s : State) : Host.Outcome State Fault Refusal :=
  done (s.vec2 t vd va vb (fun a b => b2n (fLt a b)))
def execVcvt (t : BitVec 11) (vd va : BitVec 4) (fn : BitVec 9) (s : State) : Host.Outcome State Fault Refusal :=
  done (s.vec1 t vd va (laneMap (vcvt fn.toNat)))
def execVsfu (t : BitVec 11) (vd va : BitVec 4) (fn : BitVec 9) (s : State) : Host.Outcome State Fault Refusal :=
  done (s.vec1 t vd va (laneMap (vsfu fn.toNat)))

/-- The word at a byte offset of an activation table. -/
def TileState.tabWord (x : TileState) (tab off : Nat) : Nat :=
  leNat ((List.range 4).map (fun i => FMap.get 0#8 x.tabs (tab * 1024 + off + i)))

/-- VLUT: a table that no VTLD has loaded since the last restart halts with cause 0x07 (R157, R285). -/
def execVlut (t : BitVec 11) (vd va : BitVec 4) (fn : BitVec 9) (s : State) : Host.Outcome State Fault Refusal :=
  done (s.issue t (fun s t =>
    let k := fn.toNat
    let x := s.tile t
    if 3 < k then s.trapAt t 0x01
    else if !(FMap.get false x.tabOk k) then s.trapAt t 0x07
    else (s.setV t vd.toNat ((s.v t va.toNat).map (vlut (x.tabWord k)))).advance t))

/-- The address gb + 32 × off of a vector transfer (R157, R158). -/
def State.vea (s : State) (t : Nat) (gb : BitVec 5) (off : BitVec 13) : Nat :=
  twos 32 ((s.g t gb.toNat : Int) + 32 * off.toInt)

/-- VTLD: 1 KiB of data memory into an activation table (R157). -/
def execVtld (t : BitVec 11) (tab : BitVec 4) (gb : BitVec 5) (off : BitVec 13) (s : State) : Host.Outcome State Fault Refusal :=
  done (s.issue t (fun s t =>
    let a := s.vea t gb off
    if 3 < tab.toNat then s.trapAt t 0x01
    else if a % 32 ≠ 0 then s.trapAt t 0x03
    else if a + 1024 > 0x10000 then s.trapAt t 0x04
    else match s.tileLoad t a 1024 32 with
      | (.error c, s) => s.trapAt t c
      | (.ok b, s) =>
        (s.modTile t (fun x =>
          { x with tabs := b.zipIdx.foldl (fun m e => FMap.set 0#8 m (tab.toNat * 1024 + e.2) e.1) x.tabs,
                   tabOk := FMap.set false x.tabOk tab.toNat true })).advance t))

/-- One level of the pairwise tree (R156). -/
def pairSum : List Nat → List Nat
  | a :: b :: r => fAdd a b :: pairSum r
  | l => l

/-- VRED: the reduction that fn selects; nothing for a reserved fn (R156, R606). -/
def vred (fn : Nat) (l : List Nat) : Option Nat :=
  match fn with
  | 0 => some (l.foldl (fun a b => (a + b) % 2 ^ 32) 0)
  | 1 => some ((pairSum (pairSum (pairSum (pairSum (pairSum (pairSum l)))))).headD 0)
  | 2 => some (l.foldl fMax fNan)
  | 3 => some (l.foldl fMin fNan)
  | 4 => some (l.foldl sMax (l.headD 0))
  | 5 => some (l.foldl sMin (l.headD 0))
  | _ => none

def execVred (t : BitVec 11) (vd va : BitVec 4) (fn : BitVec 9) (s : State) : Host.Outcome State Fault Refusal :=
  done (s.vec1 t vd va (fun l => (vred fn.toNat l).map (fun r => List.replicate 64 r)))
def execVperm (t : BitVec 11) (vd va vb : BitVec 4) (s : State) : Host.Outcome State Fault Refusal :=
  done (s.issue t (fun s t => (s.setV t vd.toNat ((s.v t vb.toNat).map (fun j => s.lane t va.toNat (j % 64)))).advance t))
def execVbcst (t : BitVec 11) (vd : BitVec 4) (ga : BitVec 5) (s : State) : Host.Outcome State Fault Refusal :=
  done (s.issue t (fun s t => (s.setV t vd.toNat (List.replicate 64 (s.g t ga.toNat))).advance t))
def execVidx (t : BitVec 11) (vd : BitVec 4) (ga : BitVec 5) (s : State) : Host.Outcome State Fault Refusal :=
  done (s.issue t (fun s t => (s.setV t vd.toNat ((List.range 64).map (fun i => s.g t ga.toNat + i))).advance t))
def execVmovs (t : BitVec 11) (gd : BitVec 5) (va : BitVec 4) (lane : BitVec 7) (s : State) : Host.Outcome State Fault Refusal :=
  done (s.issue t (fun s t =>
    if 64 ≤ lane.toNat then s.trapAt t 0x01 else (s.setG t gd.toNat (s.lane t va.toNat lane.toNat)).advance t))

/-- VRNG: word fn of the generator's block for the key the device wrote at job start (R157, R290). -/
def execVrng (t : BitVec 11) (vd va : BitVec 4) (ga gb : BitVec 5) (fn : BitVec 7) (s : State) :
    Host.Outcome State Fault Refusal :=
  done (s.issue t (fun s t =>
    if 4 ≤ fn.toNat then s.trapAt t 0x01
    else
      let seed := (s.tile t).job.seed.toNat
      (s.setV t vd.toNat ((s.v t va.toNat).map (fun l =>
        rngWord seed (s.g t ga.toNat) (s.g t gb.toNat * 2 ^ 32 + l) fn.toNat))).advance t))

/-- VGTH: a gather of words from data memory (R158). -/
def execVgth (t : BitVec 11) (vd va : BitVec 4) (ga : BitVec 5) (s : State) : Host.Outcome State Fault Refusal :=
  done (s.issue t (fun s t =>
    let as := (s.v t va.toNat).map (fun l => (s.g t ga.toNat + 4 * l) % 2 ^ 32)
    if as.any (fun a => a % 4 != 0) then s.trapAt t 0x03
    else if as.any (fun a => decide (a + 4 > 0x10000)) then s.trapAt t 0x04
    else
      let r := as.foldl (fun (p : Bool × List Nat × State) a =>
        match p.2.2.tileLoad t a 4 4 with
        | (.ok b, s) => (p.1, p.2.1 ++ [leNat b], s)
        | (.error _, s) => (false, p.2.1 ++ [0], s)) (true, [], s)
      if r.1 then (r.2.2.setV t vd.toNat r.2.1).advance t else r.2.2.trapAt t 0x21))

/-- Bytes of one element for ew 0 to 2 (R158). -/
def ewBytes (ew : BitVec 2) : Nat := match ew.toNat with | 0 => 4 | 1 => 2 | _ => 1

def execVld (t : BitVec 11) (vd : BitVec 4) (ew : BitVec 2) (gb : BitVec 5) (sx : Bool) (off : BitVec 13) (s : State) :
    Host.Outcome State Fault Refusal :=
  done (s.issue t (fun s t =>
    if ew = 3#2 ∨ (ew = 0#2 ∧ sx = true) then s.trapAt t 0x01
    else
      let n := ewBytes ew
      match s.tileLoad t (s.vea t gb off) (64 * n) 32 with
      | (.error c, s) => s.trapAt t c
      | (.ok b, s) =>
        (s.setV t vd.toNat ((List.range 64).map (fun i =>
          let v := fieldAt b (n * i) n
          if sx then twos 32 (sext (8 * n) v) else v))).advance t))
def execVst (t : BitVec 11) (vd : BitVec 4) (ew : BitVec 2) (gb : BitVec 5) (off : BitVec 13) (s : State) :
    Host.Outcome State Fault Refusal :=
  done (s.issue t (fun s t =>
    if ew = 3#2 then s.trapAt t 0x01
    else match s.tileStore t (s.vea t gb off) 32 (((s.v t vd.toNat).map (natLe (ewBytes ew))).flatten) with
      | (none, s) => s.advance t
      | (some c, s) => s.trapAt t c))

end Sys2Proof.Machine
end

