-- ==== Sys2Proof/Machine/Dispatch.lean ====
section
/-! DEFINITION. One arm per command: a direct call of its meaning. -/
namespace Sys2Proof.Machine

/-- The effect of a command on everything but the queue. -/
def exec (i : Instr) (s : State) : Host.Outcome State Fault Refusal :=
  match i with
  | .powerGood => Sys2Proof.Machine.execPowerGood s
  | .startSequence inp => Sys2Proof.Machine.execStartSequence inp s
  | .rstNAssert => Sys2Proof.Machine.execRstNAssert s
  | .powerLoss => Sys2Proof.Machine.execPowerLoss s
  | .partialRestart inp => Sys2Proof.Machine.execPartialRestart inp s
  | .fullRestart inp => Sys2Proof.Machine.execFullRestart inp s
  | .regWrite host addr size data => Sys2Proof.Machine.execRegWrite host addr size data s
  | .holeAccess write addr => Sys2Proof.Machine.execHoleAccess write addr s
  | .csiFrameStart rx vc fnum => Sys2Proof.Machine.execCsiFrameStart rx vc fnum s
  | .csiLongPacket rx vc dt crcOk payload => Sys2Proof.Machine.execCsiLongPacket rx vc dt crcOk payload s
  | .csiEmbeddedData rx vc crcOk payload => Sys2Proof.Machine.execCsiEmbeddedData rx vc crcOk payload s
  | .csiHeaderError rx vc dt uncorr => Sys2Proof.Machine.execCsiHeaderError rx vc dt uncorr s
  | .csiUnclaimedPacket rx vc pkt => Sys2Proof.Machine.execCsiUnclaimedPacket rx vc pkt s
  | .patternInjectEnd c => Sys2Proof.Machine.execPatternInjectEnd c s
  | .csiFrameEnd rx vc => Sys2Proof.Machine.execCsiFrameEnd rx vc s
  | .frameTimerExpiry n => Sys2Proof.Machine.execFrameTimerExpiry n s
  | .ethFrameReceive mac fcsOk frame => Sys2Proof.Machine.execEthFrameReceive mac fcsOk frame s
  | .lidarTestPacketEnd n => Sys2Proof.Machine.execLidarTestPacketEnd n s
  | .ethLinkChange mac speed => Sys2Proof.Machine.execEthLinkChange mac speed s
  | .ptpSyncReceive ofs interval => Sys2Proof.Machine.execPtpSyncReceive ofs interval s
  | .ptpHoldover => Sys2Proof.Machine.execPtpHoldover s
  | .jxsDecodeStart e => Sys2Proof.Machine.execJxsDecodeStart e s
  | .jxsDecodeEnd e ok pix band cycles => Sys2Proof.Machine.execJxsDecodeEnd e ok pix band cycles s
  | .jxsBudgetExpiry e => Sys2Proof.Machine.execJxsBudgetExpiry e s
  | .jxsEngineReady e => Sys2Proof.Machine.execJxsEngineReady e s
  | .jxsBufferError e => Sys2Proof.Machine.execJxsBufferError e s
  | .jxsEncodeStart e => Sys2Proof.Machine.execJxsEncodeStart e s
  | .jxsEncodeEnd e clip cycles => Sys2Proof.Machine.execJxsEncodeEnd e clip cycles s
  | .jxsEncodeBudgetExpiry e => Sys2Proof.Machine.execJxsEncodeBudgetExpiry e s
  | .jxsModeWrite e mode => Sys2Proof.Machine.execJxsModeWrite e mode s
  | .jxsClrCnt e => Sys2Proof.Machine.execJxsClrCnt e s
  | .intDescUpd n => Sys2Proof.Machine.execIntDescUpd n s
  | .descUpdateApply => Sys2Proof.Machine.execDescUpdateApply s
  | .intClrCnt => Sys2Proof.Machine.execIntClrCnt s
  | .warpAssign => Sys2Proof.Machine.execWarpAssign s
  | .warpComplete e crcErr meshErr cycles => Sys2Proof.Machine.execWarpComplete e crcErr meshErr cycles s
  | .warpTimeout e => Sys2Proof.Machine.execWarpTimeout e s
  | .warpWaitTimeout n => Sys2Proof.Machine.execWarpWaitTimeout n s
  | .warpCoordMismatch e => Sys2Proof.Machine.execWarpCoordMismatch e s
  | .warpBufferError e => Sys2Proof.Machine.execWarpBufferError e s
  | .wrpCfgUpd n => Sys2Proof.Machine.execWrpCfgUpd n s
  | .warpCfgApply => Sys2Proof.Machine.execWarpCfgApply s
  | .wrpClrCnt e => Sys2Proof.Machine.execWrpClrCnt e s
  | .gatherExpiry p => Sys2Proof.Machine.execGatherExpiry p s
  | .syncIoRelease => Sys2Proof.Machine.execSyncIoRelease s
  | .syncIoSample high => Sys2Proof.Machine.execSyncIoSample high s
  | .syncIoTimeout => Sys2Proof.Machine.execSyncIoTimeout s
  | .barrierSeqReceive seq frame => Sys2Proof.Machine.execBarrierSeqReceive seq frame s
  | .stageStart p stage => Sys2Proof.Machine.execStageStart p stage s
  | .resamplerPartEnd b fault => Sys2Proof.Machine.execResamplerPartEnd b fault s
  | .partFinish t => Sys2Proof.Machine.execPartFinish t s
  | .stageWinMax stage => Sys2Proof.Machine.execStageWinMax stage s
  | .publish p => Sys2Proof.Machine.execPublish p s
  | .orderHoldExpiry p => Sys2Proof.Machine.execOrderHoldExpiry p s
  | .mgmtExportSend => Sys2Proof.Machine.execMgmtExportSend s
  | .chipExportReceive port data => Sys2Proof.Machine.execChipExportReceive port data s
  | .arrayOpStart t => Sys2Proof.Machine.execArrayOpStart t s
  | .vectorAccumulate t err shadow => Sys2Proof.Machine.execVectorAccumulate t err shadow s
  | .residueCompare t err => Sys2Proof.Machine.execResidueCompare t err s
  | .spareClearDone b => Sys2Proof.Machine.execSpareClearDone b s
  | .rerunStart b => Sys2Proof.Machine.execRerunStart b s
  | .drainEnd t shadow => Sys2Proof.Machine.execDrainEnd t shadow s
  | .dmaDescComplete e => Sys2Proof.Machine.execDmaDescComplete e s
  | .msgSend t => Sys2Proof.Machine.execMsgSend t s
  | .msgArrive src dst link err => Sys2Proof.Machine.execMsgArrive src dst link err s
  | .msgAck t dst => Sys2Proof.Machine.execMsgAck t dst s
  | .msgNack t dst => Sys2Proof.Machine.execMsgNack t dst s
  | .msgReject t dst => Sys2Proof.Machine.execMsgReject t dst s
  | .msgAckTimeout t dst => Sys2Proof.Machine.execMsgAckTimeout t dst s
  | .syncOpApply p bad => Sys2Proof.Machine.execSyncOpApply p bad s
  | .syncOpResponse p => Sys2Proof.Machine.execSyncOpResponse p s
  | .syncWaitRetry t => Sys2Proof.Machine.execSyncWaitRetry t s
  | .syncOpTimeout t => Sys2Proof.Machine.execSyncOpTimeout t s
  | .routerBufferError x y uncorr pkt => Sys2Proof.Machine.execRouterBufferError x y uncorr pkt s
  | .nocClrCnt => Sys2Proof.Machine.execNocClrCnt s
  | .synClrCnt => Sys2Proof.Machine.execSynClrCnt s
  | .chlTrainStart port => Sys2Proof.Machine.execChlTrainStart port s
  | .chlLockEnd port good => Sys2Proof.Machine.execChlLockEnd port good s
  | .chlIdentityReceive port chip chips gridX gridY ver digest => Sys2Proof.Machine.execChlIdentityReceive port chip chips gridX gridY ver digest s
  | .chlAuthMessage port ok => Sys2Proof.Machine.execChlAuthMessage port ok s
  | .chlTimeAlign port latency refTick => Sys2Proof.Machine.execChlTimeAlign port latency refTick s
  | .chlTrainTimeout port => Sys2Proof.Machine.execChlTrainTimeout port s
  | .chlBlockReceive port crcOk tagOk => Sys2Proof.Machine.execChlBlockReceive port crcOk tagOk s
  | .chlLaneFault port lane => Sys2Proof.Machine.execChlLaneFault port lane s
  | .chlRetrainEnd port => Sys2Proof.Machine.execChlRetrainEnd port s
  | .chlRetryTimer port => Sys2Proof.Machine.execChlRetryTimer port s
  | .timebaseCompare port offset => Sys2Proof.Machine.execTimebaseCompare port offset s
  | .chlRetrain port => Sys2Proof.Machine.execChlRetrain port s
  | .spareLbistEnd b ok => Sys2Proof.Machine.execSpareLbistEnd b ok s
  | .spareMbistEnd b memOk skew => Sys2Proof.Machine.execSpareMbistEnd b memOk skew s
  | .rotationMoveStart b => Sys2Proof.Machine.execRotationMoveStart b s
  | .forcedMoveStart b => Sys2Proof.Machine.execForcedMoveStart b s
  | .moveQuiesced b => Sys2Proof.Machine.execMoveQuiesced b s
  | .moveTransferEnd b crcOk => Sys2Proof.Machine.execMoveTransferEnd b crcOk s
  | .moveSwitchEnd b => Sys2Proof.Machine.execMoveSwitchEnd b s
  | .slotAgeLfi row inst => Sys2Proof.Machine.execSlotAgeLfi row inst s
  | .inplaceSliceStart b k => Sys2Proof.Machine.execInplaceSliceStart b k s
  | .inplaceSliceEnd b k ok => Sys2Proof.Machine.execInplaceSliceEnd b k ok s
  | .sharedSliceStart row inst => Sys2Proof.Machine.execSharedSliceStart row inst s
  | .sharedSliceEnd row inst ok => Sys2Proof.Machine.execSharedSliceEnd row inst ok s
  | .tilStart t => Sys2Proof.Machine.execTilStart t s
  | .tilHaltReq t => Sys2Proof.Machine.execTilHaltReq t s
  | .haltReqTaken t => Sys2Proof.Machine.execHaltReqTaken t s
  | .brdRotGrant b => Sys2Proof.Machine.execBrdRotGrant b s
  | .brdRotEnWrite b en => Sys2Proof.Machine.execBrdRotEnWrite b en s
  | .arrClrCnt t => Sys2Proof.Machine.execArrClrCnt t s
  | .add t gd ga gb => Sys2Proof.Machine.execAdd t gd ga gb s
  | .sub t gd ga gb => Sys2Proof.Machine.execSub t gd ga gb s
  | .andR t gd ga gb => Sys2Proof.Machine.execAndR t gd ga gb s
  | .orR t gd ga gb => Sys2Proof.Machine.execOrR t gd ga gb s
  | .xor t gd ga gb => Sys2Proof.Machine.execXor t gd ga gb s
  | .sll t gd ga gb => Sys2Proof.Machine.execSll t gd ga gb s
  | .srl t gd ga gb => Sys2Proof.Machine.execSrl t gd ga gb s
  | .sra t gd ga gb => Sys2Proof.Machine.execSra t gd ga gb s
  | .slt t gd ga gb => Sys2Proof.Machine.execSlt t gd ga gb s
  | .sltu t gd ga gb => Sys2Proof.Machine.execSltu t gd ga gb s
  | .min t gd ga gb => Sys2Proof.Machine.execMin t gd ga gb s
  | .max t gd ga gb => Sys2Proof.Machine.execMax t gd ga gb s
  | .mul t gd ga gb => Sys2Proof.Machine.execMul t gd ga gb s
  | .mulh t gd ga gb => Sys2Proof.Machine.execMulh t gd ga gb s
  | .mulhu t gd ga gb => Sys2Proof.Machine.execMulhu t gd ga gb s
  | .addi t gd ga imm => Sys2Proof.Machine.execAddi t gd ga imm s
  | .andi t gd ga imm => Sys2Proof.Machine.execAndi t gd ga imm s
  | .ori t gd ga imm => Sys2Proof.Machine.execOri t gd ga imm s
  | .xori t gd ga imm => Sys2Proof.Machine.execXori t gd ga imm s
  | .slli t gd ga imm => Sys2Proof.Machine.execSlli t gd ga imm s
  | .srli t gd ga imm => Sys2Proof.Machine.execSrli t gd ga imm s
  | .srai t gd ga imm => Sys2Proof.Machine.execSrai t gd ga imm s
  | .slti t gd ga imm => Sys2Proof.Machine.execSlti t gd ga imm s
  | .lui t gd imm => Sys2Proof.Machine.execLui t gd imm s
  | .lw t gd ga imm => Sys2Proof.Machine.execLw t gd ga imm s
  | .lh t gd ga imm => Sys2Proof.Machine.execLh t gd ga imm s
  | .lhu t gd ga imm => Sys2Proof.Machine.execLhu t gd ga imm s
  | .lb t gd ga imm => Sys2Proof.Machine.execLb t gd ga imm s
  | .lbu t gd ga imm => Sys2Proof.Machine.execLbu t gd ga imm s
  | .sw t gs ga imm => Sys2Proof.Machine.execSw t gs ga imm s
  | .sh t gs ga imm => Sys2Proof.Machine.execSh t gs ga imm s
  | .sb t gs ga imm => Sys2Proof.Machine.execSb t gs ga imm s
  | .beq t ga gb off => Sys2Proof.Machine.execBeq t ga gb off s
  | .bne t ga gb off => Sys2Proof.Machine.execBne t ga gb off s
  | .blt t ga gb off => Sys2Proof.Machine.execBlt t ga gb off s
  | .bge t ga gb off => Sys2Proof.Machine.execBge t ga gb off s
  | .bltu t ga gb off => Sys2Proof.Machine.execBltu t ga gb off s
  | .bgeu t ga gb off => Sys2Proof.Machine.execBgeu t ga gb off s
  | .jal t gd off => Sys2Proof.Machine.execJal t gd off s
  | .jalr t gd ga imm => Sys2Proof.Machine.execJalr t gd ga imm s
  | .loop t lc gb body => Sys2Proof.Machine.execLoop t lc gb body s
  | .loopi t lc count body => Sys2Proof.Machine.execLoopi t lc count body s
  | .rdlc t gd lc => Sys2Proof.Machine.execRdlc t gd lc s
  | .csrr t gd csr => Sys2Proof.Machine.execCsrr t gd csr s
  | .trap t code => Sys2Proof.Machine.execTrap t code s
  | .endProg t => Sys2Proof.Machine.execEndProg t s
  | .vadd t vd va vb => Sys2Proof.Machine.execVadd t vd va vb s
  | .vsub t vd va vb => Sys2Proof.Machine.execVsub t vd va vb s
  | .vmul t vd va vb => Sys2Proof.Machine.execVmul t vd va vb s
  | .vand t vd va vb => Sys2Proof.Machine.execVand t vd va vb s
  | .vor t vd va vb => Sys2Proof.Machine.execVor t vd va vb s
  | .vxor t vd va vb => Sys2Proof.Machine.execVxor t vd va vb s
  | .vsll t vd va vb => Sys2Proof.Machine.execVsll t vd va vb s
  | .vsrl t vd va vb => Sys2Proof.Machine.execVsrl t vd va vb s
  | .vsra t vd va vb => Sys2Proof.Machine.execVsra t vd va vb s
  | .vmin t vd va vb => Sys2Proof.Machine.execVmin t vd va vb s
  | .vmax t vd va vb => Sys2Proof.Machine.execVmax t vd va vb s
  | .vclt t vd va vb => Sys2Proof.Machine.execVclt t vd va vb s
  | .vceq t vd va vb => Sys2Proof.Machine.execVceq t vd va vb s
  | .vsel t vd va vb vc => Sys2Proof.Machine.execVsel t vd va vb vc s
  | .vfadd t vd va vb => Sys2Proof.Machine.execVfadd t vd va vb s
  | .vfsub t vd va vb => Sys2Proof.Machine.execVfsub t vd va vb s
  | .vfmul t vd va vb => Sys2Proof.Machine.execVfmul t vd va vb s
  | .vfma t vd va vb vc => Sys2Proof.Machine.execVfma t vd va vb vc s
  | .vfmin t vd va vb => Sys2Proof.Machine.execVfmin t vd va vb s
  | .vfmax t vd va vb => Sys2Proof.Machine.execVfmax t vd va vb s
  | .vfclt t vd va vb => Sys2Proof.Machine.execVfclt t vd va vb s
  | .vcvt t vd va fn => Sys2Proof.Machine.execVcvt t vd va fn s
  | .vsfu t vd va fn => Sys2Proof.Machine.execVsfu t vd va fn s
  | .vlut t vd va fn => Sys2Proof.Machine.execVlut t vd va fn s
  | .vtld t tab gb off => Sys2Proof.Machine.execVtld t tab gb off s
  | .vred t vd va fn => Sys2Proof.Machine.execVred t vd va fn s
  | .vperm t vd va vb => Sys2Proof.Machine.execVperm t vd va vb s
  | .vbcst t vd ga => Sys2Proof.Machine.execVbcst t vd ga s
  | .vidx t vd ga => Sys2Proof.Machine.execVidx t vd ga s
  | .vmovs t gd va lane => Sys2Proof.Machine.execVmovs t gd va lane s
  | .vrng t vd va ga gb fn => Sys2Proof.Machine.execVrng t vd va ga gb fn s
  | .vgth t vd va ga => Sys2Proof.Machine.execVgth t vd va ga s
  | .vld t vd ew gb sx off => Sys2Proof.Machine.execVld t vd ew gb sx off s
  | .vst t vd ew gb off => Sys2Proof.Machine.execVst t vd ew gb off s
  | .wld t ga gb gc ctl => Sys2Proof.Machine.execWld t ga gb gc ctl s
  | .astr t ga gb gc ctl => Sys2Proof.Machine.execAstr t ga gb gc ctl s
  | .adrn t ga gb gc ctl => Sys2Proof.Machine.execAdrn t ga gb gc ctl s
  | .afence t => Sys2Proof.Machine.execAfence t s
  | .dma t ga => Sys2Proof.Machine.execDma t ga s
  | .msg t ga gb gc ctl => Sys2Proof.Machine.execMsg t ga gb gc ctl s
  | .mfence t => Sys2Proof.Machine.execMfence t s
  | .sadd t ga gb => Sys2Proof.Machine.execSadd t ga gb s
  | .saddi t ga ctl => Sys2Proof.Machine.execSaddi t ga ctl s
  | .swait t ga gb => Sys2Proof.Machine.execSwait t ga gb s
  | .sarv t gd ga => Sys2Proof.Machine.execSarv t gd ga s
  | .sbwait t ga gb => Sys2Proof.Machine.execSbwait t ga gb s
  | .srd t gd ga => Sys2Proof.Machine.execSrd t gd ga s
  | .srst t ga => Sys2Proof.Machine.execSrst t ga s
  | .memRead master addr len flips edc => Sys2Proof.Machine.execMemRead master addr len flips edc s
  | .memWriteCommit master addr data edc => Sys2Proof.Machine.execMemWriteCommit master addr data edc s
  | .correctiveWrite ch => Sys2Proof.Machine.execCorrectiveWrite ch s
  | .checkLineEvict ch bad => Sys2Proof.Machine.execCheckLineEvict ch bad s
  | .refreshDue ch => Sys2Proof.Machine.execRefreshDue ch s
  | .retrainDue ch temp => Sys2Proof.Machine.execRetrainDue ch temp s
  | .retrainWindow ch ok => Sys2Proof.Machine.execRetrainWindow ch ok s
  | .trainGrantTimeout ch => Sys2Proof.Machine.execTrainGrantTimeout ch s
  | .memTrainGrant ch => Sys2Proof.Machine.execMemTrainGrant ch s
  | .scrubRead ch flip => Sys2Proof.Machine.execScrubRead ch flip s
  | .sramScrubWord addr flip => Sys2Proof.Machine.execSramScrubWord addr flip s
  | .memInjArm ch => Sys2Proof.Machine.execMemInjArm ch s
  | .memClrCnt ch => Sys2Proof.Machine.execMemClrCnt ch s
  | .hostBar2Read at2 len => Sys2Proof.Machine.execHostBar2Read at2 len s
  | .hostBar2Write at2 data => Sys2Proof.Machine.execHostBar2Write at2 data s
  | .hostBar4Read off len => Sys2Proof.Machine.execHostBar4Read off len s
  | .hostBar4Write off data => Sys2Proof.Machine.execHostBar4Write off data s
  | .tlpErrorReceive kind => Sys2Proof.Machine.execTlpErrorReceive kind s
  | .pcieLinkUp width speed => Sys2Proof.Machine.execPcieLinkUp width speed s
  | .pcieLinkLoss => Sys2Proof.Machine.execPcieLinkLoss s
  | .perstNAssert => Sys2Proof.Machine.execPerstNAssert s
  | .functionLevelReset => Sys2Proof.Machine.execFunctionLevelReset s
  | .hotReset => Sys2Proof.Machine.execHotReset s
  | .d3hotEntry => Sys2Proof.Machine.execD3hotEntry s
  | .dbCmd v => Sys2Proof.Machine.execDbCmd v s
  | .dbCpl v => Sys2Proof.Machine.execDbCpl v s
  | .dbEvt v => Sys2Proof.Machine.execDbEvt v s
  | .dbLog v => Sys2Proof.Machine.execDbLog v s
  | .dbTrc v => Sys2Proof.Machine.execDbTrc v s
  | .dbHb v => Sys2Proof.Machine.execDbHb v s
  | .dbTensor n v => Sys2Proof.Machine.execDbTensor n v s
  | .hifAttachStart => Sys2Proof.Machine.execHifAttachStart s
  | .hifAttachDetach => Sys2Proof.Machine.execHifAttachDetach s
  | .hifStateRead => Sys2Proof.Machine.execHifStateRead s
  | .heartbeatTimeout => Sys2Proof.Machine.execHeartbeatTimeout s
  | .hifClrCnt => Sys2Proof.Machine.execHifClrCnt s
  | .submitCmd => Sys2Proof.Machine.execSubmitCmd s
  | .loadCmd => Sys2Proof.Machine.execLoadCmd s
  | .sectionPieceWrite => Sys2Proof.Machine.execSectionPieceWrite s
  | .unloadCmd => Sys2Proof.Machine.execUnloadCmd s
  | .switchCmd => Sys2Proof.Machine.execSwitchCmd s
  | .switchApply => Sys2Proof.Machine.execSwitchApply s
  | .pipeCmd => Sys2Proof.Machine.execPipeCmd s
  | .pipeApply => Sys2Proof.Machine.execPipeApply s
  | .modeCmd => Sys2Proof.Machine.execModeCmd s
  | .modeApply => Sys2Proof.Machine.execModeApply s
  | .reactCmd => Sys2Proof.Machine.execReactCmd s
  | .decideTimeout => Sys2Proof.Machine.execDecideTimeout s
  | .saveCmd => Sys2Proof.Machine.execSaveCmd s
  | .restoreCmd => Sys2Proof.Machine.execRestoreCmd s
  | .selftestBrood => Sys2Proof.Machine.execSelftestBrood s
  | .selftestRetrain => Sys2Proof.Machine.execSelftestRetrain s
  | .selftestSlicePass => Sys2Proof.Machine.execSelftestSlicePass s
  | .selftestFullBist => Sys2Proof.Machine.execSelftestFullBist s
  | .fullBistEnd lbist mbist skew units => Sys2Proof.Machine.execFullBistEnd lbist mbist skew units s
  | .selftestWindow => Sys2Proof.Machine.execSelftestWindow s
  | .testWindowEnd => Sys2Proof.Machine.execTestWindowEnd s
  | .recordCmd => Sys2Proof.Machine.execRecordCmd s
  | .nopCmd => Sys2Proof.Machine.execNopCmd s
  | .illegalCommand => Sys2Proof.Machine.execIllegalCommand s
  | .fwWdtKick host mask => Sys2Proof.Machine.execFwWdtKick host mask s
  | .dispatchWdtExpiry core => Sys2Proof.Machine.execDispatchWdtExpiry core s
  | .securityWdtExpiry => Sys2Proof.Machine.execSecurityWdtExpiry s
  | .powerWdtExpiry => Sys2Proof.Machine.execPowerWdtExpiry s
  | .dispatchCoreFault core cause => Sys2Proof.Machine.execDispatchCoreFault core cause s
  | .sensorSample temps => Sys2Proof.Machine.execSensorSample temps s
  | .limitActionEnd row => Sys2Proof.Machine.execLimitActionEnd row s
  | .coreCurrentLimit amps => Sys2Proof.Machine.execCoreCurrentLimit amps s
  | .coreVoltageLimit mv => Sys2Proof.Machine.execCoreVoltageLimit mv s
  | .avsStep up => Sys2Proof.Machine.execAvsStep up s
  | .powerBudgetTimer watts => Sys2Proof.Machine.execPowerBudgetTimer watts s
  | .logEntryWrite => Sys2Proof.Machine.execLogEntryWrite s
  | .eventEntryWrite => Sys2Proof.Machine.execEventEntryWrite s
  | .traceEntryWrite => Sys2Proof.Machine.execTraceEntryWrite s
  | .fwMoltReq => Sys2Proof.Machine.execFwMoltReq s
  | .moltStagingEnd => Sys2Proof.Machine.execMoltStagingEnd s
  | .moltVerifyEnd r1 s1 r2 s2 => Sys2Proof.Machine.execMoltVerifyEnd r1 s1 r2 s2 s
  | .moltHandoverStart checkOk => Sys2Proof.Machine.execMoltHandoverStart checkOk s
  | .fwMoltCommit host => Sys2Proof.Machine.execFwMoltCommit host s
  | .fwMoltAbort => Sys2Proof.Machine.execFwMoltAbort s
  | .moltReadyTimeout => Sys2Proof.Machine.execMoltReadyTimeout s
  | .fwClrCnt => Sys2Proof.Machine.execFwClrCnt s
  | .errorLineLatch => Sys2Proof.Machine.execErrorLineLatch s
  | .errorLineRailFault line => Sys2Proof.Machine.execErrorLineRailFault line s
  | .collectorReaction => Sys2Proof.Machine.execCollectorReaction s
  | .stopAliveDelayExpiry => Sys2Proof.Machine.execStopAliveDelayExpiry s
  | .aliveToggle => Sys2Proof.Machine.execAliveToggle s
  | .lockstepMismatch => Sys2Proof.Machine.execLockstepMismatch s
  | .comparatorTest flagged => Sys2Proof.Machine.execComparatorTest flagged s
  | .linePathTest bad => Sys2Proof.Machine.execLinePathTest bad s
  | .carapaceSramScrub errs => Sys2Proof.Machine.execCarapaceSramScrub errs s
  | .carapaceWdtExpiry => Sys2Proof.Machine.execCarapaceWdtExpiry s
  | .clockMonitorCheck ppm => Sys2Proof.Machine.execClockMonitorCheck ppm s
  | .debugAction act => Sys2Proof.Machine.execDebugAction act s
  | .mgmtDatagramSend => Sys2Proof.Machine.execMgmtDatagramSend s
  | .mgmtFrameReceive frame => Sys2Proof.Machine.execMgmtFrameReceive frame s
  | .mgmtLinkChange up => Sys2Proof.Machine.execMgmtLinkChange up s
  | .smbusReadStatus => Sys2Proof.Machine.execSmbusReadStatus s
  | .smbusReadLines => Sys2Proof.Machine.execSmbusReadLines s
  | .smbusReadTlog => Sys2Proof.Machine.execSmbusReadTlog s
  | .smbusOtherCommand cmd => Sys2Proof.Machine.execSmbusOtherCommand cmd s
  | .safClrCnt => Sys2Proof.Machine.execSafClrCnt s
  | .fclClrCnt => Sys2Proof.Machine.execFclClrCnt s
  | .secAttest => Sys2Proof.Machine.execSecAttest s
  | .attestReportDone sig => Sys2Proof.Machine.execAttestReportDone sig s
  | .secEnrol => Sys2Proof.Machine.execSecEnrol s
  | .secDebugChallenge => Sys2Proof.Machine.execSecDebugChallenge s
  | .secDebugUnlock => Sys2Proof.Machine.execSecDebugUnlock s
  | .debugChallengeExpiry => Sys2Proof.Machine.execDebugChallengeExpiry s
  | .objectVerifyEnd r1 s1 r2 s2 => Sys2Proof.Machine.execObjectVerifyEnd r1 s1 r2 s2 s
  | .idRsaReady => Sys2Proof.Machine.execIdRsaReady s
  | .idReady => Sys2Proof.Machine.execIdReady s
  | .secClrCnt => Sys2Proof.Machine.execSecClrCnt s
  | .mailboxRecord => Sys2Proof.Machine.execMailboxRecord s
  | .chainAppend time full => Sys2Proof.Machine.execChainAppend time full s
  | .epochTimer => Sys2Proof.Machine.execEpochTimer s
  | .sealDone ok time sig => Sys2Proof.Machine.execSealDone ok time sig s
  | .cocoonResume powerLoss torn time => Sys2Proof.Machine.execCocoonResume powerLoss torn time s
  | .cocoonWdtExpiry => Sys2Proof.Machine.execCocoonWdtExpiry s
  | .cocoonPowerFail => Sys2Proof.Machine.execCocoonPowerFail s
  | .cocExport => Sys2Proof.Machine.execCocExport s
  | .cocExportDone => Sys2Proof.Machine.execCocExportDone s
  | .cocUpdStart => Sys2Proof.Machine.execCocUpdStart s
  | .updateChunkSend => Sys2Proof.Machine.execUpdateChunkSend s
  | .cocClrCnt => Sys2Proof.Machine.execCocClrCnt s
  | .persistentWrite => Sys2Proof.Machine.execPersistentWrite s
  | .lifetimeCounterFlush idx => Sys2Proof.Machine.execLifetimeCounterFlush idx s
  | .poweredHour => Sys2Proof.Machine.execPoweredHour s
  | .pwrClrCnt => Sys2Proof.Machine.execPwrClrCnt s
  | .prsClrCnt => Sys2Proof.Machine.execPrsClrCnt s
  | .illegalInstruction t word => Sys2Proof.Machine.execIllegalInstruction t word s
  | .feederCycle t => Sys2Proof.Machine.execFeederCycle t s
  | .carapaceWdtKick => Sys2Proof.Machine.execCarapaceWdtKick s
  | .internalKickRegister sec => Sys2Proof.Machine.execInternalKickRegister sec s
  | .gptpEventTransmit => Sys2Proof.Machine.execGptpEventTransmit s
  | .recorderUpdateVerify r1 s1 r2 s2 => Sys2Proof.Machine.execRecorderUpdateVerify r1 s1 r2 s2 s

end Sys2Proof.Machine
end

