-- ==== Sys2Proof/Machine/Tick.lean ====
section
/-! DEFINITION. The passing of time: one tick of the device time base. -/
namespace Sys2Proof.Machine

/-- The device time base advances by one tick (R47). -/
def tickOnce (s : State) : State := { s with tick := (s.tick + 1) % 2 ^ 64 }

end Sys2Proof.Machine
end

