-- ==== Sys2Proof/Safety.lean ====
section
/-! DEFINITION. The terms that the statements use: what holds of every state, when a tile runs its instruction, and what a state
shares with the one before it. -/
namespace Sys2Proof.Machine

/-! What no step breaks. -/

/-- The fuses `G` differ from `F` at most by an owner root that was enrolled while none was locked (R533). -/
def FusesKept (F G : Fuses) : Prop :=
  G.variantB = F.variantB ∧ G.serial = F.serial ∧ G.splitDisable = F.splitDisable ∧ G.debugDisable = F.debugDisable ∧
  G.fusedOff = F.fusedOff ∧ G.pratharRoot = F.pratharRoot ∧ G.step = F.step ∧ G.deviceSeed = F.deviceSeed ∧
  (F.ownerLock = true → G.ownerLock = true ∧ G.ownerRoot = F.ownerRoot)

/-- Memory lists addresses in strictly rising order and no byte that an unlisted address reads as, and the time base fits its 64 bits
(R47). -/
def State.sound (s : State) : Prop := Memory.wf s.mem.cells = true ∧ s.tick < 2 ^ 64

/-- Command `c` completes on `s`, and what it leaves satisfies `P`. -/
def Gives (c : Instr) (s : State) (P : State → Prop) : Prop := ∃ u, exec c s = .next u ∧ P u

/-! Register fields and events. -/

/-- Between `s` and `t` exactly the event `code` of `unit` was presented, on error line `line`, with the tick of `s`. -/
def Presented (s t : State) (line code unit : Nat) : Prop :=
  ∃ e, t.cara.asserted = s.cara.asserted ++ [e] ∧ e.line = line ∧ e.code = code ∧ e.units = [unit] ∧ e.tick = s.tick

/-- The event `code` of `unit` was presented on error line `line` with the tick of `s`, perhaps beside other events. -/
def Raised (s t : State) (line code unit : Nat) : Prop :=
  ∃ e l r, t.cara.asserted = s.cara.asserted ++ l ++ e :: r ∧ e.line = line ∧ e.code = code ∧ e.units = [unit] ∧ e.tick = s.tick

/-- `t` differs from `s` at most in its registers and in what the error lines present. -/
def OnlyRegs (s t : State) : Prop :=
  t = { s with regs := t.regs, cara.asserted := t.cara.asserted }

/-- A counter of instance `i` rose by `n`: it wraps or saturates as its register table says. -/
def Counted (s t : State) (f : Fld) (i n : Nat) : Prop :=
  t.rd f i = if f.wrap then (s.rd f i + n) % 2 ^ f.w else min (s.rd f i + n) (2 ^ f.w - 1)

/-- No byte of memory differs. -/
def SameMemory (s t : State) : Prop := ∀ a, t.peek a = s.peek a

/-! Tiles. -/

/-- Tile `t` issues the instruction at its PC: it runs, nothing blocks its issue, and its program word is readable (R175). -/
def State.runs (s : State) (t : Nat) : Prop :=
  s.canIssue t = true ∧ s.sramErrs (tileAddr t (0x20000 + (s.tile t).pc)) 4 = []

/-- The address at which execution goes on after the instruction at the PC (R149, R154). -/
def State.nextPc (s : State) (t : Nat) : Nat :=
  (loopEval (s.tile t).loops (s.tile t).lc (s.tile t).pc).2.2.getD ((s.tile t).pc + 4)

/-- The instruction at the PC can be followed by another one inside program memory (R149). -/
def State.follows (s : State) (t : Nat) : Prop := s.nextPc t ≤ 0x3FFC

/-- Tile `t` as its instruction leaves it where only the PC and the loop counters move on (R152 to R154). -/
def State.moved (s : State) (t : Nat) : TileState :=
  let e := loopEval (s.tile t).loops (s.tile t).lc (s.tile t).pc
  { s.tile t with pc := s.nextPc t, loops := e.1, lc := e.2.1 }

/-- `u` differs from `s` at most in what tile `t` owns. -/
def TileOnly (s u : State) (t : Nat) : Prop :=
  u = { s with swarm.tiles := u.swarm.tiles } ∧ ∀ k, k ≠ t → u.tile k = s.tile k

/-- Tile `t` wrote `v` to g register `r`, went on to its next instruction, and changed nothing else; a write to g0 is discarded and
g0 reads 0 (R141). -/
def WroteG (s u : State) (t r : Nat) (v : BitVec 32) : Prop :=
  TileOnly s u t ∧ u.tile t = { s.moved t with g := (u.tile t).g } ∧
  u.g t r = (if r = 0 then 0 else v.toNat) ∧ ∀ q, q ≠ r → u.g t q = s.g t q

/-- Tile `t` wrote `f i` to each lane `i` of v register `r`, went on to its next instruction, and changed nothing else. -/
def WroteV (s u : State) (t r : Nat) (f : Nat → Nat) : Prop :=
  TileOnly s u t ∧ u.tile t = { s.moved t with v := (u.tile t).v } ∧
  (∀ i, i < 64 → u.lane t r i = f i) ∧ ∀ q i, q ≠ r → i < 64 → u.lane t q i = s.lane t q i

/-- A halt of tile `t` ends no job: the tile is in none, or a part of its job on another tile has still to end (R174, R180). -/
def State.haltsAlone (s : State) (t : Nat) : Bool :=
  (s.jobOf t).all (fun j => j.parts.any (fun p => p.unit != t && (p.status == 0 || p.status == 3)))

/-- Tile `t` halted for the instruction at `pc` with a cause, and no job ended with it: TIL_HALT holds the address and
the cause, STATE is halted, ERR is set, its queues are empty, and the event of the cause is presented on the brood's line; memory and every
other tile are as they were (R84, R175, R180, R181). -/
def HaltedAt (s u : State) (t pc cause : Nat) : Prop :=
  u.rd F.TIL_HALT_VALID t = 1 ∧ u.rd F.TIL_HALT_HALT_PC t = pc % 2 ^ 14 ∧ u.rd F.TIL_HALT_CAUSE t = cause ∧
  (u.tile t).run = 2 ∧ (u.tile t).err = true ∧ (u.tile t).q = [] ∧ (u.tile t).dma = [] ∧ (u.tile t).msgs = [] ∧
  Presented s u (tileBrood t) (haltCode cause) t ∧ SameMemory s u ∧ ∀ k, k ≠ t → u.tile k = s.tile k

/-- Tile `t` halted at the instruction it issued. -/
def Halted (s u : State) (t cause : Nat) : Prop := HaltedAt s u t (s.tile t).pc cause

/-! Streams. -/

/-- The trace queue takes a further entry, and no handover runs (R438, R448). -/
def State.traceRoom (s : State) : Prop := s.fw.trcQ.length < 128 ∧ s.handover = false

/-- The trace queue took a point of the warp engines, where its group is enabled (R438, R439; its SRC is log entry 22). -/
def TracedWarp (s u : State) (point : Nat) (args : List Nat) : Prop :=
  u.fw.trcQ = s.fw.trcQ ++ (if bitOf (s.rd F.FW_TRACE_EN_GROUPS) (point / 16) then
    [{ point := point, src := 3, drop := s.fw.trcDrop, tick := s.tick, args := args }] else [])

/-- A loss on stream `n` is one that leaves it short of its LOSS_LIMIT, and no running pipeline waits for the stream (R315, R317);
SRAM errors are held by words of 8 bytes. -/
def State.mayLose (s : State) (n : Nat) : Prop :=
  n < 48 ∧ (s.strm n).desc.en = true ∧ (s.strm n).state ≠ 3 ∧ s.rd F.INT_LOSS_CONSEC n + 1 < (s.strm n).desc.limit ∧
  (∀ e ∈ s.mem.sram, e.1 % 8 = 0) ∧ ∀ x ∈ s.sched.pipes, x.running = false

/-- Stream `n` lost a frame or sample with an event on a line: the event is the only one, the loss is counted, and the stream
resynchronises (R315). -/
def Lost (s u : State) (n line code : Nat) : Prop :=
  Presented s u line code n ∧ Counted s u F.INT_LOSS_TOTAL n 1 ∧ u.rd F.INT_LOSS_CONSEC n = (s.rd F.INT_LOSS_CONSEC n + 1) % 16 ∧
  (u.strm n).state = 1 ∧ u.sched = s.sched ∧ u.swarm = s.swarm

/-- Stream `n` admitted a sample: it is the last good one, the stream is receiving, and no loss is in a row (R316). -/
def Admitted (s u : State) (n : Nat) (x : Sample) : Prop :=
  (u.strm n).last = some (x.entry, x.stamp) ∧ (u.strm n).state = 2 ∧ (u.strm n).everGood = true ∧ u.rd F.INT_LOSS_CONSEC n = 0 ∧
  u.swarm = s.swarm

/-! Device memory. -/

/-- No word of a check-symbol cache is in error (R388). -/
def State.cacheClean (s : State) : Prop := ∀ e ∈ s.mem.sram, e.1 < chkBase

/-! Host commands. -/

/-- The dispatch cores can take command `c` now: it is the entry at CONS of the command ring, readable, with a tag that is free (R413, R414). -/
def State.takes (s : State) (c : Cmd) : Prop :=
  s.cmdReady = true ∧ s.tagBad c.tag = false ∧
  ∃ l r, s.busRead (mDsp 0) (s.ringSlot 0 (s.rd F.HIF_RING_CONS_CONS 0)) 64 = (.ok, l, r) ∧ cmdAt l = c

/-- Ring `r` takes an entry at once: entries of `n` units of 16 bytes in device memory, no error armed, no word of a
check-symbol cache in error, no handover (R405, R448). -/
def State.ringReady (s : State) (r n : Nat) : Prop :=
  s.rd F.HIF_RING_CFG_ESIZE r = n ∧ s.rd F.HIF_RING_BASE_BASE r * 4096 + s.ringN r * (16 * n) ≤ gddrEnd ∧
  (∀ ch, ch < 8 → s.rd F.MEM_INJ_ARM ch = 0) ∧ s.handover = false ∧ s.cacheClean

/-- Where a ring's next entry goes (R405). -/
def State.nextSlot (s : State) (r : Nat) : Nat := s.ringSlot r (s.rd F.HIF_RING_PROD_PROD r)

/-- The index of a ring's next entry has moved on by one (R406). -/
def Produced (s u : State) (r : Nat) : Prop := u.rd F.HIF_RING_PROD_PROD r = (s.rd F.HIF_RING_PROD_PROD r + 1) % 2 ^ 32

/-- Little-endian number of `n` bytes in memory. -/
def State.num (s : State) (a n : Nat) : Nat := leNat (s.peekN a n)

/-- The completion ring takes an entry at once, and no waiting NOP has become ready (R414, R415). -/
def State.answers (s : State) : Prop := s.ringReady 1 4 ∧ readyNops s.host.waiting = []

/-- The next completion entry answers the command with a tag: its status and DETAIL (R415). -/
def Completed (s u : State) (tag status detail : Nat) : Prop :=
  let a := s.nextSlot 1
  Produced s u 1 ∧ u.num (a + 2) 2 = tag ∧ u.num (a + 8) 2 = status ∧ u.num (a + 48) 8 = detail

/-- A command was taken from the ring: CONS has passed its entry (R405). -/
def Consumed (s u : State) : Prop := u.rd F.HIF_RING_CONS_CONS 0 = (s.rd F.HIF_RING_CONS_CONS 0 + 1) % 2 ^ 32

/-- The command ring's command `c` was taken and answered at once. -/
def Answered (s u : State) (c : Cmd) (status detail : Nat) : Prop :=
  Consumed s u ∧ Completed s u c.tag status detail ∧ u.host.waiting = s.host.waiting

/-- The command was taken and answered with an event of a line. -/
def RefusedWith (s u : State) (c : Cmd) (line code unit detail : Nat) : Prop := Answered s u c code detail ∧ Raised s u line code unit

/-- The command was taken and waits, at step `n`. -/
def Waits (s u : State) (c : Cmd) (n : Nat) : Prop :=
  Consumed s u ∧ u.host.waiting = s.host.waiting ++ [{ cmd := c, since := s.tick, stage := n }]

/-- Every sector of device memory reads clean. -/
def State.clean (s : State) : Prop := (∀ sec, s.secDiff sec = 0) ∧ ∀ ch, (s.chan ch).lost = []

end Sys2Proof.Machine
end

