-- ==== Sys2Proof/Certificates/Slice0/Obligations.lean ====
section
/-! DEFINITION. The statements about the block, in terms of its commands, its step and its state after reset. -/
open Sys2Proof Sys2Proof.Machine

/-- A step takes the command at the front of the queue and is that command's `exec` with the queue's rest; with no command waiting the
device time base advances by one tick and nothing else changes (R47 gives the time base; that an empty queue is a tick is the model's choice, log
entry 1). -/
def Obligations.StepRunsFrontCommand : Prop :=
  (∀ (s : State) (c : Instr) (r : List Instr), s.pending = c :: r → step s = exec c { s with pending := r }) ∧
  (∀ s : State, s.pending = [] → step s = .next { s with tick := (s.tick + 1) % 2 ^ 64 })

/-- R9, R85, R86, R139, R226 to R228, R363, R392, R426, R450, R552, R579: after reset every register field reads its reset value, among them the
values that the register tables state; no command waits, no tile runs, device memory reads as if nothing had been written (log entry 12), and
the state is sound. Reset values that the spec does not give are the model's (log entries 3 and 4). -/
def Obligations.ResetState : Prop :=
  State.reset.sound ∧ State.reset.pending = [] ∧ State.reset.tick = 0 ∧ (∀ a, State.reset.peek a = memDef a) ∧
  (∀ t, State.reset.tile t = {}) ∧ (∀ (f : Fld) (i : Nat), State.reset.rd f i = f.rst) ∧
  (∀ b k, k < 16 → State.reset.slotOf b k = k ∧ State.reset.spare b = some 16) ∧
  (∀ i, State.reset.rd F.BRD_CTRL_ROT_EN i = 1 ∧ State.reset.rd F.BRD_STATUS_GOOD_COUNT i = 17 ∧ State.reset.rd F.ARR_SKEW_COL_PROG i = 32 ∧
    State.reset.rd F.ARR_SKEW_ROW_PROG i = 32 ∧ State.reset.rd F.CHL_LANES_GOOD i = 0xff ∧ State.reset.rd F.MEM_SCRUB_PERIOD i = 240 ∧
    State.reset.rd F.WRP_STATUS_IN_SERVICE i = 1) ∧
  State.reset.rd F.NOC_ACK_TMO_CROSS = 0x1000 ∧ State.reset.rd F.NOC_ACK_TMO_LOCAL = 0x100 ∧ State.reset.rd F.SYNC_IO_CTRL_TMO = 0xc3 ∧
  State.reset.rd F.SYNC_IO_STATUS_HOLD = 1 ∧ State.reset.rd F.HIF_ID_SAFETY = 1 ∧ State.reset.rd F.FW_CTRL_LOG_LEVEL = 1 ∧
  State.reset.rd F.FW_MOLT_CTRL_TMO = 1000 ∧ State.reset.rd F.FW_TRACE_EN_GROUPS = 0x31 ∧ State.reset.rd F.COC_STATUS_FREE = 64 ∧
  State.reset.rd F.PWR_VOLT_REQ_MV = 800 ∧ State.reset.rd F.HIF_STATE_DEV = 0 ∧ State.reset.rd F.HIF_STATE_HOST = 0

/-- R47, R533: no command gets stuck, and whatever a step does, memory keeps its canonical form, the time base its 64 bits, the fuses
their values but for an owner root that is enrolled while none is locked, and only the front command leaves the queue. -/
def Obligations.StepKeepsSound : Prop :=
  ∀ s : State, s.sound → ∃ t, step s = .next t ∧ t.sound ∧ FusesKept s.fuses t.fuses ∧ t.pending = s.pending.tail

/-- R141, R146, R148: the register operations ADD to MULHU write `ga op gb`, wrapped to 32 bits, to gd; SLT, SLTU, MIN and MAX compare as the
table says; shifts use gb bits 4:0. ADDI and SLTI sign-extend imm, ANDI, ORI and XORI zero-extend it, shift immediates use imm bits 4:0, LUI
writes imm × 2^12. Each changes nothing else but the PC and the loop counters; g0 reads 0 and discards writes. -/
def Obligations.ScalarOperations : Prop :=
  (∀ (s : State) (t : BitVec 11) (gd ga gb : BitVec 5), s.runs t.toNat → s.follows t.toNat →
     let a := BitVec.ofNat 32 (s.g t.toNat ga.toNat)
     let b := BitVec.ofNat 32 (s.g t.toNat gb.toNat)
     let writes := fun (c : Instr) (v : BitVec 32) => Gives c s (fun u => WroteG s u t.toNat gd.toNat v)
     writes (.add t gd ga gb) (a + b) ∧ writes (.sub t gd ga gb) (a - b) ∧
     writes (.andR t gd ga gb) (a &&& b) ∧ writes (.orR t gd ga gb) (a ||| b) ∧ writes (.xor t gd ga gb) (a ^^^ b) ∧
     writes (.sll t gd ga gb) (a <<< (b.toNat % 32)) ∧ writes (.srl t gd ga gb) (a >>> (b.toNat % 32)) ∧
     writes (.sra t gd ga gb) (a.sshiftRight (b.toNat % 32)) ∧
     writes (.slt t gd ga gb) (if a.slt b then 1#32 else 0#32) ∧ writes (.sltu t gd ga gb) (if a < b then 1#32 else 0#32) ∧
     writes (.min t gd ga gb) (if a.sle b then a else b) ∧ writes (.max t gd ga gb) (if a.sle b then b else a) ∧
     writes (.mul t gd ga gb) (a * b) ∧
     writes (.mulh t gd ga gb) (((a.signExtend 64 * b.signExtend 64) >>> 32).truncate 32) ∧
     writes (.mulhu t gd ga gb) (((a.zeroExtend 64 * b.zeroExtend 64) >>> 32).truncate 32)) ∧
  (∀ (s : State) (t : BitVec 11) (gd ga : BitVec 5) (imm : BitVec 15) (up : BitVec 20), s.runs t.toNat → s.follows t.toNat →
     let a := BitVec.ofNat 32 (s.g t.toNat ga.toNat)
     let writes := fun (c : Instr) (v : BitVec 32) => Gives c s (fun u => WroteG s u t.toNat gd.toNat v)
     writes (.addi t gd ga imm) (a + imm.signExtend 32) ∧ writes (.andi t gd ga imm) (a &&& imm.zeroExtend 32) ∧
     writes (.ori t gd ga imm) (a ||| imm.zeroExtend 32) ∧ writes (.xori t gd ga imm) (a ^^^ imm.zeroExtend 32) ∧
     writes (.slli t gd ga imm) (a <<< (imm.toNat % 32)) ∧ writes (.srli t gd ga imm) (a >>> (imm.toNat % 32)) ∧
     writes (.srai t gd ga imm) (a.sshiftRight (imm.toNat % 32)) ∧
     writes (.slti t gd ga imm) (if a.slt (imm.signExtend 32) then 1#32 else 0#32) ∧
     writes (.lui t gd up) (up.zeroExtend 32 <<< 12))

/-- R143, R148, R149: a load from an aligned local address that R143 permits, with no SRAM error in its bytes, writes the bytes read,
extended as the table says, to gd; no byte of memory and nothing else of the tile but the PC and the loop counters changes. -/
def Obligations.LoadsReadLocalMemory : Prop :=
  ∀ (s : State) (t : BitVec 11) (gd ga : BitVec 5) (imm : BitVec 15) (d : Nat), s.runs t.toNat → s.follows t.toNat →
    let a := (BitVec.ofNat 32 (s.g t.toNat ga.toNat) + imm.signExtend 32).toNat
    let loads := fun (c : Instr) (n : Nat) (v : BitVec 32) =>
      a % n = 0 → localDev t.toNat a n false = some d → s.sramErrs d n = [] →
        Gives c s (fun u => WroteG s u t.toNat gd.toNat v ∧ SameMemory s u)
    loads (.lw t gd ga imm) 4 (BitVec.ofNat 32 (leNat (s.peekN d 4))) ∧
    loads (.lh t gd ga imm) 2 ((BitVec.ofNat 16 (leNat (s.peekN d 2))).signExtend 32) ∧
    loads (.lhu t gd ga imm) 2 ((BitVec.ofNat 16 (leNat (s.peekN d 2))).zeroExtend 32) ∧
    loads (.lb t gd ga imm) 1 ((BitVec.ofNat 8 (leNat (s.peekN d 1))).signExtend 32) ∧
    loads (.lbu t gd ga imm) 1 ((BitVec.ofNat 8 (leNat (s.peekN d 1))).zeroExtend 32)

/-- R143, R148, R149: a store to an aligned local address that R143 permits, with no SRAM error in its bytes, stores the low bytes of gs
there, lowest first; every other byte of memory and every g register stay, and only the PC and the loop counters of the tile move. -/
def Obligations.StoresWriteLocalMemory : Prop :=
  ∀ (s : State) (t : BitVec 11) (gs ga : BitVec 5) (imm : BitVec 15) (d : Nat), s.runs t.toNat → s.follows t.toNat →
    let a := (BitVec.ofNat 32 (s.g t.toNat ga.toNat) + imm.signExtend 32).toNat
    let stores := fun (c : Instr) (n : Nat) =>
      a % n = 0 → localDev t.toNat a n true = some d → s.sramErrs d n = [] →
        Gives c s (fun u => u.tile t.toNat = s.moved t.toNat ∧ (∀ k, k ≠ t.toNat → u.tile k = s.tile k) ∧ u.regs = s.regs ∧
          (∀ i, i < n → u.peek (d + i) = BitVec.ofNat 8 (s.g t.toNat gs.toNat / 256 ^ i)) ∧
          ∀ x, (x < d ∨ d + n ≤ x) → u.peek x = s.peek x)
    stores (.sw t gs ga imm) 4 ∧ stores (.sh t gs ga imm) 2 ∧ stores (.sb t gs ga imm) 1

/-- R146, R148, R149, R153, R154: a branch whose condition holds, JAL and JALR go to their target where it is an instruction of program
memory, ending the loops that the target leaves, with the link in gd; a branch whose condition fails goes on in sequence; a target
outside program memory or misaligned halts with cause 0x05, and each of them as the last of an active loop body halts with cause 0x06.
The halts are stated where the halt ends no job of the sequencer. -/
def Obligations.BranchesAndJumps : Prop :=
  ∀ (s : State) (t : BitVec 11) (gd ga gb : BitVec 5) (off : BitVec 15) (joff : BitVec 20), s.runs t.toNat →
    let a := BitVec.ofNat 32 (s.g t.toNat ga.toNat)
    let b := BitVec.ofNat 32 (s.g t.toNat gb.toNat)
    let pc := (s.tile t.toNat).pc
    let good := fun (x : Int) => 0 ≤ x ∧ x ≤ 0x3FFC ∧ x % 4 = 0
    let goes := fun (c : Instr) (target : Int) (link : Option (BitVec 5)) =>
      (good target → Gives c s (fun u => TileOnly s u t.toNat ∧
        u.tile t.toNat = { s.tile t.toNat with pc := target.toNat, loops := loopExit (s.tile t.toNat).loops target.toNat,
                                               g := (u.tile t.toNat).g } ∧
        ∀ r, u.g t.toNat r = if r ≠ 0 ∧ link.map BitVec.toNat = some r then (pc + 4) % 2 ^ 32 else s.g t.toNat r)) ∧
      (¬ good target → s.haltsAlone t.toNat = true → Gives c s (fun u => Halted s u t.toNat 0x05))
    let branches := fun (c : Instr) (taken : Prop) =>
      (taken → goes c ((pc : Int) + 4 * off.toInt) none) ∧
      (¬ taken → s.follows t.toNat → Gives c s (fun u => TileOnly s u t.toNat ∧ u.tile t.toNat = s.moved t.toNat))
    ((s.tile t.toNat).atLoopEnd = false →
      branches (.beq t ga gb off) (a = b) ∧ branches (.bne t ga gb off) (a ≠ b) ∧
      branches (.blt t ga gb off) (a.toInt < b.toInt) ∧ branches (.bge t ga gb off) (b.toInt ≤ a.toInt) ∧
      branches (.bltu t ga gb off) (a.toNat < b.toNat) ∧ branches (.bgeu t ga gb off) (b.toNat ≤ a.toNat) ∧
      goes (.jal t gd joff) ((pc : Int) + 4 * joff.toInt) (some gd) ∧
      goes (.jalr t gd ga off) ((a + off.signExtend 32).toNat : Int) (some gd)) ∧
    ((s.tile t.toNat).atLoopEnd = true → s.haltsAlone t.toNat = true →
      ∀ c ∈ [Instr.beq t ga gb off, .bne t ga gb off, .blt t ga gb off, .bge t ga gb off, .bltu t ga gb off, .bgeu t ga gb off,
             .jal t gd joff, .jalr t gd ga off], Gives c s (fun u => Halted s u t.toNat 0x06))

/-- R152, R153: LOOP with a trip count gb above 0 and LOOPI start a loop on an inactive counter whose body ends inside program memory
and inside every active body: the index is 0 and the body's first instruction follows. A trip count of 0 skips the body. A counter
that is active, or a body that ends outside, halts with cause 0x06; lc 3, a count or a body of 0 halt with cause 0x01. The halts are
stated where the halt ends no job of the sequencer. -/
def Obligations.HardwareLoopsStart : Prop :=
  ∀ (s : State) (t : BitVec 11) (lc : BitVec 2) (gb : BitVec 5) (count : BitVec 11) (body : BitVec 12), s.runs t.toNat →
    (s.tile t.toNat).atLoopEnd = false →
    let x := s.tile t.toNat
    let last := x.pc + 4 * body.toNat
    let fits := (∀ l ∈ x.loops, l.lc ≠ lc.toNat ∧ last ≤ l.last) ∧ last ≤ 0x3FFC
    let starts := fun (c : Instr) (trips : Nat) =>
      (lc ≠ 3#2 → body ≠ 0#12 → fits → 0 < trips → Gives c s (fun u => TileOnly s u t.toNat ∧
        u.tile t.toNat = { x with pc := x.pc + 4, lc := (u.tile t.toNat).lc,
                                  loops := { lc := lc.toNat, first := x.pc + 4, last := last, trips := trips } :: x.loops } ∧
        FMap.get 0#32 (u.tile t.toNat).lc lc.toNat = 0#32 ∧
        ∀ k, k ≠ lc.toNat → FMap.get 0#32 (u.tile t.toNat).lc k = FMap.get 0#32 x.lc k)) ∧
      (lc ≠ 3#2 → body ≠ 0#12 → ¬ fits → s.haltsAlone t.toNat = true → Gives c s (fun u => Halted s u t.toNat 0x06)) ∧
      ((lc = 3#2 ∨ body = 0#12) → s.haltsAlone t.toNat = true → Gives c s (fun u => Halted s u t.toNat 0x01))
    starts (.loop t lc gb body) (s.g t.toNat gb.toNat) ∧
    (lc ≠ 3#2 → body ≠ 0#12 → fits → s.g t.toNat gb.toNat = 0 → (∀ l ∈ x.loops, l.last ≠ last) → last + 4 ≤ 0x3FFC →
      Gives (.loop t lc gb body) s (fun u => TileOnly s u t.toNat ∧ u.tile t.toNat = { x with pc := last + 4 })) ∧
    (count ≠ 0#11 → starts (.loopi t lc count body) count.toNat) ∧
    (count = 0#11 → s.haltsAlone t.toNat = true → Gives (.loopi t lc count body) s (fun u => Halted s u t.toNat 0x01))

/-- R148, R150, R174: RDLC writes the index of lc, CSRR the CSR that its number names; a read of TICK_LO also latches bits 63:32 of the
time base. END ends the program and changes nothing else; TRAP halts with cause 0x80 + code. -/
def Obligations.ControlRegisterAndEnd : Prop :=
  ∀ (s : State) (t : BitVec 11) (gd : BitVec 5) (n : BitVec 15), s.runs t.toNat →
    let x := s.tile t.toNat
    let reads := fun (k : Nat) (v : Nat) => s.follows t.toNat → n.toNat = k →
      Gives (.csrr t gd n) s (fun u => WroteG s u t.toNat gd.toNat (BitVec.ofNat 32 v))
    (s.follows t.toNat → n.toNat ≤ 2 →
      Gives (.rdlc t gd n) s (fun u => WroteG s u t.toNat gd.toNat (FMap.get 0#32 x.lc n.toNat))) ∧
    reads 0 t.toNat ∧ reads 1 (t.toNat / 64 * 256 + t.toNat % 64) ∧ reads 2 (tileBrood t.toNat) ∧
    reads 3 (tileK t.toNat + (if s.fused (tileBrood t.toNat) then (if tileK t.toNat = 0 then 0x300 else 0x100) else 0)) ∧
    reads 4 (x.job.chip + 256 * x.job.chips) ∧ reads 5 ((x.cyc - x.cyc0) % 2 ^ 32) ∧ reads 7 x.tickHi.toNat ∧
    (s.follows t.toNat → n.toNat = 6 → Gives (.csrr t gd n) s (fun u =>
      (u.tile t.toNat).tickHi = BitVec.ofNat 32 (s.tick / 2 ^ 32) ∧
      u.g t.toNat gd.toNat = (if gd.toNat = 0 then 0 else s.tick % 2 ^ 32) ∧
      (u.tile t.toNat).pc = s.nextPc t.toNat ∧ TileOnly s u t.toNat)) ∧
    (x.atLoopEnd = false → Gives (.endProg t) s (fun u => TileOnly s u t.toNat ∧
      u.tile t.toNat = { x with job := { x.job with ended := true } })) ∧
    (x.atLoopEnd = false → s.haltsAlone t.toNat = true → n.toNat < 128 →
      Gives (.trap t n) s (fun u => Halted s u t.toNat (0x80 + n.toNat))) ∧
    (s.haltsAlone t.toNat = true → 7 < n.toNat → Gives (.csrr t gd n) s (fun u => Halted s u t.toNat 0x01)) ∧
    (s.haltsAlone t.toNat = true → 2 < n.toNat → Gives (.rdlc t gd n) s (fun u => Halted s u t.toNat 0x01))

/-- R143, R147, R149, R175, R180: a load or store whose address is misaligned halts its tile with cause 0x03, and one that R143 does not permit
with cause 0x04; a word that is no instruction halts the tile that issues it with cause 0x01, the all-zero word with cause 0x02. A halt fails the tile's part of a job
(R180). Stated where the halt ends no job of the sequencer. -/
def Obligations.ScalarFaultsHaltTheTile : Prop :=
  ∀ (s : State) (t : BitVec 11) (g ga : BitVec 5) (imm : BitVec 15) (w : BitVec 32), s.runs t.toNat → s.haltsAlone t.toNat = true →
    let a := (BitVec.ofNat 32 (s.g t.toNat ga.toNat) + imm.signExtend 32).toNat
    let aligned := fun (c : Instr) (n : Nat) => a % n ≠ 0 → Gives c s (fun u => Halted s u t.toNat 0x03)
    let permitted := fun (c : Instr) (n : Nat) (store : Bool) =>
      a % n = 0 → localDev t.toNat a n store = none → Gives c s (fun u => Halted s u t.toNat 0x04)
    aligned (.lw t g ga imm) 4 ∧ aligned (.lh t g ga imm) 2 ∧ aligned (.lhu t g ga imm) 2 ∧ aligned (.sw t g ga imm) 4 ∧
    aligned (.sh t g ga imm) 2 ∧ permitted (.lw t g ga imm) 4 false ∧ permitted (.lh t g ga imm) 2 false ∧
    permitted (.lhu t g ga imm) 2 false ∧ permitted (.lb t g ga imm) 1 false ∧ permitted (.lbu t g ga imm) 1 false ∧
    permitted (.sw t g ga imm) 4 true ∧ permitted (.sh t g ga imm) 2 true ∧ permitted (.sb t g ga imm) 1 true ∧
    Gives (.illegalInstruction t 0#32) s (fun u => Halted s u t.toNat 0x02) ∧
    (w ≠ 0#32 → legalWord w.toNat = false → Gives (.illegalInstruction t w) s (fun u => Halted s u t.toNat 0x01)) ∧
    (∀ j q, legalWord w.toNat = false → s.jobOf t.toNat = some j → j.part? t.toNat = some q → Gives (.illegalInstruction t w) s (fun u =>
      ∃ k, u.job? j.id = some k ∧ k.part? t.toNat = some { q with status := 2, why := 0x1101, failAt := s.tick }))

/-- R148, R155 to R157: the integer vector operations act on each of the 64 lanes as 32-bit words and wrap. VRED writes its reduction to every lane, VPERM
selects lanes by vb, VBCST copies ga, VIDX counts up from ga, VRNG writes word fn of the generator for the job's SEED, VMOVS moves a lane to gd. Each changes
nothing else but the PC and the loop counters. Reserved fn and lane values halt with cause 0x01 (R147), stated where the halt ends no job of the sequencer. -/
def Obligations.VectorIntegerOperations : Prop :=
  (∀ (s : State) (t : BitVec 11) (vd va vb vc : BitVec 4), s.runs t.toNat → s.follows t.toNat →
     let a := fun i => BitVec.ofNat 32 (s.lane t.toNat va.toNat i)
     let b := fun i => BitVec.ofNat 32 (s.lane t.toNat vb.toNat i)
     let writes := fun (c : Instr) (v : Nat → BitVec 32) => Gives c s (fun u => WroteV s u t.toNat vd.toNat (fun i => (v i).toNat))
     writes (.vadd t vd va vb) (fun i => a i + b i) ∧ writes (.vsub t vd va vb) (fun i => a i - b i) ∧
     writes (.vmul t vd va vb) (fun i => a i * b i) ∧ writes (.vand t vd va vb) (fun i => a i &&& b i) ∧
     writes (.vor t vd va vb) (fun i => a i ||| b i) ∧ writes (.vxor t vd va vb) (fun i => a i ^^^ b i) ∧
     writes (.vsll t vd va vb) (fun i => a i <<< ((b i).toNat % 32)) ∧
     writes (.vsrl t vd va vb) (fun i => a i >>> ((b i).toNat % 32)) ∧
     writes (.vsra t vd va vb) (fun i => (a i).sshiftRight ((b i).toNat % 32)) ∧
     writes (.vmin t vd va vb) (fun i => if (a i).sle (b i) then a i else b i) ∧
     writes (.vmax t vd va vb) (fun i => if (a i).sle (b i) then b i else a i) ∧
     writes (.vclt t vd va vb) (fun i => if (a i).slt (b i) then 1#32 else 0#32) ∧
     writes (.vceq t vd va vb) (fun i => if a i = b i then 1#32 else 0#32) ∧
     writes (.vsel t vd va vb vc) (fun i => if s.lane t.toNat vc.toNat i ≠ 0 then a i else b i)) ∧
  (∀ (s : State) (t : BitVec 11) (vd va vb : BitVec 4) (ga gb gd : BitVec 5) (fn : BitVec 9) (n : BitVec 7), s.runs t.toNat →
     let a := s.lane t.toNat va.toNat
     let g := s.g t.toNat
     let writes := fun (i : Instr) (v : Nat → Nat) => s.follows t.toNat →
       Gives i s (fun u => WroteV s u t.toNat vd.toNat (fun i => v i % 2 ^ 32))
     let halts := fun (i : Instr) (cause : Nat) => s.haltsAlone t.toNat = true → Gives i s (fun u => Halted s u t.toNat cause)
     (∀ r, vred fn.toNat ((List.range 64).map a) = some r → writes (.vred t vd va fn) (fun _ => r)) ∧
     (fn.toNat = 0 → writes (.vred t vd va fn) (fun _ => ((List.range 64).map a).sum)) ∧
     writes (.vperm t vd va vb) (fun i => a (s.lane t.toNat vb.toNat i % 64)) ∧
     writes (.vbcst t vd ga) (fun _ => g ga.toNat) ∧ writes (.vidx t vd ga) (fun i => g ga.toNat + i) ∧
     (n.toNat < 4 → writes (.vrng t vd va ga gb n) (fun i =>
       rngWord (s.tile t.toNat).job.seed.toNat (g ga.toNat) (g gb.toNat * 2 ^ 32 + a i) n.toNat)) ∧
     (n.toNat < 64 → s.follows t.toNat →
       Gives (.vmovs t gd va n) s (fun u => WroteG s u t.toNat gd.toNat (BitVec.ofNat 32 (a n.toNat)))) ∧
     (5 < fn.toNat → halts (.vred t vd va fn) 0x01) ∧ (3 < n.toNat → halts (.vrng t vd va ga gb n) 0x01) ∧
     (63 < n.toNat → halts (.vmovs t gd va n) 0x01))

/-- R155, R281 to R286: VFADD to VFCLT, VCVT, VSFU and VLUT write into each lane of vd the value that the numeric rules give for the lane's
operands, and change nothing else but the PC and the loop counters. A reserved fn halts with cause 0x01 and a table that no VTLD has loaded with
cause 0x07 (R147, R157); the halts are stated where the halt ends no job of the sequencer. A NaN result of a floating operation is 0x7FC0_0000; VFMIN
and VFMAX return the operand that is no NaN when exactly one is, and order -0 below +0; an unordered VFCLT is 0. -/
def Obligations.VectorFloatingOperations : Prop :=
  (∀ (s : State) (t : BitVec 11) (vd va vb vc : BitVec 4) (fn : BitVec 9), s.runs t.toNat →
     let a := s.lane t.toNat va.toNat
     let b := s.lane t.toNat vb.toNat
     let c := s.lane t.toNat vc.toNat
     let writes := fun (i : Instr) (v : Nat → Nat) => s.follows t.toNat →
       Gives i s (fun u => WroteV s u t.toNat vd.toNat (fun i => v i % 2 ^ 32))
     let halts := fun (i : Instr) (cause : Nat) => s.haltsAlone t.toNat = true → Gives i s (fun u => Halted s u t.toNat cause)
     writes (.vfadd t vd va vb) (fun i => fAdd (a i) (b i)) ∧ writes (.vfsub t vd va vb) (fun i => fSub (a i) (b i)) ∧
     writes (.vfmul t vd va vb) (fun i => fMul (a i) (b i)) ∧ writes (.vfma t vd va vb vc) (fun i => fFma (a i) (b i) (c i)) ∧
     writes (.vfmin t vd va vb) (fun i => fMin (a i) (b i)) ∧ writes (.vfmax t vd va vb) (fun i => fMax (a i) (b i)) ∧
     writes (.vfclt t vd va vb) (fun i => if fLt (a i) (b i) then 1 else 0) ∧
     (fn.toNat ≤ 13 → writes (.vcvt t vd va fn) (fun i => (vcvt fn.toNat (a i)).getD 0)) ∧
     (fn.toNat ≤ 2 → writes (.vsfu t vd va fn) (fun i => (vsfu fn.toNat (a i)).getD 0)) ∧
     (fn.toNat ≤ 3 → FMap.get false (s.tile t.toNat).tabOk fn.toNat = true →
       writes (.vlut t vd va fn) (fun i => vlut ((s.tile t.toNat).tabWord fn.toNat) (a i))) ∧
     (13 < fn.toNat → halts (.vcvt t vd va fn) 0x01) ∧ (2 < fn.toNat → halts (.vsfu t vd va fn) 0x01) ∧
     (3 < fn.toNat → halts (.vlut t vd va fn) 0x01) ∧
     (fn.toNat ≤ 3 → FMap.get false (s.tile t.toNat).tabOk fn.toNat = false → halts (.vlut t vd va fn) 0x07)) ∧
  (∀ a b c : Nat, a < 2 ^ 32 → b < 2 ^ 32 → c < 2 ^ 32 →
     (fIsNan (fFma a b c) = true → fFma a b c = 0x7FC00000) ∧
     (fIsNan (fAdd a b) = true → fAdd a b = 0x7FC00000) ∧ (fIsNan (fSub a b) = true → fSub a b = 0x7FC00000) ∧
     (fIsNan (fMul a b) = true → fMul a b = 0x7FC00000) ∧
     (fIsNan a = true → fAdd a b = 0x7FC00000 ∧ fSub a b = 0x7FC00000 ∧ fMul a b = 0x7FC00000 ∧ fLt a b = false) ∧
     (fIsNan b = true → fAdd a b = 0x7FC00000 ∧ fSub a b = 0x7FC00000 ∧ fMul a b = 0x7FC00000 ∧ fLt a b = false) ∧
     (fIsNan a = true → fIsNan b = false → fMin a b = b ∧ fMax a b = b) ∧
     (fIsNan a = false → fIsNan b = true → fMin a b = a ∧ fMax a b = a) ∧
     (fIsNan a = true → fIsNan b = true → fMin a b = 0x7FC00000 ∧ fMax a b = 0x7FC00000) ∧
     fMin 0x80000000 0 = 0x80000000 ∧ fMin 0 0x80000000 = 0x80000000 ∧ fMax 0x80000000 0 = 0 ∧ fMax 0 0x80000000 = 0)

/-- R143, R157, R158: VLD fills the lanes from 64 consecutive elements at gb + 32 × off, extended as sx says; VST stores the low bits of
each lane there; VTLD copies 1 KiB of data memory into an activation table; VGTH gathers a word per lane. Stated for aligned
addresses that R143 and R158 permit with no SRAM error in their bytes; a misaligned address halts with cause 0x03 and one outside with
cause 0x04, where the halt ends no job of the sequencer. -/
def Obligations.VectorMemoryTransfers : Prop :=
  ∀ (s : State) (t : BitVec 11) (vd va : BitVec 4) (ew : BitVec 2) (gb : BitVec 5) (sx : Bool) (off : BitVec 13) (d : Nat),
    s.runs t.toNat →
    let a := (BitVec.ofNat 32 (s.g t.toNat gb.toNat) + (off.signExtend 32 <<< 5)).toNat
    let n := if ew = 0#2 then 4 else if ew = 1#2 then 2 else 1
    let halts := fun (i : Instr) (cause : Nat) => s.haltsAlone t.toNat = true → Gives i s (fun u => Halted s u t.toNat cause)
    let at' := fun i => (s.g t.toNat gb.toNat + 4 * s.lane t.toNat va.toNat i) % 2 ^ 32
    (ew ≠ 3#2 → ¬ (ew = 0#2 ∧ sx = true) → a % 32 = 0 → localDev t.toNat a (64 * n) false = some d → s.sramErrs d (64 * n) = [] →
      s.follows t.toNat → Gives (.vld t vd ew gb sx off) s (fun u => WroteV s u t.toNat vd.toNat (fun i =>
        let v := leNat (s.peekN (d + n * i) n)
        if sx then ((BitVec.ofNat (8 * n) v).signExtend 32).toNat else v))) ∧
    (ew ≠ 3#2 → a % 32 = 0 → localDev t.toNat a (64 * n) true = some d → s.sramErrs d (64 * n) = [] → s.follows t.toNat →
      Gives (.vst t vd ew gb off) s (fun u => u.tile t.toNat = s.moved t.toNat ∧ (∀ k, k ≠ t.toNat → u.tile k = s.tile k) ∧
        u.regs = s.regs ∧
        (∀ i j, i < 64 → j < n → u.peek (d + n * i + j) = BitVec.ofNat 8 (s.lane t.toNat vd.toNat i / 256 ^ j)) ∧
        ∀ x, (x < d ∨ d + 64 * n ≤ x) → u.peek x = s.peek x)) ∧
    (vd.toNat ≤ 3 → a % 32 = 0 → a + 1024 ≤ 0x10000 → s.sramErrs (tileAddr t.toNat a) 1024 = [] → s.follows t.toNat →
      Gives (.vtld t vd gb off) s (fun u => TileOnly s u t.toNat ∧
        u.tile t.toNat = { s.moved t.toNat with tabs := (u.tile t.toNat).tabs, tabOk := (u.tile t.toNat).tabOk } ∧
        (∀ i, i < 1024 → FMap.get 0#8 (u.tile t.toNat).tabs (vd.toNat * 1024 + i) = s.peek (tileAddr t.toNat a + i)) ∧
        FMap.get false (u.tile t.toNat).tabOk vd.toNat = true)) ∧
    ((∀ i, i < 64 → at' i % 4 = 0 ∧ at' i + 4 ≤ 0x10000 ∧ s.sramErrs (tileAddr t.toNat (at' i)) 4 = []) → s.follows t.toNat →
      Gives (.vgth t vd va gb) s (fun u => WroteV s u t.toNat vd.toNat (fun i => leNat (s.peekN (tileAddr t.toNat (at' i)) 4)))) ∧
    (ew ≠ 3#2 → ¬ (ew = 0#2 ∧ sx = true) → a % 32 ≠ 0 → halts (.vld t vd ew gb sx off) 0x03) ∧
    (ew ≠ 3#2 → a % 32 ≠ 0 → halts (.vst t vd ew gb off) 0x03) ∧
    (ew ≠ 3#2 → a % 32 = 0 → localDev t.toNat a (64 * n) true = none → halts (.vst t vd ew gb off) 0x04) ∧
    (vd.toNat ≤ 3 → a % 32 = 0 → 0x10000 < a + 1024 → halts (.vtld t vd gb off) 0x04) ∧
    ((∃ i, i < 64 ∧ at' i % 4 ≠ 0) → halts (.vgth t vd va gb) 0x03)

/-- R128, R147, R160, R162: WLD, ASTR and ADRN with no reserved ctl value, on a tile that may issue array instructions and whose array
queue is not full, join the queue with the values of their registers and change nothing else but the PC and the loop counters; on a
full queue the issue waits and nothing changes. AFENCE goes on when the array is idle and waits while it is not. A reserved value
halts with cause 0x01, a tile of a fused brood other than the lead with cause 0x15; the halts are stated where the halt ends no job of the
sequencer. -/
def Obligations.ArrayInstructionsQueue : Prop :=
  ∀ (s : State) (t : BitVec 11) (ga gb gc : BitVec 5) (ctl : BitVec 10), s.runs t.toNat →
    let x := s.tile t.toNat
    let fmtBad := fun (f : Nat) => f = 7 ∨ 0x14 ≤ f
    let queues := fun (c : Instr) (kind : Nat) (reserved : Prop) =>
      (¬ reserved → s.notLead t.toNat = false → x.q.length < 8 → s.follows t.toNat → Gives c s (fun u => TileOnly s u t.toNat ∧
        u.tile t.toNat = { s.moved t.toNat with
          q := x.q ++ [{ kind := kind, a := BitVec.ofNat 32 (s.g t.toNat ga.toNat), b := BitVec.ofNat 32 (s.g t.toNat gb.toNat),
                         c := BitVec.ofNat 32 (s.g t.toNat gc.toNat), ctl := ctl, pc := x.pc, ord := x.ord }],
          ord := if kind = 0 then x.ord else x.ord + 1 })) ∧
      (x.q.length = 8 → exec c s = .next s) ∧
      (reserved → x.q.length < 8 → s.haltsAlone t.toNat = true → Gives c s (fun u => Halted s u t.toNat 0x01)) ∧
      (¬ reserved → s.notLead t.toNat = true → x.q.length < 8 → s.haltsAlone t.toNat = true →
        Gives c s (fun u => Halted s u t.toNat 0x15))
    queues (.wld t ga gb gc ctl) 0 (ctl.toNat % 4 ≠ 0 ∨ fmtBad (ctl.toNat / 16 % 32)) ∧
    queues (.astr t ga gb gc ctl) 1 (5 < ctl.toNat / 64 % 8 ∨ fmtBad (ctl.toNat % 32)) ∧
    queues (.adrn t ga gb gc ctl) 2 (ctl.toNat / 32 % 8 ≠ 0) ∧
    (s.notLead t.toNat = false → x.arrIdle = true → s.follows t.toNat →
      Gives (.afence t) s (fun u => TileOnly s u t.toNat ∧ u.tile t.toNat = s.moved t.toNat)) ∧
    (s.notLead t.toNat = false → x.arrIdle = false → exec (.afence t) s = .next s) ∧
    (s.notLead t.toNat = true → s.haltsAlone t.toNat = true → Gives (.afence t) s (fun u => Halted s u t.toNat 0x15))

/-- R163, R164, R166, R167: DMA with a legal, readable descriptor joins the DMA queue and goes on; MSG with legal operands whose
destination is in the job's declared tile set joins the port's queue; a MSG outside the set is dropped, counted in NOC_VIOL.OUT_OF_SET, and
goes on; MFENCE goes on when the port's queue is empty. A full queue, or messages still queued at MFENCE, make the issue wait and nothing
changes. A malformed descriptor halts with cause 0x09, malformed message operands with cause 0x0A. Halts are stated where
the halt ends no job of the sequencer, and that nothing outside the tile changes for a tile with no job, which has no mesh budget. -/
def Obligations.DmaAndMessageIssue : Prop :=
  ∀ (s : State) (t : BitVec 11) (ga gb gc : BitVec 5) (ctl : BitVec 10), s.runs t.toNat →
    let x := s.tile t.toNat
    let a := s.g t.toNat ga.toNat
    let b := s.g t.toNat gb.toNat
    let c := s.g t.toNat gc.toNat
    let joins := fun (u : State) (y : TileState) => u.tile t.toNat = y ∧ (∀ k, k ≠ t.toNat → u.tile k = s.tile k) ∧ SameMemory s u ∧
      (s.jobOf t.toNat = none → TileOnly s u t.toNat)
    let n := ctl.toNat % 32 + 1
    let chip := b / 2 ^ 30
    let tile := b / 2 ^ 16 % 2 ^ 11
    let off := b % 2 ^ 16
    let legal := a % 32 = 0 ∧ a + 32 * n ≤ 0x10000 ∧ chip < x.job.chips ∧ b / 2 ^ 27 % 8 = 0 ∧ off % 32 = 0 ∧
      off + 32 * n ≤ 0x10000 ∧ (objRef c).isSome
    let inSet := tile ∈ s.tileSet t.toNat ∧ (chip = x.job.chip ∨ x.job.single = false)
    (∀ q, a % 32 = 0 → a + 32 ≤ 0x10000 → s.sramErrs (tileAddr t.toNat a) 32 = [] →
      dmaParse t.toNat x.pc (s.peekN (tileAddr t.toNat a) 32) = some q → x.dma.length < 4 → s.follows t.toNat →
      Gives (.dma t ga) s (fun u => joins u { s.moved t.toNat with dma := x.dma ++ [{ q with since := s.tick }] })) ∧
    ((a % 32 ≠ 0 ∨ 0x10000 < a + 32) → s.haltsAlone t.toNat = true → x.dma.length < 4 → Gives (.dma t ga) s (fun u => Halted s u t.toNat 0x09)) ∧
    (a % 32 = 0 → a + 32 ≤ 0x10000 → s.sramErrs (tileAddr t.toNat a) 32 = [] →
      dmaParse t.toNat x.pc (s.peekN (tileAddr t.toNat a) 32) = none → s.haltsAlone t.toNat = true → x.dma.length < 4 →
      Gives (.dma t ga) s (fun u => Halted s u t.toNat 0x09)) ∧
    (x.dma.length = 4 → exec (.dma t ga) s = .next s) ∧
    (legal → inSet → x.msgs.length < 4 → s.follows t.toNat →
      Gives (.msg t ga gb gc ctl) s (fun u => joins u { s.moved t.toNat with
        msgs := x.msgs ++ [{ src := a, chip := chip, tile := tile, dst := off, spec := BitVec.ofNat 32 c, add := ctl.toNat / 32,
                             units := n, pc := x.pc }] })) ∧
    (legal → ¬ inSet → x.msgs.length < 4 → s.follows t.toNat →
      Gives (.msg t ga gb gc ctl) s (fun u => u.tile t.toNat = s.moved t.toNat ∧
        Counted s u F.NOC_VIOL_OUT_OF_SET 0 1)) ∧
    (¬ legal → s.haltsAlone t.toNat = true → x.msgs.length < 4 → Gives (.msg t ga gb gc ctl) s (fun u => Halted s u t.toNat 0x0A)) ∧
    (x.msgs.length = 4 → exec (.msg t ga gb gc ctl) s = .next s) ∧
    (x.msgs = [] → s.follows t.toNat → Gives (.mfence t) s (fun u => TileOnly s u t.toNat ∧ u.tile t.toNat = s.moved t.toNat)) ∧
    (x.msgs ≠ [] → exec (.mfence t) s = .next s)

/-- R168, R169, R196, R197, R200, R201: on a local counter, SADD and SADDI add and saturate, SRD reads, SRST clears, and SWAIT goes
on once the counter has reached its value and waits before; on an object of the stage's plan, SADD and SADDI send their add and go on,
SWAIT, SRD, SARV and SBWAIT send their operation and stall. A specifier that names nothing, or the wrong kind of object, halts with
cause 0x0B, stated where the halt ends no job of the sequencer. -/
def Obligations.SynchronisationInstructions : Prop :=
  ∀ (s : State) (t : BitVec 11) (ga gb gd : BitVec 5) (ctl : BitVec 10), s.runs t.toNat →
    let x := s.tile t.toNat
    let o := objRef (s.g t.toNat ga.toNat)
    let v := s.g t.toNat gb.toNat
    let full := fun (n : Nat) => min n (2 ^ 32 - 1)
    let adds := fun (c : Instr) (v : Nat) =>
      (∀ k, o = some (.loc k) → s.follows t.toNat → Gives c s (fun u =>
        (u.lobj t.toNat k).toNat = full ((s.lobj t.toNat k).toNat + v) ∧ (∀ j, j ≠ k → u.lobj t.toNat j = s.lobj t.toNat j) ∧
        u.g t.toNat = s.g t.toNat ∧ (u.tile t.toNat).pc = s.nextPc t.toNat ∧ ∀ j, j ≠ t.toNat → u.tile j = s.tile j)) ∧
      (∀ k e, o = some (.glob k) → s.planGlob t.toNat k = some e → e.barrier = false → s.follows t.toNat → Gives c s (fun u =>
        u.mesh.ops = s.mesh.ops ++ [{ tile := t.toNat, kind := 0, obj := k, val := BitVec.ofNat 32 v, sentAt := s.tick, job := x.job.job, part := x.job.part }] ∧
        u.tile t.toNat = s.moved t.toNat)) ∧
      ((o = none ∨ ∃ k, o = some (.glob k) ∧ ∀ e, s.planGlob t.toNat k = some e → e.barrier = true) → s.haltsAlone t.toNat = true →
        Gives c s (fun u => Halted s u t.toNat 0x0B))
    let stalls := fun (c : Instr) (kind : Nat) (val : BitVec 32) (gd : Nat) (barrier : Option Bool) =>
      ∀ k e, o = some (.glob k) → s.planGlob t.toNat k = some e → (∀ b, barrier = some b → e.barrier = b) → Gives c s (fun u =>
        u.mesh.ops = s.mesh.ops ++ [{ tile := t.toNat, kind := kind, obj := k, val := val, gd := gd, sentAt := s.tick, job := x.job.job, part := x.job.part }] ∧
        u.tile t.toNat = { x with blocked := some { kind := kind, obj := k, val := val, gd := gd, pc := x.pc } })
    adds (.sadd t ga gb) v ∧ adds (.saddi t ga ctl) ctl.toNat ∧
    stalls (.swait t ga gb) 3 (BitVec.ofNat 32 v) 0 (some false) ∧ stalls (.srd t gd ga) 1 0#32 gd.toNat none ∧
    stalls (.sarv t gd ga) 2 0#32 gd.toNat (some true) ∧ stalls (.sbwait t ga gb) 4 (BitVec.ofNat 32 (v % 65536)) 0 (some true) ∧
    (∀ k, o = some (.loc k) → v ≤ (s.lobj t.toNat k).toNat → s.follows t.toNat →
      Gives (.swait t ga gb) s (fun u => TileOnly s u t.toNat ∧ u.tile t.toNat = s.moved t.toNat)) ∧
    (∀ k, o = some (.loc k) → (s.lobj t.toNat k).toNat < v → exec (.swait t ga gb) s = .next s) ∧
    (∀ k, o = some (.loc k) → s.follows t.toNat →
      Gives (.srd t gd ga) s (fun u => WroteG s u t.toNat gd.toNat (s.lobj t.toNat k)) ∧
      Gives (.srst t ga) s (fun u => u.lobj t.toNat k = 0#32 ∧ (∀ j, j ≠ k → u.lobj t.toNat j = s.lobj t.toNat j) ∧
        u.g t.toNat = s.g t.toNat ∧ (u.tile t.toNat).pc = s.nextPc t.toNat ∧ TileOnly s u t.toNat)) ∧
    (∀ k, o = some (.loc k) → s.haltsAlone t.toNat = true → Gives (.sarv t gd ga) s (fun u => Halted s u t.toNat 0x0B) ∧
      Gives (.sbwait t ga gb) s (fun u => Halted s u t.toNat 0x0B)) ∧
    (∀ k, o = some (.glob k) → s.haltsAlone t.toNat = true → Gives (.srst t ga) s (fun u => Halted s u t.toNat 0x0B))

/-- R92 to R95, R98 to R104, R138, R160: on a tile of an unfused brood the operation at the head of the array queue starts when the
array can take it. A weight load starts in the present array cycle and gives its bank the new header, its masks among it; a stream or a
drain becomes the one that runs. Malformed operands halt with cause 0x11, a format or operation of another class with 0x10, an unloaded bank with
0x12, a malformed drain descriptor with 0x13, an unchecked distance operation outside a QM stage with 0x14, an accumulator row out of
range with 0x16. Stated where a halt ends no job of the sequencer and with no SRAM error. -/
def Obligations.ArrayOperationsStart : Prop :=
  ∀ (s : State) (t : BitVec 11) (o : ArrOp) (r : List ArrOp), s.fused (tileBrood t.toNat) = false → s.haltsAlone t.toNat = true →
    s.mem.sram = [] → (s.tile t.toNat).q = o :: r → (s.tile t.toNat).canStart o = true →
    let x := s.tile t.toNat
    let a := o.a.toNat
    let b := o.b.toNat
    let c := o.c.toNat
    let ctl := o.ctl.toNat
    let starts := fun (P : State → Prop) => Gives (.arrayOpStart t) s P
    let halts := fun (cause : Nat) => starts (fun u => HaltedAt s u t.toNat o.pc cause)
    let bank := ctl / 512
    let fmt := ctl / 16 % 32
    let dual := ctl / 8 % 2 = 1
    let dist := ctl / 4 % 2 = 1
    let wfmt := ¬ (dual ∧ ¬ dist) ∧ weightFmt (decide dist) fmt = true
    let fits := a % 32 = 0 ∧ a + blockBytes fmt (decide dist) (decide dual) ≤ 0x10000
    let stride := b / 2 ^ 16
    let count := b % 1024
    let hi := c / 2 ^ 16
    let row := c % 512
    let op := ctl / 64 % 8
    let load : LoadOp := { start := x.cyc, bank := bank, fmt := fmt, dist := decide dist, dual := decide dual, src := a, masks := [(b, c)],
                           pc := o.pc }
    let afmt := ctl % 32
    let bk := x.bank bank
    let sok := a % 16 = 0 ∧ stride % 16 = 0 ∧ b / 1024 % 64 = 0 ∧ c / 512 % 128 = 0 ∧ 1 ≤ count ∧ count ≤ 512 ∧
      a + (count - 1) * stride + vecBytes afmt ≤ 0x10000 ∧ (isMx afmt = true → hi + count ≤ 0x10000)
    let qmOk := bk.dist = true → bk.dual = false → x.job.qm = true
    let dok := a % 32 = 0 ∧ a < 0x10000 ∧ stride % 32 = 0 ∧ b / 1024 % 64 = 0 ∧ c / 512 % 128 = 0 ∧ 1 ≤ count ∧ count ≤ 512 ∧
      hi % 32 = 0 ∧ hi + 32 ≤ 0x10000
    let dbytes := s.peekN (tileAddr t.toNat hi) (descSize (s.peekN (tileAddr t.toNat hi) 32) x.drainCols)
    (o.kind = 0 → ¬ wfmt → halts 0x10) ∧ (o.kind = 0 → wfmt → ¬ fits → halts 0x11) ∧
    (o.kind = 0 → wfmt → fits → starts (fun u =>
      TileOnly s u t.toNat ∧ (u.tile t.toNat).q = r ∧ (u.tile t.toNat).loads = x.loads ++ [load] ∧ (u.tile t.toNat).loadBank = bank ∧
      (u.tile t.toNat).bank bank = { x.bank bank with fmt := fmt, dist := decide dist, dual := decide dual, loaded := true,
                                                      kmask := o.b, nmask := o.c } ∧
      (u.tile t.toNat).bank (1 - bank) = x.bank (1 - bank))) ∧
    (o.kind = 1 → ¬ sok → halts 0x11) ∧ (o.kind = 1 → sok → bk.loaded = false → halts 0x12) ∧
    (o.kind = 1 → sok → bk.loaded = true → bk.accepts op afmt = false → halts 0x10) ∧
    (o.kind = 1 → sok → bk.loaded = true → bk.accepts op afmt = true → ¬ qmOk → halts 0x14) ∧
    (o.kind = 1 → sok → bk.loaded = true → bk.accepts op afmt = true → qmOk → 0x8000 / bk.rowBytes < row + count → halts 0x16) ∧
    (o.kind = 1 → sok → bk.loaded = true → bk.accepts op afmt = true → qmOk → row + count ≤ 0x8000 / bk.rowBytes → starts (fun u =>
      (u.tile t.toNat).q = r ∧ SameMemory s u ∧
      (u.tile t.toNat).stream = some { src := a, stride := stride, count := count, scale := hi, row := row, bank := bank, op := op,
                                       add := ctl / 32 % 2 == 1, afmt := afmt, pc := o.pc, ord := o.ord })) ∧
    (o.kind = 2 → ¬ dok → halts 0x11) ∧
    (o.kind = 2 → dok → 0x8000 / x.drainRow < row + count → halts 0x16) ∧
    (o.kind = 2 → dok → row + count ≤ 0x8000 / x.drainRow → hi + descSize (s.peekN (tileAddr t.toNat hi) 32) x.drainCols ≤ 0x10000 →
      descOk x.drainFp x.drainCols dbytes = false → halts 0x13) ∧
    (o.kind = 2 → dok → row + count ≤ 0x8000 / x.drainRow → hi + descSize (s.peekN (tileAddr t.toNat hi) 32) x.drainCols ≤ 0x10000 →
      descOk x.drainFp x.drainCols dbytes = true →
      a + (count - 1) * stride + outRow (fieldAt dbytes 0 1) x.drainCols ≤ 0x10000 → starts (fun u =>
        TileOnly s u t.toNat ∧ (u.tile t.toNat).q = r ∧
        ∃ d, (u.tile t.toNat).drain = some d ∧ d.dst = a ∧ d.stride = stride ∧ d.count = count ∧ d.row = row ∧ d.descs = [dbytes]))

/-- R89 to R91, R96, R98, R120, R134 to R136: a feeder cycle advances the array-cycle counter of its tile by 1. With nothing to stream the
ramp level falls by 1 in the tile's cycle of every 16, and a ballast beat is counted in each cycle that the level allows. With a stream, a
cycle that the level allows and whose bank and rows are ready accepts a beat, counted in ARR_ACTIVE; the last beat of a vector sends it
into the array, and an unready cycle is a counted ballast beat and stall. A weight load writes one row a cycle, each INT8 weight signed
and a masked row 0; a drain reads one row a cycle once the row is settled. Stated for a hosted tile of an unfused brood with no SRAM error;
the beats with no drain in progress, the row read with no row still to be written. -/
def Obligations.FeederCycles : Prop :=
  ∀ (s : State) (t : BitVec 11), s.hosted t.toNat = true → s.fused (tileBrood t.toNat) = false → s.mem.sram = [] →
    let x := s.tile t.toNat
    let phase := (x.cyc + 16 - tileK t.toNat) % 16
    let pending := x.stream.isSome = true ∨ ∃ o ∈ x.q, o.kind = 1
    let level := if phase = 0 then (if pending then min (x.level + 1) 4 else x.level - 1) else x.level
    let allowed := phase % 4 < level
    let runs := fun (P : State → Prop) => Gives (.feederCycle t) s (fun u => (u.tile t.toNat).cyc = x.cyc + 1 ∧
      (u.tile t.toNat).level = level ∧ (∀ k, k ≠ t.toNat → u.tile k = s.tile k) ∧ P u)
    let beats := fun (P : State → Prop) => x.drain = none → runs (fun u => SameMemory s u ∧ P u)
    (x.stream = none → ¬ pending → ¬ allowed → x.flight = [] → x.loads = [] → beats (fun u => u.regs = s.regs)) ∧
    (x.stream = none → ¬ pending → allowed → beats (fun u => Counted s u F.ARR_BALLAST_BEATS t.toNat 1)) ∧
    (x.stream = none → pending → ¬ allowed → beats (fun u => Counted s u F.ARR_STALL_CYCLES t.toNat 1)) ∧
    (x.stream = none → pending → allowed → beats (fun u => Counted s u F.ARR_STALL_CYCLES t.toNat 1 ∧
      Counted s u F.ARR_BALLAST_BEATS t.toNat 1)) ∧
    (∀ st, x.stream = some st → ¬ allowed → beats (fun u => (u.tile t.toNat).stream = some st ∧
      Counted s u F.ARR_STALL_CYCLES t.toNat 1)) ∧
    (∀ st, x.stream = some st → allowed → x.beatReady false st x.cyc = false → beats (fun u => (u.tile t.toNat).stream = some st ∧
      Counted s u F.ARR_STALL_CYCLES t.toNat 1 ∧ Counted s u F.ARR_BALLAST_BEATS t.toNat 1)) ∧
    (∀ st, x.stream = some st → allowed → x.beatReady false st x.cyc = true →
      fmtCls (x.bank st.bank).dist st.afmt = 2 → st.beat = 0 → beats (fun u =>
        (u.tile t.toNat).stream = some { st with beat := 1 } ∧ Counted s u F.ARR_ACTIVE_BEATS t.toNat 1 ∧
        ∃ f l, (u.tile t.toNat).flight = l ++ [f] ∧ l.length = x.flight.length ∧ f.first = x.cyc ∧ f.full = false)) ∧
    (∀ st, x.stream = some st → allowed → x.beatReady false st x.cyc = true →
      (fmtCls (x.bank st.bank).dist st.afmt ≠ 2 ∧ st.beat = 0 ∨ fmtCls (x.bank st.bank).dist st.afmt = 2 ∧ st.beat = 1) → beats (fun u =>
        Counted s u F.ARR_ACTIVE_BEATS t.toNat 1 ∧
        (u.tile t.toNat).stream = (if st.next + 1 = st.count then none else some { st with next := st.next + 1, beat := 0 }))) ∧
    (∀ st, x.stream = some st → allowed → x.beatReady false st x.cyc = true → fmtCls (x.bank st.bank).dist st.afmt ≠ 2 → st.beat = 0 →
      beats (fun u => ∃ f l, (u.tile t.toNat).flight = l ++ [f] ∧ l.length = x.flight.length ∧ f.first = x.cyc ∧ f.cyc = x.cyc ∧
        f.full = true ∧ f.row = st.row + st.next ∧ f.vec = st.next ∧ f.src = st.src + st.next * st.stride)) ∧
    (∀ o, x.loads = [o] → o.start ≤ x.cyc → x.cyc < o.start + 32 → x.flight = [] → o.fmt = 1 → o.dist = false → o.dual = false →
      o.bank < 2 → o.masks.length = 1 → beats (fun u =>
        let i := x.cyc - o.start
        ∀ n, n < 32 → ((u.tile t.toNat).bank o.bank).weight i n =
          if (o.masks.getD 0 (0, 0)).1 / 2 ^ i % 2 = 1 then 0 else (s.peek (tileAddr t.toNat (o.src + 32 * i + n))).toInt)) ∧
    (∀ d m, x.drain = some d → x.loads = [] → x.stream = none → x.flight = [] → d.out = [] → d.reads = [m] → m < d.count →
      d.readFrom ≤ x.cyc → runs (fun u =>
        (u.tile t.toNat).drain = some { d with
          reads := [m + 1]
          out := [{ row := m, cyc := x.cyc
                    vals := words32 (s.peekN (tileAddr t.toNat (0x10000 + (d.row + m) * d.rowBytes)) (4 * d.cols)) d.cols }] } ∧
        SameMemory s u))

/-- R97, R101, R115, R120, R162, R494, R499: 67 array cycles after it entered, a vector of an unfused tile is accumulated into its
accumulator row; 70 cycles after it entered, its check leaves the array with nothing raised where prediction and copies agree; a
disagreement on a tile hosted on a QM slot raises 0x2004. The last row of a drain is written five cycles after its read; the end frees the
drain and adds 1 to its object. VECTOR_ACCUMULATE, RESIDUE_COMPARE and DRAIN_END
complete, and each changes nothing before its cycle. Stated for a tile with no job of the sequencer and no SRAM error;
the accumulate for an unmasked vector that overwrites, with no hardware error. -/
def Obligations.ArrayResults : Prop :=
  ∀ (s : State) (t : BitVec 11) (shadow : Bool) (err : BitVec 12), s.fused (tileBrood t.toNat) = false →
    s.jobOf t.toNat = none → s.mem.sram = [] →
    let x := s.tile t.toNat
    (∀ f l, x.nextAcc 0 = some f →
      ((x.cyc < f.cyc + 67 ∨ f.full = false) → exec (.vectorAccumulate t l shadow) s = .next s) ∧
      (f.full = true → f.cyc + 67 ≤ x.cyc → f.add = false → f.dual = false → f.stop = false → (f.bankOn 0).nmask = 0#32 →
        f.row * f.rowBytes + 4 * f.cols ≤ 0x8000 → Gives (.vectorAccumulate t [] false) s (fun u =>
        let a := tileAddr t.toNat (0x10000 + f.row * f.rowBytes)
        (∀ n, n < f.cols → leNat (u.peekN (a + 4 * n) 4) = (accCol f.fp f.op false 0 ((f.sumsOn 0).getD n 0)
          ((f.chunk 0).2 + FMap.get 0 (f.bankOn 0).colExp n)).1 % 2 ^ 32) ∧
        (∀ k, (k < a ∨ a + 4 * f.cols ≤ k) → u.peek k = s.peek k) ∧ (∀ k, k ≠ t.toNat → u.tile k = s.tile k)))) ∧
    (x.nextAcc 0 = none → exec (.vectorAccumulate t [] shadow) s = .next s) ∧
    (∀ f r y, x.flight = f :: r → f.accOn 0 = some y → y.compared = false →
      let p := (f.predOn 0 + err.toNat) % 4095
      (x.cyc < f.cyc + 70 → exec (.residueCompare t err) s = .next s) ∧
      (f.cyc + 70 ≤ x.cyc → f.verdict 0 y p = 0 →
        Gives (.residueCompare t err) s (fun u => TileOnly s u t.toNat ∧ u.tile t.toNat = { x with flight := r })) ∧
      (f.cyc + 70 ≤ x.cyc → f.verdict 0 y p ≠ 0 →
        s.slotState (tileBrood t.toNat) (s.slotOf (tileBrood t.toNat) (tileK t.toNat)) = 1 →
        Gives (.residueCompare t err) s (fun u => (u.tile t.toNat).flight = r ∧
          Presented s u (tileBrood t.toNat) 0x2004 t.toNat))) ∧
    (x.drain = none → exec (.drainEnd t shadow) s = .next s) ∧
    (∀ d e q, x.drain = some d → d.out = [e] → d.reads = [d.count] → d.descs = [q] → e.holder = 0 →
      (x.cyc < e.cyc + 5 → exec (.drainEnd t shadow) s = .next s) ∧
      (e.cyc + 5 ≤ x.cyc → Gives (.drainEnd t false) s (fun u => (u.tile t.toNat).drain = none ∧
        (∀ o, d.sig = some o → (u.lobj t.toNat o).toNat = min ((s.lobj t.toNat o).toNat + 1) (2 ^ 32 - 1)) ∧
        (d.dst + e.row * d.stride + d.cols * 4 ≤ 0x10000 → (d.row + e.row + 1) * d.rowBytes ≤ 0x8000 →
          ∀ a, (a < tileAddr t.toNat 0 ∨ tileAddr t.toNat 0x18000 ≤ a) → u.peek a = s.peek a) ∧
        (d.zero = false → d.rowBytes ≠ 256 → fieldAt q 0 1 = 1 → d.fp = false → fieldAt q 16 4 = 0 → e.vals.length = d.cols →
          ∀ n, n < d.cols → (u.peek (tileAddr t.toNat (d.dst + e.row * d.stride + n))).toNat =
            (drainVal d.fp 1 (fieldAt q 1 1 % 4) (fieldAt q 4 4) (fieldAt q 8 4) (fieldAt q 12 4) (descEntry q n) (e.vals.getD n 0)).1 % 256))))

/-- R189, R191, R194: the head of a message port's queue is read from data memory into the retransmit buffer and sent, with the header
flit and codes of R189 and R190; behind an unacknowledged message to the same tile it waits. An ACK ends the message; a NACK resends it
and counts NOC_RETX, the third NACK abandons it with 0x3002, a REJECT with 0x3004 and an acknowledgement timeout with 0x3003, each counted
and marking the source part failed. A message to another chip whose port carries no traffic is lost. Abandoning is stated for a source
part that has not finished. -/
def Obligations.MessagesAreSentAndAnswered : Prop :=
  ∀ (s : State) (t : BitVec 11) (dst : BitVec 13),
    let x := s.tile t.toNat
    let live := ∀ p, (s.job? x.job.job).bind (fun j => j.part? t.toNat) = some p → p.status ≠ 1
    let m? := s.msg? t.toNat (dstChip dst) (dstTile dst)
    let gone := fun (u : State) (m : Msg) => ∃ l r, s.mesh.msgs = l ++ m :: r ∧ u.mesh.msgs = l ++ r
    let abandons := fun (c : Instr) (code : Nat) (fld : Fld) => ∀ m, m? = some m → live → Gives c s (fun u => gone u m ∧
      Counted s u fld 0 1 ∧ Presented s u (tileBrood t.toNat) code t.toNat ∧ (u.tile t.toNat).err = true ∧
      ∀ j, s.jobOf t.toNat = some j → m.job = x.job.job → (j.part? t.toNat).isSome = true → (u.tile t.toNat).job.failed = true)
    (∀ m r, x.msgs = m :: r → (∀ q ∈ s.mesh.msgs, ¬ (q.src = t.toNat ∧ q.chip = m.chip ∧ q.dst = m.tile)) →
      s.heldBytes t.toNat + 32 * m.units ≤ 4096 → s.sramErrs (tileAddr t.toNat m.src) (32 * m.units) = [] →
      Gives (.msgSend t) s (fun u => (u.tile t.toNat).msgs = r ∧ (∀ k, k ≠ t.toNat → u.tile k = s.tile k) ∧ SameMemory s u ∧
        ∃ q, u.mesh.msgs = s.mesh.msgs ++ [q] ∧ q.src = t.toNat ∧ q.chip = m.chip ∧ q.dst = m.tile ∧ q.sends = 1 ∧
          q.phase = (if m.chip = x.job.chip ∨ ∃ p ∈ s.portTo m.chip t.toNat m.tile, s.carries p = true then 0 else 5) ∧
          q.sentAt = s.tick ∧ q.job = x.job.job ∧ q.part = x.job.part ∧
          q.bytes = msgBytes x.job.chip t.toNat m x.job.stage (s.epochOf t.toNat) (s.peekN (tileAddr t.toNat m.src) (32 * m.units)))) ∧
    (∀ m r, x.msgs = m :: r → (∃ q ∈ s.mesh.msgs, q.src = t.toNat ∧ q.chip = m.chip ∧ q.dst = m.tile) →
      exec (.msgSend t) s = .next s) ∧
    (∀ m, m? = some m → s.answered m 1 = true → Gives (.msgAck t dst) s (fun u => gone u m ∧ u.swarm = s.swarm ∧
      u.regs = s.regs ∧ u.mem = s.mem)) ∧
    (∀ m, m? = some m → s.answered m 2 = true → m.sends < 3 → Gives (.msgNack t dst) s (fun u =>
      Counted s u F.NOC_RETX_COUNT 0 1 ∧ u.swarm = s.swarm ∧ u.msg? t.toNat (dstChip dst) (dstTile dst) =
        some { m with sends := m.sends + 1, nacks := m.nacks + 1, phase := 0, sentAt := s.tick })) ∧
    (∀ m, m? = some m → s.answered m 2 = true → 3 ≤ m.sends → abandons (.msgNack t dst) 0x3002 F.NOC_FAIL_CRC_FAIL) ∧
    (∀ m, m? = some m → s.answered m 3 = true → abandons (.msgReject t dst) 0x3004 F.NOC_FAIL_REJECT) ∧
    (∀ m, m? = some m → 4 * max 16 (s.rd (if m.chip = s.cfg.chip then F.NOC_ACK_TMO_LOCAL else F.NOC_ACK_TMO_CROSS)) ≤
      3 * (s.tick - m.sentAt) → abandons (.msgAckTimeout t dst) 0x3003 F.NOC_FAIL_ACK_TMO) ∧
    (m? = none → exec (.msgAck t dst) s = .next s ∧ exec (.msgNack t dst) s = .next s ∧ exec (.msgReject t dst) s = .next s ∧
      exec (.msgAckTimeout t dst) s = .next s)

/-- R192, R193: a message whose header check fails is discarded; one for no job in progress is answered with REJECT, raises 0x3004 and
writes nothing; one whose CRC fails raises 0x3001 and is answered with NACK; a clean one writes its payload at OFFSET, then adds to its
local object, and is answered with ACK. A packet of a
chip link arrives only over a port that is up, at the chip and tile it is addressed to. A correctable error in a router buffer that a
packet passes is counted and raises 0x3006; an uncorrectable one raises 0x3007, and a message that it hits is discarded.
Stated for a destination tile that is hosted and not being moved. -/
def Obligations.MessagesLand : Prop :=
  ∀ (s : State) (src dst : BitVec 11) (err : List Byte) (m : Msg), s.hosted dst.toNat = true → s.moving dst.toNat = false →
    s.msg? src.toNat s.cfg.chip dst.toNat = some m → m.phase = 0 →
    let b := xorBytes m.bytes err
    let n := 32 * (fieldAt b 6 1 % 32 + 1)
    let payload := bytesAt b 32 n
    let hok := fieldAt b 26 2 = crc16 (bytesAt b 0 26)
    let cok := fieldAt b 28 4 = crc32c (bytesAt b 0 28 ++ payload)
    let here := s.inProgress dst.toNat (fieldAt b 12 1) (fieldAt b 13 1) = true
    let at' := tileAddr dst.toNat (fieldAt b 4 2)
    let lands := fun (phase : Nat) (P : State → Prop) => Gives (.msgArrive src dst none err) s (fun u =>
      u.msg? src.toNat s.cfg.chip dst.toNat = some { m with phase := phase } ∧ P u)
    (¬ hok → lands 5 (fun u => u.swarm = s.swarm ∧ u.mem = s.mem ∧ u.cara = s.cara)) ∧
    (hok → ¬ here → lands 3 (fun u => Presented s u (tileBrood dst.toNat) 0x3004 dst.toNat ∧ u.mem = s.mem)) ∧
    (hok → here → ¬ cok → s.mem.sram = [] → lands 2 (fun u => Presented s u (tileBrood dst.toNat) 0x3001 dst.toNat ∧
      (u.tile dst.toNat).obj = (s.tile dst.toNat).obj)) ∧
    (hok → here → cok → s.mem.sram = [] → fieldAt b 7 1 % 32 = 0 → lands 1 (fun u => u.cara = s.cara ∧ u.swarm = s.swarm ∧
      (∀ i, i < n → u.peek (at' + i) = payload.getD i 0#8) ∧ ∀ a, (a < at' ∨ at' + n ≤ a) → u.peek a = s.peek a)) ∧
    (∀ o, hok → here → cok → s.mem.sram = [] → fieldAt b 7 1 % 32 ≠ 0 → objRef (fieldAt b 8 4) = some (.loc o) →
      lands 1 (fun u => (∀ i, i < n → u.peek (at' + i) = payload.getD i 0#8) ∧
        (u.lobj dst.toNat o).toNat = min ((s.lobj dst.toNat o).toNat + fieldAt b 7 1 % 32) (2 ^ 32 - 1))) ∧
    (∀ (p : BitVec 2) l, (s.link p.toNat ≠ 4 ∨ fieldAt l 0 2 ≠ s.cfg.chip * 16384 + dst.toNat) →
      exec (.msgArrive src dst (some (p, l)) err) s = .next s) ∧
    (∀ (x : BitVec 6) (y : BitVec 5) (k : MeshPkt),
      let passes := y.toNat < s.nRows ∧ (x.toNat, y.toNat) ∈ s.route (s.ends k).1 (s.ends k).2
      (¬ passes → ∀ v, exec (.routerBufferError x y v k) s = .next s) ∧
      (passes → s.onWay k = true → Gives (.routerBufferError x y false k) s (fun u => Counted s u F.NOC_ECC_CORR 0 1 ∧ u.mesh = s.mesh ∧
        Presented s u (136 + y.toNat / 4) 0x3006 (pktUnit k))) ∧
      (passes → s.onWay k = true → Gives (.routerBufferError x y true k) s (fun u => Counted s u F.NOC_ECC_UNCORR 0 1 ∧
        Presented s u (136 + y.toNat / 4) 0x3007 (pktUnit k) ∧
        ∀ a d, k = .msg a d → u.msg? a.toNat (dstChip d) (dstTile d) =
          (s.msg? a.toNat (dstChip d) (dstTile d)).map (fun m => { m with phase := 5 }))))

/-- R196 to R201: the brood controller applies the oldest operation of a tile that has reached it. An add saturates and is answered;
SRD is answered with the value; SARV is answered with the phase and, as the last arrival of a barrier, starts the next phase; a wait
enters the wait table, to be woken at once where its condition holds, or is told to retry when the 64 entries are used. A damaged
operation is discarded with 0x3005. The answer writes gd and lets the tile go on; a retry is resent 32 array cycles after it arrived and
counted; an operation with no answer in time completes without effect and marks the part, if it has not finished, failed. -/
def Obligations.SynchronisationOperations : Prop :=
  ∀ (s : State) (t : BitVec 11) (b : BitVec 7) (o : SyncOp) (r : List SyncOp), s.mesh.ops = o :: r → o.tile = t.toNat →
    o.msgSrc = none → o.obj / 512 = b.toNat →
    let v := (s.gobj o.obj).toNat
    let live := ∀ p, (s.job? (s.tile t.toNat).job.job).bind (fun j => j.part? t.toNat) = some p → p.status ≠ 1
    let failed := fun (u : State) => ∀ j, s.jobOf t.toNat = some j → o.job = (s.tile t.toNat).job.job →
      (j.part? t.toNat).isSome = true → (u.tile t.toNat).job.failed = true
    let head := fun (u : State) (q : SyncOp) => ∃ l, u.mesh.ops = q :: l ∧ l.length = r.length
    let applies := fun (q : SyncOp) (P : State → Prop) => Gives (.syncOpApply ⟨t, b⟩ false) s (fun u => head u q ∧ P u)
    let holds := (o.kind = 3 ∧ o.val.toNat ≤ v) ∨ (o.kind = 4 ∧ v / 65536 ≠ o.val.toNat % 65536)
    let p := FMap.get 0 s.swarm.gbar o.obj
    let due := 4 * max 16 (s.rd F.NOC_ACK_TMO_LOCAL) ≤ 3 * (s.tick - o.sentAt)
    (o.phase = 0 → o.kind = 0 → p = 0 → applies { o with phase := 1 } (fun u =>
      (u.gobj o.obj).toNat = min (v + o.val.toNat) (2 ^ 32 - 1) ∧ ∀ k, k ≠ o.obj → u.gobj k = s.gobj k)) ∧
    (o.phase = 0 → o.kind = 1 → applies { o with phase := 1, ans := s.gobj o.obj } (fun u => u.swarm = s.swarm)) ∧
    (o.phase = 0 → o.kind = 2 → v % 4096 + 1 < p → p ≤ 2048 → v / 4096 % 16 = 0 →
      applies { o with phase := 1, ans := BitVec.ofNat 32 (v / 65536) } (fun u => (u.gobj o.obj).toNat = v + 1)) ∧
    (o.phase = 0 → o.kind = 2 → v % 4096 + 1 = p → p ≤ 2048 →
      applies { o with phase := 1, ans := BitVec.ofNat 32 (v / 65536) } (fun u =>
        (u.gobj o.obj).toNat = (v / 65536 + 1) % 65536 * 65536)) ∧
    (o.phase = 0 → (o.kind = 3 ∨ o.kind = 4) → holds → s.tableUsed (o.obj / 512) < 64 → applies { o with phase := 4 } (fun u => u.swarm = s.swarm)) ∧
    (o.phase = 0 → (o.kind = 3 ∨ o.kind = 4) → ¬ holds → s.tableUsed (o.obj / 512) < 64 → applies { o with phase := 3 } (fun u =>
      u.swarm = s.swarm)) ∧
    (o.phase = 0 → (o.kind = 3 ∨ o.kind = 4) → 64 ≤ s.tableUsed (o.obj / 512) → applies { o with phase := 2 } (fun u =>
      u.swarm = s.swarm ∧ u.regs = s.regs)) ∧
    (o.phase = 0 → Gives (.syncOpApply ⟨t, b⟩ true) s (fun u => head u { o with phase := 5 } ∧ u.swarm = s.swarm ∧
      Counted s u F.NOC_FAIL_SYNC_CHK 0 1 ∧ Presented s u (o.obj / 512) 0x3005 t.toNat)) ∧
    (o.phase = 1 → (o.kind = 1 ∨ o.kind = 2) → s.follows t.toNat → (s.tile t.toNat).blocked.isSome = true →
      Gives (.syncOpResponse ⟨t, b⟩) s (fun u => u.mesh.ops = r ∧ (u.tile t.toNat).blocked = none ∧
        u.g t.toNat o.gd = (if o.gd = 0 then 0 else o.ans.toNat) ∧ (u.tile t.toNat).pc = s.nextPc t.toNat)) ∧
    (o.phase = 4 → (o.kind = 3 ∨ o.kind = 4) → s.follows t.toNat → (s.tile t.toNat).blocked.isSome = true →
      Gives (.syncOpResponse ⟨t, b⟩) s (fun u => u.mesh.ops = r ∧ (u.tile t.toNat).blocked = none ∧
        u.g t.toNat = s.g t.toNat ∧ (u.tile t.toNat).pc = s.nextPc t.toNat)) ∧
    (o.phase = 2 → Gives (.syncOpResponse ⟨t, b⟩) s (fun u => u.mesh.ops = { o with phase := 7, sentAt := s.tick } :: r ∧ u.swarm = s.swarm ∧
      u.regs = s.regs)) ∧
    (o.phase = 3 → o.told = false → Gives (.syncOpResponse ⟨t, b⟩) s (fun u => u.mesh.ops = { o with told := true } :: r ∧
      u.swarm = s.swarm ∧ u.regs = s.regs)) ∧
    (o.phase = 7 → 3 * (s.tick - o.sentAt) < 16 → (∀ q ∈ r, q.tile ≠ t.toNat) → exec (.syncWaitRetry t) s = .next s) ∧
    (o.phase = 7 → 16 ≤ 3 * (s.tick - o.sentAt) → Gives (.syncWaitRetry t) s (fun u => u.mesh.ops = { o with phase := 0, sentAt := s.tick } :: r ∧
      Counted s u F.SYN_WAITS_RETRY 0 1 ∧ u.swarm = s.swarm)) ∧
    (o.phase = 0 → ¬ due → (∀ q ∈ r, q.tile ≠ t.toNat) → exec (.syncOpTimeout t) s = .next s) ∧
    (o.phase = 0 → due → o.kind = 0 → live → Gives (.syncOpTimeout t) s (fun u => u.mesh.ops = r ∧
      u.gobj o.obj = s.gobj o.obj ∧ failed u)) ∧
    (o.phase = 0 → due → (o.kind = 1 ∨ o.kind = 2) → live → s.follows t.toNat →
      (s.tile t.toNat).blocked.isSome = true → Gives (.syncOpTimeout t) s (fun u => u.mesh.ops = r ∧ u.g t.toNat o.gd = 0 ∧
        (u.tile t.toNat).blocked = none ∧ failed u))

/-- R212, R213, R216, R228: training of a chip-link port. A port that is switched on and disabled begins training at the lock step, once the start has reached step 11, with
every lane taken for good and no session key; lock leaves the widest fully good lane group in use, or takes the port down with 0x3203 when
no lane is good; an identity that agrees leads to authentication, one that does not refuses the peer with 0x3204; the second message of the
exchange brings the port up on a port that does not lead to chip 0, and time alignment brings the others up with chip 0's tick; 36 ms
without the up state refuse the peer; a port that is down trains again after 10 ms. A retrain request while a multi-chip job runs is a violation.
The rest is stated with no multi-chip pipeline loaded; which message of the exchange is the last is the model's reading of R537 (log entry 28). -/
def Obligations.ChipLinkTraining : Prop :=
  (∀ (s : State) (port : BitVec 2), s.multiBusy = true →
    Gives (.chlRetrain port) s (fun u => Counted s u F.HIF_VIOL0_RO_WRITE 0 1 ∧ OnlyRegs s u)) ∧
  (∀ (s : State) (port : BitVec 2), (∀ x ∈ s.sched.pipes, x.desc.multi = false) →
    let p := port.toNat
    let only := fun (u : State) => u.swarm = s.swarm ∧ u.mem = s.mem ∧ u.sched = s.sched ∧ ∀ q, q ≠ p → u.port q = s.port q
    let gives := fun (c : Instr) (st step : Nat) (P : State → Prop) =>
      Gives c s (fun u => u.link p = st ∧ (u.port p).step = step ∧ P u ∧ only u)
    let refuses := fun (c : Instr) => gives c 6 0 (fun u => (u.port p).refused = true ∧ u.rd F.CHL_LANES_IN_USE p = 0 ∧ Counted s u F.CHL_EVENTS_AUTH_FAIL p 1 ∧
      Presented s u (144 + p) 0x3204 p)
    (s.portOn p = true → 11 ≤ s.dev.step → s.link p = 0 → (s.port p).refused = false → (s.port p).out = false →
      gives (.chlTrainStart port) 1 1 (fun u => (u.port p).key = none ∧ (u.port p).t0 = s.tick ∧ u.rd F.CHL_LANES_GOOD p = 0xff ∧
        u.rd F.CHL_STATUS_AUTH p = 0)) ∧
    (∀ good, (s.port p).step = 1 → s.rd F.CHL_LANES_GOOD p &&& good.toNat ≠ 0 → gives (.chlLockEnd port good) 2 3 (fun u =>
      ∃ l, (u.rd F.CHL_STATUS_WIDTH p, l) ∈ laneGroups ∧ u.rd F.CHL_LANES_IN_USE p = l ∧
        (s.rd F.CHL_LANES_GOOD p &&& good.toNat) &&& l = l ∧
        ∀ e ∈ laneGroups, (s.rd F.CHL_LANES_GOOD p &&& good.toNat) &&& e.2 = e.2 → e.1 ≤ u.rd F.CHL_STATUS_WIDTH p)) ∧
    (∀ good, (s.port p).step = 1 → s.rd F.CHL_LANES_GOOD p &&& good.toNat = 0 → gives (.chlLockEnd port good) 7 0 (fun u =>
      Counted s u F.CHL_EVENTS_DOWN p 1 ∧ Presented s u (144 + p) 0x3203 p ∧ (u.port p).retryAt = s.tick + ms 10)) ∧
    (∀ chip chips gx gy maj min dg, (s.port p).step = 3 →
      let agrees := s.cfg.peers.getD p none = some chip.toNat ∧ chips.toNat = s.cfg.chips ∧ gx.toNat = 64 ∧ gy.toNat = s.nRows ∧
        maj.toNat = s.rd F.HIF_IFVER_MAJOR ∧ min.toNat = s.rd F.HIF_IFVER_MINOR ∧ ∀ d, s.setDigest = some d → d = dg
      (agrees → (s.port p).key = none → gives (.chlIdentityReceive port chip chips gx gy ⟨maj, min⟩ dg) 3 4 (fun u =>
        u.rd F.CHL_STATUS_PEER p = chip.toNat)) ∧
      (agrees → (s.port p).key ≠ none → s.towardZero p = false → gives (.chlIdentityReceive port chip chips gx gy ⟨maj, min⟩ dg) 4 0 (fun u =>
        (u.port p).key = (s.port p).key)) ∧
      (¬ agrees → refuses (.chlIdentityReceive port chip chips gx gy ⟨maj, min⟩ dg))) ∧
    ((s.port p).step = 4 → refuses (.chlAuthMessage port false)) ∧
    ((s.port p).step = 4 → (s.port p).auth = 1 → s.towardZero p = false → gives (.chlAuthMessage port true) 4 0 (fun u =>
      u.rd F.CHL_STATUS_AUTH p = 1 ∧ (u.port p).key = some s.tick)) ∧
    ((s.port p).step = 4 → (s.port p).auth = 1 → s.towardZero p = true → Gives (.chlAuthMessage port true) s (fun u =>
      u.rd F.CHL_STATUS_AUTH p = 1 ∧ (u.port p).step = 5)) ∧
    (∀ lat ref, (s.port p).step = 5 → gives (.chlTimeAlign port lat ref) 4 0 (fun u => u.tick = ref.toNat ∧
      u.rd F.CHL_LAT_LATENCY p = lat.toNat ∧ u.rd F.SYNC_IO_STATUS_ALIGNED = 1)) ∧
    ((s.port p).step ≠ 0 → (s.port p).t0 + ms 36 ≤ s.tick → refuses (.chlTrainTimeout port)) ∧
    (s.portOn p = true → s.link p = 7 → (s.port p).out = false → (s.port p).retryAt ≤ s.tick →
      gives (.chlRetryTimer port) 1 1 (fun u => (u.port p).key = none ∧ u.rd F.CHL_LANES_GOOD p = 0xff)) ∧
    (s.multiBusy = false → s.portOn p = true → (s.port p).refused = false → (s.port p).out = false →
      gives (.chlRetrain port) 1 1 (fun u => (u.port p).key = (s.port p).key ∧ u.rd F.CHL_CTRL_RETRAIN p = 1)))

/-- R214, R215, R218: traffic on a port that is up. A block with a bad CRC is replayed, counted and raises 0x3201; one with a bad tag
raises 0x3205 and sends the port back to authentication without its key; a good one changes nothing. A lane fault removes the lane,
counts and raises 0x3202, and retrains on the widest good group that is left; the end of that retraining brings the port up. Time bases
that differ by more than 2 array cycles raise 0x3303 and keep the device out of barriers. Stated with no multi-chip pipeline loaded. -/
def Obligations.ChipLinkTraffic : Prop :=
  ∀ (s : State) (port : BitVec 2), (∀ x ∈ s.sched.pipes, x.desc.multi = false) →
    let p := port.toNat
    let line := 144 + p
    (s.link p = 4 → exec (.chlBlockReceive port true true) s = .next s) ∧
    (∀ tag, s.link p = 4 → Gives (.chlBlockReceive port false tag) s (fun u => Counted s u F.CHL_REPLAY_COUNT p 1 ∧
      Presented s u line 0x3201 p ∧ OnlyRegs s u ∧ u.link p = 4)) ∧
    (s.link p = 4 → Gives (.chlBlockReceive port true false) s (fun u => Counted s u F.CHL_EVENTS_TAG_FAIL p 1 ∧
      Presented s u line 0x3205 p ∧ u.link p = 3 ∧ u.rd F.CHL_STATUS_AUTH p = 0 ∧ (u.port p).key = none ∧ (u.port p).step = 4)) ∧
    (∀ lane, s.link p = 4 → s.rd F.CHL_LANES_GOOD p = 0xff → Gives (.chlLaneFault port lane) s (fun u => u.link p = 5 ∧
      u.rd F.CHL_LANES_GOOD p = 0xff - 2 ^ lane.toNat ∧ u.rd F.CHL_STATUS_WIDTH p = 4 ∧
      u.rd F.CHL_LANES_IN_USE p = (if lane.toNat < 4 then 0xf0 else 0x0f) ∧ Counted s u F.CHL_EVENTS_DEGRADE p 1 ∧
      Presented s u line 0x3202 p ∧ OnlyRegs s u)) ∧
    (s.link p = 5 → Gives (.chlRetrainEnd port) s (fun u => u.link p = 4 ∧ OnlyRegs s u ∧ u.cara = s.cara)) ∧
    (∀ off, s.link p = 4 → s.towardZero p = true → (s.port p).cmpAt + ms 1 ≤ s.tick → s.mesh.sio.barred = false →
      (2 < off.toInt.natAbs → Gives (.timebaseCompare port off) s (fun u => Presented s u 182 0x3303 0 ∧
        u.rd F.SYNC_IO_STATUS_ALIGNED = 0 ∧ u.mesh.sio.barred = true ∧ u.tick = s.tick)) ∧
      (off.toInt.natAbs ≤ 2 → Gives (.timebaseCompare port off) s (fun u => u.cara = s.cara ∧ u.regs = s.regs ∧
        u.mesh.sio = s.mesh.sio ∧ u.tick = s.tick ∧ (u.port p).cmpAt = s.tick)))

/-- R220, R222, R223, R224, R571: SYNC_IO_RELEASE, SYNC_IO_SAMPLE, SYNC_IO_TIMEOUT, BARRIER_SEQ_RECEIVE and CHIP_EXPORT_RECEIVE complete. A
device that entered a barrier releases the line at a tick that is a multiple of 16; a sample at 12 modulo 16 that is low, as it is while
the device itself holds the line, changes nothing but LINE; one that is high leaves the barrier four ticks later with the next sequence
number and LAST_TICK; a barrier that lasts too long is left with 0x3301 and counted. After a barrier, numbers of a peer that agree change
nothing; others are counted and raise 0x3302, the sequence number stands, and the highest frame number received is kept for the next
barrier. An output received from another chip goes into the next entry of the port's export ring. -/
def Obligations.SyncIoBarrier : Prop :=
  ∀ (s : State),
    let io := s.mesh.sio
    let early := ¬ (io.enteredAt + 1024 * s.rd F.SYNC_IO_CTRL_TMO < s.tick)
    (∀ p, io.pipe = some p → io.released = false → s.tick % 16 = 0 → Gives .syncIoRelease s (fun u => u.rd F.SYNC_IO_STATUS_HOLD = 0 ∧
      u.mesh.sio = { io with released := true } ∧ u.swarm = s.swarm ∧ u.mem = s.mem ∧ u.sched = s.sched)) ∧
    ((io.pipe = none ∨ io.released = true ∨ s.tick % 16 ≠ 0) → exec .syncIoRelease s = .next s) ∧
    (∀ p high, io.pipe = some p → s.tick % 16 = 12 → (io.released = false ∨ high = false) → Gives (.syncIoSample high) s (fun u =>
      u.rd F.SYNC_IO_STATUS_LINE = 0 ∧ OnlyRegs s u ∧ u.cara = s.cara)) ∧
    (∀ p, io.pipe = some p → io.released = true → s.tick % 16 = 12 → (∀ j ∈ s.sched.jobs, j.waiting = false) →
      Gives (.syncIoSample true) s (fun u => u.rd F.SYNC_IO_STATUS_LINE = 1 ∧ u.rd F.SYNC_IO_STATUS_HOLD = 1 ∧
        u.tick = (s.tick + 4) % 2 ^ 64 ∧ u.rd F.SYNC_IO_LAST_TICK = u.tick ∧
        u.rd F.SYNC_IO_STATUS_SEQ = (s.rd F.SYNC_IO_STATUS_SEQ + 1) % 65536 ∧ u.mesh.sio.sentPipe = p ∧ u.mesh.sio.left = true ∧
        u.swarm = s.swarm)) ∧
    (∀ high, (io.pipe = none ∨ s.tick % 16 ≠ 12) → exec (.syncIoSample high) s = .next s) ∧
    (∀ p, io.pipe = some p → early → exec .syncIoTimeout s = .next s) ∧
    (∀ p, io.pipe = some p → ¬ early → s.sched.jobs = [] → s.chk.arbs = [] → Gives .syncIoTimeout s (fun u =>
      Counted s u F.SYNC_IO_ERR_TIMEOUTS 0 1 ∧ Raised s u 158 0x3301 p ∧ u.rd F.SYNC_IO_STATUS_HOLD = 1 ∧
      u.mesh.sio.released = false)) ∧
    (∀ seq frame, (io.left = false ∨ seq.toNat = io.sentSeq ∧ frame.toNat = io.sentFrame) →
      exec (.barrierSeqReceive seq frame) s = .next s) ∧
    (∀ seq frame, (seq.toNat ≠ io.sentSeq ∨ frame.toNat ≠ io.sentFrame) → io.left = true → s.chk.arbs = [] → s.sched.jobs = [] →
      let top := max frame.toNat (io.maxFrame.getD 0)
      Gives (.barrierSeqReceive seq frame) s (fun u => Counted s u F.SYNC_IO_ERR_SEQ_MISMATCH 0 1 ∧
        Raised s u 158 0x3302 io.sentPipe ∧ u.rd F.SYNC_IO_STATUS_SEQ = s.rd F.SYNC_IO_STATUS_SEQ ∧ u.mesh.sio.maxFrame = some top ∧
        ∀ x, s.pipe? io.sentPipe = some x → x.frames = [] → (u.pipe? io.sentPipe).map (·.frameNum) = some (top % 2 ^ 32))) ∧
    (∀ (port : BitVec 2) data base n size, s.cfg.expRings[port.toNat]? = some (base, n, size) → s.link port.toNat = 4 →
      s.running = true → 0 < n → Gives (.chipExportReceive port data) s (fun u =>
        FMap.get 0 u.sched.expNext port.toNat = FMap.get 0 s.sched.expNext port.toNat + 1))

/-- R25, R26, R27, R30, R36, R82: a pipeline whose gather window has expired, its last tick past, opens the frame of its frame number, with one input for each
stream of its trigger set, those that have not arrived standing in as stale. The sequencer then starts a due stage: its job is the next
job, for that stage and frame; a stage whose binding failed or whose units are not hosted fails for the frame with 0x1F01; a frame that
finds no free staging slot is withheld with 0x1F03. -/
def Obligations.FramesOpenAndStagesStart : Prop :=
  ∀ (s : State) (p : BitVec 6) (stage : BitVec 8) (x : Pipeline), s.pipe? p.toNat = some x →
    (∀ t0, x.openAt = some t0 → x.running = true → x.hostSched = false → t0 + x.desc.gather < s.tick →
      Gives (.gatherExpiry p) s (fun u => ∃ y f, u.pipe? p.toNat = some y ∧ y.frames = x.frames ++ [f] ∧ f.num = x.frameNum ∧
        f.tick = s.tick ∧ y.frameNum = (x.frameNum + 1) % 2 ^ 32 ∧ y.gather = [] ∧ y.openAt = none ∧
        f.inputs.map (·.stream) = x.desc.streams ∧
        ∀ g ∈ f.inputs, (∀ h ∈ x.gather, h.stream ≠ g.stream) → g.stale = true)) ∧
    (∀ st f, s.stage? stage.toNat = some st → s.dueFrame x st = some f → s.frame? p.toNat f.num = some f → s.running = true →
      x.hostSched = false → x.desc.stages.contains st.num = true → s.cara.selBlock = false →
      let failed := (∃ b, s.binding? st.num = some b ∧ b.failed = true) ∨ s.unitsHosted st = false ∨
        (x.desc.multi = true ∧ s.linksUp = false)
      (failed → Gives (.stageStart p stage) s (fun u => u.swarm = s.swarm ∧ u.mem = s.mem ∧ u.regs = s.regs ∧
        ∃ g r, u.frame? p.toNat f.num = some g ∧ g.outcome = (if f.outcome = 0 then 0x1F01 else f.outcome) ∧ g.stage? st.num = some r ∧ r.status = 3)) ∧
      (¬ failed → f.slotIx = none → x.free = [] → s.sched.jobs = [] → s.chk.arbs = [] → Gives (.stageStart p stage) s (fun u =>
        u.frame? p.toNat f.num = none ∧ Raised s u 158 0x1F03 p.toNat)) ∧
      (∀ v, ¬ failed → s.takeSlots p.toNat f.num = some v → s.seqJobs < 64 → v.unitsFree st 0 = true →
        Gives (.stageStart p stage) s (fun u => u.sched.nextJob = s.sched.nextJob + 1 ∧
          ∃ l j, u.sched.jobs = l ++ [j] ∧ l.length = s.sched.jobs.length ∧ j.stage = st.num ∧ j.pipe = p.toNat ∧ j.frame = f.num ∧
            j.host = false)))

/-- R29, R31, R174, R476 to R478: a part that has finished leaves its tile idle and its part clean; the last clean part within the stage's
window commits the stage for its frame, and before WIN_MIN raises 0x9030 and fails it; a job that reaches WIN_MAX raises 0x9031, counts
it, and ends. The one part of a job that a write of START began has no window, and leaves the tile idle. Stated where no other job waits and no arbitration is open. -/
def Obligations.PartsAndStagesEnd : Prop :=
  ∀ (s : State), (∀ j ∈ s.allJobs, j.waiting = false) → s.chk.arbs = [] →
    (∀ (t : BitVec 11) (j : Job) (q : PartRun), let x := s.tile t.toNat
      x.run = 1 → x.job.ended = true → s.unitsDone t.toNat = true → x.job.failed = false →
      s.jobOf t.toNat = some j → j.part? t.toNat = some q →
      ((∃ r ∈ j.parts, r.unit ≠ t.toNat ∧ (r.status = 0 ∨ r.status = 3)) → Gives (.partFinish t) s (fun u =>
        (u.tile t.toNat).run = 0 ∧ u.regs = s.regs ∧ SameMemory s u ∧
        ∃ k, u.job? j.id = some k ∧ k.part? t.toNat = some { q with status := 1 })) ∧
      (∀ y f r, j.parts = [q] → s.jobStage j = some y → y.winMin ≤ s.winDur j.stage → s.winDur j.stage ≤ y.winMax → j.host = false → j.single = false →
        s.frame? j.pipe j.frame = some f → f.stage? j.stage = some r → Gives (.partFinish t) s (fun u =>
          (u.tile t.toNat).run = 0 ∧ u.job? j.id = none ∧
          ∃ g r', u.frame? j.pipe j.frame = some g ∧ g.stage? j.stage = some r' ∧ r'.status = 2)) ∧
      (∀ y, j.parts = [q] → j.single = false → s.jobStage j = some y → s.winDur j.stage < y.winMin → Gives (.partFinish t) s (fun u =>
        u.job? j.id = none ∧ Raised s u (winLine j.stage) 0x9030 j.stage))) ∧
    (∀ (t : BitVec 11) (j : Job) (y : Stage), let x := s.tile t.toNat
      x.run = 1 → x.job.ended = true → s.unitsDone t.toNat = true → x.job.failed = false → s.jobOf t.toNat = some j → j.single = true →
      j.parts.length = 1 → (j.part? t.toNat).isSome = true → s.jobStage j = some y → Gives (.partFinish t) s (fun u =>
        (u.tile t.toNat).run = 0 ∧ u.job? j.id = none ∧ u.cara = s.cara ∧ SameMemory s u ∧ ∀ k, k ≠ t.toNat → u.tile k = s.tile k)) ∧
    (∀ (stage : BitVec 8) (t0 : Nat) (j : Job) (y : Stage), (s.win stage.toNat).startAt = some t0 →
      s.jobOfStage stage.toNat = some j → s.jobStage j = some y → t0 + y.winMax ≤ s.tick → Gives (.stageWinMax stage) s (fun u =>
        u.job? j.id = none ∧ (u.win stage.toNat).late = min ((s.win stage.toNat).late + 1) 65535 ∧
        Raised s u (winLine stage.toNat) 0x9031 stage.toNat)) ∧
    (∀ (stage : BitVec 8), (s.win stage.toNat).startAt = none → exec (.stageWinMax stage) s = .next s)

/-- R32 to R36, R417: the oldest frame of a pipeline is published once 16 Carapace cycles have passed since its last check and no earlier
event is undecided: it leaves the open frames as the last published one, the inactive half of the publish table holds its frame
number and SEL names that half, one higher; a frame with an outcome is withheld and raises it; a frame that is not done after two frame
periods is withheld with 0x1F04. Stated where no job waits or belongs to the frame and no arbitration is open; the table's contents are
stated where no completion ring is configured and no SRAM word is in error. -/
def Obligations.FramesArePublishedInOrder : Prop :=
  ∀ (s : State) (p : BitVec 6) (x : Pipeline) (f : Frame) (r : List Frame), s.pipe? p.toNat = some x → x.frames = f :: r →
    (∀ j ∈ s.sched.jobs, j.waiting = false ∧ ¬ (j.pipe = p.toNat ∧ j.frame = f.num)) → s.chk.arbs = [] →
    let done? := ∃ d, f.doneAt = some d ∧ d + 4 ≤ s.tick ∧ s.cara.selBlock = false ∧
      (∀ e ∈ s.cara.asserted ++ s.cara.latched, d + 4 ≤ e.tick)
    let table := pubTable p.toNat
    let sel := s.sysN table 4
    (f.outcome = 0 → done? → s.mem.sram = [] → Gives (.publish p) s (fun u => u.swarm = s.swarm ∧ u.sched.jobs = s.sched.jobs ∧
      ∃ y, u.pipe? p.toNat = some y ∧ y.lastPub = some f ∧ y.boundaryAt = s.tick ∧ y.frames = x.frames.filter (fun g => g.num != f.num))) ∧
    (f.outcome = 0 → done? → s.mem.sram = [] → s.rd F.HIF_RING_CFG_ESIZE 1 = 0 → Gives (.publish p) s (fun u =>
      u.sysN table 4 = (sel / 2 + 1) % 2 ^ 31 * 2 + (1 - sel % 2) ∧
      u.sysN (table + 64 + 320 * (1 - sel % 2)) 4 = f.num % 2 ^ 32)) ∧
    (f.outcome ≠ 0 → (f.outcome ≠ 0x1F01 ∨ f.bad = []) → Gives (.publish p) s (fun u =>
      u.frame? p.toNat f.num = none ∧ u.swarm = s.swarm ∧ Raised s u 158 f.outcome p.toNat)) ∧
    (f.doneAt = none → f.tick + 2 * x.desc.period ≤ s.tick → Gives (.orderHoldExpiry p) s (fun u =>
      u.frame? p.toNat f.num = none ∧ u.swarm = s.swarm ∧ Raised s u 158 0x1F04 p.toNat))

/-- R30, R77, R242, R248, R501, R502, R506: the spare that a failed part needs. RESAMPLER_PART_END, RERUN_START and SPARE_CLEAR_DONE
complete. A resampler part that ends clean becomes clean; one whose datapaths disagree on an output element, having written what stands
before it, raises 0x1210 and waits for its rerun. When the spares of a job with failed parts are ready its rerun starts: every
part runs again, and the failed part's tile is hosted on the spare while the slot it left becomes the spare. A cleared spare is tested
again where its test was aborted. -/
def Obligations.RerunsAndSpares : Prop :=
  ∀ (s : State) (b : BitVec 7),
    (∀ j k, s.rspJob b.toNat = some j → s.job? j.id = some j → j.rsp = some k →
      (∃ r ∈ j.parts, r.unit ≠ b.toNat ∧ (r.status = 0 ∨ r.status = 3)) →
      let part := fun (fault : Option (Nat × Nat)) => s.rspPart b.toNat k {}
        (((j.parts.map (·.unit)).findIdx? (fun u => u == b.toNat)).getD 0) j.parts.length fault
      (∀ fault v, j.rerun = false → (∃ y, s.jobStage j = some y ∧ y.kind = 1) → part fault = (.error 0x1210, v) →
        Gives (.resamplerPartEnd b fault) s (fun u => Presented v u b.toNat 0x1210 (0xf000 + b.toNat) ∧ SameMemory v u ∧
          ∃ i q, u.job? j.id = some i ∧ i.part? b.toNat = some q ∧ q.status = 4)) ∧
      (∀ v, part none = (.ok {}, v) → Gives (.resamplerPartEnd b none) s (fun u => SameMemory v u ∧ u.cara = v.cara ∧
          ∃ i q, u.job? j.id = some i ∧ i.part? b.toNat = some q ∧ q.status = 1))) ∧
    (∀ j y t sp, s.allJobs = [j] → j.rerun = false → (∀ q ∈ j.parts, q.status ≠ 2 ∧ q.unit < 2048) → j.failing.map (·.unit) = [t] → (s.jobTiles j).any s.moveWaits = false →
      s.jobStage j = some y → y.kind = 0 → tileBrood t = b.toNat → (s.brood b.toNat).spareUser = some j.id → (s.brood b.toNat).clearing = false →
      (s.brood b.toNat).move = none → s.spare b.toNat = some sp → sp < 17 → s.slotOf b.toNat (tileK t) < 17 →
      Gives (.rerunStart b) s (fun u => u.slotOf b.toNat (tileK t) = sp ∧ u.spare b.toNat = some (s.slotOf b.toNat (tileK t)) ∧
        ∃ k, u.job? j.id = some k ∧ k.rerun = true ∧ ∀ q ∈ k.parts, q.status = 3)) ∧
    (∀ sp, (s.brood b.toNat).clearing = true → (s.brood b.toNat).retest = true → s.spare b.toNat = some sp → sp < 17 →
      Gives (.spareClearDone b) s (fun u => (u.brood b.toNat).clearing = false ∧ (u.brood b.toNat).test = 1 ∧
        (u.brood b.toNat).testAt = s.tick ∧ u.rd F.BRD_STATUS_TEST_SLOT b.toNat = sp ∧ u.cara = s.cara ∧ u.mem = s.mem))

/-- R41, R164, R177, R187: a descriptor whose rows can all be read and written, whose requests have their places in the channels and of
which no packet was discarded, leaves the tile's queue and adds 1 to the object it signals; without its places, or with a packet
discarded, nothing changes. A row that one request carries between two on-chip memories is copied byte by byte. After a halt the requests
already sent complete, with no signal. -/
def Obligations.DescriptorsComplete : Prop :=
  ∀ (s : State) (t : BitVec 11) (n : Nat),
    let x := s.tile t.toNat
    (∀ q v, x.dmaCut = some q → (s.modTile t.toNat (fun x => { x with dmaCut := none })).dmaRows t.toNat q
        (q.sent n (List.range q.rows)) = (true, v) → exec (.dmaDescComplete ⟨t, n⟩) s = .next v) ∧
    (x.dmaCut = none → x.dma = [] → exec (.dmaDescComplete ⟨t, n⟩) s = .next s) ∧
    (∀ q r, x.dmaCut = none → x.dma = q :: r → (x.dmaLost = true ∨ s.dmaPlaced t.toNat q = false) →
      exec (.dmaDescComplete ⟨t, n⟩) s = .next s) ∧
    (∀ q r, x.dmaCut = none → x.dma = q :: r → x.dmaLost = false → s.dmaPlaced t.toNat q = true →
      let rest := mapFirst (fun (q : DmaDesc) => { q with since := s.tick }) r
      (∀ v, State.dmaRows s t.toNat q q.all = (true, v) → (v.tile t.toNat).dma = x.dma → v.tick = s.tick →
        Gives (.dmaDescComplete ⟨t, n⟩) s (fun u => (u.tile t.toNat).dma = rest ∧ SameMemory v u ∧
          (q.sig = none → u.swarm.tiles = (v.modTile t.toNat (fun x => { x with dma := rest })).swarm.tiles) ∧
          ∀ o, q.sig = some o → (u.lobj t.toNat o).toNat = min ((v.lobj t.toNat o).toNat + 1) (2 ^ 32 - 1))) ∧
      (let a := q.src.toNat
       let b := q.dst.toNat
       let n := q.rowBytes
       q.rows = 1 → 0 < n → a % 64 + n ≤ 64 → s.mem.sram = [] → gddrEnd ≤ a → gddrEnd ≤ b → s.oneRegion a n = true →
        s.oneRegion b n = true → inChk a = false → inChk b = false → q.sig = none → Gives (.dmaDescComplete ⟨t, n⟩) s (fun u =>
          (u.tile t.toNat).dma = rest ∧
          (∀ i, i < n → u.peek (b + i) = s.peek (a + i)) ∧ (∀ c, (c < b ∨ b + n ≤ c) → u.peek c = s.peek c) ∧ u.cara = s.cara ∧
          u.regs = s.regs ∧ ∀ k, k ≠ t.toNat → u.tile k = s.tile k)))

/-- R70, R77, R79, R81, R112, R113, R86, R512, R513: the test of a brood's spare. A clean logic BIST goes on to the memory BIST; a clean memory BIST and
skew self-check, whose accumulators all hold what is expected, end the test with the slot tested now; each failure raises its event (0x1010, 0x1011, 0x2101), shows in BRD_LAST_TEST,
fences the slot in its persistent word and in BRD_SLOTS, and leaves the brood without a spare and with rotation stopped. Stated where no
self-test request is pending, no persistent write is queued or refused, no forced move is due and no job waits. SPARE_LBIST_END and
SPARE_MBIST_END complete. -/
def Obligations.SpareTests : Prop :=
  ∀ (s : State) (b : BitVec 7) (sp : Nat), s.spare b.toNat = some sp → s.rd F.BRD_STATUS_TEST_SLOT b.toNat = sp → sp < 17 →
    s.slotState b.toNat sp = 0 → s.chk.reqs = [] → s.prs.queue = [] → s.prs.vol = [] → (s.prsWord b.toNat).writes < 200000 →
    (∀ j ∈ s.allJobs, j.waiting = false) → (s.brood b.toNat).forcedDue = [] →
    let x := s.brood b.toNat
    let n := b.toNat
    let fenced := fun (u : State) (code : Nat) => Raised s u n code (0xf000 + n) ∧ Raised s u n 0x1022 (0xf000 + n) ∧ u.spare n = none ∧
      u.slotState n sp = 2 ∧ u.prsForce n = s.prsForce n ||| BitVec.ofNat 32 (2 ^ sp) ∧ (u.brood n).rotStopped = true ∧
      u.rd F.BRD_LAST_TEST_SLOT n = sp ∧ u.rd F.BRD_LAST_TEST_DONE n = 1 ∧ ∀ k, k < 16 → u.slotOf n k = s.slotOf n k
    (x.test = 1 → x.testAt + us 1800 ≤ s.tick → Gives (.spareLbistEnd b true) s (fun u =>
      u.brood n = { x with test := 2, testAt := s.tick } ∧ u = { s with swarm.broods := u.swarm.broods } ∧
      ∀ k, k ≠ n → u.brood k = s.brood k)) ∧
    (x.test = 1 → x.testAt + us 1800 ≤ s.tick → Gives (.spareLbistEnd b false) s (fun u => fenced u 0x1010 ∧
      u.rd F.BRD_LAST_TEST_LBIST_FAIL n = 1)) ∧
    (x.test = 1 → s.tick < x.testAt + us 1800 → ∀ ok, exec (.spareLbistEnd b ok) s = .next s) ∧
    (∀ skew, x.test = 2 → x.testAt + us 900 ≤ s.tick → skewBad skew (physOf n sp) = false → Gives (.spareMbistEnd b true skew) s (fun u => (u.brood n).test = 3 ∧
      (u.slot (physOf n sp)).testedAt = s.tick ∧ u.rd F.BRD_STATUS_TEST_SLOT n = 31 ∧ u.rd F.BRD_LAST_TEST_DONE n = 1 ∧
      u.rd F.BRD_LAST_TEST_MBIST_FAIL n = 0 ∧ u.cara = s.cara ∧ u.mem = s.mem)) ∧
    (∀ skew, x.test = 2 → x.testAt + us 900 ≤ s.tick → Gives (.spareMbistEnd b false skew) s (fun u => fenced u 0x1011 ∧
      u.rd F.BRD_LAST_TEST_MBIST_FAIL n = 1)) ∧
    (∀ skew, x.test = 2 → x.testAt + us 900 ≤ s.tick → skewBad skew (physOf n sp) = true → Gives (.spareMbistEnd b true skew) s (fun u => fenced u 0x2101 ∧
      u.rd F.BRD_LAST_TEST_SKEW_FAIL n = 1 ∧ (u.slot (physOf n sp)).skewOk = false))

/-- R71 to R76, R80: a move of a logical tile onto the spare. In a qualifying gap the tile hosted on the next good slot starts to move; a
due forced move starts for its first logical index; a quiet tile is frozen; a transfer whose CRC agrees goes on to the switch, which hosts
the tile on the former spare, counts the move and makes the slot it left the spare; a transfer that fails raises 0x1012 and leaves the
mapping as it was, with the spare tested again. In a brood that takes a new mapping a forced move goes to the slot that the mapping gives.
The switch is stated with no access held. -/
def Obligations.MovesOntoTheSpare : Prop :=
  ∀ (s : State) (b : BitVec 7) (sp : Nat),
    let x := s.brood b.toNat
    let n := b.toNat
    let onlyBrood := fun (u : State) (y : Brood) => u.brood n = y ∧ u = { s with swarm.broods := u.swarm.broods } ∧
      ∀ k, k ≠ n → u.brood k = s.brood k
    let begun := fun (k : Nat) (forced : Bool) => { x with move := some k, movePhase := 1, moveForced := forced, moveTo := sp, moveAt := s.tick }
    (∀ q k, s.spare n = some sp → s.nextGood n sp = some q → s.kOnSlot n q = some k → x.test = 3 → s.rdB F.BRD_CTRL_ROT_EN n = true →
      x.rotStopped = false → x.move = none → x.spareUser = none → x.forcedDue = [] → x.clearing = false → s.rotAllowed n = true →
      s.inGap n 500 = true → s.moveIdle n k = true → Gives (.rotationMoveStart b) s (fun u => onlyBrood u (begun k false))) ∧
    (∀ k r, s.spare n = some sp → x.remap = [] → x.forcedDue = k :: r → x.move = none → x.clearing = false → x.retest = false →
      x.test ≠ 1 → x.test ≠ 2 → s.busyTile (tileOf n k) = false → Gives (.forcedMoveStart b) s (fun u => onlyBrood u (begun k true))) ∧
    (∀ k, x.remap.head? = some (k, sp) → x.move = none → (∀ j ∈ x.forcedDue, s.busyTile (tileOf n j) = false) →
      Gives (.forcedMoveStart b) s (fun u => onlyBrood u (begun k true))) ∧
    (∀ k, x.move = some k → x.movePhase = 1 → (s.tile (tileOf n k)).dma = [] → (s.tile (tileOf n k)).msgs = [] →
      (∀ m ∈ s.mesh.msgs, m.src ≠ tileOf n k) → Gives (.moveQuiesced b) s (fun u => onlyBrood u { x with movePhase := 2 })) ∧
    (∀ k, x.move = some k → x.movePhase = 2 → Gives (.moveTransferEnd b true) s (fun u => onlyBrood u { x with movePhase := 3 })) ∧
    (∀ k, x.move = some k → x.movePhase = 2 → x.moveTo = sp → x.failedInto = none → x.moveForced = false → x.spareUser = none → x.remap = [] → x.held = [] →
      (∀ j ∈ s.allJobs, j.waiting = false) → Gives (.moveTransferEnd b false) s (fun u => (u.brood n).move = none ∧
        (u.brood n).test = 1 ∧ (u.brood n).failedInto = some sp ∧ Presented s u n 0x1012 (0xf000 + n) ∧ SameMemory s u ∧
        ∀ i, i < 16 → u.slotOf n i = s.slotOf n i)) ∧
    (∀ k, x.move = some k → k < 16 → x.movePhase = 3 → x.moveTo = sp → sp < 17 → s.slotOf n k < 17 → s.slotState n (s.slotOf n k) = 0 →
      x.remap = [] → x.held = [] → (∀ j ∈ s.allJobs, j.waiting = false) → Gives (.moveSwitchEnd b) s (fun u => u.slotOf n k = sp ∧ u.hostedK n k = true ∧
        u.spare n = some (s.slotOf n k) ∧ (u.brood n).move = none ∧ Counted s u F.BRD_ROT_COUNT_MOVES n 1 ∧ SameMemory s u))

/-- R84, R85, R142, R178, R180, R86: TIL_ and BRD_ controls. START on a hosted idle tile of a host-scheduled stage starts its program at the
stage's entry with cleared registers, and counts a violation where no such stage is bound; a tile that no slot hosts and a brood that is fused off are holes; HALT_REQ is pending on a running tile and
without effect on an idle one; a running tile with HALT_REQ halts with cause 0x30, raises 0x1105 and is not in error; ROT_GRANT and
ROT_EN are set as written. -/
def Obligations.TileAndBroodControls : Prop :=
  ∀ (s : State) (t : BitVec 11) (b : BitVec 7),
    let n := t.toNat
    (s.hosted n = false → Gives (.tilStart t) s (fun u => Counted s u F.HIF_VIOL0_HOLE 0 1 ∧ OnlyRegs s u) ∧
      Gives (.tilHaltReq t) s (fun u => Counted s u F.HIF_VIOL0_HOLE 0 1 ∧ OnlyRegs s u)) ∧
    (s.hosted n = true → s.rd F.TIL_CTRL_START n = 0 → s.startStage n = none → Gives (.tilStart t) s (fun u => Counted s u F.HIF_VIOL0_RO_WRITE 0 1 ∧ OnlyRegs s u ∧ u.cara = s.cara)) ∧
    (∀ x p, s.startStage n = some (x, p) → s.hosted n = true → s.rd F.TIL_CTRL_START n = 0 → s.busyTile n = false →
      s.moveWaits n = false → (s.fused (tileBrood n) = true → ∀ k ∈ broodTiles (tileBrood n), s.busyTile k = false) →
      (∀ j ∈ s.allJobs, j.id < s.sched.nextJob) → s.modelIn x.slot ≠ none → (s.modelIn x.slot).bind (fun m => m.stage? x.num) = some x →
      Gives (.tilStart t) s (fun u => (u.tile n).run = 1 ∧ (u.tile n).pc = x.entry ∧
        (u.tile n).err = false ∧ (u.tile n).g = [] ∧ (u.tile n).v = [] ∧ (u.tile n).job.single = true ∧ (u.tile n).job.stage = x.num ∧
        u.rd F.BRD_STATUS_MODE (tileBrood n) = 0 ∧ u.rd F.TIL_CTRL_START n = 0)) ∧
    (s.hosted n = true → s.busyTile n = true → Gives (.tilHaltReq t) s (fun u => u.rd F.TIL_CTRL_HALT_REQ n = 1 ∧ OnlyRegs s u ∧
      u.cara = s.cara)) ∧
    (s.hosted n = true → s.busyTile n = false → s.moving n = false → exec (.tilHaltReq t) s = .next s) ∧
    (s.rd F.TIL_CTRL_HALT_REQ n = 1 → s.busyTile n = true → s.moving n = false → s.jobOf n = none → Gives (.haltReqTaken t) s (fun u =>
      u.rd F.TIL_HALT_VALID n = 1 ∧ u.rd F.TIL_HALT_CAUSE n = 0x30 ∧ u.rd F.TIL_HALT_HALT_PC n = (s.tile n).pc % 2 ^ 14 ∧
      u.rd F.TIL_CTRL_HALT_REQ n = 0 ∧ u.tile n = { s.tile n with run := 2, blocked := none } ∧
      Presented s u (tileBrood n) 0x1105 n ∧ SameMemory s u ∧ ∀ k, k ≠ n → u.tile k = s.tile k)) ∧
    (b.toNat < s.nBroods → Gives (.brdRotGrant b) s (fun u => u.rd F.BRD_CTRL_ROT_GRANT b.toNat = 1 ∧ OnlyRegs s u ∧ u.cara = s.cara)) ∧
    (∀ en, s.nBroods ≤ b.toNat → Gives (.brdRotGrant b) s (fun u => Counted s u F.HIF_VIOL0_HOLE 0 1 ∧ OnlyRegs s u) ∧
      Gives (.brdRotEnWrite b en) s (fun u => Counted s u F.HIF_VIOL0_HOLE 0 1 ∧ OnlyRegs s u)) ∧
    (∀ en, b.toNat < s.nBroods → Gives (.brdRotEnWrite b en) s (fun u => u.rd F.BRD_CTRL_ROT_EN b.toNat = b2n en ∧ OnlyRegs s u ∧ u.cara = s.cara))

/-- R513, R515, R517, R519: test slices and ages. A hosting slot that has been untested for LFI raises 0x2042 for its tile and slot, once per
LFI; an in-place slice runs on an idle hosted tile of a brood without a spare, and its sixteenth clean end completes the pass; a shared
slice starts where it may and is postponed with 0x2043 where it may not; its clean end counts it, the last one completing the pass,
and a first failure raises 0x2041, a second 0x2040. Stated where no
self-test request is pending, and the loss of a failed hosting slot where no stage is bound. -/
def Obligations.TestSlices : Prop :=
  ∀ (s : State), s.chk.reqs = [] → s.chk.arbs = [] → (∀ j ∈ s.allJobs, j.waiting = false) →
    (∀ (i : BitVec 12) k, let p := i.toNat
      s.kOnSlot (p / 17) (p % 17) = some k → s.slotOf (p / 17) k = p % 17 → s.slotState (p / 17) (p % 17) = 0 → s.aged p = true →
      (s.slot p).lfiAt + s.lfi < s.tick → Gives (.slotAgeLfi 15#4 i) s (fun u => (u.slot p).lfiAt = s.tick ∧ u.regs = s.regs ∧
        SameMemory s u ∧ ∃ e, u.cara.asserted = s.cara.asserted ++ [e] ∧ e.line = p / 17 ∧ e.code = 0x2042 ∧
          e.units = [tileOf (p / 17) k, p])) ∧
    (∀ (row : BitVec 4) (i : BitVec 12), row.toNat ≠ 15 → i.toNat < s.rowUnits row.toNat → s.unitAged row.toNat i.toNat = true →
      (s.unit row.toNat i.toNat).lfiAt + s.lfi < s.tick → Gives (.slotAgeLfi row i) s (fun u =>
        Presented s u (unitLine row.toNat i.toNat).1 0x2042 (unitLine row.toNat i.toNat).2 ∧ (u.unit row.toNat i.toNat).lfiAt = s.tick)) ∧
    (∀ (b : BitVec 7) (k : BitVec 4), let p := physOf b.toNat (s.slotOf b.toNat k.toNat)
      (s.hosted (tileOf b.toNat k.toNat) = true → s.spare b.toNat = none → s.inGap b.toNat (us 200) = true →
        s.tileIdle (tileOf b.toNat k.toNat) = true → s.modes.selftest = false → Gives (.inplaceSliceStart b k) s (fun u =>
          (u.slot p).inSlice = true ∧ u.regs = s.regs ∧ u.cara = s.cara ∧ SameMemory s u)) ∧
      ((s.slot p).inSlice = true → (s.slot p).slice + 1 < 16 → Gives (.inplaceSliceEnd b k true) s (fun u =>
        u.slot p = { s.slot p with inSlice := false, slice := (s.slot p).slice + 1 } ∧ u.regs = s.regs ∧ u.cara = s.cara)) ∧
      ((s.slot p).inSlice = true → (s.slot p).slice = 15 → Gives (.inplaceSliceEnd b k true) s (fun u =>
        (u.slot p).inSlice = false ∧ (u.slot p).slice = 0 ∧ (u.slot p).testedAt = s.tick ∧ u.cara = s.cara)) ∧
      ((s.slot p).inSlice = true → s.sched.binds = [] → s.slotState b.toNat (s.slotOf b.toNat k.toNat) = 0 →
        s.slotOf b.toNat k.toNat < 17 → Gives (.inplaceSliceEnd b k false) s (fun u => (u.slot p).inSlice = false ∧
          Raised s u b.toNat 0x1010 (tileOf b.toNat k.toNat) ∧ u.slotState b.toNat (s.slotOf b.toNat k.toNat) = 2))) ∧
    (∀ (row : BitVec 4) (inst : BitVec 7), let r := row.toNat
      let i := inst.toNat
      let x := s.unit r i
      let l := unitLine r i
      i < s.rowUnits r →
      (x.running = false → s.sliceMayStart r i = true → s.modes.selftest = false → Gives (.sharedSliceStart row inst) s (fun u =>
        u.unit r i = { x with running := true, passFrom := if x.slice = 0 then s.tick else x.passFrom } ∧ u.regs = s.regs ∧
        u.cara = s.cara)) ∧
      (x.running = false → s.sliceMayStart r i = false → Gives (.sharedSliceStart row inst) s (fun u =>
        Raised s u l.1 0x2043 l.2 ∧ u.unit r i = x)) ∧
      (x.running = true → x.slice + 1 < rowSlices r → Gives (.sharedSliceEnd row inst true) s (fun u =>
        u.unit r i = { x with running := false, failed := false, slice := x.slice + 1 } ∧ u.cara = s.cara)) ∧
      (x.running = true → rowSlices r ≤ x.slice + 1 → Gives (.sharedSliceEnd row inst true) s (fun u =>
        u.unit r i = { x with running := false, failed := false, slice := 0, passAt := s.tick, lfiAt := 0 } ∧ u.cara = s.cara)) ∧
      (x.running = true → x.failed = false → Gives (.sharedSliceEnd row inst false) s (fun u =>
        Presented s u l.1 0x2041 l.2 ∧ (u.unit r i).failed = true)) ∧
      (x.running = true → x.failed = true → Gives (.sharedSliceEnd row inst false) s (fun u =>
        Presented s u l.1 0x2040 l.2 ∧ (u.unit r i).failed = false)))

/-- R20, R302, R307, R308, R312, R313, R314: frames of one camera stream that alone takes a virtual channel's packets. A frame start takes the oldest
free ring entry, the next SEQ and the tick as stamp, and loads the frame timer; with no entry free the frame is lost with 0x5107; one
within the blanking of the frame before it breaks that frame, although it has completed. A
line with a good CRC and the right length is written to its place in the frame buffer and counted; one with a bad CRC, and a frame end
before the last line, break the frame with 0x5102. Embedded data add to the test rows. -/
def Obligations.CameraPackets : Prop :=
  ∀ (s : State) (rx vc : BitVec 4) (n : Nat), s.camsOn rx.toNat vc.toNat = [n] → (s.strm n).desc.hostPre = false → s.mayLose n →
    s.expiryPast n = false →
    let x := s.strm n
    let d := x.desc
    let line := 148 + d.port / 8
    let breaks := fun (c : Instr) (P : State → Prop) => Gives c s (fun u => Lost s u n line 0x5102 ∧ (u.strm n).cur = none ∧
      (u.strm n).broken = true ∧ P u)
    (∀ fnum, x.cur = none → s.expiryDue n = false → s.intake.updWait = none → s.intake.warpNo = none →
      s.breakEarly n = s →
      (∀ e, s.takeEntry n = some e → Gives (.csiFrameStart rx vc fnum) s (fun u =>
        (u.strm n).cur = some { entry := e, seq := (x.seq + 1) % 2 ^ 32, stamp := s.tick, gptp := s.gptpAt s.tick, fnum := fnum.toNat } ∧
        (u.strm n).seq = (x.seq + 1) % 2 ^ 32 ∧ (u.strm n).timerAt = some (s.tick + d.tmo) ∧ u.cara = s.cara ∧ u.regs = s.regs)) ∧
      (s.takeEntry n = none → Gives (.csiFrameStart rx vc fnum) s (fun u => Lost s u n line 0x5107 ∧
        Counted s u F.INT_CHK_OVERRUN n 1))) ∧
    (∀ fnum f e, x.cur = none → s.expiryDue n = false → s.intake.updWait = none → s.intake.warpNo = none → s.intake.waitQ = [f] →
      f.stream = n → s.blanking f.sample = true → s.takeEntry n = some e → (∀ w, w < 4 → (FMap.get {} s.intake.warps w).cur = none) →
      s.intake.rerunQ = [] → Gives (.csiFrameStart rx vc fnum) s (fun u => Presented s u line 0x5102 n ∧ Counted s u F.INT_LOSS_TOTAL n 1 ∧
        u.intake.waitQ = [])) ∧
    (∀ c dt payload v, x.cur = some c → dt.toNat = d.dt → payload.length = d.wordCount n → c.lines < d.height → d.trowMode = 0 →
      s.busWrite mIntake (d.entry c.entry + c.lines * d.lineBytes n []) (storeSamples (d.sampleBytes n) (unpack d.dt payload)) = (.ok, v) →
      Gives (.csiLongPacket rx vc dt true payload) s (fun u => SameMemory v u ∧ u.cara = v.cara ∧
        (u.strm n).cur = some { c with lines := c.lines + 1, patStarted := c.lines + 1 == d.height, patAt := s.tick })) ∧
    (∀ c dt payload, x.cur = some c → dt.toNat = d.dt → breaks (.csiLongPacket rx vc dt false payload) (fun u =>
      Counted s u F.INT_CSI_ERR_CRC rx.toNat 1)) ∧
    (∀ c payload, x.cur = some c → d.trowMode ≠ 0 → d.trowEmb = true → c.trows + 1 < d.trowCount →
      Gives (.csiEmbeddedData rx vc true payload) s (fun u =>
        (u.strm n).cur = some { c with trow := c.trow ++ payload, trows := c.trows + 1 } ∧ u.cara = s.cara ∧ u.regs = s.regs ∧
        SameMemory s u)) ∧
    (∀ c payload, x.cur = some c → d.trowMode ≠ 0 → d.trowEmb = true → breaks (.csiEmbeddedData rx vc false payload) (fun u =>
      Counted s u F.INT_CSI_ERR_CRC rx.toNat 1)) ∧
    (∀ c dt, x.cur = some c → dt.toNat < 16 → breaks (.csiHeaderError rx vc dt true) (fun u =>
      Counted s u F.INT_CSI_ERR_ECC_UNCORR rx.toNat 1)) ∧
    (∀ dt, 0 < dt.toNat → dt.toNat < 16 → Gives (.csiHeaderError rx vc dt false) s (fun u =>
      Presented s u (148 + rx.toNat / 8) 0x5120 n ∧ Counted s u F.INT_CSI_ERR_ECC_CORR rx.toNat 1 ∧ OnlyRegs s u)) ∧
    (∀ c, x.cur = some c → c.lines < d.height → breaks (.csiFrameEnd rx vc) (fun _ => True)) ∧
    (∀ dt crc, s.camsFor rx.toNat vc.toNat dt.toNat = [] → Gives (.csiUnclaimedPacket rx vc ⟨dt, crc⟩) s (fun u =>
      Counted s u F.INT_CSI_ERR_UNCLAIMED rx.toNat 1 ∧ Counted s u F.INT_CSI_ERR_CRC rx.toNat (if crc ∨ dt.toNat < 16 then 0 else 1) ∧
      OnlyRegs s u ∧ u.cara = s.cara))

/-- R22, R309, R314, R315, R342: a frame whose lines have all arrived is complete when its frame end has come and its pattern lines have
landed, in either order, and then waits for a warp engine; with no engine in service it is lost with 0x6208. An expiry of the frame
timer reloads it and loses the open frame with 0x5101, or the missing one with 0x5103; the loss that reaches LOSS_LIMIT also raises
0x5104 and the stream is lost. -/
def Obligations.CameraFramesComplete : Prop :=
  ∀ (s : State) (rx vc : BitVec 4) (k : BitVec 5), let n := k.toNat
    s.camsOn rx.toNat vc.toNat = [n] → (s.strm n).desc.hostPre = false → s.mayLose n → (s.strm n).desc.trowMode = 0 →
    let x := s.strm n
    let waits := fun (c : Sample) (u : State) => (u.strm n).cur = none ∧ ∃ f ∈ u.intake.waitQ, f.stream = n ∧ f.since = s.tick ∧
      f.sample.entry = c.entry ∧ f.sample.seq = c.seq ∧ f.sample.stamp = c.stamp ∧ f.sample.desc = x.desc
    let landed := fun (c : Sample) => c.patAt + x.desc.patLines * x.desc.lineTicks
    let served := ∃ e, e < 4 ∧ s.rd F.WRP_STATUS_IN_SERVICE e ≠ 0
    (∀ c, s.expiryPast n = false → x.cur = some c → x.desc.height ≤ c.lines → c.patDone = false → Gives (.csiFrameEnd rx vc) s (fun u =>
      (u.strm n).cur = some { c with ended := true } ∧ u.cara = s.cara ∧ u.regs = s.regs ∧ SameMemory s u)) ∧
    (∀ c, s.expiryPast n = false → x.cur = some c → x.desc.height ≤ c.lines → c.patDone = true → served → Gives (.csiFrameEnd rx vc) s (fun u =>
      waits c u ∧ u.cara = s.cara ∧ u.regs = s.regs ∧ SameMemory s u)) ∧
    (∀ c, s.expiryPast n = false → x.cur = some c → x.desc.height ≤ c.lines → c.patDone = true → ¬ served → Gives (.csiFrameEnd rx vc) s (fun u =>
      Lost s u n 151 0x6208 ∧ (u.strm n).cur = none)) ∧
    (∀ c, s.expiryPast n = false → x.cur = some c → s.tick < landed c → exec (.patternInjectEnd k) s = .next s) ∧
    (∀ c, s.expiryPast n = false → x.cur = some c → landed c ≤ s.tick → c.patStarted = true → c.patDone = false → ((s.putPattern n).strm n).cur = some c → c.ended = false →
      Gives (.patternInjectEnd k) s (fun u => (u.strm n).cur = some { c with patDone := true } ∧ SameMemory (s.putPattern n) u)) ∧
    (∀ c, s.expiryPast n = false → x.cur = some c → landed c ≤ s.tick → c.patStarted = true → c.patDone = false → (s.putPattern n).strm n = x → c.ended = true →
      (∃ e, e < 4 ∧ (s.putPattern n).rd F.WRP_STATUS_IN_SERVICE e ≠ 0) → Gives (.patternInjectEnd k) s (fun u => waits c u)) ∧
    (∀ c, x.timerAt = some s.tick → x.cur = some c → exec (.frameTimerExpiry (BitVec.ofNat 6 n)) s = .next s) ∧
    (∀ c t, x.timerAt = some t → t < s.tick → x.cur = some c → Gives (.frameTimerExpiry (BitVec.ofNat 6 n)) s (fun u => Lost s u n 151 0x5101 ∧
      (u.strm n).cur = none ∧ (u.strm n).timerAt = some (t + x.desc.tmo))) ∧
    (∀ t, x.timerAt = some t → t ≤ s.tick → x.cur = none → Gives (.frameTimerExpiry (BitVec.ofNat 6 n)) s (fun u => Lost s u n 151 0x5103 ∧
      (u.strm n).timerAt = some (t + x.desc.tmo))) ∧
    (∀ v, s.expiryDue n = true → x.cur = none → v = s.wr F.INT_LOSS_CONSEC (x.desc.limit - 1) n → x.desc.limit ≤ 15 →
      Gives (.frameTimerExpiry (BitVec.ofNat 6 n)) v (fun u => (u.strm n).state = 3 ∧ (u.strm n).timerAt = none ∧
        Raised s u 151 0x5103 n ∧ Raised s u 151 0x5104 n))

/-- R303, R306, R347: updates of a stream descriptor and of a warp configuration wait for a frame boundary. A write of the index waits, and
one while another waits counts a violation; at the boundary a descriptor that passes its check is in force and one that does not is
refused with 0x5122; a configuration that fits no ring entry, or breaks a range, is refused with 0x6203, and one that every stream can
take is kept. -/
def Obligations.TableUpdates : Prop :=
  ∀ (s : State) (n : BitVec 6),
    let i := n.toNat
    (s.intake.updWait = none → i < 48 → Gives (.intDescUpd n) s (fun u => u.intake.updWait = some i ∧ u.rd F.INT_DESC_UPD_INDEX = i ∧
      u.cara = s.cara ∧ u.mem = s.mem)) ∧
    (∀ m, s.intake.updWait = some m → Gives (.intDescUpd n) s (fun u => Counted s u F.HIF_VIOL0_RO_WRITE 0 1 ∧ OnlyRegs s u)) ∧
    (s.intake.updWait = some i → (s.strm i).cur = none → ∀ l d v, ({ s with intake.updWait := none }).readDesc i = (some (l, d), v) →
      (v.descOk i l d ((v.setStrm i { v.strm i with desc := d }).wcfg i) = true → Gives .descUpdateApply s (fun u =>
        u.intake.updWait = none ∧ (u.strm i).desc = d ∧ (u.strm i).cur = none ∧ (u.strm i).state = (if d.en then 1 else 0) ∧
        u.cara = v.cara)) ∧
      (v.descOk i l d ((v.setStrm i { v.strm i with desc := d }).wcfg i) = false → Gives .descUpdateApply s (fun u =>
        u.intake.updWait = none ∧ u.strm i = v.strm i ∧ Presented v u 151 0x5122 i))) ∧
    (s.intake.updWait = some i → (s.strm i).cur ≠ none → exec .descUpdateApply s = .next s) ∧
    (s.intake.warpNo = none → Gives (.wrpCfgUpd n) s (fun u => u.intake.warpNo = some i ∧ u.intake.warpDone = [] ∧
      u.rd F.WRP_CFG_UPD_INDEX = i ∧ u.cara = s.cara ∧ u.mem = s.mem)) ∧
    (∀ m, s.intake.warpNo = some m → Gives (.wrpCfgUpd n) s (fun u => Counted s u F.HIF_VIOL0_RO_WRITE 0 1 ∧ OnlyRegs s u)) ∧
    (s.intake.warpNo = some i → s.intake.warpNew = [] → s.intake.warpDone = [] → (∀ m ∈ s.warpNamers i, (s.strm m).cur = none) →
      ∀ c v, s.busRead (mWarp 0) (warpTable + 1024 * i) 1024 = (.ok, c, v) →
      let fits := cfgOk c = true ∧ ∀ m ∈ s.warpNamers i, cfgFits c (s.strm m).desc (s.strm m).comps m = true
      (fits → Gives .warpCfgApply s (fun u => u.intake.warpNo = none ∧
        (∀ j, j < 1024 → FMap.get 0#8 u.intake.warpApplied (i * 1024 + j) = c.getD j 0#8) ∧ u.cara = v.cara)) ∧
      (¬ fits → Gives .warpCfgApply s (fun u => u.intake.warpNo = none ∧ u.intake.warpApplied = s.intake.warpApplied ∧
        Presented v u 154 0x6203 i)))

/-- R320, R321, R322, R337: the Ethernet MACs. A frame with a bad FCS, a malformed one and a datagram that no stream takes are dropped, each
counted for its MAC, with 0x5301; one for another address, or too long, changes nothing. A link change shows LINK and SPEED with
0x5302. A Sync sets INT_PTP_OFS and the locked state; three sync intervals without one lead to holdover with 0x5401. A transmitted
gPTP event message is stamped with the tick and TX_NS. Which frames are malformed follows the standards that R320 names (log entry 20). -/
def Obligations.EthernetAndTime : Prop :=
  ∀ (s : State) (mac : BitVec 2) (frame : List Byte),
    let m := mac.toNat
    let c := s.cfg.eth.getD m {}
    let mine := frame.length + 4 ≤ 9216 ∧ (bytesAt frame 0 6 = c.addr ∨ bytesAt frame 0 6 ∈ c.groups)
    let drops := fun (ok : Bool) (f : Fld) => Gives (.ethFrameReceive mac ok frame) s (fun u => Counted s u f m 1 ∧
      Presented s u 150 0x5301 0xffff ∧ OnlyRegs s u)
    drops false F.INT_ETH_STAT_FCS ∧
    (¬ mine → exec (.ethFrameReceive mac true frame) s = .next s) ∧
    (mine → frameOf frame = .ignored → exec (.ethFrameReceive mac true frame) s = .next s) ∧
    (mine → frameOf frame = .malformed → drops true F.INT_ETH_DROP_MALFORMED) ∧
    (∀ d, mine → frameOf frame = .udp d → s.intake.updWait = none → s.intake.warpNo = none →
      (∀ n, 32 ≤ n → n < 48 → (s.strm n).desc.en = true → (s.strm n).desc.takes m d = false) → drops true F.INT_ETH_DROP_FILTER) ∧
    (∀ speed, Gives (.ethLinkChange mac speed) s (fun u => u.rd F.INT_ETH_STAT_LINK m = (if speed = 0#2 then 0 else 1) ∧
      u.rd F.INT_ETH_STAT_SPEED m = speed.toNat ∧ Presented s u 150 0x5302 0xffff ∧ OnlyRegs s u)) ∧
    (∀ ofs interval, Gives (.ptpSyncReceive ofs interval) s (fun u => u.ptpOfs = ofs.toNat ∧ u.rd F.INT_PTP_STATUS_STATE = 1 ∧
      Counted s u F.INT_PTP_STATUS_SYNCS 0 1 ∧ u.intake = { s.intake with syncAt := s.tick, syncInt := interval.toNat } ∧
      u.cara = s.cara ∧ u.mem = s.mem)) ∧
    (s.rd F.INT_PTP_STATUS_STATE = 1 → s.intake.syncAt + 3 * s.intake.syncInt ≤ s.tick → Gives .ptpHoldover s (fun u =>
      u.rd F.INT_PTP_STATUS_STATE = 2 ∧ Presented s u 150 0x5401 s.cfg.gptpMac ∧ OnlyRegs s u)) ∧
    (s.tick < s.intake.syncAt + 3 * s.intake.syncInt → exec .ptpHoldover s = .next s) ∧
    Gives .gptpEventTransmit s (fun u => u = { s with intake.txStamp := (s.tick * 10 + s.rd F.INT_ETH_LAT_TX_NS s.cfg.gptpMac) / 10 })

/-- R323 to R326, R329: packets of network streams. A lidar packet of the open sample writes its point records at the place of its sequence
number and is counted among the received; a JPEG XS packet in order is appended to the codestream. After a lidar sample its test
packet passes the parser: the sample is admitted where the region's CRC agrees, and lost with 0x5210 where it does not. The layout of
RTP is presumed from its standard (log entry 20). -/
def Obligations.NetworkStreams : Prop :=
  ∀ (s : State) (n : Nat), 32 ≤ n → n < 48 →
    let d := (s.strm n).desc
    (∀ (mac : BitVec 2) (frame : List Byte) (g : Udp) (c : Sample),
      let p := parseAt d.parse
      let l := g.data
      d.en = true → d.hostPre = false → d.takes mac.toNat g = true →
      (∀ k, 32 ≤ k → k < n → (s.strm k).desc.en = true → (s.strm k).desc.takes mac.toNat g = false) →
      frameOf frame = .udp g → frame.length + 4 ≤ 9216 → bytesAt frame 0 6 = (s.cfg.eth.getD mac.toNat {}).addr →
      s.intake.updWait = none → s.intake.warpNo = none → (s.strm n).cur = some c →
      (∀ r v w, d.sel = 0 → p.fits l = true → p.sample.bytes ≠ 0 → c.id = true → c.sampleId = p.sample.nat l 0 → p.timeMode = 0 →
        p.seq.bytes ≠ 0 →
        let k := (p.seq.nat l 0 + 2 ^ (8 * p.seq.bytes) - c.seq0) % 2 ^ (8 * p.seq.bytes)
        let stamp := (s.tick * 10 - s.rd F.INT_ETH_LAT_RX_NS mac.toNat) / 10
        k < d.maxPkts → c.pkts.length + 1 < d.maxPkts → packetRecords p d.elev l (10 * ((stamp : Int) - c.stamp)) s = (r, v) →
        v.busWrite mIntake (d.entry c.entry + k * p.nblk * p.npt * 16) r = (.ok, w) →
        Gives (.ethFrameReceive mac true frame) s (fun u => SameMemory w u ∧ (u.strm n).cur = some { c with pkts := c.pkts ++ [k] })) ∧
      (∀ seq inter b w, d.sel = 1 → rtpOf l = some (false, seq, inter, b) → seq = c.rtpSeq → c.len + b.length ≤ d.rxBytes →
        s.busWrite mIntake (d.entry c.entry + c.len) b = (.ok, w) →
        Gives (.ethFrameReceive mac true frame) s (fun u => SameMemory w u ∧ u.cara = w.cara ∧
          (u.strm n).cur = some { c with len := c.len + b.length, rtpSeq := (seq + 1) % 65536 }))) ∧
    (∀ x r rcs v, (s.strm n).ready = x :: r → s.mayLose n → (s.strm n).state = 2 →
      let t := bytesAt (x.desc.test.take x.desc.tvarOff ++ natLe 2 (x.seq % 16) ++ x.desc.test.drop (x.desc.tvarOff + 2)) 0 x.desc.testLen
      (parseAt x.desc.parse).fits t = true → packetRecords (parseAt x.desc.parse) x.desc.elev t 0 s = (rcs, v) →
      let w := v.store mIntake (x.desc.entry x.entry + x.desc.lidarBytes) (bytesAt rcs 0 4096)
      (w.mayLose n) →
      (crc32c (bytesAt rcs 0 4096) = x.desc.pat.getD (x.seq % 16) 0 → Gives (.lidarTestPacketEnd (BitVec.ofNat 6 n)) s (fun u =>
        Admitted s u n x ∧ (u.strm n).ready = r ∧ u.cara = w.cara)) ∧
      (crc32c (bytesAt rcs 0 4096) ≠ x.desc.pat.getD (x.seq % 16) 0 → Gives (.lidarTestPacketEnd (BitVec.ofNat 6 n)) s (fun u =>
        Lost w u n 150 0x5210 ∧ Counted w u F.INT_CHK_PAT_FAIL n 1 ∧ (u.strm n).ready = r)))

/-- R327, R328, R332, R334, R338: decoding on a JPEG XS engine. The first ready sample of an idle decoder starts; its end writes the picture
and the test band and sends the sample to the warp engines, or counts a syntax error and loses it with 0x6103; a decode that reaches
its budget is aborted with 0x6101 and a reset of the engine, which takes no sample until it is over; an uncorrectable buffer resets the
engine with 0x6106. The decoded samples are the command's operands (log entry 2). -/
def Obligations.JpegXsDecoding : Prop :=
  ∀ (s : State) (e : BitVec 1),
    let i := e.toNat
    let j := s.jxs i
    let free := fun (u : State) => (u.jxs i).cur = none ∧ u.rd F.JXS_STATUS_BUSY i = 0
    (∀ n x, s.intake.jxsQ.find? (fun r => r.1 == i) = some (i, n, x) → n < 48 → j.idle = true → (s.unit 4 i).running = false → s.rd F.JXS_STATUS_MODE_ACT i = 0 →
      Gives (.jxsDecodeStart e) s (fun u => (u.jxs i).cur = some (n, x) ∧ (u.jxs i).startAt = s.tick ∧ u.rd F.JXS_STATUS_BUSY i = 1 ∧
        u.rd F.JXS_STATUS_INDEX i = n ∧ u.intake.jxsQ = delFirst (fun r => r.1 == i) s.intake.jxsQ ∧ u.cara = s.cara ∧ u.mem = s.mem)) ∧
    (j.resetAt ≠ none → Gives (.jxsEngineReady e) s (fun u => (u.jxs i).resetAt = none ∧ u.regs = s.regs ∧ u.cara = s.cara) ∧
      exec (.jxsDecodeStart e) s = .next s) ∧
    (∀ n x pix band cycles b v, j.cur = some (n, x) → s.jxsCycles i < x.desc.decBudget →
      (s.wr F.JXS_LAST_CYCLES cycles.toNat i).busRead (mJxs i) (x.desc.entry x.entry) x.len = (.ok, b, v) →
      (v.current n x = true → v.mayLose n → Gives (.jxsDecodeEnd e false pix band cycles) s (fun u =>
        Lost v u n (152 + i) 0x6103 ∧ Counted v u F.JXS_REJECT_SYNTAX i 1 ∧ free u)) ∧
      (∀ w, (v.putRows i (x.desc.entry x.entry + x.desc.fbOff n) (x.desc.lineBytes n x.cfg) (x.wf * cfgComps x.cfg) pix x.hf).bind (fun v =>
          v.putRows i (x.desc.entry x.entry + x.desc.fbOff n + x.desc.height * x.desc.lineBytes n x.cfg) (x.desc.lineBytes n x.cfg)
            (x.desc.width * cfgComps x.cfg)
            (band ++ List.replicate (x.desc.patLines * x.desc.width * cfgComps x.cfg - band.length) 0xA5A5#16) x.desc.patLines) = some w →
        (∃ k, k < 4 ∧ w.rd F.WRP_STATUS_IN_SERVICE k ≠ 0) → Gives (.jxsDecodeEnd e true pix band cycles) s (fun u => free u ∧
          SameMemory w u ∧ ∃ f ∈ u.intake.waitQ, f.stream = n ∧ f.sample = x))) ∧
    (∀ n x, j.cur = some (n, x) → x.desc.decBudget ≤ s.jxsCycles i → s.current n x = true → s.mayLose n →
      Gives (.jxsBudgetExpiry e) s (fun u => Lost s u n (152 + i) 0x6101 ∧ Counted s u F.JXS_ABORT_BUDGET i 1 ∧
        Counted s u F.JXS_ABORT_RESETS i 1 ∧ free u ∧ (u.jxs i).resetAt = some s.tick ∧
        u.rd F.JXS_LAST_CYCLES i = s.jxsCycles i % 2 ^ 32)) ∧
    (∀ n x, j.cur = some (n, x) → s.current n x = true → s.mayLose n → Gives (.jxsBufferError e) s (fun u =>
      Lost s u n (152 + i) 0x6106 ∧ Counted s u F.JXS_ABORT_RESETS i 1 ∧ free u ∧ (u.jxs i).resetAt = some s.tick)) ∧
    (j.cur = none → j.enc = none → Gives (.jxsBufferError e) s (fun u => Presented s u (152 + i) 0x6106 0xffff ∧
      (u.jxs i).resetAt = some s.tick ∧ SameMemory s u))

/-- R327, R335, R336, R338, R541: encoding for the recorder. The first selected frame of an idle encoder starts; a clip in time is written
to the next clip entry and its record is offered with stream, engine, entry, SEQ, stamp, length and SHA-384; one that reaches the
budget is given up, counted, raised as 0x6105 and offered as missing. A change of mode takes effect between samples. The clip is the
command's operand (log entry 2). -/
def Obligations.JpegXsEncoding : Prop :=
  ∀ (s : State) (e : BitVec 1),
    let i := e.toNat
    let j := s.jxs i
    let d := s.encDesc i
    (∀ n x, s.intake.encQ.find? (fun r => r.1 == i) = some (i, n, x) → n < 48 → j.idle = true → (s.unit 4 i).running = false → s.rd F.JXS_STATUS_MODE_ACT i ≠ 0 →
      Gives (.jxsEncodeStart e) s (fun u => (u.jxs i).enc = some (n, x) ∧ (u.jxs i).startAt = s.tick ∧ u.rd F.JXS_STATUS_BUSY i = 1 ∧
        u.rd F.JXS_STATUS_INDEX i = n ∧ u.intake.encQ = delFirst (fun r => r.1 == i) s.intake.encQ ∧ u.cara = s.cara ∧ u.mem = s.mem)) ∧
    (∀ n x clip cycles b v w, j.enc = some (n, x) → s.jxsCycles i < d.budget → clip.length ≤ d.clipBytes →
      128 * clip.length ≤ encPixels d x * d.bpp →
      (s.wr F.JXS_LAST_CYCLES cycles.toNat i).busRead (mJxs i) (encSource d n x).1 (encSource d n x).2 = (.ok, b, v) →
      v.busWrite (mJxs i) (d.clip + j.clipNext * d.clipBytes) clip = (.ok, w) → Gives (.jxsEncodeEnd e clip cycles) s (fun u =>
        SameMemory w u ∧ (u.jxs i).enc = none ∧ (u.jxs i).clipNext = (j.clipNext + 1) % Nat.max 1 d.nclip ∧
        u.rd F.JXS_STATUS_BUSY i = 0 ∧ u.rd F.JXS_LAST_CYCLES i = cycles.toNat ∧ ∃ r, u.coc.offers = s.coc.offers ++ [r] ∧ r.kind = 2 ∧
          r.tick = s.tick ∧ r.body = bytesAt (natLe 1 n ++ natLe 1 i ++ natLe 1 j.clipNext ++ natLe 1 0 ++ natLe 4 x.seq ++
            natLe 8 x.stamp ++ natLe 4 clip.length ++ natLe 4 0 ++ sha384 clip) 0 104)) ∧
    (∀ n x, j.enc = some (n, x) → d.budget ≤ s.jxsCycles i → Gives (.jxsEncodeBudgetExpiry e) s (fun u => (u.jxs i).enc = none ∧
      Counted s u F.JXS_TEST_ENC_ABORT i 1 ∧ Presented s u (152 + i) 0x6105 n ∧ SameMemory s u ∧
      ∃ r, u.coc.offers = s.coc.offers ++ [r] ∧ r.kind = 3 ∧ r.body = bytesAt (natLe 1 n ++ zeros 3 ++ natLe 4 x.seq ++ natLe 2 0x6105) 0 104)) ∧
    (∀ mode, j.cur = none → j.enc = none → Gives (.jxsModeWrite e mode) s (fun u => u.rd F.JXS_CTRL_MODE i = b2n mode ∧
      u.rd F.JXS_STATUS_MODE_ACT i = b2n mode ∧ OnlyRegs s u ∧ u.cara = s.cara)) ∧
    (∀ mode, j.cur ≠ none → Gives (.jxsModeWrite e mode) s (fun u => u.rd F.JXS_CTRL_MODE i = b2n mode ∧
      u.rd F.JXS_STATUS_MODE_ACT i = s.rd F.JXS_STATUS_MODE_ACT i ∧ OnlyRegs s u))

/-- R310, R311, R341 to R343, R350, R359 to R361, R439: the warp engines. A frame that waits starts on the lowest idle engine, and a frame to be
rerun on the next engine; a completed warp admits its frame where the mesh and the pattern agree, is put up for one rerun with 0x5110
where the pattern does not, and is lost with 0x6206 where the mesh does not; a warp beyond its PERIOD is aborted with 0x6204, a rerun
that waits as long is lost with 0x5111, of a JPEG XS stream with 0x6104; a clean rerun on another engine attributes the mismatch to the first; a disagreement of the coordinate datapaths loses the frame with 0x6207 and is attributed to the
engine with 0x6201; an uncorrectable buffer is counted and raised as 0x4011 and resets the engine with 0x6205. Starts and ends are traced; a
trace queue without room raises an event of its own. -/
def Obligations.WarpEngines : Prop :=
  ∀ (s : State) (e : BitVec 2),
    let i := e.toNat
    let w := s.warp i
    let line := 154 + i
    let free := fun (u : State) => (u.warp i).cur = none ∧ u.rd F.WRP_STATUS_BUSY i = 0
    (∀ f q, s.intake.rerunQ = [] → s.intake.waitQ = f :: q → f.stream < 48 → s.warpIdle i = true → (∀ k, k < i → s.warpIdle k = false) →
      Gives .warpAssign s (fun u => (u.warp i).cur = some (f.stream, f.sample) ∧ (u.warp i).startAt = s.tick ∧ (u.warp i).rerun = none ∧
        u.rd F.WRP_STATUS_BUSY i = 1 ∧ u.rd F.WRP_STATUS_INDEX i = f.stream ∧ u.intake.waitQ = q ∧ u.mem = s.mem ∧
        (s.traceRoom → u.cara = s.cara ∧ TracedWarp s u 0x10 [f.stream, i, f.sample.seq, 0]))) ∧
    (∀ r q, s.intake.rerunQ = r :: q → r.stream < 48 → s.rerunEngine r.first = some i → s.warpIdle i = true → Gives .warpAssign s (fun u =>
      (u.warp i).cur = some (r.stream, r.sample) ∧ (u.warp i).rerun = some r.first ∧ u.rd F.WRP_STATUS_RERUN i = 1 ∧
      u.intake.rerunQ = q ∧ u.mem = s.mem ∧
      (s.traceRoom → u.cara = s.cara ∧ TracedWarp s u 0x10 [r.stream, i, r.sample.seq, 1]))) ∧
    (∀ n x region mesh v cycles, w.cur = some (n, x) → s.tick ≤ w.startAt + x.desc.period → s.runWarp i n x = (some (region, mesh), v) →
      v.current n x = true → v.mayLose n →
      let pat := x.desc.pat.getD (if x.desc.jxs n then 0 else x.seq % 16) 0
      (mesh = (wcfgAt x.cfg).meshCrc → region = pat → w.rerun = none → Gives (.warpComplete e 0#32 0#32 cycles) s (fun u =>
        free u ∧ Admitted s u n x ∧ SameMemory (v.noteState n) u ∧ (v.traceRoom → u.cara = v.cara ∧ TracedWarp v u 0x11 [n, i, 0, cycles.toNat]))) ∧
      (∀ k, mesh = (wcfgAt x.cfg).meshCrc → region = pat → w.rerun = some k → k ≠ i → (s.warp k).attrib = [] →
        Gives (.warpComplete e 0#32 0#32 cycles) s (fun u => free u ∧ Admitted s u n x ∧ Raised v u (154 + k) 0x6201 n ∧
          Counted v u F.WRP_ERR_ATTRIB k 1 ∧ (v.traceRoom → Presented v u (154 + k) 0x6201 n))) ∧
      (mesh = (wcfgAt x.cfg).meshCrc → region ≠ pat → w.rerun = none → Gives (.warpComplete e 0#32 0#32 cycles) s (fun u =>
        free u ∧ Raised v u line 0x5110 n ∧ Counted v u F.INT_CHK_PAT_FAIL n 1 ∧
        (v.traceRoom → Presented v u line 0x5110 n ∧ TracedWarp v u 0x11 [n, i, 0x5110, cycles.toNat]) ∧
        ∃ q, u.intake.rerunQ = s.intake.rerunQ ++ [q] ∧ q.stream = n ∧ q.sample = x ∧ q.first = i)) ∧
      (mesh ≠ (wcfgAt x.cfg).meshCrc → Gives (.warpComplete e 0#32 0#32 cycles) s (fun u => free u ∧ Raised v u line 0x6206 n ∧
        Counted v u F.WRP_ERR_MESH_CRC i 1 ∧ (v.traceRoom → Lost v u n line 0x6206 ∧ TracedWarp v u 0x11 [n, i, 0x6206, cycles.toNat])))) ∧
    (∀ n x, w.cur = some (n, x) → w.startAt + x.desc.period ≤ s.tick → s.current n x = true → s.mayLose n → Gives (.warpTimeout e) s (fun u =>
      free u ∧ Raised s u line 0x6204 n ∧ Counted s u F.WRP_ERR_TIMEOUT i 1 ∧
      (s.traceRoom → Lost s u n line 0x6204 ∧ TracedWarp s u 0x11 [n, i, 0x6204, 8 * (s.tick - w.startAt)]))) ∧
    (∀ r q, s.intake.rerunQ = r :: q → r.since + r.sample.desc.period ≤ s.tick → s.current r.stream r.sample = true → s.mayLose r.stream →
      Gives (.warpWaitTimeout (BitVec.ofNat 6 r.stream)) s (fun u => (r.sample.desc.jxs r.stream = true →
        Lost s u r.stream (152 + r.sample.desc.dt) 0x6104) ∧ (r.sample.desc.jxs r.stream = false → Lost s u r.stream 151 0x5111) ∧ u.intake.rerunQ = q)) ∧
    (∀ n x, w.cur = some (n, x) → s.current n x = true → s.mayLose n → w.attrib = [] → Gives (.warpCoordMismatch e) s (fun u =>
      free u ∧ Raised s u line 0x6207 n ∧ Raised s u line 0x6201 n ∧ Counted s u F.WRP_ERR_COORD i 1 ∧ Counted s u F.WRP_ERR_ATTRIB i 1 ∧
      (u.warp i).attrib = [s.tick])) ∧
    (∀ n x, w.cur = some (n, x) → s.current n x = true → s.mayLose n → Gives (.warpBufferError e) s (fun u => free u ∧
      Raised s u line 0x4011 n ∧ Raised s u line 0x6205 n ∧ Counted s u F.MEM_SRAM_ECC_UNCORR 0 1 ∧ Counted s u F.INT_LOSS_TOTAL n 1 ∧
      (u.warp i).resetAt = some s.tick))

/-- R364, R371, R374 to R376, R378, R380, R397: reads and writes of device memory by the host. A whole-sector write with no error armed
stores its bytes with a good check word, takes the sector out of the lost-sector table, and touches no other byte; a write of part of a
clean sector merges; of part of a lost sector it fails with 0x4021, counted, and stores nothing; so does one that meets three CRC
mismatches on its link, with 0x4005. A read of clean sectors changes no byte and raises nothing; a read of a lost sector is counted and
raises 0x4002, and the host gets Completer Abort with 0x7030. Stated with no word of a check-symbol cache in error. -/
def Obligations.DeviceMemoryAccesses : Prop :=
  ∀ (s : State) (addr : BitVec 34) (data : List Byte) (edc : List (BitVec 2)), s.cacheClean →
    let a := addr.toNat
    let sec := a / 32
    let m := mapAddress (32 * sec)
    let host := BitVec.ofNat 12 mHost
    let good := edcOf edc 0 = 0
    let stored := fun (u : State) => (∀ i, i < data.length → u.peek (a + i) = data.getD i 0#8) ∧
      (∀ b, (b < a ∨ a + data.length ≤ b) → u.peek b = s.peek b) ∧ u.cara = s.cara ∧ u.swarm = s.swarm
    let event := fun (u : State) (code : Nat) (f : Fld) => Raised s u (128 + m.ch) code mHost ∧ Counted s u f m.ch 1 ∧ SameMemory s u ∧
      Raised s u 160 0x7030 0 ∧ u.swarm = s.swarm
    (good → a % 32 = 0 → data.length = 32 → a + 32 ≤ gddrEnd → s.rd F.MEM_INJ_ARM m.ch = 0 →
      Gives (.memWriteCommit host addr data edc) s (fun u => stored u ∧ u.secDiff sec = 0 ∧ u.secLost m = false)) ∧
    (good → data ≠ [] → a % 32 + data.length < 32 → a + data.length ≤ gddrEnd → s.secDiff sec = 0 → s.secLost m = false →
      Gives (.memWriteCommit host addr data edc) s (fun u => stored u ∧ u.secDiff sec = 0)) ∧
    (good → data ≠ [] → a % 32 + data.length < 32 → a + data.length ≤ gddrEnd → s.secLost m = true →
      Gives (.memWriteCommit host addr data edc) s (fun u => event u 0x4021 F.MEM_ECC_UNCORR)) ∧
    (edcOf edc 0 = 3 → data ≠ [] → a % 32 + data.length ≤ 32 → a + data.length ≤ gddrEnd →
      Gives (.memWriteCommit host addr data edc) s (fun u => event u 0x4005 F.MEM_EDC_FAIL ∧ Counted s u F.MEM_EDC_RETRY m.ch 2)) ∧
    (∀ (len : BitVec 13), 0 < len.toNat → a % 32 + len.toNat ≤ 32 → a + len.toNat ≤ gddrEnd →
      (good → s.secDiff sec = 0 → s.secLost m = false → Gives (.memRead host addr len [] edc) s (fun u => SameMemory s u ∧
        u.secDiff sec = 0 ∧ u.cara = s.cara ∧ u.swarm = s.swarm)) ∧
      (good → s.secLost m = true → Gives (.memRead host addr len [] edc) s (fun u => event u 0x4002 F.MEM_ECC_UNCORR)))

/-- R369 to R371, R373: an error confined to one symbol of a clean sector is found and corrected. The decoder names exactly the flipped bits
of a data symbol; a read that such an error strikes is counted and raises 0x4001, and queues the corrective write, which restores
the sector's bytes with a good check word. Stated with no word of a check-symbol cache in error. -/
def Obligations.OneSymbolErrorsAreCorrected : Prop :=
  (∀ j v, j < 64 → 0 < v → v < 16 → eccDecode (checkWord (symMask j v)) = .data (symMask j v)) ∧
  (∀ (s : State) (addr : BitVec 34) (j v : Nat), s.cacheClean → j < 64 → 0 < v → v < 16 → addr.toNat % 32 = 0 → addr.toNat + 32 ≤ gddrEnd →
    let sec := addr.toNat / 32
    let m := mapAddress (32 * sec)
    s.secDiff sec = 0 → s.secLost m = false → sec ∉ (s.chan m.ch).corr →
    Gives (.memRead (BitVec.ofNat 12 mHost) addr 32#13 [BitVec.ofNat 272 (symMask j v)] []) s (fun u =>
      Counted s u F.MEM_ECC_CORR m.ch 1 ∧ Presented s u (128 + m.ch) 0x4001 mHost ∧ (u.chan m.ch).corr = (s.chan m.ch).corr ++ [sec] ∧
      u.decodeSec sec = (.data (symMask j v), s.peekN addr.toNat 32))) ∧
  (∀ (s : State) (ch : BitVec 3) (sec mask : Nat) (r : List Nat) (d : List Byte), s.cacheClean → (s.chan ch.toNat).corr = sec :: r →
    (s.decodeSec sec = (.data mask, d) → d.length = 32 → Gives (.correctiveWrite ch) s (fun u => (u.chan ch.toNat).corr = r ∧
      u.secDiff sec = 0 ∧ u.peekN (32 * sec) 32 = d ∧ u.cara = s.cara)) ∧
    (s.decodeSec sec = (.clean, d) → Gives (.correctiveWrite ch) s (fun u => (u.chan ch.toNat).corr = r ∧ u.regs = s.regs ∧
      u.mem = s.mem ∧ u.cara = s.cara)))

/-- R377, R378, R383 to R385, R386: upkeep of a channel. An evicted check line leaves the cache; found uncorrectable its sectors are lost,
counted and raised as 0x4006, and with the table full 0x4020 declares the device's contents lost. A refresh advances the row; the
memory's temperature is shown with the refresh rate it asks for, and a move by 8 °C makes the channel due; a window trains the channel,
with an all-bank refresh, the second failed one in a row raising 0x4009; a due channel without a grant for 1 s raises 0x400A. Stated with no word of a check-symbol cache in error before the command. -/
def Obligations.ChannelUpkeep : Prop :=
  ∀ (s : State) (ch : BitVec 3), s.cacheClean →
    let c := ch.toNat
    let x := s.chan c
    let dirty := (x.cache.filter (·.dirty)).getLast?
    (dirty = none → ∀ bad, exec (.checkLineEvict ch bad) s = .next s) ∧
    (∀ l, dirty = some l → Gives (.checkLineEvict ch false) s (fun u =>
      u.chan c = { x with cache := x.cache.filter (fun y => y.line != l.line) } ∧ u.mem = s.mem ∧ u.regs = s.regs ∧ u.cara = s.cara)) ∧
    (∀ l, dirty = some l → (x.lost.filter (fun e => e.line != l.line)).length < 64 → Gives (.checkLineEvict ch true) s (fun u =>
      Presented s u (128 + c) 0x4006 mCtl ∧ Counted s u F.MEM_LOST_TOTAL c 1 ∧ SameMemory s u ∧
      (u.chan c).lost = x.lost.filter (fun e => e.line != l.line) ++ [{ line := l.line, left := List.range 16 }])) ∧
    (∀ l, dirty = some l → 64 ≤ (x.lost.filter (fun e => e.line != l.line)).length → Gives (.checkLineEvict ch true) s (fun u =>
      Raised s u (128 + c) 0x4006 mCtl ∧ Raised s u (128 + c) 0x4020 mCtl ∧ u.cara.zeroFill = true)) ∧
    Gives (.refreshDue ch) s (fun u => u.chan c = { x with refRow := (x.refRow + 1) % 32768 } ∧ u.regs = s.regs ∧ u.mem = s.mem ∧
      u.cara = s.cara ∧ ∀ k, k ≠ c → u.chan k = s.chan k) ∧
    (∀ temp : BitVec 8, Gives (.retrainDue ch temp) s (fun u => u.rd F.MEM_STATUS_TEMP c = temp.toNat ∧
      u.rd F.MEM_STATUS_REF_X2 c = (if 85 < temp.toInt then 1 else 0) ∧ u.mem = s.mem ∧ u.cara = s.cara ∧
      (x.trained = true → 8 ≤ temp.toInt - x.trainTemp → (u.chan c).dueAt = some (x.dueAt.getD s.tick)))) ∧
    (s.mayTrain c = true → s.chk.reqs = [] →
      Gives (.retrainWindow ch true) s (fun u => Counted s u F.MEM_TRAIN_COUNT c 1 ∧ u.rd F.MEM_TRAIN_DUE c = 0 ∧
        u.rd F.MEM_TRAIN_GRANT c = 0 ∧ u.cara = s.cara ∧ u.mem = s.mem ∧
        (let t := (BitVec.ofNat 8 (s.rd F.MEM_STATUS_TEMP c)).toInt
         u.chan c = { x with winAt := s.tick, overdue := false, refRow := (x.refRow + 1) % 32768, dueAt := none, trainAt := s.tick,
                              trainTemp := t, failRun := 0 })) ∧
      (x.failRun = 0 → Gives (.retrainWindow ch false) s (fun u => (u.chan c).failRun = 1 ∧ (u.chan c).dueAt = x.dueAt ∧ u.cara = s.cara)) ∧
      (x.failRun ≠ 0 → Gives (.retrainWindow ch false) s (fun u => (u.chan c).failRun = 0 ∧ Presented s u (128 + c) 0x4009 mCtl))) ∧
    (∀ t, x.dueAt = some t → s.modes.memtrain = true → t + ms 1000 ≤ s.tick → s.rd F.MEM_TRAIN_GRANT c = 0 → x.overdue = false →
      Gives (.trainGrantTimeout ch) s (fun u => Presented s u (128 + c) 0x400A mCtl ∧ Counted s u F.MEM_TRAIN_OVERDUE c 1 ∧
        (u.chan c).overdue = true ∧ u.mem = s.mem)) ∧
    (s.modes.memtrain = true → Gives (.memTrainGrant ch) s (fun u => u.rd F.MEM_TRAIN_GRANT c = 1 ∧ OnlyRegs s u ∧ u.cara = s.cara)) ∧
    (s.modes.memtrain = false → s.dev.step = 12 → exec (.memTrainGrant ch) s = .next s)

/-- R377, R378, R387 to R390, R392: scrubs and error injection. SCRUB_READ, SRAM_SCRUB_WORD and MEM_INJ_ARM complete. A patrol read that
comes before its turn changes nothing; one in its turn advances the channel's position; an uncorrectable sector is counted and
raises 0x4003; an SRAM word with one flipped bit is corrected, counted and raised as 0x4010; one with more raises 0x4011 once. A dirty line of a
check-symbol cache whose word is found uncorrectable is lost. Arming
an error is a violation where its value names nothing, or while a safety-capable device runs a pipeline. The patrol is stated with no word
of a check-symbol cache in error. -/
def Obligations.ScrubsAndInjection : Prop :=
  ∀ (s : State) (ch : BitVec 3),
    let c := ch.toNat
    let pos := (s.chan c).scrubPos
    let sec := scrubSector c pos
    let next := (pos + 1) % chanSectors
    let turn := (s.chan c).scrubAt + s.scrubStep c ≤ s.tick
    (¬ turn → ∀ flip, exec (.scrubRead ch flip) s = .next s) ∧
    (∀ d, turn → s.cacheClean → s.decodeSec sec = (.clean, d) → Gives (.scrubRead ch 0#272) s (fun u => (u.chan c).scrubPos = next ∧ SameMemory s u ∧ u.cara = s.cara ∧
      u.rd F.MEM_SCRUB_ERR_UNCORR c = s.rd F.MEM_SCRUB_ERR_UNCORR c)) ∧
    (∀ d, turn → s.cacheClean → s.decodeSec sec = (.bad, d) → Gives (.scrubRead ch 0#272) s (fun u => (u.chan c).scrubPos = next ∧ SameMemory s u ∧
      Presented s u (128 + c) 0x4003 mCtl ∧ Counted s u F.MEM_SCRUB_ERR_UNCORR c 1)) ∧
    (∀ mask d, turn → s.cacheClean → s.decodeSec sec = (.data mask, d) → d.length = 32 → Gives (.scrubRead ch 0#272) s (fun u => (u.chan c).scrubPos = next ∧
      u.secDiff sec = 0 ∧ u.peekN (32 * sec) 32 = d ∧ Presented s u (128 + c) 0x4001 mCtl ∧ Counted s u F.MEM_SCRUB_ERR_CORR c 1)) ∧
    (∀ addr : BitVec 48, let w := addr.toNat / 8 * 8
      let e := FMap.get {} s.mem.sram w
      gddrEnd ≤ w → s.oneRegion w 8 = true →
      (e.bits = 0 → exec (.sramScrubWord addr 0#72) s = .next s) ∧
      (e.bits = 1 → Gives (.sramScrubWord addr 0#72) s (fun u => FMap.get {} u.mem.sram w = {} ∧ Counted s u F.MEM_SRAM_ECC_CORR 0 1 ∧
        Presented s u (s.sramLine w).1 0x4010 (s.sramLine w).2 ∧ SameMemory s u)) ∧
      (2 ≤ e.bits → e.seen = false → Gives (.sramScrubWord addr 0#72) s (fun u => FMap.get {} u.mem.sram w = { e with seen := true } ∧
        Counted s u F.MEM_SRAM_ECC_UNCORR 0 1 ∧ Presented s u (s.sramLine w).1 0x4011 (s.sramLine w).2 ∧ SameMemory s u)) ∧
      (2 ≤ e.bits → e.seen = true → exec (.sramScrubWord addr 0#72) s = .next s)) ∧
    (∀ l w, (s.chan c).cache = [l] → l.dirty = true → l.way < 8 → w < 4 → (s.chan c).lost.length < 64 →
      (FMap.get {} s.mem.sram (chkWord c l.line l.way w)).bits = 2 → (FMap.get {} s.mem.sram (chkWord c l.line l.way w)).seen = false →
      Gives (.sramScrubWord (BitVec.ofNat 48 (chkWord c l.line l.way w)) 0#72) s (fun u => (u.chan c).cache = [] ∧
        Raised s u (128 + c) 0x4011 mCtl ∧ Raised s u (128 + c) 0x4006 mCtl ∧ Counted s u F.MEM_LOST_TOTAL c 1)) ∧
    (let may := s.rd F.MEM_INJ_VALUE c ≠ 0 ∧ s.rd F.MEM_INJ_POS c ≤ 67 ∧ (s.rd F.HIF_ID_SAFETY = 0 ∨ s.anyRunning = false)
     (may → Gives (.memInjArm ch) s (fun u => u.rd F.MEM_INJ_ARM c = 1 ∧ OnlyRegs s u ∧ u.cara = s.cara)) ∧
     (¬ may → Gives (.memInjArm ch) s (fun u => u.rd F.MEM_INJ_ARM c = s.rd F.MEM_INJ_ARM c ∧ Counted s u F.HIF_VIOL0_RO_WRITE 0 1 ∧
       OnlyRegs s u)))

/-- R6 to R9, R15, R74, R375, R393 to R399, R425, R602: accesses of the host. A write to a register whose fields are RW or W1C stores the written
bits or clears them, and nothing else; a write that leaves the fields of a read-only register as they read does nothing, and one
that gives one another value is a violation; so are a write that a protected window does not allow and a nonzero one to a reserved
register. A hole is counted and reads 0. An access to the memory or the ARR_ window of a tile that is being moved is held. BAR2 reads and
writes device memory, BAR4 the memories of tiles, broods and the system that R399 leaves to the host; a BAR2 access that meets three CRC
mismatches on its link raises 0x7030 and stores nothing. A request with an error is counted and raises 0x7031; a correctable link error
is only counted. A write of configuration space sets Bus Master Enable, the size of BAR2 or the power state; in D3hot no BAR access acts (the places of
these bits are the model's, log entry 23). Device memory is stated with no word of a check-symbol cache in error. -/
def Obligations.HostAccesses : Prop :=
  ∀ s : State, s.linkedUp = true →
    let counts := fun (c : Instr) (f : Fld) => Gives c s (fun u => Counted s u f 0 1 ∧ OnlyRegs s u ∧ u.cara = s.cara ∧
      ∀ (g : Fld) (i : Nat), g.key i ≠ f.key 0 → u.rd g i = s.rd g i)
    let readsZero := fun (c : Instr) (n : Nat) => Gives c s (fun u => Counted s u F.HIF_VIOL0_HOLE 0 1 ∧
      u = { s with regs := u.regs, host.lastRead := some (List.replicate n 0) })
    let stored := fun (u : State) (a : Nat) (d : List Byte) => (∀ i, i < d.length → u.peek (a + i) = d.getD i 0#8) ∧
      (∀ b, (b < a ∨ a + d.length ≤ b) → u.peek b = s.peek b) ∧ u.cara = s.cara ∧ u.swarm = s.swarm
    (∀ (off : Nat), off < 0x1000000 → off % 4 = 0 → s.hostHole off = false → hostMay off = true → ∀ (r : RegRow) (i : Nat) (v : BitVec 32),
      regAt off = some (r, i) →
      let write := Instr.regWrite true (BitVec.ofNat 48 off) 4#4 (v.setWidth 64)
      s.arrMoving off = none →
      (v.toNat &&& (2 ^ 32 - 1 - r.used) = 0 → (∀ f ∈ r.flds, f.ty = .rw ∨ f.ty = .w1c) → Gives write s (fun u => OnlyRegs s u ∧
        (∀ f ∈ r.flds, u.rd f i = if f.ty = .rw then f.cut v.toNat else s.rd f i &&& (2 ^ f.w - 1 - f.cut v.toNat)) ∧
        ∀ (g : Fld) (k : Nat), (∀ f ∈ r.flds, g.key k ≠ f.key i) → u.rd g k = s.rd g k)) ∧
      ((∀ f ∈ r.flds, f.ty = .ro ∨ f.ty = .ros) →
        (s.writeBad r i v.toNat = false → exec write s = .next s) ∧
        (s.writeBad r i v.toNat = true → counts write F.HIF_VIOL0_RO_WRITE))) ∧
    (∀ (off : Nat) (v : BitVec 32), off < 0x1000000 → off % 4 = 0 →
      let write := Instr.regWrite true (BitVec.ofNat 48 off) 4#4 (v.setWidth 64)
      (s.hostHole off = true → counts write F.HIF_VIOL0_HOLE) ∧
      (s.hostHole off = false → hostMay off = false → counts write F.HIF_VIOL0_RO_WRITE) ∧
      (∀ t, s.arrMoving off = some t → s.hostHole off = false → Gives write s (fun u => u.regs = s.regs ∧ u.mem = s.mem ∧ u.cara = s.cara ∧
        (u.brood (tileBrood t)).held = (s.brood (tileBrood t)).held ++ [{ kind := 2, host := true, addr := off, data := natLe 4 v.toNat }])) ∧
      (s.hostHole off = false → s.arrMoving off = none → hostMay off = true → regAt off = none → v ≠ 0#32 → counts write F.HIF_VIOL0_RO_WRITE) ∧
      (s.hostHole off = false → counts (.regWrite true (BitVec.ofNat 48 off) 2#4 (v.setWidth 64)) F.HIF_VIOL1_SUBWORD)) ∧
    (∀ addr : BitVec 48, s.isHole addr.toNat = true →
      counts (.holeAccess true addr) F.HIF_VIOL0_HOLE ∧ readsZero (.holeAccess false addr) 4) ∧
    (∀ kind : BitVec 2, Gives (.tlpErrorReceive kind) s (fun u => u.mem = s.mem ∧ u.swarm = s.swarm ∧
      (kind.toNat < 2 → Presented s u 160 0x7031 0) ∧ (2 ≤ kind.toNat → u.cara = s.cara) ∧
      Counted s u (if kind.toNat = 0 then F.HIF_PCIE_ERR_ECRC else if kind.toNat = 1 then F.HIF_PCIE_ERR_POISON else F.HIF_PCIE_ERR_CORR) 0 1)) ∧
    (∀ (off : BitVec 34) (edc : List (BitVec 2)), off.toNat < 2 ^ s.host.bar2Bits → 12 ≤ s.dev.step → s.cacheClean →
      let a := s.bar2Addr off.toNat
      let m := mapAddress (32 * (a / 32))
      (gddrEnd ≤ a → (∀ len, readsZero (.hostBar2Read ⟨off, edc⟩ len) len.toNat) ∧ ∀ data, counts (.hostBar2Write ⟨off, edc⟩ data) F.HIF_VIOL0_HOLE) ∧
      (edcOf edc 0 = 0 → s.secDiff (a / 32) = 0 → s.secLost m = false →
        (∀ len, 0 < len.toNat → a % 32 + len.toNat ≤ 32 → a + len.toNat ≤ gddrEnd → Gives (.hostBar2Read ⟨off, edc⟩ len) s (fun u =>
          u.host.lastRead = some (s.peekN a len.toNat) ∧ SameMemory s u ∧ u.cara = s.cara ∧ u.swarm = s.swarm)) ∧
        (∀ data, data ≠ [] → a % 32 + data.length ≤ 32 → a + data.length ≤ gddrEnd → s.rd F.MEM_INJ_ARM m.ch = 0 →
          Gives (.hostBar2Write ⟨off, edc⟩ data) s (fun u => stored u a data ∧ u.secDiff (a / 32) = 0))) ∧
      (edcOf edc 0 = 3 →
        (∀ len, 0 < len.toNat → a % 32 + len.toNat ≤ 32 → a + len.toNat ≤ gddrEnd → Gives (.hostBar2Read ⟨off, edc⟩ len) s (fun u =>
          u.host.lastRead = none ∧ SameMemory s u ∧ u.swarm = s.swarm ∧ Raised s u 160 0x7030 0 ∧ Counted s u F.HIF_PCIE_ERR_CA 0 1)) ∧
        (∀ data, data ≠ [] → a % 32 + data.length ≤ 32 → a + data.length ≤ gddrEnd → Gives (.hostBar2Write ⟨off, edc⟩ data) s (fun u =>
          SameMemory s u ∧ u.swarm = s.swarm ∧ Raised s u 160 0x7030 0 ∧ Counted s u F.HIF_PCIE_ERR_CA 0 1)))) ∧
    (∀ (off : BitVec 29) (a t : Nat), s.bar4Addr off.toNat = some a → 12 ≤ s.dev.step → s.movingAt a = some t →
      (∀ len, Gives (.hostBar4Read off len) s (fun u => u.regs = s.regs ∧ u.mem = s.mem ∧ u.cara = s.cara ∧ u.host = s.host ∧
        (u.brood (tileBrood t)).held = (s.brood (tileBrood t)).held ++ [{ kind := 0, addr := a, len := len.toNat }])) ∧
      (∀ data, s.bar4May a data.length = true → Gives (.hostBar4Write off data) s (fun u => u.regs = s.regs ∧ u.mem = s.mem ∧ u.cara = s.cara ∧
        (u.brood (tileBrood t)).held = (s.brood (tileBrood t)).held ++ [{ kind := 1, addr := a, data := data }]))) ∧
    (∀ (off : BitVec 29) (a : Nat), s.bar4Addr off.toNat = some a → 12 ≤ s.dev.step → s.movingAt a = none →
      (∀ len, 0 < len.toNat → s.oneRegion a len.toNat = true → s.sramErrs a len.toNat = [] → Gives (.hostBar4Read off len) s (fun u =>
        u = { s with host.lastRead := some (s.peekN a len.toNat) })) ∧
      (∀ data, data ≠ [] → s.bar4May a data.length = true → s.oneRegion a data.length = true → s.sramErrs a data.length = [] →
        Gives (.hostBar4Write off data) s (fun u => stored u a data ∧ u = { s with mem.cells := u.mem.cells })) ∧
      (∀ data, s.bar4May a data.length = false → counts (.hostBar4Write off data) F.HIF_VIOL0_HOLE)) ∧
    (∀ off : BitVec 29, s.bar4Addr off.toNat = none →
      (∀ len, readsZero (.hostBar4Read off len) len.toNat) ∧ ∀ data, counts (.hostBar4Write off data) F.HIF_VIOL0_HOLE) ∧
    (∀ v : BitVec 32,
      let config := fun (off : Nat) (P : State → Prop) => Gives (.regWrite true (BitVec.ofNat 48 (cfgBase + off)) 4#4 (v.setWidth 64)) s
        (fun u => P u ∧ u.mem = s.mem ∧ u.swarm = s.swarm)
      config 4 (fun u => u.host.busMaster = v.getLsbD 2 ∧ u.regs = s.regs ∧ u.cara = s.cara) ∧
      config 0x158 (fun u => let k := v.toNat / 256 % 64 + 20
        u = if 28 ≤ k ∧ k ≤ 34 then { s with host.bar2Bits := k } else s) ∧
      (v.toNat % 4 ≠ 3 → config 0x44 (fun u => u = s)) ∧
      (v.toNat % 4 = 3 → config 0x44 (fun u => u.host.d3hot = true ∧ u.rd F.HIF_STATE_HOST = 1 ∧ Raised s u 160 0x7006 0 ∧
        (∀ off len edc, exec (.hostBar2Read ⟨off, edc⟩ len) u = .next u) ∧ (∀ off len, exec (.hostBar4Read off len) u = .next u) ∧
        (∀ off data edc, exec (.hostBar2Write ⟨off, edc⟩ data) u = .next u) ∧ (∀ off data, exec (.hostBar4Write off data) u = .next u))))

/-- R38, R40, R265, R266, R269, R270, R413 to R415, R419: SUBMIT, LOAD, UNLOAD, SWITCH, PIPE and MODE. A command whose entry is in order is taken
and either answered with its status and DETAIL or left waiting; one with a field outside its row is answered with 0x7020. A SUBMIT
makes the job of its stage; an UNLOAD empties its slot, and is refused with 0x1205 for a bound one; a SWITCH waits for the frame
boundary or is refused with 0x1220; PIPE and MODE take effect when their instant has come. -/
def Obligations.ModelAndModeCommands : Prop :=
  (∀ (s : State) (c : Cmd), s.takes c → s.answers → (∀ w ∈ s.host.waiting, w.stage ≠ 2) →
    let refused := fun (i : Instr) (line code unit : Nat) => Gives i s (fun u => RefusedWith s u c line code unit 0)
    let takes := fun (i : Instr) (op : Nat) (ok : Bool) (n : Nat) => c.op = op →
      (c.plain = true ∧ ok = true → Gives i s (fun u => Waits s u c n)) ∧ (c.plain = false ∨ ok = false → refused i 160 0x7020 0)
    (c.op = 1 → s.submitTo c = none → refused .submitCmd 160 0x7020 0) ∧
    (c.op = 1 → ∀ g x b, s.submitTo c = some (g, x) → s.hostJobs < 448 → x.free ≠ [] → s.binding? g.num = some b → b.failed = false →
      s.unitsHosted g = true → x.desc.multi = false → Gives .submitCmd s (fun u => Consumed s u ∧
        ∃ j ∈ u.sched.jobs, j.host = true ∧ j.tag = c.tag ∧ j.stage = g.num ∧ j.pipe = x.desc.num ∧ j.frame = c.addr)) ∧
    takes .loadCmd 2 (decide (0 < c.arg) && decide (c.addr + c.arg ≤ gddrEnd)) 1 ∧
    takes .pipeCmd 5 (c.a &&& ~~~ 0x13f#32 == 0#32 && c.addr == 0 && (s.pipe? (c.arg % 64)).isSome) 1 ∧
    takes .modeCmd 6 (s.modeOk c) 1 ∧
    (c.op = 3 → c.plain = true → c.addr = 0 → c.arg < 64 →
      (s.modelIn c.arg = none → Gives .unloadCmd s (fun u => Answered s u c 0 0 ∧ u.sched = s.sched)) ∧
      (s.modelIn c.arg ≠ none → s.slotBound c.arg = true → refused .unloadCmd 163 0x1205 c.arg) ∧
      (s.modelIn c.arg ≠ none → s.slotBound c.arg = false → Gives .unloadCmd s (fun u => Answered s u c 0 (2 ^ c.arg) ∧
        u.sched.models = s.sched.models.filter (fun m => m.slot != c.arg) ∧ u.sched.pieces = s.sched.pieces ∧ u.sched.binds = s.sched.binds))) ∧
    (c.op = 4 → c.plain = true → c.addr = 0 → c.arg < 2 ^ 14 →
      let st := c.arg % 256
      let slot := c.arg / 256 % 64
      (s.switchBad st slot = true → refused .switchCmd 163 0x1220 slot) ∧
      (s.switchBad st slot = false → Gives .switchCmd s (fun u => Waits s u c 0 ∧
        u.sched.switches = s.sched.switches ++ [(st, slot, some c.tag)])))) ∧
  (∀ s : State, s.answers →
    (∀ p rest, s.sched.pieces = p :: rest → s.pieceFits p = true → s.hosted (pieceTile p.addr) = true → gddrEnd ≤ p.addr →
      s.oneRegion p.addr p.data.length = true → s.sramErrs p.addr p.data.length = [] →
      Gives .sectionPieceWrite s (fun u => u.sched.pieces = rest ∧ u.peekN p.addr p.data.length = p.data ∧
        (rest ≠ [] → u.sched.models = s.sched.models ∧ u.sched.loading = s.sched.loading ∧ u.host = s.host) ∧
        (rest = [] → u.sched.loading = none ∧ ∀ l, s.sched.loading = some l → ∀ m, l.models = [m] → m ∈ u.sched.models))) ∧
    (∀ st slot rest, s.sched.switches = (st, slot, none) :: rest → (∀ p, s.pipeOfStage st = some p → p.boundary = true) →
      s.switchBad st slot = true → Gives .switchApply s (fun u => u.sched.switches = rest ∧ Presented s u 163 0x1220 slot ∧
        u.sched.binds = s.sched.binds)) ∧
    (∀ st slot rest m x old b, s.sched.switches = (st, slot, none) :: rest → (∀ p, s.pipeOfStage st = some p → p.boundary = true) →
      s.switchBad st slot = false → s.modelIn slot = some m → m.stage? st = some x → s.stage? st = some old → s.binding? st = some b →
      (s.pipeOfStage st).isSome = true → x.outBytes ≤ old.outBytes →
      Gives .switchApply s (fun u => u.sched.switches = rest ∧
        u.binding? st = some { b with slot := slot, failed := !s.unitsHosted x })) ∧
    (∀ w rest, s.host.waiting = w :: rest → readyNops rest = [] → w.cmd.tag < 2 ^ 16 → s.running = true →
      (∀ x, w.cmd.op = 5 → s.pipe? (w.cmd.arg % 64) = some x → x.boundary = true → s.chk.bistAt = none → Gives .pipeApply s (fun u =>
        u.host.waiting = rest ∧ Completed s u w.cmd.tag 0 0 ∧ ∃ y, u.pipe? (w.cmd.arg % 64) = some y ∧
          y.running = w.cmd.a.getLsbD 8 ∧ y.frames = x.frames ∧ y.frameNum = x.frameNum)) ∧
      (w.cmd.op = 6 → s.modeDue w.cmd = true → Gives .modeApply s (fun u =>
        let ix := w.cmd.arg / 256 % 256
        let on := w.cmd.a.getLsbD 16
        u.host.waiting = rest ∧ Completed s u w.cmd.tag 0 0 ∧
        (w.cmd.arg % 8 = 0 → ∀ x, s.pipe? ix = some x → ∃ y, u.pipe? ix = some y ∧ y.hostSched = on ∧ y.running = x.running) ∧
        (w.cmd.arg % 8 = 1 → (u.strm ix).desc = { (s.strm ix).desc with hostPre := on }) ∧
        (w.cmd.arg % 8 = 2 → ∀ x, s.pipe? ix = some x → ∃ y, u.pipe? ix = some y ∧ y.hostRec = on ∧ y.running = x.running) ∧
        (w.cmd.arg % 8 = 3 → u.modes = { s.modes with react := on }) ∧
        (w.cmd.arg % 8 = 4 → u.modes = { s.modes with selftest := on }) ∧
        (w.cmd.arg % 8 = 5 → u.modes = { s.modes with memtrain := on })))))

/-- R40: a command whose tag is still in flight is consumed from the ring, counted in HIF_VIOL1.TAG and dropped: no completion entry is
written, no command starts to wait, and nothing else of the block changes beyond what reading the entry does (`v`). Stated for each row of R414
and R520 and for entries that no row lists. -/
def Obligations.TagsInFlightAreDropped : Prop :=
  ∀ (s v : State) (l : List Byte), s.cmdReady = true → s.busRead (mDsp 0) (s.ringSlot 0 (s.rd F.HIF_RING_CONS_CONS 0)) 64 = (.ok, l, v) →
    let c := cmdAt l
    let test := c.arg % 256
    ((∃ w ∈ s.host.waiting, w.cmd.tag = c.tag) ∨ (∃ j ∈ s.sched.jobs, j.host = true ∧ j.tag = c.tag)) →
    ∀ e ∈ [(Instr.submitCmd, c.op = 1), (.loadCmd, c.op = 2), (.unloadCmd, c.op = 3), (.switchCmd, c.op = 4), (.pipeCmd, c.op = 5),
           (.modeCmd, c.op = 6), (.reactCmd, c.op = 7), (.saveCmd, c.op = 8), (.restoreCmd, c.op = 9), (.selftestBrood, c.op = 10 ∧ test = 1),
           (.selftestRetrain, c.op = 10 ∧ test = 2), (.selftestSlicePass, c.op = 10 ∧ test = 3), (.selftestFullBist, c.op = 10 ∧ test = 4),
           (.selftestWindow, c.op = 10 ∧ test = 5), (.recordCmd, c.op = 11), (.nopCmd, c.op = 12),
           (.illegalCommand, c.op = 0 ∨ 12 < c.op ∨ (c.op = 10 ∧ (test = 0 ∨ 5 < test)))], e.2 →
      Gives e.1 s (fun u => Consumed v u ∧ Counted v u F.HIF_VIOL1_TAG 0 1 ∧
        (∀ (g : Fld) (i : Nat), g.key i ≠ F.HIF_RING_CONS_CONS.key 0 → g.key i ≠ F.HIF_VIOL1_TAG.key 0 → u.rd g i = v.rd g i) ∧
        u = { v with regs := u.regs, host := u.host } ∧ u.host.waiting = v.host.waiting ∧ u.host.decides = v.host.decides)

/-- R411, R414, R415, R421 to R423, R463, R520, R521, R542: REACT, SAVE, RESTORE, SELFTEST, RECORD, NOP and entries that no row lists. REACT gives
the waiting event its reaction; after 50 ms without one the table's entry applies, with 0x7012. SAVE writes the device's context and
answers its length, RESTORE checks one first; both are refused with 0x7021 while a pipeline runs. A SELFTEST leaves its request pending,
and an earlier one of its unit refuses it. RECORD offers host data to the mailbox. DECIDE_TIMEOUT, TEST_WINDOW_END and FULL_BIST_END complete when their instant has come. The lengths of the sections of a context are the model's (log
entry 25), and a RECORD that the mailbox cannot take ends with 0xB002 (log entry 26). -/
def Obligations.EventAndTestCommands : Prop :=
  (∀ (s : State) (c : Cmd), s.takes c → s.answers →
    let refused := fun (i : Instr) (code : Nat) => Gives i s (fun u => RefusedWith s u c 160 code 0 0)
    let test := fun (i : Instr) (sel row unit : Nat) (ok : Prop) (P : State → Prop) => c.arg % 256 = sel → ok →
      (s.req? sel row unit = none → Gives i s (fun u => Waits s u c 0 ∧ P u ∧
        u.chk.reqs = s.chk.reqs ++ [{ sel := sel, row := row, unit := unit, tag := c.tag, since := s.tick }])) ∧
      (s.req? sel row unit ≠ none → refused i 0x7021)
    (c.op = 7 → c.plain = true → c.arg ≤ 5 → c.addr < 2 ^ 32 →
      (s.host.decides.find? (fun d => d.seq == c.addr) = none → refused .reactCmd 0x7020) ∧
      (∀ d, s.host.decides.find? (fun d => d.seq == c.addr) = some d → c.arg = 0 → Gives .reactCmd s (fun u => Answered s u c 0 0 ∧
        u.host.decides = delFirst (fun x => x.seq == d.seq) s.host.decides ∧ Counted s u F.FCL_REACT_CNT1_COUNT 0 1)) ∧
      (∀ d, s.host.decides.find? (fun d => d.seq == c.addr) = some d → c.arg = 1 → Gives .reactCmd s (fun u => Answered s u c 0 0 ∧
        u.host.decides = delFirst (fun x => x.seq == d.seq) s.host.decides ∧ Counted s u F.FCL_REACT_CNT1_LOG 0 1 ∧
        ∃ r, u.cara.tlog.head? = some r ∧ r.code = d.ev.code ∧ r.react = 1))) ∧
    (c.op = 8 → c.plain = true → c.addr % 64 = 0 → c.addr + c.arg ≤ gddrEnd →
      (s.ctxBusy = true → refused .saveCmd 0x7021) ∧
      (s.ctxBusy = false → s.clean → s.sched.models = [] → s.sched.binds = [] → s.sched.pipes = [] →
        let n := 188 + 32 * s.ctxStreamCount
        (c.arg < n → Gives .saveCmd s (fun u => RefusedWith s u c 160 0x7050 0 n)) ∧
        (n ≤ c.arg → Gives .saveCmd s (fun u => Answered s u c 0 n)))) ∧
    (c.op = 9 → c.plain = true → c.addr % 64 = 0 → c.addr + c.arg ≤ gddrEnd →
      (s.ctxBusy = true → refused .restoreCmd 0x7021) ∧
      (s.ctxBusy = false → s.clean → ∀ l, l = s.peekN c.addr c.arg →
        ((s.ctxCheck l).1 ≠ 0 → refused .restoreCmd (s.ctxCheck l).1) ∧
        (∀ p, s.ctxCheck l = (0, [(1, 0, p)]) → Gives .restoreCmd s (fun u => Answered s u c 0 ((fieldAt l 12 1 + 256 * s.rd F.HIF_LINK_WIDTH) % 2 ^ 64) ∧
          u.modes.react = (p.headD 0#8).getLsbD 0 ∧ u.modes.selftest = (p.headD 0#8).getLsbD 1 ∧
          u.modes.memtrain = (p.headD 0#8).getLsbD 2)))) ∧
    (c.op = 10 → c.plain = true → c.addr = 0 →
      let row := c.arg / 256 % 256
      let unit := c.arg / 65536
      test .selftestBrood 1 0 unit (row = 0 ∧ unit < s.nBroods) (fun _ => True) ∧
      test .selftestRetrain 2 0 unit (row = 0 ∧ unit < 8) (fun u => (u.chan unit).overdue = true ∧ (u.chan unit).dueAt.isSome = true) ∧
      test .selftestSlicePass 3 row unit (row ≤ 8 ∧ unit < s.rowUnits row) (fun u => (u.unit row unit).slice = 0) ∧
      (c.arg = 4 → s.ctxBusy = true → refused .selftestFullBist 0x7021) ∧
      (c.arg = 4 → s.ctxBusy = false → Gives .selftestFullBist s (fun u => Waits s u c 1 ∧ u.chk.bistAt = some s.tick)) ∧
      (c.arg % 256 = 5 → row = 0 → 0 < unit → s.modes.selftest = true →
        (s.chk.windowEnd ≠ none → refused .selftestWindow 0x7021) ∧
        (s.chk.windowEnd = none → Gives .selftestWindow s (fun u => Waits s u c 1 ∧ u.chk.windowEnd = some (s.tick + us unit)))) ∧
      (c.arg % 256 = 0 ∨ 5 < c.arg % 256 → refused .illegalCommand 0x7020)) ∧
    (c.op = 11 → c.plain = true → c.a &&& 0xc0fe0000#32 = 0#32 → c.addr % 64 = 0 → c.addr + 64 ≤ gddrEnd → s.clean →
      ∀ p, s.pipe? (c.arg / 2 ^ 24) = some p → p.hostRec = true →
      (s.coc.powered = true → s.coc.mbox.length + s.coc.offers.length < 64 → Gives .recordCmd s (fun u => Waits s u c 1 ∧
        ∃ o, u.coc.offers = s.coc.offers ++ [o] ∧ o.kind = 4 ∧ o.tick = s.tick ∧ leNat (o.body.take 2) = c.arg % 65536 ∧
          (o.body.drop 8).take 64 = s.peekN c.addr 64)) ∧
      (s.coc.powered = false ∨ 64 ≤ s.coc.mbox.length + s.coc.offers.length → Gives .recordCmd s (fun u =>
        RefusedWith s u c 167 0xB002 0 0 ∧ u.coc.offers = s.coc.offers))) ∧
    (c.op = 12 → c.plain = true → c.arg = 0 → c.addr = 0 → s.host.waiting = [] → Gives .nopCmd s (fun u => Answered s u c 0 0)) ∧
    (c.op = 0 ∨ 12 < c.op → refused .illegalCommand 0x7020)) ∧
  (∀ s : State,
    (∀ d rest, s.host.decides = d :: rest → d.ev.tick + ms 50 ≤ s.tick → s.reactionOf d.ev.code ≤ 1 → Gives .decideTimeout s (fun u =>
      u.host.decides = rest ∧ Raised s u 160 0x7012 0 ∧
      Counted s u (if s.reactionOf d.ev.code = 0 then F.FCL_REACT_CNT1_COUNT else F.FCL_REACT_CNT1_LOG) 0 1)) ∧
    (∀ t, s.chk.windowEnd = some t → t ≤ s.tick → s.answers → ∀ w rest, s.host.waiting = w :: rest → w.cmd.op = 10 → w.cmd.arg % 256 = 5 →
      readyNops rest = [] → w.cmd.tag < 2 ^ 16 →
      Gives .testWindowEnd s (fun u => u.chk.windowEnd = none ∧ u.host.waiting = rest ∧ Completed s u w.cmd.tag 0 0)) ∧
    (s.chk.bistAt ≠ none → s.running = true → s.sched.jobs = [] → s.chk.reqs = [] → s.answers → s.clean → ∀ w rest, s.host.waiting = w :: rest →
      w.cmd.op = 10 → w.cmd.arg % 256 = 4 → readyNops rest = [] → w.cmd.tag < 2 ^ 16 →
      Gives (.fullBistEnd [] [] [] []) s (fun u => u.chk.bistAt = none ∧ u.host.waiting = rest ∧ Completed s u w.cmd.tag 0 0)))

/-- R393, R401 to R403, R406 to R412, R425, R426: the PCIe link, attaching, and doorbells. Stated with no event that waits for a decision where a host is detached. A trained link leaves link down for host-absent; a loss of the
link or PERST# takes it down with 0x7005 or 0x7006 and clears the MSI-X table, which a function level reset and a hot reset clear too and
D3hot does not; these put the device into host-absent state. START with the device's major version attaches with 0x7003, a new attach
identifier and every vector armed, and with another refuses with 0x7002; DETACH and 120 ms without a heartbeat (0x7001) leave the attached
state. Reading the state re-arms vectors 4 and 5. A doorbell moves its index within its ring and re-arms, or counts a violation. -/
def Obligations.LinkAttachAndDoorbells : Prop :=
  ∀ s : State,
    let idle := s.host.decides = [] ∧ s.fw.evtQ.filter (·.decide) = []
    let isState := fun (u : State) (n : Nat) => u.rd F.HIF_STATE_HOST = n
    let reset := fun (i : Instr) (n code : Nat) => Gives i s (fun u => isState u n ∧ Raised s u 160 code 0 ∧ u.host.msixTab = [] ∧
      u.host.pend = 0#64 ∧ u.mem = s.mem)
    let dist := fun (v : BitVec 32) (f : Fld) (r : Nat) => (v.toNat + 2 ^ 32 - s.rd f r) % 2 ^ 32
    let rejects := fun (i : Instr) => Gives i s (fun u => Counted s u F.HIF_VIOL1_INDEX 0 1 ∧ OnlyRegs s u ∧ u.cara = s.cara)
    (∀ width speed, width ∈ [1#5, 2#5, 4#5, 8#5] → 1 ≤ speed.toNat → speed.toNat ≤ 4 → s.mainUp = true →
      Gives (.pcieLinkUp width speed) s (fun u => u.rd F.HIF_LINK_WIDTH = width.toNat ∧ u.rd F.HIF_LINK_SPEED = speed.toNat ∧
        isState u (if s.rd F.HIF_STATE_HOST = 0 then 1 else s.rd F.HIF_STATE_HOST) ∧
        (width.toNat < 8 ∨ speed.toNat < 4 → Raised s u 160 0x7004 0))) ∧
    (s.linkedUp = true → idle → reset .pcieLinkLoss 0 0x7005 ∧ reset .functionLevelReset 1 0x7006 ∧ reset .hotReset 1 0x7006 ∧
      Gives .d3hotEntry s (fun u => isState u 1 ∧ Raised s u 160 0x7006 0 ∧ u.host.msixTab = s.host.msixTab ∧ u.mem = s.mem)) ∧
    (s.mainUp = true → idle → reset .perstNAssert 0 0x7006) ∧
    (s.linkedUp = true → s.attached = false → s.rd F.HIF_STATE_HOST = 1 →
      (s.rd F.HIF_HOST_VER_MAJOR = s.rd F.HIF_IFVER_MAJOR → Gives .hifAttachStart s (fun u => isState u 2 ∧
        u.rd F.HIF_ATTACH_STATUS_RESULT = 1 ∧ Counted s u F.HIF_ATTACH_STATUS_ATTACH_ID 0 1 ∧ Raised s u 160 0x7003 0 ∧
        u.rd F.HIF_RING_CONS_CONS 0 = s.rd F.HIF_RING_PROD_PROD 0 % 2 ^ 32 ∧ u.host.hbAt = s.tick ∧
        ∀ v, v < 64 → v ≠ 4 → u.host.armed.getLsbD v = true)) ∧
      (s.rd F.HIF_HOST_VER_MAJOR ≠ s.rd F.HIF_IFVER_MAJOR → Gives .hifAttachStart s (fun u => isState u 1 ∧
        u.rd F.HIF_ATTACH_STATUS_RESULT = 2 ∧ Presented s u 160 0x7002 0 ∧ u.host = s.host)) ∧
      exec .hifAttachDetach s = .next s) ∧
    (s.linkedUp = true → s.attached = true → idle →
      Gives .hifAttachDetach s (fun u => isState u 1 ∧ u.mem = s.mem ∧ ∀ p x, u.pipe? p = some x → x.held = []) ∧
      (s.host.hbAt + (ms 120 - us 100) ≤ s.tick → Gives .heartbeatTimeout s (fun u => isState u 1 ∧ Raised s u 160 0x7001 0 ∧
        ∀ p x, u.pipe? p = some x → x.held = []))) ∧
    (s.attached = false → exec .heartbeatTimeout s = .next s) ∧
    (s.linkedUp = true → Gives .hifStateRead s (fun u => u.host.lastRead = some (natLe 4 (s.readReg 0x6b0004)) ∧
      u.host.armed = s.host.armed ||| 0x30#64 ∧ u.regs = s.regs ∧ u.mem = s.mem ∧ u.cara = s.cara)) ∧
    (s.linkedUp = true → s.dev.step = 12 → s.attached = true →
      let n := s.ringN 0
      (∀ v, 1 ≤ dist v F.HIF_RING_PROD_PROD 0 → dist v F.HIF_RING_PROD_PROD 0 ≤ n → dist v F.HIF_RING_CONS_CONS 0 ≤ n →
        Gives (.dbCmd v) s (fun u => u.rd F.HIF_RING_PROD_PROD 0 = v.toNat ∧ u.rd F.HIF_RING_CONS_CONS 0 = s.rd F.HIF_RING_CONS_CONS 0 ∧
          u.mem = s.mem ∧ u.cara = s.cara)) ∧
      (∀ v, dist v F.HIF_RING_PROD_PROD 0 = 0 ∨ n < dist v F.HIF_RING_PROD_PROD 0 ∨ n < dist v F.HIF_RING_CONS_CONS 0 → rejects (.dbCmd v)) ∧
      (∀ v, let consumes := fun (i : Instr) (r vec : Nat) =>
          (dist v F.HIF_RING_CONS_CONS r ≤ s.ringUsed r → Gives i s (fun u => u.rd F.HIF_RING_CONS_CONS r = v.toNat ∧
            u.host.armed.getLsbD vec = true ∧ u.rd F.HIF_RING_PROD_PROD r = s.rd F.HIF_RING_PROD_PROD r ∧ u.mem = s.mem ∧ u.cara = s.cara)) ∧
          (s.ringUsed r < dist v F.HIF_RING_CONS_CONS r → rejects i)
        consumes (.dbCpl v) 1 0 ∧ consumes (.dbEvt v) 2 1 ∧ consumes (.dbLog v) 3 2 ∧ consumes (.dbTrc v) 4 3) ∧
      (∀ v, Gives (.dbHb v) s (fun u => Counted s u F.HIF_HEARTBEAT_COUNT 0 1 ∧ u.host = { s.host with hbAt := s.tick } ∧ u.cara = s.cara)) ∧
      (∀ k v, k.toNat < 48 → (∃ e, (s.strm k.toNat).last = some (v.toNat % 16, e)) → rejects (.dbTensor k v)) ∧
      (∀ k v, k.toNat < 48 → (s.strm k.toNat).desc.en = true → (s.strm k.toNat).desc.hostPre = true → v.toNat % 16 < (s.strm k.toNat).desc.nslot →
        (s.strm k.toNat).last = none → s.entryHeld k.toNat (v.toNat % 16) = false →
        Gives (.dbTensor k v) s (fun u => Admitted s u k.toNat { entry := v.toNat % 16, stamp := s.tick }))) ∧
    (s.linkedUp = true → s.dev.step = 12 → s.attached = false → ∀ v, exec (.dbCmd v) s = .next s ∧ exec (.dbCpl v) s = .next s ∧
      Gives (.dbHb v) s (fun u => Counted s u F.HIF_HEARTBEAT_COUNT 0 1 ∧ OnlyRegs s u))

/-- R401, R406, R416, R421, R429 to R432, R435 to R438: firmware's watchdogs, and the rings it writes. A kick inside its window restarts the window; one
that comes early, and the expiry of a window, stop the processor: a dispatch core with 0x8001 and its fault captured, the security core with
0x8002 failing its operation, the power manager core with 0x8004 and the rail asked for 0.80 V. The first kick after a reset shows that the
core runs again. A fault of a dispatch core stops it with 0x8003. A host write of the kick register is a violation. The oldest queued event,
log and trace entry is written to its ring with its index, and an event that asks for a decision waits for one; none is written during a handover. -/
def Obligations.FirmwareWatchdogsAndRings : Prop :=
  ∀ s : State,
    let stopped := fun (u : State) (n cause code : Nat) => u.coreRuns n = false ∧ u.rd F.FW_FAULT_VALID = 1 ∧ u.rd F.FW_FAULT_CORE = n ∧
      u.rd F.FW_FAULT_CAUSE = cause ∧ u.rd F.FW_FAULT_TICK = s.tick % 2 ^ 16 ∧ Presented s u (161 + n) code n ∧ SameMemory s u
    let restarts := fun (i : Instr) (p : Nat) => Gives i s (fun u => u = { s with fw.wdtAt := u.fw.wdtAt } ∧ u.wdtAge p = 0 ∧
      ∀ q, q ≠ p → u.wdtAge q = s.wdtAge q)
    let secDown := fun (i : Instr) => Gives i s (fun u => u.rd F.FW_STATUS_SEC_RUN = 0 ∧ u.fw.secDown = true ∧
      Counted s u F.FW_WDT_STAT_SEC 0 1 ∧ Raised s u 165 0x8002 0 ∧
      (s.sec.op ≠ 0 → u.rd F.SEC_OP_STATUS_BUSY = 0 ∧ u.rd F.SEC_OP_STATUS_RESULT = 0x8002 ∧ u.sec.op = 0))
    let pwrDown := fun (i : Instr) => Gives i s (fun u => u.rd F.FW_STATUS_PWR_RUN = 0 ∧ u.fw.pwrDown = true ∧
      Counted s u F.FW_WDT_STAT_PWR 0 1 ∧ u.rd F.PWR_VOLT_REQ_MV = 800 ∧ u.rd F.PWR_STATUS_AVS = 0 ∧ Presented s u 166 0x8004 0 ∧
      SameMemory s u)
    (∀ core : BitVec 2, let n := core.toNat
      let kick := Instr.fwWdtKick false (BitVec.ofNat 4 (2 ^ n))
      s.coreRuns n = true → s.fw.moltStep ≠ 3 → s.fw.moltStep ≠ 4 →
      (us 500 ≤ s.wdtAge n → s.wdtAge n ≤ ms 20 → restarts kick n) ∧
      (s.wdtAge n < us 500 → Gives kick s (fun u => stopped u n 2 0x8001 ∧ Counted s u F.FW_WDT_STAT_DSP 0 1 ∧ Counted s u F.FW_WDT_STAT_EARLY 0 1)) ∧
      (ms 20 ≤ s.wdtAge n → Gives (.dispatchWdtExpiry core) s (fun u => stopped u n 1 0x8001 ∧ Counted s u F.FW_WDT_STAT_DSP 0 1)) ∧
      (∀ cause : BitVec 2, Gives (.dispatchCoreFault core cause) s (fun u => stopped u n (min 5 (3 + cause.toNat)) 0x8003))) ∧
    (∀ mask, s.linkedUp = true → s.dev.step = 12 → Gives (.fwWdtKick true mask) s (fun u => Counted s u F.HIF_VIOL0_RO_WRITE 0 1 ∧
      u = { s with regs := u.regs } ∧ ∀ (g : Fld) (i : Nat), g.key i ≠ F.HIF_VIOL0_RO_WRITE.key 0 → u.rd g i = s.rd g i)) ∧
    (s.rd F.FW_STATUS_SEC_RUN ≠ 0 →
      (ms 200 ≤ s.wdtAge 4 → secDown .securityWdtExpiry) ∧
      (s.fw.secDown = false → (ms 1 ≤ s.wdtAge 4 → s.wdtAge 4 ≤ ms 200 → restarts (.internalKickRegister true) 4) ∧
        (s.wdtAge 4 < ms 1 → secDown (.internalKickRegister true)))) ∧
    (s.fw.secDown = true → Gives (.internalKickRegister true) s (fun u => u.rd F.FW_STATUS_SEC_RUN = 1 ∧ u.fw.secDown = false ∧ u.cara = s.cara)) ∧
    (s.rd F.FW_STATUS_PWR_RUN ≠ 0 →
      (ms 10 ≤ s.wdtAge 5 → pwrDown .powerWdtExpiry) ∧
      (s.fw.pwrDown = false → (us 100 ≤ s.wdtAge 5 → s.wdtAge 5 ≤ ms 10 → restarts (.internalKickRegister false) 5) ∧
        (s.wdtAge 5 < us 100 → pwrDown (.internalKickRegister false)))) ∧
    (s.fw.pwrDown = true → Gives (.internalKickRegister false) s (fun u => u.rd F.FW_STATUS_PWR_RUN = 1 ∧ u.rd F.PWR_STATUS_AVS = 1 ∧
      u.fw.pwrDown = false ∧ u.cara = s.cara)) ∧
    (∀ x rest, s.fw.evtQ = x :: rest → s.ringReady 2 2 → x.units.length ≤ 8 → Gives .eventEntryWrite s (fun u =>
      let a := s.nextSlot 2
      u.fw.evtQ = rest ∧ Produced s u 2 ∧ u.num a 2 = x.code % 2 ^ 16 ∧ u.num (a + 2) 1 = (if x.decide then 2 else 0) ∧ u.num (a + 3) 1 = 0 ∧
      u.num (a + 4) 4 = s.rd F.HIF_RING_PROD_PROD 2 % 2 ^ 32 ∧ u.num (a + 8) 8 = x.tick % 2 ^ 64 ∧
      (∀ i, i < 8 → u.num (a + 16 + 2 * i) 2 = x.units.getD i 0xffff % 2 ^ 16) ∧
      u.host.decides = s.host.decides ++ (if x.decide then [{ seq := s.rd F.HIF_RING_PROD_PROD 2, ev := x.ev }] else []))) ∧
    (∀ x rest, s.fw.logQ = x :: rest → s.ringReady 3 4 → Gives .logEntryWrite s (fun u => let a := s.nextSlot 3
      u.fw.logQ = rest ∧ Produced s u 3 ∧ u.num a 2 = x.code % 2 ^ 16 ∧ u.num (a + 2) 1 = x.level % 2 ^ 8 ∧ u.num (a + 3) 1 = x.src % 2 ^ 8 ∧
      u.num (a + 4) 4 = s.rd F.HIF_RING_PROD_PROD 3 % 2 ^ 32 ∧ u.num (a + 8) 8 = x.tick % 2 ^ 64)) ∧
    (∀ x rest, s.fw.trcQ = x :: rest → s.ringReady 4 2 → Gives .traceEntryWrite s (fun u => let a := s.nextSlot 4
      u.fw.trcQ = rest ∧ Produced s u 4 ∧ u.num a 2 = x.point % 2 ^ 16 ∧ u.num (a + 2) 1 = x.src % 2 ^ 8 ∧ u.num (a + 3) 1 = (if x.drop then 1 else 0) ∧
      u.num (a + 4) 4 = s.rd F.HIF_RING_PROD_PROD 4 % 2 ^ 32 ∧ u.num (a + 8) 8 = x.tick % 2 ^ 64)) ∧
    (s.handover = true → exec .eventEntryWrite s = .next s ∧ exec .logEntryWrite s = .next s ∧ exec .traceEntryWrite s = .next s)

/-- R440 to R445, R448, R450: Molt. A request is refused with its result and event, or staging begins; staging copies the image to the inactive
bank; a verified image of the device's major version is ready, another ends the Molt with result 4 and 0x8021; the handover writes its record
and restarts the cores; the commit makes the staged bank active with result 1 and 0x8024. A failed check, an abort by the host, a READY that lasts
beyond its time and a refused commit end it with result 5, their reason and 0x8022. Stated with no error in the SRAM that holds the banks. -/
def Obligations.MoltReplacesTheImage : Prop :=
  ∀ s : State, s.mem.sram = [] → s.rd F.FW_STATUS_BANK ≤ 1 →
    let bank := sysBase + (1 - s.rd F.FW_STATUS_BANK) * 0x200000
    let ends := fun (i : Instr) (result reason code : Nat) => Gives i s (fun u => u.molt = 0 ∧ u.rd F.FW_MOLT_STATUS_RESULT = result ∧
      u.rd F.FW_MOLT_STATUS_REASON = reason ∧ u.rd F.FW_STATUS_BANK = s.rd F.FW_STATUS_BANK ∧ u.verActive = s.verActive ∧ Raised s u 161 code 0)
    (s.linkedUp = true → s.dev.step = 12 →
      let refused := fun (result code : Nat) => Gives .fwMoltReq s (fun u => u.molt = s.molt ∧ u.rd F.FW_MOLT_STATUS_RESULT = result ∧
        Presented s u 161 code 0 ∧ OnlyRegs s u)
      (s.molt ≠ 0 ∨ s.attached = false → refused 2 0x8023) ∧
      (s.molt = 0 → s.attached = true →
        (s.emergency = true → refused 3 0x8020) ∧
        (s.emergency = false → s.moltLen = 0 ∨ 0x200000 < s.moltLen ∨ gddrEnd < s.moltSrc + s.moltLen → refused 4 0x8021) ∧
        (s.emergency = false → 0 < s.moltLen → s.moltLen ≤ 0x200000 → s.moltSrc + s.moltLen ≤ gddrEnd → Gives .fwMoltReq s (fun u => u.molt = 1))) ∧
      Gives (.fwMoltCommit true) s (fun u => Counted s u F.HIF_VIOL0_RO_WRITE 0 1 ∧ OnlyRegs s u)) ∧
    (s.molt = 1 → s.clean → 0 < s.moltLen → s.moltLen ≤ 0x200000 → s.moltSrc + s.moltLen ≤ gddrEnd → Gives .moltStagingEnd s (fun u =>
      u.molt = 2 ∧ u.peekN bank s.moltLen = s.peekN s.moltSrc s.moltLen ∧ u.fw.moltLen = s.moltLen ∧
      u.verStaged = objVersion (s.peekN s.moltSrc s.moltLen))) ∧
    (s.molt = 2 → s.rd F.FW_STATUS_SEC_RUN ≠ 0 → 0 < s.fw.moltLen → s.fw.moltLen ≤ 0x200000 → ∀ r1 s1 r2 s2,
      let o := s.peekN bank s.fw.moltLen
      let ok := s.verifyBytes o 2 (r1 && s1 && r2 && s2) = 0 ∧ fieldAt o 18 2 = s.rd F.HIF_IFVER_MAJOR
      (ok → Gives (.moltVerifyEnd r1 s1 r2 s2) s (fun u => u.molt = 3 ∧ Counted s u F.SEC_VERIFY_PASS 0 1)) ∧
      (¬ ok → ends (.moltVerifyEnd r1 s1 r2 s2) 4 0 0x8021)) ∧
    (s.molt = 3 → s.longCmd = false →
      Gives (.moltHandoverStart true) s (fun u => u.molt = 4 ∧ u.rd F.FW_STATUS_CORE_RUN = 15 ∧ u.num (sysBase + 0x400000) 4 = 0x564F4851 ∧
        u.num (sysBase + 0x400004) 4 = s.verActive % 2 ^ 32 ∧ u.num (sysBase + 0x400008) 4 = s.verStaged % 2 ^ 32 ∧
        u.num (sysBase + 0x400010) 8 = s.tick % 2 ^ 64 ∧ ∀ p, p < 4 → u.wdtAge p = 0) ∧
      ends (.moltHandoverStart false) 5 5 0x8022) ∧
    (s.molt = 3 → s.fw.moltAt + ms (max 1 (s.rd F.FW_MOLT_CTRL_TMO)) < s.tick → ends .moltReadyTimeout 5 4 0x8022) ∧
    (s.molt = 4 → s.emergency = false → s.cara.restartDue = 0 → Gives (.fwMoltCommit false) s (fun u => u.molt = 0 ∧
      u.rd F.FW_MOLT_STATUS_RESULT = 1 ∧ u.rd F.FW_STATUS_BANK = 1 - s.rd F.FW_STATUS_BANK ∧ u.verActive = s.verStaged % 2 ^ 32 ∧
      u.verStaged = 0 ∧ Counted s u F.FW_MOLT_STATUS_COUNT 0 1 ∧ Raised s u 161 0x8024 0)) ∧
    (s.molt ≠ 0 → s.molt ≠ 4 ∨ s.emergency = true ∨ s.cara.restartDue ≠ 0 → ends (.fwMoltCommit false) 5 7 0x8022) ∧
    (s.molt ≠ 0 → ends .fwMoltAbort 5 3 0x8022) ∧
    (s.molt = 0 → exec .fwMoltAbort s = .next s)

/-- R433, R434, R555 to R557, R572 to R575, R577, R578, R598: power limits and persistent words. A sample sets every sensor; at 115 °C the hottest
sensor's action halves the array clock, at 122 °C it falls to 150 MHz, each counted and raised as 0xC001; at 130 °C the device shuts down and asks
for its rails to be cut. A core current above 460 A (0xC003) and a core voltage out of range (0xC004) act in the same way. An action whose end condition has held for
its time ends with 0xC002. The core voltage follows in steps of 5 mV within 650 to 800 mV; the power budget takes the array clock down and up
with 0xC010. The oldest requested word becomes durable, or is refused with 0xC020 at its endurance limit. Stated with no Molt in progress. -/
def Obligations.PowerLimitsAndWords : Prop :=
  ∀ s : State, s.mainUp = true → s.molt = 0 →
    let starts := fun (u : State) (r unit code : Nat) (f : Fld) => r ∈ u.pwr.limits ∧ Counted s u f 0 1 ∧ u.rd F.FW_STATUS_EMERG = 1 ∧
      u.rd F.PWR_STATUS_EMERG = 1 ∧ Raised s u 166 code unit
    (∀ temps : List (BitVec 16), temps.length = 64 →
      let t := fun n => (temps.getD n 0#16).toInt
      let hot := fun n => n < 64 ∧ (∀ m, m < 64 → t m ≤ t n) ∧ ∀ m, m < n → t m < t n
      let sample := fun (P : State → Prop) => Gives (.sensorSample temps) s (fun u => (∀ n, n < 64 → u.temp n = t n) ∧ P u)
      ∀ n, hot n →
        (t n < 1840 → s.pwr.limits = [] → sample (fun u => u.pwr.limits = [] ∧ u.cara = s.cara ∧ u.regs = s.regs ∧ u.mem = s.mem)) ∧
        (1840 ≤ t n → t n < 1952 → s.pwr.limits = [] → s.pwr.budgetMhz = 600 → sample (fun u => u.pwr.limits = [0] ∧
          starts u 0 n 0xC001 F.PWR_ACT_CNT_T115 ∧ u.rd F.PWR_STATUS_ARRAY = 1 ∧ u.rd F.PWR_STATUS_ACTIONS = 1)) ∧
        (1952 ≤ t n → t n < 2080 → s.pwr.limits = [] → sample (fun u => u.pwr.limits = [0, 1] ∧ starts u 0 n 0xC001 F.PWR_ACT_CNT_T115 ∧
          starts u 1 n 0xC001 F.PWR_ACT_CNT_T122 ∧ u.rd F.PWR_STATUS_ARRAY = 2 ∧ u.rd F.PWR_STATUS_ACTIONS = 3)) ∧
        (2080 ≤ t n → sample (fun u => u.dev.shutdown = true ∧ u.dev.pwrOffN = false ∧ u.cara.aliveHold = true ∧ u.cara.aliveLevel = false ∧
          u.prs.queue = []))) ∧
    (∀ amps : BitVec 16, let q := min 65535 (4 * amps.toNat)
      (460 < amps.toNat → 3 ∉ s.pwr.limits → Gives (.coreCurrentLimit amps) s (fun u => u.rd F.PWR_CURR_NOW = q ∧
        starts u 3 0 0xC003 F.PWR_ACT_CNT_CURR ∧ u.rd F.PWR_STATUS_ARRAY = 2)) ∧
      (amps.toNat ≤ 460 → s.pwr.limits = [] → Gives (.coreCurrentLimit amps) s (fun u => OnlyRegs s u ∧ u.cara = s.cara ∧
        u.rd F.PWR_CURR_NOW = q ∧ u.rd F.PWR_CURR_PEAK = max (s.rd F.PWR_CURR_PEAK) q))) ∧
    (∀ mv : BitVec 16, let v := mv.toNat
      (v < 620 ∨ 830 < v → 5 ∉ s.pwr.limits → Gives (.coreVoltageLimit mv) s (fun u => u.rd F.PWR_VOLT_MEAS_MV = v ∧
        starts u 5 0 0xC004 F.PWR_ACT_CNT_VOLT ∧ u.rd F.PWR_STATUS_ARRAY = 2)) ∧
      (620 ≤ v → v ≤ 830 → s.pwr.limits = [] → Gives (.coreVoltageLimit mv) s (fun u => OnlyRegs s u ∧ u.cara = s.cara ∧
        u.rd F.PWR_VOLT_MEAS_MV = v))) ∧
    (∀ row : BitVec 3, let r := row.toNat
      let c := FMap.get 0 s.pwr.coolAt r
      let due := r ∈ s.pwr.limits ∧ c ≠ 0 ∧ c + (if r ≤ 1 then ms 10 else ms 1) ≤ s.tick + 1
      (due → Gives (.limitActionEnd row) s (fun u => u.pwr.limits = s.pwr.limits.filter (fun x => x != r) ∧
        Raised s u 166 0xC002 (if r ≤ 1 then s.hottest else 0) ∧ u.mem = s.mem)) ∧
      (¬ due → exec (.limitActionEnd row) s = .next s)) ∧
    (∀ up, s.rd F.PWR_STATUS_AVS ≠ 0 → let v := s.rd F.PWR_VOLT_REQ_MV
      (s.pwr.avsNext ≤ s.tick → Gives (.avsStep up) s (fun u => u = { s with regs := u.regs, pwr := { s.pwr with avsNext := s.tick + us 20 } } ∧
        u.rd F.PWR_VOLT_REQ_MV = min 800 (max 650 (if up then v + 5 else v - 5)))) ∧
      (s.tick < s.pwr.avsNext → exec (.avsStep up) s = .next s)) ∧
    (∀ watts : BitVec 16, s.rd F.FW_STATUS_PWR_RUN ≠ 0 → let w := watts.toNat
      let becomes := fun (mhz : Nat) => Gives (.powerBudgetTimer watts) s (fun u => u.pwr = { s.pwr with budgetMhz := mhz } ∧
        Raised s u 166 0xC010 0 ∧ u.rd F.PWR_STATUS_FW_THROTTLE = (if mhz < 600 then 1 else 0))
      (s.pwr.budgetMhz = 600 → s.cfg.budget < w → becomes 300) ∧ (s.pwr.budgetMhz = 300 → s.cfg.budget < w → becomes 150) ∧
      (s.pwr.budgetMhz = 150 → 10 * w < 9 * s.cfg.budget → becomes 300) ∧ (s.pwr.budgetMhz = 300 → 10 * w < 9 * s.cfg.budget → becomes 600) ∧
      (w ≤ s.cfg.budget → 9 * s.cfg.budget ≤ 10 * w → exec (.powerBudgetTimer watts) s = .next s)) ∧
    (∀ i v rest, s.prs.queue = (i, v) :: rest →
      ((s.prsWord i).writes < 200000 → Gives .persistentWrite s (fun u => u.prs.queue = rest ∧ u.cara = s.cara ∧ u.mem = s.mem ∧
        u.prsWord i = { s.prsWord i with value := v, writes := (s.prsWord i).writes + 1, bad := false, err := false } ∧
        ∀ j, j ≠ i → u.prsWord j = s.prsWord j)) ∧
      (200000 ≤ (s.prsWord i).writes → Gives .persistentWrite s (fun u => u.prs.queue = rest ∧ Presented s u 181 0xC020 i ∧
        Counted s u F.PRS_STATUS_REFUSED 0 1 ∧ u.prsWord i = { s.prsWord i with limit := true } ∧ (i < 0x100 → u.prsForce i = v)))) ∧
    (s.prs.queue = [] → exec .persistentWrite s = .next s) ∧
    (∀ idx : BitVec 4, let i := 0x121 + idx.toNat
      let n := FMap.get 0 s.prs.life i
      idx.toNat ≤ 9 → FMap.get 0 s.prs.lifeAt i + ms 60000 ≤ s.tick →
      (n = 0 → exec (.lifetimeCounterFlush idx) s = .next s) ∧
      (n ≠ 0 → Gives (.lifetimeCounterFlush idx) s (fun u => u.prs.queue = s.prs.queue ++ [(i, s.prsNext i + BitVec.ofNat 32 n)] ∧
        FMap.get 0 u.prs.life i = 0 ∧ FMap.get 0 u.prs.lifeAt i = s.tick ∧ u.regs = s.regs))) ∧
    (s.dev.power = true → s.prs.hourAt + ms 3600000 ≤ s.tick → Gives .poweredHour s (fun u =>
      u.prs.queue = s.prs.queue ++ [(0x120, s.prsNext 0x120 + 1)] ∧ u.prs.hourAt = s.prs.hourAt + ms 3600000 ∧ u.regs = s.regs))

/-- R460, R526, R530, R534 to R539, R549, R551: the security block. An operation that starts while one is in progress is a violation; one that the security
core cannot run ends with 0x8002; an attestation without room for its report ends with 0x7020, else its report is formed and then written with
its signatures; a challenge is kept as the nonce for 60 s. The verification of an operation's object ends it: an unlock with the right nonce unlocks
debug with 0x9011 and clears SAFETY, any other ends with 0xA012 and uses the challenge up; an enrolment burns the owner root with 0xA010, or ends with
0xA011. A load whose object or image fails its checks is answered with the code of the failing step, and one that passes them places its models.
Memory is stated clean. That the report is formed at START is the model's reading of R551 (log entry 31). -/
def Obligations.SecurityOperations : Prop :=
  ∀ s : State,
    let ended := fun (u : State) (result : Nat) => u.rd F.SEC_OP_STATUS_BUSY = 0 ∧ u.rd F.SEC_OP_STATUS_RESULT = result ∧ u.sec.op = 0
    let begun := fun (u : State) (op : Nat) => u.rd F.SEC_OP_STATUS_BUSY = 1 ∧ u.rd F.SEC_OP_STATUS_LAST_OP = op ∧ u.sec.op = op ∧
      u.sec.opAddr = s.secAddr ∧ u.sec.opLen = s.rd F.SEC_OP_LEN_BYTES ∧ u.cara = s.cara ∧ u.mem = s.mem
    let ops := [(1, Instr.secAttest), (2, .secEnrol), (3, .secDebugChallenge), (4, .secDebugUnlock)]
    let noInjection := ∀ ch, ch < 8 → s.rd F.MEM_INJ_ARM ch = 0
    (s.linkedUp = true → s.dev.step = 12 →
      (s.rd F.SEC_OP_STATUS_BUSY ≠ 0 → ∀ e ∈ ops, Gives e.2 s (fun u => Counted s u F.HIF_VIOL0_RO_WRITE 0 1 ∧ OnlyRegs s u ∧ u.cara = s.cara)) ∧
      (s.rd F.SEC_OP_STATUS_BUSY = 0 → s.rd F.FW_STATUS_SEC_RUN = 0 → ∀ e ∈ ops, Gives e.2 s (fun u => ended u 0x8002 ∧
        u.rd F.SEC_OP_STATUS_LAST_OP = e.1 ∧ u.mem = s.mem)) ∧
      (s.rd F.SEC_OP_STATUS_BUSY = 0 → s.rd F.FW_STATUS_SEC_RUN ≠ 0 →
        let n := s.formReport.length + sigBytes
        let fits := n ≤ s.rd F.SEC_OP_LEN_BYTES ∧ s.secAddr + n ≤ gddrEnd
        (fits → Gives .secAttest s (fun u => begun u 1 ∧ u.sec.report = s.formReport)) ∧ (¬ fits → Gives .secAttest s (fun u => ended u 0x7020)) ∧
        Gives .secEnrol s (fun u => begun u 2) ∧ Gives .secDebugUnlock s (fun u => begun u 4) ∧
        Gives .secDebugChallenge s (fun u => ended u 0 ∧ u.sec.chalAt = some s.tick ∧ u.mem = s.mem ∧
          u.sec.nonce = ((List.range 8).map (fun i => natLe 4 (u.rd F.SEC_CHAL_CHAL i))).flatten))) ∧
    (s.sec.op = 1 → s.rd F.FW_STATUS_SEC_RUN ≠ 0 → s.sec.slhReady = true → s.running = true → s.clean → s.cacheClean → noInjection → ∀ sig,
      let d := s.sec.report ++ bytesAt sig 0 sigBytes
      s.sec.opAddr + d.length ≤ gddrEnd → Gives (.attestReportDone sig) s (fun u => ended u 0 ∧ u.peekN s.sec.opAddr d.length = d ∧
        u.cara = s.cara)) ∧
    (∀ t, s.sec.chalAt = some t →
      (t + ms 60000 ≤ s.tick → Gives .debugChallengeExpiry s (fun u => u = { s with sec.chalAt := none, sec.nonce := [] })) ∧
      (s.tick < t + ms 60000 → exec .debugChallengeExpiry s = .next s)) ∧
    (s.mainUp = true →
      (s.sec.rsaReady = false → Gives .idRsaReady s (fun u => u.rd F.SEC_STATUS_ID_RSA = 1 ∧ u.sec = { s.sec with rsaReady := true })) ∧
      (s.sec.rsaReady = true → s.sec.slhReady = false → Gives .idReady s (fun u => u.rd F.SEC_STATUS_ID_READY = 1 ∧
        u.sec = { s.sec with slhReady := true }))) ∧
    (s.rd F.FW_STATUS_SEC_RUN ≠ 0 → s.running = true → s.clean → s.cacheClean → ∀ r1 s1 r2 s2,
      let ends := Instr.objectVerifyEnd r1 s1 r2 s2
      let sig := r1 && s1 && r2 && s2
      let o := s.peekN s.sec.opAddr s.sec.opLen
      (0 < s.sec.opLen → s.sec.opAddr + s.sec.opLen ≤ gddrEnd → s.host.waiting = [] →
        (s.sec.op = 4 →
          let ok := s.verifyBytes o 9 sig = 0 ∧ s.sec.chalAt.any (fun t => s.sec.opAt < t + ms 60000) = true ∧ s.fuses.debugDisable = false ∧
            objPayload o = s.sec.nonce ++ natLe 8 s.fuses.serial.toNat
          (ok → Gives ends s (fun u => ended u 0 ∧ u.cara.debug = true ∧ u.rd F.SEC_STATUS_DEBUG = 1 ∧ u.rd F.HIF_ID_SAFETY = 0 ∧
            Presented s u 184 0x9011 0 ∧ u.sec.chalAt = none)) ∧
          (¬ ok → Gives ends s (fun u => ended u 0xA012 ∧ u.cara.debug = s.cara.debug ∧ Raised s u 165 0xA012 9 ∧ u.sec.chalAt = none))) ∧
        (s.sec.op = 2 →
          let ok := s.verifyBytes o 10 sig = 0 ∧ s.fuses.ownerLock = false ∧ objDevice o = s.fuses.serial.toNat ∧ (objPayload o).length = 436 ∧
            certRoot (objCert o) = objPayload o
          (ok → Gives ends s (fun u => ended u 0 ∧ u.fuses = { s.fuses with ownerRoot := sha384 (objPayload o), ownerLock := true } ∧
            Raised s u 165 0xA010 10 ∧ Counted s u F.SEC_VERIFY_PASS 0 1)) ∧
          (¬ ok → Gives ends s (fun u => ended u 0xA011 ∧ u.fuses = s.fuses ∧ Raised s u 165 0xA011 10 ∧ Counted s u F.SEC_VERIFY_FAIL 0 1)))) ∧
      (s.sec.op = 0 → s.answers → s.sched.pieces = [] → ∀ w rest, s.host.waiting = w :: rest → w.cmd.op = 2 → w.stage = 1 → w.cmd.tag < 2 ^ 16 →
        readyNops rest = [] → 0 < w.cmd.arg → w.cmd.addr + w.cmd.arg ≤ gddrEnd →
        let o := s.peekN w.cmd.addr w.cmd.arg
        let code := s.verifyBytes o 8 sig
        let answers := fun (u : State) (status detail : Nat) => u.host.waiting = rest ∧ Completed s u w.cmd.tag status detail
        (code ≠ 0 → Gives ends s (fun u => answers u code 0 ∧ Raised s u 165 code 8 ∧ Counted s u F.SEC_VERIFY_FAIL 0 1 ∧ u.sched = s.sched)) ∧
        (code = 0 → (∀ c slot, s.checkImage (objPayload o) none = .error (c, slot) → Gives ends s (fun u => answers u c 0 ∧
            Raised s u 163 c slot ∧ u.sched = s.sched)) ∧
          (∀ img pl, s.checkImage (objPayload o) none = .ok (img, pl) → (∀ m ∈ pl.models, m.sections = []) → Gives ends s (fun u =>
            answers u 0 ((pl.models.foldl (fun n m => n + 2 ^ m.slot) 0) % 2 ^ 64) ∧ u.sched.pipes = s.sched.pipes ++ img.pipes.map Pipeline.fresh ∧
            ∀ m ∈ pl.models, ∃ k ∈ u.sched.models, k.slot = m.slot ∧ k.stages = m.stages ∧ k.imgDigest = imageDigest (objPayload o))))))

/-- R540 to R550, R552: the Cocoon. A record offered takes the next MSEQ and enters the mailbox with the loss before it, or is dropped and counted with
0xB001 where it finds it full; the next record leaves it for an entry of the chain, which follows the head by its digest; an epoch that closes waits
for its seal, up to 4 at once; a seal that fails twice raises 0xB030. A reset (0xB010) and a loss of power (0xB011), which also loses the mailbox, stop
the recorder, and it resumes with an entry of its own. A sealed epoch is exported whole; an update is staged in chunks, verified, and applied after
a seal with 0xB021, or refused with 0xB020. The layouts of the entries that the recorder makes and the chunk of an update are the model's (log entry 26). -/
def Obligations.CocoonRecorder : Prop :=
  ∀ s : State,
    let mseq := s.rd F.COC_MSEQ_NEXT
    let refused := fun (i : Instr) => Gives i s (fun u => u.coc.upd = 0 ∧ u.rd F.COC_STATUS_UPD = 3 ∧ Presented s u 167 0xB020 0)
    (∀ r rest, s.coc.offers = r :: rest → r.kind ≠ 4 →
      (s.coc.powered = false → Gives .mailboxRecord s (fun u => u = { s with coc.offers := rest })) ∧
      (s.coc.powered = true → s.coc.mbox.length < 64 → Gives .mailboxRecord s (fun u => u.coc.offers = rest ∧ u.coc.drops = 0 ∧
        u.coc.mbox = s.coc.mbox ++ [{ r with mseq := mseq, loss := min 65535 s.coc.drops }] ∧ u.rd F.COC_MSEQ_NEXT = (mseq + 1) % 2 ^ 32 ∧
        u.cara = s.cara)) ∧
      (s.coc.powered = true → 64 ≤ s.coc.mbox.length → Gives .mailboxRecord s (fun u => u.coc.offers = rest ∧ u.coc.mbox = s.coc.mbox ∧
        u.coc.drops = s.coc.drops + 1 ∧ Counted s u F.COC_ERR_DROPPED 0 1 ∧ Presented s u 167 0xB001 0 ∧
        u.rd F.COC_MSEQ_NEXT = (mseq + 1) % 2 ^ 32))) ∧
    (∀ r rest (time : BitVec 64), s.cocRuns = true → s.coc.mbox = r :: rest → r.kind ≠ 0x10 →
      let n := s.rd F.COC_ESEQ_LAST + 1
      let d := natLe 4 n ++ natLe 4 (s.rd F.COC_EPOCH_OPEN) ++ natLe 8 time.toNat ++ s.coc.head ++ bytesAt r.bytes 0 128 ++ List.replicate 16 0#8
      (∀ e, s.coc.head ≠ [] → s.openEpoch = some e → e.count + 1 < 4096 → bitOf r.flags 0 = false → Gives (.chainAppend time false) s (fun u =>
        u.coc.mbox = rest ∧ u.rd F.COC_ESEQ_LAST = n % 2 ^ 32 ∧ u.coc.head = sha384 d ∧ u.openEpoch = some { e with count := e.count + 1 } ∧
        u.coc.chain = { eseq := n, epoch := s.rd F.COC_EPOCH_OPEN, data := d ++ sha384 d } :: s.coc.chain ∧ u.cara = s.cara)) ∧
      (∀ e, s.openEpoch = some e → bitOf r.flags 0 = true → s.rd F.COC_STATUS_SEALS < 4 → Gives (.chainAppend time false) s (fun u =>
        u.coc.mbox = rest ∧ Counted s u F.COC_STATUS_SEALS 0 1 ∧ u.rd F.COC_EPOCH_OPEN = (s.rd F.COC_EPOCH_OPEN + 1) % 2 ^ 32)) ∧
      (s.oldestSealed = none → exec (.chainAppend time true) s = .next s) ∧
      (∀ e, s.oldestSealed = some e → Gives (.chainAppend time true) s (fun u => u.coc.mbox = rest ∧ Presented s u 167 0xB005 0 ∧
        Counted s u F.COC_ERR_OVERWRITTEN 0 1 ∧ ∀ x ∈ u.coc.epochs, x.num = e.num → x.num = s.rd F.COC_EPOCH_OPEN))) ∧
    (s.cocRuns = true → s.openEpoch ≠ none → s.coc.closeDue = false → s.coc.openAt + ms 300000 ≤ s.tick →
      (s.rd F.COC_STATUS_SEALS < 4 → Gives .epochTimer s (fun u => Counted s u F.COC_STATUS_SEALS 0 1 ∧ u.coc.chain = s.coc.chain ∧
        u.rd F.COC_EPOCH_OPEN = (s.rd F.COC_EPOCH_OPEN + 1) % 2 ^ 32)) ∧
      (4 ≤ s.rd F.COC_STATUS_SEALS → Gives .epochTimer s (fun u => u = { s with coc.closeDue := true }))) ∧
    (∀ e (time : BitVec 64) sig, s.cocRuns = true → s.sealing = some e → s.coc.closeDue = false →
      let out := fun (u : State) => u.rd F.COC_STATUS_SEALS = (s.rd F.COC_STATUS_SEALS - 1) % 2 ^ 3
      (s.coc.upd ≠ 3 ∨ e.num < s.coc.updEpoch → Gives (.sealDone true time sig) s (fun u => out u ∧ u.cara = s.cara ∧
        ∃ x ∈ u.coc.epochs, x.num = e.num ∧ x.sealed = true ∧ x.stamp = s.sealBytes e time.toNat sig)) ∧
      (s.coc.upd = 3 → s.coc.updEpoch ≤ e.num → (∀ x, s.openEpoch = some x → x.count + 1 < 4096) → Gives (.sealDone true time sig) s (fun u => out u ∧ Presented s u 167 0xB021 0 ∧ u.coc.upd = 0 ∧
        u.rd F.COC_VER_VERSION = s.coc.updVer % 2 ^ 32 ∧ u.rd F.COC_STATUS_UPD = 2 ∧ u.coc.digest = s.coc.updDigest ∧
        u.coc.svn = max s.coc.svn s.coc.updSvn)) ∧
      (e.tries = 0 → Gives (.sealDone false time sig) s (fun u => u.regs = s.regs ∧ u.cara = s.cara ∧ u.coc.chain = s.coc.chain)) ∧
      (e.tries = 1 → s.coc.upd ≠ 3 ∨ e.num < s.coc.updEpoch → Gives (.sealDone false time sig) s (fun u => out u ∧ Presented s u 167 0xB030 0))) ∧
    (∀ torn time, let resumes := fun (loss : Bool) (P : State → Prop) => Gives (.cocoonResume loss torn time) s (fun u => u.cocRuns = true ∧
        u.rd F.COC_STATUS_RUN = 1 ∧ u.rd F.COC_STATUS_POWER_OK = 1 ∧ u.rd F.COC_ESEQ_LAST = (s.rd F.COC_ESEQ_LAST + 1) % 2 ^ 32 ∧ P u)
      (s.coc.powered = true → s.coc.resetting = true → resumes false (fun u => u.cara = s.cara)) ∧
      (s.coc.powered = false → resumes true (fun u => Presented s u 167 0xB012 0))) ∧
    (s.cocRuns = true → Gives .cocoonWdtExpiry s (fun u => u.cocRuns = false ∧ u.rd F.COC_STATUS_RUN = 0 ∧ Counted s u F.COC_ERR_RESETS 0 1 ∧
      Presented s u 167 0xB010 0 ∧ u.coc.chain = s.coc.chain ∧ u.coc.mbox = s.coc.mbox)) ∧
    (s.coc.powered = true → Gives .cocoonPowerFail s (fun u => u.coc.powered = false ∧ u.coc.mbox = [] ∧ u.rd F.COC_STATUS_POWER_OK = 0 ∧
      u.coc.chain = s.coc.chain ∧ Raised s u 167 0xB011 0)) ∧
    (s.linkedUp = true → s.dev.step = 12 → s.cocRuns = true →
      (s.rd F.COC_EXPORT_STATE = 1 → exec .cocExport s = .next s) ∧
      (s.rd F.COC_EXPORT_STATE ≠ 1 →
        let found := s.coc.epochs.find? (fun e => e.num == s.rd F.COC_EXPORT_EPOCH)
        (∀ e, found = some e → e.sealed = true → e.bytes ≤ s.rd F.COC_XLEN_BYTES → s.cocAddr + e.bytes ≤ gddrEnd → Gives .cocExport s (fun u =>
          u.rd F.COC_EXPORT_STATE = 1 ∧ u.coc.exportReq = some (e.num, s.cocAddr) ∧ u.cara = s.cara)) ∧
        ((∀ e, found = some e → e.sealed = false ∨ s.rd F.COC_XLEN_BYTES < e.bytes ∨ gddrEnd < s.cocAddr + e.bytes) →
          Gives .cocExport s (fun u => u.rd F.COC_EXPORT_STATE = 3 ∧ u.coc = s.coc))) ∧
      (s.coc.upd ≠ 0 → Gives .cocUpdStart s (fun u => u.coc = s.coc ∧ Presented s u 167 0xB020 0)) ∧
      (s.coc.upd = 0 → let n := s.rd F.COC_XLEN_BYTES
        (n = 0 ∨ gddrEnd < s.cocAddr + n → refused .cocUpdStart) ∧
        (0 < n → s.cocAddr + n ≤ gddrEnd → Gives .cocUpdStart s (fun u => u.coc.upd = 1 ∧ u.coc.updAt = s.cocAddr ∧ u.coc.updLen = n ∧
          u.coc.updSent = 0 ∧ u.rd F.COC_STATUS_UPD = 1 ∧ u.cara = s.cara)))) ∧
    (s.cocRuns = true → s.running = true → s.clean → s.cacheClean → (∀ ch, ch < 8 → s.rd F.MEM_INJ_ARM ch = 0) →
      (∀ n a e, s.coc.exportReq = some (n, a) → s.coc.epochs.find? (fun e => e.num == n && e.sealed) = some e →
        let d := ((s.coc.chain.filter (fun x => x.epoch == n)).reverse.map (·.data)).flatten ++ e.stamp
        d ≠ [] → a + d.length ≤ gddrEnd → Gives .cocExportDone s (fun u => u.rd F.COC_EXPORT_STATE = 2 ∧ u.coc.exportReq = none ∧
          u.peekN a d.length = d)) ∧
      (∀ n a, s.coc.exportReq = some (n, a) → s.coc.epochs.find? (fun e => e.num == n && e.sealed) = none →
        Gives .cocExportDone s (fun u => u.rd F.COC_EXPORT_STATE = 3 ∧ u.mem = s.mem)) ∧
      (s.coc.upd = 1 → s.coc.updSent < s.coc.updLen → s.coc.updAt + s.coc.updLen ≤ gddrEnd → s.coreRuns 2 = true →
        s.coc.mbox.length + s.coc.offers.length + 16 ≤ 64 →
        let n := min 104 (s.coc.updLen - s.coc.updSent)
        Gives .updateChunkSend s (fun u => u.coc.updSent = s.coc.updSent + n ∧ ∃ o, u.coc.offers = s.coc.offers ++ [o] ∧ o.kind = 0x10 ∧
          o.body.take n = s.peekN (s.coc.updAt + s.coc.updSent) n))) ∧
    (s.cocRuns = true → s.coc.upd = 2 → ∀ r1 s1 r2 s2,
      (s.updOk (r1 && s1 && r2 && s2) = true → Gives (.recorderUpdateVerify r1 s1 r2 s2) s (fun u => u.regs = s.regs ∧ u.cara = s.cara ∧
        u.coc = { s.coc with upd := 3, updEpoch := s.rd F.COC_EPOCH_OPEN, updVer := objVersion s.coc.staged, updDigest := objDigest s.coc.staged, updSvn := objSvn s.coc.staged })) ∧
      (s.updOk (r1 && s1 && r2 && s2) = false → refused (.recorderUpdateVerify r1 s1 r2 s2)))

/-- R42, R45, R461, R463, R464, R466 to R472, R486, R491: the fault collector. The oldest asserted line is latched with its code and unit, of those of one tick the
lowest, and the first event of its domain is captured; a line with a rail fault is presented as 0x9006. The oldest latched event takes its reaction: it
is counted; above count only it enters the trouble log and the event and log queues; fencing takes the unit out of service; failing a stage
withholds its open frames; a restart is called for; stopping ALIVE holds it and blocks publication, and 1 ms later the full restart is due. An event that
waits for the host is queued with DECIDE and takes no reaction. That lines of one tick are latched lowest first is the model's (log entry 22). -/
def Obligations.CollectorLatchesAndReacts : Prop :=
  ∀ s : State,
    (s.cara.asserted = [] → exec .errorLineLatch s = .next s) ∧
    (∀ e, s.cara.asserted = [e] → s.lineTied e.line = false → Gives .errorLineLatch s (fun u => let d := e.code / 4096 - 1
      u.cara.asserted = [] ∧ u.cara.latched = s.cara.latched ++ [{ e with tick := s.tick, hostMode := s.modes.react }] ∧
      (u.rd F.FCL_STATUS_LINE (e.line / 32)).testBit (e.line % 32) = true ∧
      (s.rd F.FCL_FIRST_1_VALID d = 0 → u.rd F.FCL_FIRST_1_VALID d = 1 ∧ u.rd F.FCL_FIRST_3_CODE d = e.code % 2 ^ 16 ∧
        u.rd F.FCL_FIRST_3_UNIT d = e.unit % 2 ^ 16 ∧ u.rd F.FCL_FIRST_2_TICK d = s.tick % 2 ^ 32) ∧
      (s.rd F.FCL_FIRST_1_VALID d ≠ 0 → u.rd F.FCL_FIRST_3_CODE d = s.rd F.FCL_FIRST_3_CODE d))) ∧
    (∀ e, s.cara.asserted = [e] → s.lineTied e.line = true → Gives .errorLineLatch s (fun u => u = { s with cara.asserted := [] })) ∧
    (∀ a b, s.cara.asserted = [a, b] → a.tick = b.tick → b.line < a.line → s.lineTied b.line = false → Gives .errorLineLatch s (fun u =>
      u.cara.asserted = [a] ∧ u.cara.latched = s.cara.latched ++ [{ b with tick := s.tick, hostMode := s.modes.react }])) ∧
    (∀ line : BitVec 8, (s.lineTied line.toNat = true → exec (.errorLineRailFault line) s = .next s) ∧
      (s.lineTied line.toNat = false → Gives (.errorLineRailFault line) s (fun u => Presented s u line.toNat 0x9006 0xffff ∧ OnlyRegs s u ∧
        u.rd F.FCL_LINE_CHK_LINE = (if s.rd F.FCL_LINE_CHK_VALID = 0 then line.toNat else s.rd F.FCL_LINE_CHK_LINE)))) ∧
    (s.cara.latched = [] → exec .collectorReaction s = .next s) ∧
    (∀ e rest, s.cara.latched = e :: rest → s.handover = false →
      let entry := { code := e.code, tick := e.tick, units := e.units, ev := e : EvtRec }
      let reacts := fun (r : Nat) (P : State → Prop) => s.reactionOf e.code = r → Gives .collectorReaction s (fun u => u.cara.latched = rest ∧
        (1 ≤ r → ∃ t, u.cara.tlog.head? = some t ∧ t.code = e.code ∧ t.unit = e.unit ∧ t.react = r ∧ t.tick = e.tick) ∧ P u)
      (s.waitsHost e = true → Gives .collectorReaction s (fun u => u.cara.latched = rest ∧ u.cara.tlog = s.cara.tlog ∧
        u.fw.evtQ = s.fw.evtQ ++ [{ entry with decide := true }] ∧ u.fw.logQ = s.fw.logQ ∧ u.cara.restartDue = s.cara.restartDue)) ∧
      (s.waitsHost e = false →
        reacts 0 (fun u => Counted s u F.FCL_REACT_CNT1_COUNT 0 1 ∧ u.cara.tlog = s.cara.tlog ∧ u.fw.evtQ = s.fw.evtQ ∧ u.fw.logQ = s.fw.logQ) ∧
        reacts 1 (fun u => Counted s u F.FCL_REACT_CNT1_LOG 0 1 ∧ u.fw.evtQ = s.fw.evtQ ++ [entry] ∧
          ∃ g, u.fw.logQ = s.fw.logQ ++ [g] ∧ g.code = e.code ∧ g.tick = e.tick) ∧
        (144 ≤ e.line → e.line < 148 → reacts 2 (fun u => Counted s u F.FCL_REACT_CNT0_FENCE 0 1 ∧ (u.port (e.line - 144)).out = true)) ∧
        (∀ st p f, e.stages = [st] → s.pipeOfStage st = some p → s.pipe? p.desc.num = some p → p.frames = [f] → f.hitBy e.tick = true →
          f.outcome = 0 → s.sched.jobs = [] → s.chk.arbs = [] → reacts 3 (fun u => Counted s u F.FCL_REACT_CNT0_FAIL 0 1 ∧
            ∃ y, u.pipe? p.desc.num = some y ∧ y.frames = [{ f with outcome := 0x1F01 }])) ∧
        (s.dev.latchedOff = false →
          reacts 4 (fun u => Counted s u F.FCL_REACT_CNT0_PARTIAL 0 1 ∧ u.cara.restartDue = max s.cara.restartDue 4) ∧
          reacts 5 (fun u => u.cara.restartDue = max s.cara.restartDue 5)) ∧
        reacts 6 (fun u => Counted s u F.SAF_ALIVE_STOPS 0 1 ∧ u.cara.selBlock = true ∧ u.cara.aliveHold = true ∧
          u.cara.stopAt = some (s.cara.stopAt.getD e.tick)))) ∧
    (∀ t, s.cara.stopAt = some t →
      (t + ms 1 ≤ s.tick → s.dev.latchedOff = false → Gives .stopAliveDelayExpiry s (fun u =>
        u = { s with cara.restartDue := max s.cara.restartDue 5 })) ∧
      (s.tick < t + ms 1 → exec .stopAliveDelayExpiry s = .next s))

/-- R452 to R457, R459, R460, R472, R482 to R486, R489, R490, R570: the Carapace beside its collector. ALIVE toggles every 250 µs while the device runs; a lockstep difference
raises 0x9001 outside split mode; comparator and line path tests that miss are counted and raise 0x9005, SRAM errors 0x9003 and 0x9004; a watchdog
kick that is missing or too early is counted and raises 0x9002; a clock off by more than 1 % raises 0x9007; the debugger halts and resumes the pair
once debug is unlocked. The management port sends up to 32 records a datagram and, when none waits, the next piece of an export; it drops what it
receives and raises 0x9040 when its link changes. The SMBus target answers its three block reads and refuses every other command. -/
def Obligations.CarapaceMonitorsAndPorts : Prop :=
  ∀ s : State, s.mainUp = true →
    let raises := fun (i : Instr) (line code : Nat) => Gives i s (fun u => Presented s u line code 0 ∧ OnlyRegs s u)
    let nothing := fun (i : Instr) => exec i s = .next s
    (s.aliveRuns = false → nothing .aliveToggle) ∧
    (s.aliveRuns = true → s.cara.aliveAt + 24950 ≤ s.tick → Gives .aliveToggle s (fun u => u.cara.aliveLevel = !s.cara.aliveLevel ∧
      u.cara.aliveAt = s.tick ∧ Counted s u F.SAF_ALIVE_EDGES 0 1 ∧ u.cara.asserted = s.cara.asserted)) ∧
    (s.cara.split = true → nothing .lockstepMismatch ∧ ∀ ok, nothing (.comparatorTest ok)) ∧
    (s.cara.split = false → raises .lockstepMismatch 177 0x9001 ∧ (s.cara.testAt + ms 99 ≤ s.tick →
      Gives (.comparatorTest true) s (fun u => Counted s u F.SAF_LOCKSTEP_TESTS 0 1 ∧ u.cara = { s.cara with testAt := s.tick, testBit := s.cara.testBit + 1 }) ∧
      Gives (.comparatorTest false) s (fun u => Counted s u F.SAF_LOCKSTEP_FAIL 0 1 ∧ Presented s u 177 0x9005 0 ∧ u.cara.testAt = s.tick))) ∧
    (s.cara.lineTestAt + ms 99 ≤ s.tick → Gives (.linePathTest none) s (fun u => u = { s with cara.lineTestAt := s.tick }) ∧
      ∀ l, Gives (.linePathTest (some l)) s (fun u => Counted s u F.SAF_LOCKSTEP_FAIL 0 1 ∧ Presented s u 184 0x9005 0)) ∧
    nothing (.carapaceSramScrub 0#2) ∧ raises (.carapaceSramScrub 1#2) 179 0x9003 ∧ raises (.carapaceSramScrub 2#2) 179 0x9004 ∧
    (let late := s.cara.wdtAt + ms 1 ≤ s.tick
     let misses := fun (i : Instr) (f : Fld) => Gives i s (fun u => Counted s u f 0 1 ∧ Presented s u 178 0x9002 0 ∧ u.cara.wdtAt = s.tick)
     (s.cara.dbgHalt = true → nothing .carapaceWdtKick ∧ nothing .carapaceWdtExpiry) ∧
     (s.cara.dbgHalt = false →
       (late → misses .carapaceWdtExpiry F.SAF_WDT_LATE ∧ misses .carapaceWdtKick F.SAF_WDT_LATE) ∧
       (¬ late → nothing .carapaceWdtExpiry) ∧
       (s.tick < s.cara.wdtAt + us 50 → misses .carapaceWdtKick F.SAF_WDT_EARLY) ∧
       (s.cara.wdtAt + us 50 ≤ s.tick → ¬ late → Gives .carapaceWdtKick s (fun u => u.cara.wdtAt = s.tick ∧ u.regs = s.regs ∧
         u.cara.asserted = s.cara.asserted)))) ∧
    (∀ ppm : BitVec 32, (10000 < ppm.toNat → raises (.clockMonitorCheck ppm) 168 0x9007) ∧ (ppm.toNat ≤ 10000 → nothing (.clockMonitorCheck ppm))) ∧
    (s.cara.debug = false → ∀ a, nothing (.debugAction a)) ∧
    (s.cara.debug = true →
      (s.cara.dbgHalt = false → Gives (.debugAction 0#3) s (fun u => u = { s with cara.dbgHalt := true, cara.wdtAt := s.tick - s.cara.wdtAt })) ∧
      (s.cara.dbgHalt = true → Gives (.debugAction 2#3) s (fun u =>
        u = { s with cara.dbgHalt := false, cara.wdtAt := s.tick - s.cara.wdtAt, cara.dbgKicks := 0 }))) ∧
    (s.mgmtUp = true →
      (s.cara.mgmtQ ≠ [] → 32 ≤ s.cara.mgmtQ.length ∨ s.cara.mgmtAt + ms 1 ≤ s.tick → Gives .mgmtDatagramSend s (fun u =>
        u.cara.mgmtSent = s.datagram (s.cara.mgmtQ.take 32) ∧ u.cara.mgmtTo = s.cfg.mgmt ∧ u.cara.mgmtQ = s.cara.mgmtQ.drop 32 ∧ u.cara.mgmtLoss = false ∧
        u.cara.mgmtSeq = (s.cara.mgmtSeq + 1) % 2 ^ 32 ∧ Counted s u F.SAF_MGMT_STAT_SENT 0 1)) ∧
      (∀ e rest p i n r, s.cara.mgmtQ = [] → s.sched.exports = e :: rest → s.pipe? e.pipe = some p → p.desc.nextExport e.ix = some i →
        p.desc.stages[i]? = some n → e.frame.stage? n = some r → s.clean → s.cacheClean →
        let off := if i = e.ix then e.off else 0
        let k := min 1408 (r.bytes - off)
        let last := r.bytes ≤ off + k
        0 < k → r.addr + off + k ≤ gddrEnd → Gives .mgmtExportSend s (fun u => Counted s u F.SAF_MGMT_STAT_SENT 0 1 ∧
          u.cara.mgmtSent = s.tagged (exportHead e.pipe i (b2n e.frame.isStale + 2 * b2n e.qm + 4 * s.rd F.SAF_MGMT_AUTH + (if last then 8 else 0))
            e.frame.num off r.bytes e.tick ++ s.peekN (r.addr + off) k) ∧ u.cara.mgmtTo = { s.cfg.mgmt with port := s.cfg.exportPort } ∧
          (last → p.desc.nextExport (i + 1) = none → u.sched.exports = rest) ∧
          (¬ last → u.sched.exports = { e with ix := i, off := off + k } :: rest)))) ∧
    (∀ frame, nothing (.mgmtFrameReceive frame)) ∧
    (∀ up, let now := s.rd F.SAF_MGMT_LINK ≠ 0
      ((now ↔ up = true) → nothing (.mgmtLinkChange up)) ∧
      (¬ (now ↔ up = true) → Gives (.mgmtLinkChange up) s (fun u => Presented s u 180 0x9040 0 ∧ OnlyRegs s u ∧
        u.rd F.SAF_MGMT_LINK = if up then 1 else 0))) ∧
    (let answers := fun (i : Instr) (l : List Byte) => Gives i s (fun u => u = { s with cara.lastSm := l })
     answers .smbusReadStatus (natLe 4 (s.readReg 0x6d0004)) ∧
     answers .smbusReadLines ((List.range 8).map (fun i => natLe 4 (s.readReg (0x6e0010 + 4 * i)))).flatten ∧
     (s.cara.tlog = [] → answers .smbusReadTlog (List.replicate 32 0)) ∧
     (∀ r rest, s.cara.tlog = r :: rest → answers .smbusReadTlog r.longBytes) ∧
     ∀ cmd, answers (.smbusOtherCommand cmd) [])

/-- R62, R382, R386, R424, R447, R473, R475, R479, R480, R540, R553, R557, R559 to R568, R572: power and restarts. Power good begins the start; without a
directory that is whole it fails at step 2, without a security image at step 4, its step and code captured with 0xC030; with all its objects verified
and device memory trained the device runs. Every start ends in the running or the failed state. RST_N returns the main die to its reset, a loss of
power too, and persistent words, fuses and the Cocoon's records stay. A partial restart (0x9020) clears tile memory, keeps device memory and runs again, stays
failed where a channel cannot be trained (log entry 27), or becomes a full restart where the contents are lost; a full restart (0x9021) keeps the trouble log and the Cocoon and starts anew, and the third within 600 s
latches the device with ALIVE held. -/
def Obligations.StartAndRestart : Prop :=
  ∀ s : State,
    let isDev := fun (u : State) (n : Nat) => u.rd F.HIF_STATE_DEV = n
    let failsAt := fun (inp : StartIn) (step code : Nat) => Gives (.startSequence inp) s (fun u => isDev u 4 ∧ u.rd F.PWR_START_STEP = step ∧
      u.rd F.PWR_START_CODE = code ∧ Raised s u 166 0xC030 step)
    let kept := fun (u : State) => u.fuses = s.fuses ∧ u.prs.words = s.prs.words ∧ u.tick = s.tick ∧ u.coc = s.coc
    let reset := fun (u : State) => kept u ∧ (∀ (f : Fld) i, u.rd f i = if cocKey (f.key i) then s.rd f i else f.rst) ∧
      (∀ a, u.peek a = memDef a) ∧ u.swarm.tiles = [] ∧ u.sched.pipes = [] ∧ u.cara.asserted = []
    (s.dev.rstLow = false → exec .powerGood s = .next s) ∧
    (s.dev.rstLow = true → s.dev.shutdown = false → Gives .powerGood s (fun u => kept u ∧ u.mem = s.mem ∧ u.cara = s.cara ∧
      u.dev = { s.dev with rstLow := false, power := true, step := 1, phase := 1 })) ∧
    Gives .rstNAssert s (fun u => reset u ∧ u.dev.rstLow = true ∧ u.prs.queue = s.prs.queue) ∧
    Gives .powerLoss s (fun u => reset u ∧ u.dev = { power := false } ∧ u.prs.queue = [] ∧ u.pwr = {}) ∧
    (s.dev.step = 1 → s.dev.phase = 1 → s.dev.latchedOff = false → s.dev.shutdown = false → s.rd F.HIF_STATE_DEV ≠ 4 → ∀ inp : StartIn,
      Gives (.startSequence inp) s (fun u => isDev u 4 ∨ isDev u 1 ∧ u.dev.step = 12 ∧ u.dev.runAt = s.tick ∧ u.rd F.PWR_START_DONE = 1) ∧
      (startDir inp = none → failsAt inp 2 0xC030) ∧
      (startDir inp ≠ none → startObj? (locate inp) 4 0xff 0 = none → startObj? (locate inp) 4 0xff 1 = none → failsAt inp 4 0xA001) ∧
      (∀ o : Nat → StartObj, startDir inp ≠ none → s.prs.queue = [] → inp.badWords = [] → inp.corrWords = [] →
        (∀ t, 1 ≤ t → t ≤ 5 → startObj? (locate inp) t 0xff 0 = some (o t) ∧ (o t).hier ≤ 1 ∧ s.objResult (o t) = 0) → s.cfgPasses inp = true → (o 1).ifMajor = (o 2).ifMajor →
        inp.cfg.settings = [] → inp.cfg.startModels = [] → inp.cfg.split = false → s.cara.split = false → s.cara.debug = false →
        inp.cfg.reduced = false → inp.density = 0xff#8 → inp.trainFull = 0xff#8 → inp.lbistFail = [] → inp.mbistFail = [] → skewFails inp.skew = [] →
        Gives (.startSequence inp) s (fun u => isDev u 1 ∧ u.dev.step = 12 ∧ u.dev.phase = 0 ∧ u.dev.runAt = s.tick ∧ u.rd F.PWR_START_DONE = 1 ∧
          u.rd F.PWR_START_STEP = 12 ∧ u.rd F.PWR_START_MS_HI = inp.ms / 256 % 2 ^ 8 ∧ u.rd F.PWR_START_CODE = inp.ms % 2 ^ 8 ∧
          u.rd F.HIF_ID_SAFETY = 1 ∧ u.cfg = inp.cfg ∧ u.rd F.HIF_IFVER_MAJOR = (o 2).ifMajor % 2 ^ 16 ∧
          u.verActive = (o 2).version % 2 ^ 32 ∧ u.rd F.FW_STATUS_CORE_RUN = 15 ∧ u.cara.aliveHold = false))) ∧
    (s.cara.restartDue ≠ 4 → ∀ inp, exec (.partialRestart inp) s = .next s) ∧
    (s.cara.restartDue = 4 → s.dev.step = 12 → s.dev.shutdown = false → s.dev.latchedOff = false → ∀ inp : RestartIn,
      (s.cara.zeroFill = false → inp.writeBack = true → s.cacheClean → inp.verified ≠ 0xff#8 → s.rd F.MEM_STATUS_SPEED 0 = 1 → inp.trainReduced ≠ 0xff#8 →
        Gives (.partialRestart inp) s (fun u => isDev u 4 ∧ Raised s u 184 0x9020 0 ∧ ∃ e ∈ u.cara.asserted, e.code = 0x4008)) ∧
      (s.cara.zeroFill = false → inp.writeBack = true → s.cacheClean → inp.trainReduced = 0xff#8 → Gives (.partialRestart inp) s (fun u => isDev u 1 ∧ u.dev.step = 12 ∧ u.dev.phase = 0 ∧
        u.cara.restartDue = 0 ∧ u.cara.partials = s.cara.partials ++ [s.tick] ∧ Raised s u 184 0x9020 0 ∧ u.rd F.FW_STATUS_CORE_RUN = 15 ∧
        (s.sched.jobs = [] → s.sched.pipes = [] → s.sched.models = [] → s.sched.switches = [] → s.host.waiting = [] → s.molt = 0 →
          ∀ a, (a < gddrEnd → u.peek a = s.peek a) ∧ (tileBase ≤ a → a < tileBase + 0x20000000 → u.peek a = memDef a)))) ∧
      (s.cara.zeroFill = true ∨ inp.writeBack = false → Gives (.partialRestart inp) s (fun u => u.cara.restartDue = 5 ∧ u.cara.zeroFill = true ∧
        Raised s u 184 0x9020 0 ∧ Raised s u 128 0x4020 mCtl))) ∧
    (s.cara.restartDue ≠ 5 → ∀ inp, exec (.fullRestart inp) s = .next s) ∧
    (s.cara.restartDue = 5 → s.mainUp = true → s.dev.latchedOff = false → ∀ inp : StartIn,
      let begins := fun (P : State → Prop) => Gives (.fullRestart inp) s (fun u => u.cara.tlog = s.cara.tlog ∧ u.coc = s.coc ∧ u.fuses = s.fuses ∧
        u.tick = s.tick ∧ u.cara.restarts = s.recentRestarts ++ [s.tick] ∧ (∃ e ∈ u.cara.asserted, e.line = 184 ∧ e.code = 0x9021) ∧ P u)
      (s.recentRestarts.length < 2 → begins (fun u => isDev u 4 ∨ isDev u 1 ∧ u.dev.step = 12)) ∧
      (2 ≤ s.recentRestarts.length → begins (fun u => isDev u 3 ∧ u.dev.latchedOff = true ∧ u.cara.aliveHold = true ∧
        ∃ e ∈ u.cara.asserted, e.line = 184 ∧ e.code = 0x9022)))

/-- R139, R209, R339, R340, R363, R392, R426, R450, R490, R491, R549, R552, R578, R580: each CLR_CNT bit. It clears exactly the fields of its window that it names,
for its instance where the window has several, and changes no other register and nothing else; that of the Carapace also clears every
stage's early and late counts. -/
def Obligations.ClearCounterBits : Prop :=
  ∀ s : State,
    let others := fun (u : State) (fs : List Fld) (i : Nat) => ∀ (g : Fld) k, (∀ f ∈ fs, g.key k ≠ f.key i) → u.rd g k = s.rd g k
    let zero := fun (u : State) (fs : List Fld) (i : Nat) => ∀ f ∈ fs, u.rd f i = 0
    let clears := fun (c : Instr) (fs : List Fld) (i : Nat) => Gives c s (fun u => zero u fs i ∧ others u fs i ∧ u = { s with regs := u.regs })
    (∀ t : BitVec 11, s.hosted t.toNat = true → s.moving t.toNat = false → clears (.arrClrCnt t) [F.ARR_SAT_COUNT_ACC, F.ARR_SAT_COUNT_DRAIN, F.ARR_ACTIVE_BEATS, F.ARR_STALL_CYCLES,
      F.ARR_BALLAST_BEATS, F.ARR_VIOL_SUBST] t.toNat) ∧
    clears .nocClrCnt [F.NOC_RETX_COUNT, F.NOC_FAIL_REJECT, F.NOC_FAIL_ACK_TMO, F.NOC_FAIL_CRC_FAIL, F.NOC_FAIL_SYNC_CHK, F.NOC_VIOL_OUT_OF_SET,
      F.NOC_VIOL_BUDGET, F.NOC_ECC_UNCORR, F.NOC_ECC_CORR, F.NOC_FIRST0_VALID] 0 ∧
    clears .synClrCnt [F.SYN_VIOL_SAT_GLOBAL, F.SYN_VIOL_SAT_LOCAL, F.SYN_WAITS_RETRY, F.SYN_WAITS_PEAK, F.SYNC_IO_ERR_TIMEOUTS,
      F.SYNC_IO_ERR_SEQ_MISMATCH] 0 ∧
    Gives .intClrCnt s (fun u =>
      (∀ n, n < 48 → zero u [F.INT_LOSS_TOTAL, F.INT_LOSS_CONSEC, F.INT_LOSS_RESUMES, F.INT_CHK_PAT_FAIL, F.INT_CHK_TROW_FAIL, F.INT_CHK_OVERRUN] n) ∧
      (∀ r, r < 16 → zero u [F.INT_CSI_ERR_ECC_CORR, F.INT_CSI_ERR_ECC_UNCORR, F.INT_CSI_ERR_CRC, F.INT_CSI_ERR_UNCLAIMED] r) ∧
      (∀ m, m < 4 → zero u [F.INT_ETH_STAT_FCS, F.INT_ETH_DROP_FILTER, F.INT_ETH_DROP_MALFORMED] m) ∧ u.rd F.INT_FIRST0_VALID = 0 ∧
      (∀ n, n < 48 → u.rd F.INT_STATE_STATE n = s.rd F.INT_STATE_STATE n) ∧ u = { s with regs := u.regs }) ∧
    (∀ e : BitVec 1, clears (.jxsClrCnt e) [F.JXS_ABORT_BUDGET, F.JXS_ABORT_RESETS, F.JXS_REJECT_HEADER, F.JXS_REJECT_SYNTAX, F.JXS_TEST_TEST_FAIL,
      F.JXS_TEST_ENC_ABORT] e.toNat) ∧
    (∀ e : BitVec 2, clears (.wrpClrCnt e) [F.WRP_ERR_ATTRIB, F.WRP_ERR_MESH_CRC, F.WRP_ERR_COORD, F.WRP_ERR_TIMEOUT, F.WRP_PIXELS_COUNT] e.toNat) ∧
    (∀ ch : BitVec 3, let fs := [F.MEM_ECC_CORR, F.MEM_ECC_UNCORR, F.MEM_SCRUB_ERR_CORR, F.MEM_SCRUB_ERR_UNCORR, F.MEM_EDC_RETRY, F.MEM_EDC_FAIL,
        F.MEM_EDC_FORCED, F.MEM_CACHE_HITS, F.MEM_CACHE_MISSES, F.MEM_FIRST1_VALID]
      let sram := [F.MEM_SRAM_ECC_CORR, F.MEM_SRAM_ECC_UNCORR, F.MEM_SRAM_FIRST0_VALID]
      (ch ≠ 0#3 → clears (.memClrCnt ch) fs ch.toNat) ∧ (ch = 0#3 → clears (.memClrCnt ch) (fs ++ sram) 0)) ∧
    clears .hifClrCnt [F.HIF_LOSS0_CPL, F.HIF_LOSS0_EVT, F.HIF_LOSS1_LOG, F.HIF_LOSS1_TRC, F.HIF_VIOL0_RO_WRITE, F.HIF_VIOL0_HOLE,
      F.HIF_VIOL1_SUBWORD, F.HIF_VIOL1_TAG, F.HIF_VIOL1_INDEX, F.HIF_PCIE_ERR_ECRC, F.HIF_PCIE_ERR_POISON, F.HIF_PCIE_ERR_CA, F.HIF_PCIE_ERR_CORR] 0 ∧
    clears .fwClrCnt [F.FW_WDT_STAT_DSP, F.FW_WDT_STAT_SEC, F.FW_WDT_STAT_PWR, F.FW_WDT_STAT_EARLY, F.FW_TRACE_DROP_COUNT, F.FW_FAULT_VALID] 0 ∧
    (let fs := [F.SAF_LOCKSTEP_TESTS, F.SAF_LOCKSTEP_FAIL, F.SAF_WDT_EARLY, F.SAF_WDT_LATE, F.SAF_ALIVE_STOPS, F.SAF_MGMT_STAT_SENT,
        F.SAF_MGMT_STAT_DROPPED]
     Gives .safClrCnt s (fun u => zero u fs 0 ∧ others u fs 0 ∧ u = { s with regs := u.regs, cara.wins := u.cara.wins } ∧
       ∀ n, (u.win n).early = 0 ∧ (u.win n).late = 0 ∧ (u.win n).last = (s.win n).last ∧ (u.win n).startAt = (s.win n).startAt)) ∧
    (let fs := [F.FCL_REACT_CNT0_FENCE, F.FCL_REACT_CNT0_FAIL, F.FCL_REACT_CNT0_PARTIAL, F.FCL_REACT_CNT0_CLAMP, F.FCL_REACT_CNT1_COUNT,
        F.FCL_REACT_CNT1_LOG]
     Gives .fclClrCnt s (fun u => zero u fs 0 ∧ (∀ d, d < 12 → u.rd F.FCL_FIRST_1_VALID d = 0 ∧ u.rd F.FCL_FIRST_3_CODE d = s.rd F.FCL_FIRST_3_CODE d) ∧
       u = { s with regs := u.regs })) ∧
    clears .secClrCnt [F.SEC_VERIFY_PASS, F.SEC_VERIFY_FAIL] 0 ∧
    clears .cocClrCnt [F.COC_ERR_DROPPED, F.COC_ERR_RESETS, F.COC_ERR_OVERWRITTEN] 0 ∧
    clears .pwrClrCnt [F.PWR_CURR_PEAK, F.PWR_ACT_CNT_T115, F.PWR_ACT_CNT_T122, F.PWR_ACT_CNT_CURR, F.PWR_ACT_CNT_VOLT] 0 ∧
    clears .prsClrCnt [F.PRS_STATUS_REFUSED, F.PRS_STATUS_UNCORR] 0
end

