-- ==== Sys2Proof/Laws/FMap.lean ====
section
/-! SUPPORT. Laws of sparse maps: a read after a write, and the canonical form (keys strictly rising) under every operation. -/
namespace Sys2Proof.Machine

variable {α : Type}

/-! Reads. -/

theorem FMap.get_erase_same (d : α) (m : FMap α) (k : Nat) : FMap.get d (FMap.erase m k) k = d := by
  induction m with
  | nil => rfl
  | cons e r ih =>
    obtain ⟨j, v⟩ := e
    by_cases h : j = k <;> simp [FMap.erase, FMap.get, h, ih]

theorem FMap.get_erase_ne (d : α) (m : FMap α) {k i : Nat} (hi : i ≠ k) :
    FMap.get d (FMap.erase m k) i = FMap.get d m i := by
  induction m with
  | nil => rfl
  | cons e r ih =>
    obtain ⟨j, v⟩ := e
    by_cases h : j = k
    · have : ¬ k = i := fun h => hi h.symm
      simp [FMap.erase, FMap.get, h, ih, this]
    · simp [FMap.erase, FMap.get, h, ih]

theorem FMap.get_place_erase (d : α) (m : FMap α) (k : Nat) (v : α) :
    FMap.get d (FMap.place (FMap.erase m k) k v) k = v := by
  induction m with
  | nil => simp [FMap.erase, FMap.place, FMap.get]
  | cons e r ih =>
    obtain ⟨j, w⟩ := e
    by_cases h : j = k
    · simp [FMap.erase, h, ih]
    · simp only [FMap.erase, if_neg h, FMap.place]
      split
      · simp [FMap.get]
      · simp [FMap.get, h, ih]

theorem FMap.get_place_ne (d : α) (m : FMap α) {k i : Nat} (v : α) (hi : i ≠ k) :
    FMap.get d (FMap.place m k v) i = FMap.get d m i := by
  have hk : ¬ k = i := fun h => hi h.symm
  induction m with
  | nil => simp [FMap.place, FMap.get, hk]
  | cons e r ih =>
    obtain ⟨j, w⟩ := e
    simp only [FMap.place]
    split
    · simp [FMap.get, hk]
    · simp [FMap.get, ih]

/-- The key that is written reads the new value. -/
@[simp] theorem FMap.get_set_same [DecidableEq α] (d : α) (m : FMap α) (k : Nat) (v : α) :
    FMap.get d (FMap.set d m k v) k = v := by
  unfold FMap.set
  split
  · rename_i h; rw [FMap.get_erase_same, h]
  · exact FMap.get_place_erase d m k v

/-- Every other key reads as before. -/
theorem FMap.get_set_ne [DecidableEq α] (d d' : α) (m : FMap α) {k i : Nat} (v : α) (hi : i ≠ k) :
    FMap.get d' (FMap.set d m k v) i = FMap.get d' m i := by
  unfold FMap.set
  split
  · exact FMap.get_erase_ne d' m hi
  · rw [FMap.get_place_ne d' _ v hi, FMap.get_erase_ne d' m hi]

/-! The canonical form. -/

/-- Keys rise strictly. -/
def FMap.rising : FMap α → Bool
  | [] => true
  | (j, _) :: r => FMap.above j r

theorem FMap.above_lt {m : FMap α} {i j : Nat} (h : FMap.above j m = true) (hi : i < j) : FMap.above i m = true := by
  cases m with
  | nil => rfl
  | cons e r =>
    simp only [FMap.above, Bool.and_eq_true, decide_eq_true_eq] at h ⊢
    exact ⟨Nat.lt_trans hi h.1, h.2⟩

theorem FMap.above_erase {m : FMap α} {j k : Nat} (h : FMap.above j m = true) : FMap.above j (FMap.erase m k) = true := by
  induction m generalizing j with
  | nil => rfl
  | cons e r ih =>
    obtain ⟨i, v⟩ := e
    simp only [FMap.above, Bool.and_eq_true, decide_eq_true_eq] at h
    simp only [FMap.erase]
    split
    · exact FMap.above_lt (ih h.2) h.1
    · simp only [FMap.above, Bool.and_eq_true, decide_eq_true_eq]; exact ⟨h.1, ih h.2⟩

theorem FMap.above_filter {m : FMap α} {j : Nat} (p : Nat × α → Bool) (h : FMap.above j m = true) :
    FMap.above j (m.filter p) = true := by
  induction m generalizing j with
  | nil => rfl
  | cons e r ih =>
    obtain ⟨i, v⟩ := e
    simp only [FMap.above, Bool.and_eq_true, decide_eq_true_eq] at h
    simp only [List.filter_cons]
    split
    · simp only [FMap.above, Bool.and_eq_true, decide_eq_true_eq]; exact ⟨h.1, ih h.2⟩
    · exact FMap.above_lt (ih h.2) h.1

/-- `k` is not a key of the map. -/
def FMap.lacks (m : FMap α) (k : Nat) : Prop := ∀ e ∈ m, e.1 ≠ k

theorem FMap.lacks_erase (m : FMap α) (k : Nat) : FMap.lacks (FMap.erase m k) k := by
  induction m with
  | nil => intro e h; cases h
  | cons e r ih =>
    obtain ⟨i, v⟩ := e
    simp only [FMap.erase]
    split
    · exact ih
    · rename_i hi
      intro e' h'
      cases h' with
      | head => exact hi
      | tail _ h' => exact ih e' h'

theorem FMap.above_place {m : FMap α} {j k : Nat} (v : α) (h : FMap.above j m = true) (hk : j < k) (hl : FMap.lacks m k) :
    FMap.above j (FMap.place m k v) = true := by
  induction m generalizing j with
  | nil => simp [FMap.place, FMap.above, hk]
  | cons e r ih =>
    obtain ⟨i, w⟩ := e
    simp only [FMap.above, Bool.and_eq_true, decide_eq_true_eq] at h
    have hne : i ≠ k := hl (i, w) (List.mem_cons_self ..)
    simp only [FMap.place]
    split
    · rename_i hki
      simp only [FMap.above, Bool.and_eq_true, decide_eq_true_eq]; exact ⟨hk, hki, h.2⟩
    · simp only [FMap.above, Bool.and_eq_true, decide_eq_true_eq]
      exact ⟨h.1, ih h.2 (by omega) (fun e' h' => hl e' (List.mem_cons_of_mem _ h'))⟩

theorem FMap.rising_erase {m : FMap α} (k : Nat) (h : FMap.rising m = true) : FMap.rising (FMap.erase m k) = true := by
  induction m with
  | nil => rfl
  | cons e r ih =>
    obtain ⟨i, v⟩ := e
    simp only [FMap.rising] at h
    simp only [FMap.erase]
    split
    · apply ih; cases r with
      | nil => rfl
      | cons e' r' => simp only [FMap.above, Bool.and_eq_true] at h; exact h.2
    · simp only [FMap.rising]; exact FMap.above_erase h

theorem FMap.rising_filter {m : FMap α} (p : Nat × α → Bool) (h : FMap.rising m = true) : FMap.rising (m.filter p) = true := by
  induction m with
  | nil => rfl
  | cons e r ih =>
    obtain ⟨i, v⟩ := e
    simp only [FMap.rising] at h
    simp only [List.filter_cons]
    split
    · simp only [FMap.rising]; exact FMap.above_filter p h
    · apply ih; cases r with
      | nil => rfl
      | cons e' r' => simp only [FMap.above, Bool.and_eq_true] at h; exact h.2

theorem FMap.rising_place {m : FMap α} {k : Nat} (v : α) (h : FMap.rising m = true) (hl : FMap.lacks m k) :
    FMap.rising (FMap.place m k v) = true := by
  cases m with
  | nil => rfl
  | cons e r =>
    obtain ⟨i, w⟩ := e
    have hne : i ≠ k := hl (i, w) (List.mem_cons_self ..)
    simp only [FMap.rising] at h
    simp only [FMap.place]
    split
    · rename_i hki
      simp only [FMap.rising, FMap.above, Bool.and_eq_true, decide_eq_true_eq]; exact ⟨hki, h⟩
    · simp only [FMap.rising]
      exact FMap.above_place v h (by omega) (fun e' h' => hl e' (List.mem_cons_of_mem _ h'))

/-! Entries. -/

theorem FMap.mem_erase {m : FMap α} {k : Nat} {e : Nat × α} (h : e ∈ FMap.erase m k) : e ∈ m := by
  induction m with
  | nil => cases h
  | cons a r ih =>
    obtain ⟨i, v⟩ := a
    simp only [FMap.erase] at h
    split at h
    · exact List.mem_cons_of_mem _ (ih h)
    · cases h with
      | head => exact List.mem_cons_self ..
      | tail _ h => exact List.mem_cons_of_mem _ (ih h)

theorem FMap.mem_place {m : FMap α} {k : Nat} {v : α} {e : Nat × α} (h : e ∈ FMap.place m k v) : e = (k, v) ∨ e ∈ m := by
  induction m with
  | nil => simpa [FMap.place] using h
  | cons a r ih =>
    obtain ⟨i, w⟩ := a
    simp only [FMap.place] at h
    split at h
    · simpa using h
    · cases h with
      | head => exact .inr (List.mem_cons_self ..)
      | tail _ h => exact (ih h).imp_right (List.mem_cons_of_mem _)

end Sys2Proof.Machine
end

