-- ==== Sys2Proof/Laws/State.lean ====
section
/-! SUPPORT. What the named updates of the state leave as it was: one lemma per field and per view of it. -/
namespace Sys2Proof.Machine

@[simp] theorem State.wr_tick (s : State) (f : Fld) (v i : Nat) : (s.wr f v i).tick = s.tick := rfl
@[simp] theorem State.wr_fuses (s : State) (f : Fld) (v i : Nat) : (s.wr f v i).fuses = s.fuses := rfl
@[simp] theorem State.wr_cfg (s : State) (f : Fld) (v i : Nat) : (s.wr f v i).cfg = s.cfg := rfl
@[simp] theorem State.wr_dev (s : State) (f : Fld) (v i : Nat) : (s.wr f v i).dev = s.dev := rfl
@[simp] theorem State.wr_mem (s : State) (f : Fld) (v i : Nat) : (s.wr f v i).mem = s.mem := rfl
@[simp] theorem State.wr_chans (s : State) (f : Fld) (v i : Nat) : (s.wr f v i).chans = s.chans := rfl
@[simp] theorem State.wr_swarm (s : State) (f : Fld) (v i : Nat) : (s.wr f v i).swarm = s.swarm := rfl
@[simp] theorem State.wr_mesh (s : State) (f : Fld) (v i : Nat) : (s.wr f v i).mesh = s.mesh := rfl
@[simp] theorem State.wr_sched (s : State) (f : Fld) (v i : Nat) : (s.wr f v i).sched = s.sched := rfl
@[simp] theorem State.wr_intake (s : State) (f : Fld) (v i : Nat) : (s.wr f v i).intake = s.intake := rfl
@[simp] theorem State.wr_host (s : State) (f : Fld) (v i : Nat) : (s.wr f v i).host = s.host := rfl
@[simp] theorem State.wr_modes (s : State) (f : Fld) (v i : Nat) : (s.wr f v i).modes = s.modes := rfl
@[simp] theorem State.wr_fw (s : State) (f : Fld) (v i : Nat) : (s.wr f v i).fw = s.fw := rfl
@[simp] theorem State.wr_cara (s : State) (f : Fld) (v i : Nat) : (s.wr f v i).cara = s.cara := rfl
@[simp] theorem State.wr_chk (s : State) (f : Fld) (v i : Nat) : (s.wr f v i).chk = s.chk := rfl
@[simp] theorem State.wr_sec (s : State) (f : Fld) (v i : Nat) : (s.wr f v i).sec = s.sec := rfl
@[simp] theorem State.wr_coc (s : State) (f : Fld) (v i : Nat) : (s.wr f v i).coc = s.coc := rfl
@[simp] theorem State.wr_pwr (s : State) (f : Fld) (v i : Nat) : (s.wr f v i).pwr = s.pwr := rfl
@[simp] theorem State.wr_prs (s : State) (f : Fld) (v i : Nat) : (s.wr f v i).prs = s.prs := rfl
@[simp] theorem State.wr_freeCtr (s : State) (f : Fld) (v i : Nat) : (s.wr f v i).freeCtr = s.freeCtr := rfl
@[simp] theorem State.wr_pending (s : State) (f : Fld) (v i : Nat) : (s.wr f v i).pending = s.pending := rfl
@[simp] theorem State.wr_tile (s : State) (f : Fld) (v i : Nat) (k : Nat) : (s.wr f v i).tile k = s.tile k := rfl
@[simp] theorem State.wr_brood (s : State) (f : Fld) (v i : Nat) (k : Nat) : (s.wr f v i).brood k = s.brood k := rfl
@[simp] theorem State.wr_slot (s : State) (f : Fld) (v i : Nat) (k : Nat) : (s.wr f v i).slot k = s.slot k := rfl
@[simp] theorem State.wr_chan (s : State) (f : Fld) (v i : Nat) (k : Nat) : (s.wr f v i).chan k = s.chan k := rfl
@[simp] theorem State.wr_peek (s : State) (f : Fld) (v i : Nat) (k : Nat) : (s.wr f v i).peek k = s.peek k := rfl

@[simp] theorem State.setTile_tick (s : State) (t : Nat) (x : TileState) : (s.setTile t x).tick = s.tick := rfl
@[simp] theorem State.setTile_fuses (s : State) (t : Nat) (x : TileState) : (s.setTile t x).fuses = s.fuses := rfl
@[simp] theorem State.setTile_cfg (s : State) (t : Nat) (x : TileState) : (s.setTile t x).cfg = s.cfg := rfl
@[simp] theorem State.setTile_dev (s : State) (t : Nat) (x : TileState) : (s.setTile t x).dev = s.dev := rfl
@[simp] theorem State.setTile_regs (s : State) (t : Nat) (x : TileState) : (s.setTile t x).regs = s.regs := rfl
@[simp] theorem State.setTile_mem (s : State) (t : Nat) (x : TileState) : (s.setTile t x).mem = s.mem := rfl
@[simp] theorem State.setTile_chans (s : State) (t : Nat) (x : TileState) : (s.setTile t x).chans = s.chans := rfl
@[simp] theorem State.setTile_mesh (s : State) (t : Nat) (x : TileState) : (s.setTile t x).mesh = s.mesh := rfl
@[simp] theorem State.setTile_sched (s : State) (t : Nat) (x : TileState) : (s.setTile t x).sched = s.sched := rfl
@[simp] theorem State.setTile_intake (s : State) (t : Nat) (x : TileState) : (s.setTile t x).intake = s.intake := rfl
@[simp] theorem State.setTile_host (s : State) (t : Nat) (x : TileState) : (s.setTile t x).host = s.host := rfl
@[simp] theorem State.setTile_modes (s : State) (t : Nat) (x : TileState) : (s.setTile t x).modes = s.modes := rfl
@[simp] theorem State.setTile_fw (s : State) (t : Nat) (x : TileState) : (s.setTile t x).fw = s.fw := rfl
@[simp] theorem State.setTile_cara (s : State) (t : Nat) (x : TileState) : (s.setTile t x).cara = s.cara := rfl
@[simp] theorem State.setTile_chk (s : State) (t : Nat) (x : TileState) : (s.setTile t x).chk = s.chk := rfl
@[simp] theorem State.setTile_sec (s : State) (t : Nat) (x : TileState) : (s.setTile t x).sec = s.sec := rfl
@[simp] theorem State.setTile_coc (s : State) (t : Nat) (x : TileState) : (s.setTile t x).coc = s.coc := rfl
@[simp] theorem State.setTile_pwr (s : State) (t : Nat) (x : TileState) : (s.setTile t x).pwr = s.pwr := rfl
@[simp] theorem State.setTile_prs (s : State) (t : Nat) (x : TileState) : (s.setTile t x).prs = s.prs := rfl
@[simp] theorem State.setTile_freeCtr (s : State) (t : Nat) (x : TileState) : (s.setTile t x).freeCtr = s.freeCtr := rfl
@[simp] theorem State.setTile_pending (s : State) (t : Nat) (x : TileState) : (s.setTile t x).pending = s.pending := rfl
@[simp] theorem State.setTile_rd (s : State) (t : Nat) (x : TileState) (F : Fld) (j : Nat) : (s.setTile t x).rd F j = s.rd F j := rfl
@[simp] theorem State.setTile_brood (s : State) (t : Nat) (x : TileState) (k : Nat) : (s.setTile t x).brood k = s.brood k := rfl
@[simp] theorem State.setTile_slot (s : State) (t : Nat) (x : TileState) (k : Nat) : (s.setTile t x).slot k = s.slot k := rfl
@[simp] theorem State.setTile_chan (s : State) (t : Nat) (x : TileState) (k : Nat) : (s.setTile t x).chan k = s.chan k := rfl
@[simp] theorem State.setTile_peek (s : State) (t : Nat) (x : TileState) (k : Nat) : (s.setTile t x).peek k = s.peek k := rfl

@[simp] theorem State.modTile_tick (s : State) (t : Nat) (f : TileState → TileState) : (s.modTile t f).tick = s.tick := rfl
@[simp] theorem State.modTile_fuses (s : State) (t : Nat) (f : TileState → TileState) : (s.modTile t f).fuses = s.fuses := rfl
@[simp] theorem State.modTile_cfg (s : State) (t : Nat) (f : TileState → TileState) : (s.modTile t f).cfg = s.cfg := rfl
@[simp] theorem State.modTile_dev (s : State) (t : Nat) (f : TileState → TileState) : (s.modTile t f).dev = s.dev := rfl
@[simp] theorem State.modTile_regs (s : State) (t : Nat) (f : TileState → TileState) : (s.modTile t f).regs = s.regs := rfl
@[simp] theorem State.modTile_mem (s : State) (t : Nat) (f : TileState → TileState) : (s.modTile t f).mem = s.mem := rfl
@[simp] theorem State.modTile_chans (s : State) (t : Nat) (f : TileState → TileState) : (s.modTile t f).chans = s.chans := rfl
@[simp] theorem State.modTile_mesh (s : State) (t : Nat) (f : TileState → TileState) : (s.modTile t f).mesh = s.mesh := rfl
@[simp] theorem State.modTile_sched (s : State) (t : Nat) (f : TileState → TileState) : (s.modTile t f).sched = s.sched := rfl
@[simp] theorem State.modTile_intake (s : State) (t : Nat) (f : TileState → TileState) : (s.modTile t f).intake = s.intake := rfl
@[simp] theorem State.modTile_host (s : State) (t : Nat) (f : TileState → TileState) : (s.modTile t f).host = s.host := rfl
@[simp] theorem State.modTile_modes (s : State) (t : Nat) (f : TileState → TileState) : (s.modTile t f).modes = s.modes := rfl
@[simp] theorem State.modTile_fw (s : State) (t : Nat) (f : TileState → TileState) : (s.modTile t f).fw = s.fw := rfl
@[simp] theorem State.modTile_cara (s : State) (t : Nat) (f : TileState → TileState) : (s.modTile t f).cara = s.cara := rfl
@[simp] theorem State.modTile_chk (s : State) (t : Nat) (f : TileState → TileState) : (s.modTile t f).chk = s.chk := rfl
@[simp] theorem State.modTile_sec (s : State) (t : Nat) (f : TileState → TileState) : (s.modTile t f).sec = s.sec := rfl
@[simp] theorem State.modTile_coc (s : State) (t : Nat) (f : TileState → TileState) : (s.modTile t f).coc = s.coc := rfl
@[simp] theorem State.modTile_pwr (s : State) (t : Nat) (f : TileState → TileState) : (s.modTile t f).pwr = s.pwr := rfl
@[simp] theorem State.modTile_prs (s : State) (t : Nat) (f : TileState → TileState) : (s.modTile t f).prs = s.prs := rfl
@[simp] theorem State.modTile_freeCtr (s : State) (t : Nat) (f : TileState → TileState) : (s.modTile t f).freeCtr = s.freeCtr := rfl
@[simp] theorem State.modTile_pending (s : State) (t : Nat) (f : TileState → TileState) : (s.modTile t f).pending = s.pending := rfl
@[simp] theorem State.modTile_rd (s : State) (t : Nat) (f : TileState → TileState) (F : Fld) (j : Nat) : (s.modTile t f).rd F j = s.rd F j := rfl
@[simp] theorem State.modTile_brood (s : State) (t : Nat) (f : TileState → TileState) (k : Nat) : (s.modTile t f).brood k = s.brood k := rfl
@[simp] theorem State.modTile_slot (s : State) (t : Nat) (f : TileState → TileState) (k : Nat) : (s.modTile t f).slot k = s.slot k := rfl
@[simp] theorem State.modTile_chan (s : State) (t : Nat) (f : TileState → TileState) (k : Nat) : (s.modTile t f).chan k = s.chan k := rfl
@[simp] theorem State.modTile_peek (s : State) (t : Nat) (f : TileState → TileState) (k : Nat) : (s.modTile t f).peek k = s.peek k := rfl

@[simp] theorem State.setBrood_tick (s : State) (b : Nat) (x : Brood) : (s.setBrood b x).tick = s.tick := rfl
@[simp] theorem State.setBrood_fuses (s : State) (b : Nat) (x : Brood) : (s.setBrood b x).fuses = s.fuses := rfl
@[simp] theorem State.setBrood_cfg (s : State) (b : Nat) (x : Brood) : (s.setBrood b x).cfg = s.cfg := rfl
@[simp] theorem State.setBrood_dev (s : State) (b : Nat) (x : Brood) : (s.setBrood b x).dev = s.dev := rfl
@[simp] theorem State.setBrood_regs (s : State) (b : Nat) (x : Brood) : (s.setBrood b x).regs = s.regs := rfl
@[simp] theorem State.setBrood_mem (s : State) (b : Nat) (x : Brood) : (s.setBrood b x).mem = s.mem := rfl
@[simp] theorem State.setBrood_chans (s : State) (b : Nat) (x : Brood) : (s.setBrood b x).chans = s.chans := rfl
@[simp] theorem State.setBrood_mesh (s : State) (b : Nat) (x : Brood) : (s.setBrood b x).mesh = s.mesh := rfl
@[simp] theorem State.setBrood_sched (s : State) (b : Nat) (x : Brood) : (s.setBrood b x).sched = s.sched := rfl
@[simp] theorem State.setBrood_intake (s : State) (b : Nat) (x : Brood) : (s.setBrood b x).intake = s.intake := rfl
@[simp] theorem State.setBrood_host (s : State) (b : Nat) (x : Brood) : (s.setBrood b x).host = s.host := rfl
@[simp] theorem State.setBrood_modes (s : State) (b : Nat) (x : Brood) : (s.setBrood b x).modes = s.modes := rfl
@[simp] theorem State.setBrood_fw (s : State) (b : Nat) (x : Brood) : (s.setBrood b x).fw = s.fw := rfl
@[simp] theorem State.setBrood_cara (s : State) (b : Nat) (x : Brood) : (s.setBrood b x).cara = s.cara := rfl
@[simp] theorem State.setBrood_chk (s : State) (b : Nat) (x : Brood) : (s.setBrood b x).chk = s.chk := rfl
@[simp] theorem State.setBrood_sec (s : State) (b : Nat) (x : Brood) : (s.setBrood b x).sec = s.sec := rfl
@[simp] theorem State.setBrood_coc (s : State) (b : Nat) (x : Brood) : (s.setBrood b x).coc = s.coc := rfl
@[simp] theorem State.setBrood_pwr (s : State) (b : Nat) (x : Brood) : (s.setBrood b x).pwr = s.pwr := rfl
@[simp] theorem State.setBrood_prs (s : State) (b : Nat) (x : Brood) : (s.setBrood b x).prs = s.prs := rfl
@[simp] theorem State.setBrood_freeCtr (s : State) (b : Nat) (x : Brood) : (s.setBrood b x).freeCtr = s.freeCtr := rfl
@[simp] theorem State.setBrood_pending (s : State) (b : Nat) (x : Brood) : (s.setBrood b x).pending = s.pending := rfl
@[simp] theorem State.setBrood_rd (s : State) (b : Nat) (x : Brood) (F : Fld) (j : Nat) : (s.setBrood b x).rd F j = s.rd F j := rfl
@[simp] theorem State.setBrood_tile (s : State) (b : Nat) (x : Brood) (k : Nat) : (s.setBrood b x).tile k = s.tile k := rfl
@[simp] theorem State.setBrood_slot (s : State) (b : Nat) (x : Brood) (k : Nat) : (s.setBrood b x).slot k = s.slot k := rfl
@[simp] theorem State.setBrood_chan (s : State) (b : Nat) (x : Brood) (k : Nat) : (s.setBrood b x).chan k = s.chan k := rfl
@[simp] theorem State.setBrood_peek (s : State) (b : Nat) (x : Brood) (k : Nat) : (s.setBrood b x).peek k = s.peek k := rfl

@[simp] theorem State.modBrood_tick (s : State) (b : Nat) (f : Brood → Brood) : (s.modBrood b f).tick = s.tick := rfl
@[simp] theorem State.modBrood_fuses (s : State) (b : Nat) (f : Brood → Brood) : (s.modBrood b f).fuses = s.fuses := rfl
@[simp] theorem State.modBrood_cfg (s : State) (b : Nat) (f : Brood → Brood) : (s.modBrood b f).cfg = s.cfg := rfl
@[simp] theorem State.modBrood_dev (s : State) (b : Nat) (f : Brood → Brood) : (s.modBrood b f).dev = s.dev := rfl
@[simp] theorem State.modBrood_regs (s : State) (b : Nat) (f : Brood → Brood) : (s.modBrood b f).regs = s.regs := rfl
@[simp] theorem State.modBrood_mem (s : State) (b : Nat) (f : Brood → Brood) : (s.modBrood b f).mem = s.mem := rfl
@[simp] theorem State.modBrood_chans (s : State) (b : Nat) (f : Brood → Brood) : (s.modBrood b f).chans = s.chans := rfl
@[simp] theorem State.modBrood_mesh (s : State) (b : Nat) (f : Brood → Brood) : (s.modBrood b f).mesh = s.mesh := rfl
@[simp] theorem State.modBrood_sched (s : State) (b : Nat) (f : Brood → Brood) : (s.modBrood b f).sched = s.sched := rfl
@[simp] theorem State.modBrood_intake (s : State) (b : Nat) (f : Brood → Brood) : (s.modBrood b f).intake = s.intake := rfl
@[simp] theorem State.modBrood_host (s : State) (b : Nat) (f : Brood → Brood) : (s.modBrood b f).host = s.host := rfl
@[simp] theorem State.modBrood_modes (s : State) (b : Nat) (f : Brood → Brood) : (s.modBrood b f).modes = s.modes := rfl
@[simp] theorem State.modBrood_fw (s : State) (b : Nat) (f : Brood → Brood) : (s.modBrood b f).fw = s.fw := rfl
@[simp] theorem State.modBrood_cara (s : State) (b : Nat) (f : Brood → Brood) : (s.modBrood b f).cara = s.cara := rfl
@[simp] theorem State.modBrood_chk (s : State) (b : Nat) (f : Brood → Brood) : (s.modBrood b f).chk = s.chk := rfl
@[simp] theorem State.modBrood_sec (s : State) (b : Nat) (f : Brood → Brood) : (s.modBrood b f).sec = s.sec := rfl
@[simp] theorem State.modBrood_coc (s : State) (b : Nat) (f : Brood → Brood) : (s.modBrood b f).coc = s.coc := rfl
@[simp] theorem State.modBrood_pwr (s : State) (b : Nat) (f : Brood → Brood) : (s.modBrood b f).pwr = s.pwr := rfl
@[simp] theorem State.modBrood_prs (s : State) (b : Nat) (f : Brood → Brood) : (s.modBrood b f).prs = s.prs := rfl
@[simp] theorem State.modBrood_freeCtr (s : State) (b : Nat) (f : Brood → Brood) : (s.modBrood b f).freeCtr = s.freeCtr := rfl
@[simp] theorem State.modBrood_pending (s : State) (b : Nat) (f : Brood → Brood) : (s.modBrood b f).pending = s.pending := rfl
@[simp] theorem State.modBrood_rd (s : State) (b : Nat) (f : Brood → Brood) (F : Fld) (j : Nat) : (s.modBrood b f).rd F j = s.rd F j := rfl
@[simp] theorem State.modBrood_tile (s : State) (b : Nat) (f : Brood → Brood) (k : Nat) : (s.modBrood b f).tile k = s.tile k := rfl
@[simp] theorem State.modBrood_slot (s : State) (b : Nat) (f : Brood → Brood) (k : Nat) : (s.modBrood b f).slot k = s.slot k := rfl
@[simp] theorem State.modBrood_chan (s : State) (b : Nat) (f : Brood → Brood) (k : Nat) : (s.modBrood b f).chan k = s.chan k := rfl
@[simp] theorem State.modBrood_peek (s : State) (b : Nat) (f : Brood → Brood) (k : Nat) : (s.modBrood b f).peek k = s.peek k := rfl

@[simp] theorem State.setSlot_tick (s : State) (p : Nat) (x : Slot) : (s.setSlot p x).tick = s.tick := rfl
@[simp] theorem State.setSlot_fuses (s : State) (p : Nat) (x : Slot) : (s.setSlot p x).fuses = s.fuses := rfl
@[simp] theorem State.setSlot_cfg (s : State) (p : Nat) (x : Slot) : (s.setSlot p x).cfg = s.cfg := rfl
@[simp] theorem State.setSlot_dev (s : State) (p : Nat) (x : Slot) : (s.setSlot p x).dev = s.dev := rfl
@[simp] theorem State.setSlot_regs (s : State) (p : Nat) (x : Slot) : (s.setSlot p x).regs = s.regs := rfl
@[simp] theorem State.setSlot_mem (s : State) (p : Nat) (x : Slot) : (s.setSlot p x).mem = s.mem := rfl
@[simp] theorem State.setSlot_chans (s : State) (p : Nat) (x : Slot) : (s.setSlot p x).chans = s.chans := rfl
@[simp] theorem State.setSlot_mesh (s : State) (p : Nat) (x : Slot) : (s.setSlot p x).mesh = s.mesh := rfl
@[simp] theorem State.setSlot_sched (s : State) (p : Nat) (x : Slot) : (s.setSlot p x).sched = s.sched := rfl
@[simp] theorem State.setSlot_intake (s : State) (p : Nat) (x : Slot) : (s.setSlot p x).intake = s.intake := rfl
@[simp] theorem State.setSlot_host (s : State) (p : Nat) (x : Slot) : (s.setSlot p x).host = s.host := rfl
@[simp] theorem State.setSlot_modes (s : State) (p : Nat) (x : Slot) : (s.setSlot p x).modes = s.modes := rfl
@[simp] theorem State.setSlot_fw (s : State) (p : Nat) (x : Slot) : (s.setSlot p x).fw = s.fw := rfl
@[simp] theorem State.setSlot_cara (s : State) (p : Nat) (x : Slot) : (s.setSlot p x).cara = s.cara := rfl
@[simp] theorem State.setSlot_chk (s : State) (p : Nat) (x : Slot) : (s.setSlot p x).chk = s.chk := rfl
@[simp] theorem State.setSlot_sec (s : State) (p : Nat) (x : Slot) : (s.setSlot p x).sec = s.sec := rfl
@[simp] theorem State.setSlot_coc (s : State) (p : Nat) (x : Slot) : (s.setSlot p x).coc = s.coc := rfl
@[simp] theorem State.setSlot_pwr (s : State) (p : Nat) (x : Slot) : (s.setSlot p x).pwr = s.pwr := rfl
@[simp] theorem State.setSlot_prs (s : State) (p : Nat) (x : Slot) : (s.setSlot p x).prs = s.prs := rfl
@[simp] theorem State.setSlot_freeCtr (s : State) (p : Nat) (x : Slot) : (s.setSlot p x).freeCtr = s.freeCtr := rfl
@[simp] theorem State.setSlot_pending (s : State) (p : Nat) (x : Slot) : (s.setSlot p x).pending = s.pending := rfl
@[simp] theorem State.setSlot_rd (s : State) (p : Nat) (x : Slot) (F : Fld) (j : Nat) : (s.setSlot p x).rd F j = s.rd F j := rfl
@[simp] theorem State.setSlot_tile (s : State) (p : Nat) (x : Slot) (k : Nat) : (s.setSlot p x).tile k = s.tile k := rfl
@[simp] theorem State.setSlot_brood (s : State) (p : Nat) (x : Slot) (k : Nat) : (s.setSlot p x).brood k = s.brood k := rfl
@[simp] theorem State.setSlot_chan (s : State) (p : Nat) (x : Slot) (k : Nat) : (s.setSlot p x).chan k = s.chan k := rfl
@[simp] theorem State.setSlot_peek (s : State) (p : Nat) (x : Slot) (k : Nat) : (s.setSlot p x).peek k = s.peek k := rfl

@[simp] theorem State.modSlot_tick (s : State) (p : Nat) (f : Slot → Slot) : (s.modSlot p f).tick = s.tick := rfl
@[simp] theorem State.modSlot_fuses (s : State) (p : Nat) (f : Slot → Slot) : (s.modSlot p f).fuses = s.fuses := rfl
@[simp] theorem State.modSlot_cfg (s : State) (p : Nat) (f : Slot → Slot) : (s.modSlot p f).cfg = s.cfg := rfl
@[simp] theorem State.modSlot_dev (s : State) (p : Nat) (f : Slot → Slot) : (s.modSlot p f).dev = s.dev := rfl
@[simp] theorem State.modSlot_regs (s : State) (p : Nat) (f : Slot → Slot) : (s.modSlot p f).regs = s.regs := rfl
@[simp] theorem State.modSlot_mem (s : State) (p : Nat) (f : Slot → Slot) : (s.modSlot p f).mem = s.mem := rfl
@[simp] theorem State.modSlot_chans (s : State) (p : Nat) (f : Slot → Slot) : (s.modSlot p f).chans = s.chans := rfl
@[simp] theorem State.modSlot_mesh (s : State) (p : Nat) (f : Slot → Slot) : (s.modSlot p f).mesh = s.mesh := rfl
@[simp] theorem State.modSlot_sched (s : State) (p : Nat) (f : Slot → Slot) : (s.modSlot p f).sched = s.sched := rfl
@[simp] theorem State.modSlot_intake (s : State) (p : Nat) (f : Slot → Slot) : (s.modSlot p f).intake = s.intake := rfl
@[simp] theorem State.modSlot_host (s : State) (p : Nat) (f : Slot → Slot) : (s.modSlot p f).host = s.host := rfl
@[simp] theorem State.modSlot_modes (s : State) (p : Nat) (f : Slot → Slot) : (s.modSlot p f).modes = s.modes := rfl
@[simp] theorem State.modSlot_fw (s : State) (p : Nat) (f : Slot → Slot) : (s.modSlot p f).fw = s.fw := rfl
@[simp] theorem State.modSlot_cara (s : State) (p : Nat) (f : Slot → Slot) : (s.modSlot p f).cara = s.cara := rfl
@[simp] theorem State.modSlot_chk (s : State) (p : Nat) (f : Slot → Slot) : (s.modSlot p f).chk = s.chk := rfl
@[simp] theorem State.modSlot_sec (s : State) (p : Nat) (f : Slot → Slot) : (s.modSlot p f).sec = s.sec := rfl
@[simp] theorem State.modSlot_coc (s : State) (p : Nat) (f : Slot → Slot) : (s.modSlot p f).coc = s.coc := rfl
@[simp] theorem State.modSlot_pwr (s : State) (p : Nat) (f : Slot → Slot) : (s.modSlot p f).pwr = s.pwr := rfl
@[simp] theorem State.modSlot_prs (s : State) (p : Nat) (f : Slot → Slot) : (s.modSlot p f).prs = s.prs := rfl
@[simp] theorem State.modSlot_freeCtr (s : State) (p : Nat) (f : Slot → Slot) : (s.modSlot p f).freeCtr = s.freeCtr := rfl
@[simp] theorem State.modSlot_pending (s : State) (p : Nat) (f : Slot → Slot) : (s.modSlot p f).pending = s.pending := rfl
@[simp] theorem State.modSlot_rd (s : State) (p : Nat) (f : Slot → Slot) (F : Fld) (j : Nat) : (s.modSlot p f).rd F j = s.rd F j := rfl
@[simp] theorem State.modSlot_tile (s : State) (p : Nat) (f : Slot → Slot) (k : Nat) : (s.modSlot p f).tile k = s.tile k := rfl
@[simp] theorem State.modSlot_brood (s : State) (p : Nat) (f : Slot → Slot) (k : Nat) : (s.modSlot p f).brood k = s.brood k := rfl
@[simp] theorem State.modSlot_chan (s : State) (p : Nat) (f : Slot → Slot) (k : Nat) : (s.modSlot p f).chan k = s.chan k := rfl
@[simp] theorem State.modSlot_peek (s : State) (p : Nat) (f : Slot → Slot) (k : Nat) : (s.modSlot p f).peek k = s.peek k := rfl

@[simp] theorem State.setChan_tick (s : State) (c : Nat) (x : MemChan) : (s.setChan c x).tick = s.tick := rfl
@[simp] theorem State.setChan_fuses (s : State) (c : Nat) (x : MemChan) : (s.setChan c x).fuses = s.fuses := rfl
@[simp] theorem State.setChan_cfg (s : State) (c : Nat) (x : MemChan) : (s.setChan c x).cfg = s.cfg := rfl
@[simp] theorem State.setChan_dev (s : State) (c : Nat) (x : MemChan) : (s.setChan c x).dev = s.dev := rfl
@[simp] theorem State.setChan_regs (s : State) (c : Nat) (x : MemChan) : (s.setChan c x).regs = s.regs := rfl
@[simp] theorem State.setChan_mem (s : State) (c : Nat) (x : MemChan) : (s.setChan c x).mem = s.mem := rfl
@[simp] theorem State.setChan_swarm (s : State) (c : Nat) (x : MemChan) : (s.setChan c x).swarm = s.swarm := rfl
@[simp] theorem State.setChan_mesh (s : State) (c : Nat) (x : MemChan) : (s.setChan c x).mesh = s.mesh := rfl
@[simp] theorem State.setChan_sched (s : State) (c : Nat) (x : MemChan) : (s.setChan c x).sched = s.sched := rfl
@[simp] theorem State.setChan_intake (s : State) (c : Nat) (x : MemChan) : (s.setChan c x).intake = s.intake := rfl
@[simp] theorem State.setChan_host (s : State) (c : Nat) (x : MemChan) : (s.setChan c x).host = s.host := rfl
@[simp] theorem State.setChan_modes (s : State) (c : Nat) (x : MemChan) : (s.setChan c x).modes = s.modes := rfl
@[simp] theorem State.setChan_fw (s : State) (c : Nat) (x : MemChan) : (s.setChan c x).fw = s.fw := rfl
@[simp] theorem State.setChan_cara (s : State) (c : Nat) (x : MemChan) : (s.setChan c x).cara = s.cara := rfl
@[simp] theorem State.setChan_chk (s : State) (c : Nat) (x : MemChan) : (s.setChan c x).chk = s.chk := rfl
@[simp] theorem State.setChan_sec (s : State) (c : Nat) (x : MemChan) : (s.setChan c x).sec = s.sec := rfl
@[simp] theorem State.setChan_coc (s : State) (c : Nat) (x : MemChan) : (s.setChan c x).coc = s.coc := rfl
@[simp] theorem State.setChan_pwr (s : State) (c : Nat) (x : MemChan) : (s.setChan c x).pwr = s.pwr := rfl
@[simp] theorem State.setChan_prs (s : State) (c : Nat) (x : MemChan) : (s.setChan c x).prs = s.prs := rfl
@[simp] theorem State.setChan_freeCtr (s : State) (c : Nat) (x : MemChan) : (s.setChan c x).freeCtr = s.freeCtr := rfl
@[simp] theorem State.setChan_pending (s : State) (c : Nat) (x : MemChan) : (s.setChan c x).pending = s.pending := rfl
@[simp] theorem State.setChan_rd (s : State) (c : Nat) (x : MemChan) (F : Fld) (j : Nat) : (s.setChan c x).rd F j = s.rd F j := rfl
@[simp] theorem State.setChan_tile (s : State) (c : Nat) (x : MemChan) (k : Nat) : (s.setChan c x).tile k = s.tile k := rfl
@[simp] theorem State.setChan_brood (s : State) (c : Nat) (x : MemChan) (k : Nat) : (s.setChan c x).brood k = s.brood k := rfl
@[simp] theorem State.setChan_slot (s : State) (c : Nat) (x : MemChan) (k : Nat) : (s.setChan c x).slot k = s.slot k := rfl
@[simp] theorem State.setChan_peek (s : State) (c : Nat) (x : MemChan) (k : Nat) : (s.setChan c x).peek k = s.peek k := rfl

@[simp] theorem State.modChan_tick (s : State) (c : Nat) (f : MemChan → MemChan) : (s.modChan c f).tick = s.tick := rfl
@[simp] theorem State.modChan_fuses (s : State) (c : Nat) (f : MemChan → MemChan) : (s.modChan c f).fuses = s.fuses := rfl
@[simp] theorem State.modChan_cfg (s : State) (c : Nat) (f : MemChan → MemChan) : (s.modChan c f).cfg = s.cfg := rfl
@[simp] theorem State.modChan_dev (s : State) (c : Nat) (f : MemChan → MemChan) : (s.modChan c f).dev = s.dev := rfl
@[simp] theorem State.modChan_regs (s : State) (c : Nat) (f : MemChan → MemChan) : (s.modChan c f).regs = s.regs := rfl
@[simp] theorem State.modChan_mem (s : State) (c : Nat) (f : MemChan → MemChan) : (s.modChan c f).mem = s.mem := rfl
@[simp] theorem State.modChan_swarm (s : State) (c : Nat) (f : MemChan → MemChan) : (s.modChan c f).swarm = s.swarm := rfl
@[simp] theorem State.modChan_mesh (s : State) (c : Nat) (f : MemChan → MemChan) : (s.modChan c f).mesh = s.mesh := rfl
@[simp] theorem State.modChan_sched (s : State) (c : Nat) (f : MemChan → MemChan) : (s.modChan c f).sched = s.sched := rfl
@[simp] theorem State.modChan_intake (s : State) (c : Nat) (f : MemChan → MemChan) : (s.modChan c f).intake = s.intake := rfl
@[simp] theorem State.modChan_host (s : State) (c : Nat) (f : MemChan → MemChan) : (s.modChan c f).host = s.host := rfl
@[simp] theorem State.modChan_modes (s : State) (c : Nat) (f : MemChan → MemChan) : (s.modChan c f).modes = s.modes := rfl
@[simp] theorem State.modChan_fw (s : State) (c : Nat) (f : MemChan → MemChan) : (s.modChan c f).fw = s.fw := rfl
@[simp] theorem State.modChan_cara (s : State) (c : Nat) (f : MemChan → MemChan) : (s.modChan c f).cara = s.cara := rfl
@[simp] theorem State.modChan_chk (s : State) (c : Nat) (f : MemChan → MemChan) : (s.modChan c f).chk = s.chk := rfl
@[simp] theorem State.modChan_sec (s : State) (c : Nat) (f : MemChan → MemChan) : (s.modChan c f).sec = s.sec := rfl
@[simp] theorem State.modChan_coc (s : State) (c : Nat) (f : MemChan → MemChan) : (s.modChan c f).coc = s.coc := rfl
@[simp] theorem State.modChan_pwr (s : State) (c : Nat) (f : MemChan → MemChan) : (s.modChan c f).pwr = s.pwr := rfl
@[simp] theorem State.modChan_prs (s : State) (c : Nat) (f : MemChan → MemChan) : (s.modChan c f).prs = s.prs := rfl
@[simp] theorem State.modChan_freeCtr (s : State) (c : Nat) (f : MemChan → MemChan) : (s.modChan c f).freeCtr = s.freeCtr := rfl
@[simp] theorem State.modChan_pending (s : State) (c : Nat) (f : MemChan → MemChan) : (s.modChan c f).pending = s.pending := rfl
@[simp] theorem State.modChan_rd (s : State) (c : Nat) (f : MemChan → MemChan) (F : Fld) (j : Nat) : (s.modChan c f).rd F j = s.rd F j := rfl
@[simp] theorem State.modChan_tile (s : State) (c : Nat) (f : MemChan → MemChan) (k : Nat) : (s.modChan c f).tile k = s.tile k := rfl
@[simp] theorem State.modChan_brood (s : State) (c : Nat) (f : MemChan → MemChan) (k : Nat) : (s.modChan c f).brood k = s.brood k := rfl
@[simp] theorem State.modChan_slot (s : State) (c : Nat) (f : MemChan → MemChan) (k : Nat) : (s.modChan c f).slot k = s.slot k := rfl
@[simp] theorem State.modChan_peek (s : State) (c : Nat) (f : MemChan → MemChan) (k : Nat) : (s.modChan c f).peek k = s.peek k := rfl

@[simp] theorem State.poke_tick (s : State) (a : Nat) (l : List Byte) : (s.poke a l).tick = s.tick := rfl
@[simp] theorem State.poke_fuses (s : State) (a : Nat) (l : List Byte) : (s.poke a l).fuses = s.fuses := rfl
@[simp] theorem State.poke_cfg (s : State) (a : Nat) (l : List Byte) : (s.poke a l).cfg = s.cfg := rfl
@[simp] theorem State.poke_dev (s : State) (a : Nat) (l : List Byte) : (s.poke a l).dev = s.dev := rfl
@[simp] theorem State.poke_regs (s : State) (a : Nat) (l : List Byte) : (s.poke a l).regs = s.regs := rfl
@[simp] theorem State.poke_chans (s : State) (a : Nat) (l : List Byte) : (s.poke a l).chans = s.chans := rfl
@[simp] theorem State.poke_swarm (s : State) (a : Nat) (l : List Byte) : (s.poke a l).swarm = s.swarm := rfl
@[simp] theorem State.poke_mesh (s : State) (a : Nat) (l : List Byte) : (s.poke a l).mesh = s.mesh := rfl
@[simp] theorem State.poke_sched (s : State) (a : Nat) (l : List Byte) : (s.poke a l).sched = s.sched := rfl
@[simp] theorem State.poke_intake (s : State) (a : Nat) (l : List Byte) : (s.poke a l).intake = s.intake := rfl
@[simp] theorem State.poke_host (s : State) (a : Nat) (l : List Byte) : (s.poke a l).host = s.host := rfl
@[simp] theorem State.poke_modes (s : State) (a : Nat) (l : List Byte) : (s.poke a l).modes = s.modes := rfl
@[simp] theorem State.poke_fw (s : State) (a : Nat) (l : List Byte) : (s.poke a l).fw = s.fw := rfl
@[simp] theorem State.poke_cara (s : State) (a : Nat) (l : List Byte) : (s.poke a l).cara = s.cara := rfl
@[simp] theorem State.poke_chk (s : State) (a : Nat) (l : List Byte) : (s.poke a l).chk = s.chk := rfl
@[simp] theorem State.poke_sec (s : State) (a : Nat) (l : List Byte) : (s.poke a l).sec = s.sec := rfl
@[simp] theorem State.poke_coc (s : State) (a : Nat) (l : List Byte) : (s.poke a l).coc = s.coc := rfl
@[simp] theorem State.poke_pwr (s : State) (a : Nat) (l : List Byte) : (s.poke a l).pwr = s.pwr := rfl
@[simp] theorem State.poke_prs (s : State) (a : Nat) (l : List Byte) : (s.poke a l).prs = s.prs := rfl
@[simp] theorem State.poke_freeCtr (s : State) (a : Nat) (l : List Byte) : (s.poke a l).freeCtr = s.freeCtr := rfl
@[simp] theorem State.poke_pending (s : State) (a : Nat) (l : List Byte) : (s.poke a l).pending = s.pending := rfl
@[simp] theorem State.poke_rd (s : State) (a : Nat) (l : List Byte) (F : Fld) (j : Nat) : (s.poke a l).rd F j = s.rd F j := rfl
@[simp] theorem State.poke_tile (s : State) (a : Nat) (l : List Byte) (k : Nat) : (s.poke a l).tile k = s.tile k := rfl
@[simp] theorem State.poke_brood (s : State) (a : Nat) (l : List Byte) (k : Nat) : (s.poke a l).brood k = s.brood k := rfl
@[simp] theorem State.poke_slot (s : State) (a : Nat) (l : List Byte) (k : Nat) : (s.poke a l).slot k = s.slot k := rfl
@[simp] theorem State.poke_chan (s : State) (a : Nat) (l : List Byte) (k : Nat) : (s.poke a l).chan k = s.chan k := rfl

/-! Reading back. -/

@[simp] theorem State.rd_wr_same (s : State) (f : Fld) (v i : Nat) : (s.wr f v i).rd f i = v % 2 ^ f.w :=
  FMap.get_set_same _ _ _ _

theorem State.rd_wr_ne (s : State) {f g : Fld} {v i j : Nat} (h : g.key j ≠ f.key i) : (s.wr f v i).rd g j = s.rd g j :=
  FMap.get_set_ne _ _ _ _ h

@[simp] theorem State.tile_setTile_same (s : State) (t : Nat) (x : TileState) : (s.setTile t x).tile t = x :=
  FMap.get_set_same _ _ _ _

theorem State.tile_setTile_ne (s : State) {t k : Nat} {x : TileState} (h : k ≠ t) : (s.setTile t x).tile k = s.tile k :=
  FMap.get_set_ne _ _ _ _ h

@[simp] theorem State.tile_modTile_same (s : State) (t : Nat) (f : TileState → TileState) : (s.modTile t f).tile t = f (s.tile t) :=
  FMap.get_set_same _ _ _ _

theorem State.tile_modTile_ne (s : State) {t k : Nat} {f : TileState → TileState} (h : k ≠ t) : (s.modTile t f).tile k = s.tile k :=
  FMap.get_set_ne _ _ _ _ h

@[simp] theorem State.brood_modBrood_same (s : State) (b : Nat) (f : Brood → Brood) : (s.modBrood b f).brood b = f (s.brood b) :=
  FMap.get_set_same _ _ _ _

theorem State.brood_modBrood_ne (s : State) {b k : Nat} {f : Brood → Brood} (h : k ≠ b) : (s.modBrood b f).brood k = s.brood k :=
  FMap.get_set_ne _ _ _ _ h

@[simp] theorem State.slot_modSlot_same (s : State) (p : Nat) (f : Slot → Slot) : (s.modSlot p f).slot p = f (s.slot p) :=
  FMap.get_set_same _ _ _ _

theorem State.slot_modSlot_ne (s : State) {p k : Nat} {f : Slot → Slot} (h : k ≠ p) : (s.modSlot p f).slot k = s.slot k :=
  FMap.get_set_ne _ _ _ _ h

@[simp] theorem State.chan_modChan_same (s : State) (c : Nat) (f : MemChan → MemChan) : (s.modChan c f).chan c = f (s.chan c) :=
  FMap.get_set_same _ _ _ _

theorem State.chan_modChan_ne (s : State) {c k : Nat} {f : MemChan → MemChan} (h : k ≠ c) : (s.modChan c f).chan k = s.chan k :=
  FMap.get_set_ne _ _ _ _ h

end Sys2Proof.Machine
end

