-- ==== Sys2Proof/Laws/Events.lean ====
section
/-! SUPPORT. What presenting an event does: one entry more on the error lines, the first intake event captured, and nothing else. -/
namespace Sys2Proof.Machine

/-- An event outside the intake domain captures nothing. -/
theorem State.intFirst_other (s : State) {code unit : Nat} (h : code / 4096 ≠ 5) : s.intFirst code unit = s := by
  simp [State.intFirst, h]

@[simp] theorem State.intFirst_tick (s : State) (c u : Nat)  : (s.intFirst c u).tick = s.tick := by
  unfold State.intFirst; split <;> rfl
@[simp] theorem State.intFirst_fuses (s : State) (c u : Nat)  : (s.intFirst c u).fuses = s.fuses := by
  unfold State.intFirst; split <;> rfl
@[simp] theorem State.intFirst_cfg (s : State) (c u : Nat)  : (s.intFirst c u).cfg = s.cfg := by
  unfold State.intFirst; split <;> rfl
@[simp] theorem State.intFirst_dev (s : State) (c u : Nat)  : (s.intFirst c u).dev = s.dev := by
  unfold State.intFirst; split <;> rfl
@[simp] theorem State.intFirst_mem (s : State) (c u : Nat)  : (s.intFirst c u).mem = s.mem := by
  unfold State.intFirst; split <;> rfl
@[simp] theorem State.intFirst_chans (s : State) (c u : Nat)  : (s.intFirst c u).chans = s.chans := by
  unfold State.intFirst; split <;> rfl
@[simp] theorem State.intFirst_swarm (s : State) (c u : Nat)  : (s.intFirst c u).swarm = s.swarm := by
  unfold State.intFirst; split <;> rfl
@[simp] theorem State.intFirst_mesh (s : State) (c u : Nat)  : (s.intFirst c u).mesh = s.mesh := by
  unfold State.intFirst; split <;> rfl
@[simp] theorem State.intFirst_sched (s : State) (c u : Nat)  : (s.intFirst c u).sched = s.sched := by
  unfold State.intFirst; split <;> rfl
@[simp] theorem State.intFirst_intake (s : State) (c u : Nat)  : (s.intFirst c u).intake = s.intake := by
  unfold State.intFirst; split <;> rfl
@[simp] theorem State.intFirst_host (s : State) (c u : Nat)  : (s.intFirst c u).host = s.host := by
  unfold State.intFirst; split <;> rfl
@[simp] theorem State.intFirst_modes (s : State) (c u : Nat)  : (s.intFirst c u).modes = s.modes := by
  unfold State.intFirst; split <;> rfl
@[simp] theorem State.intFirst_fw (s : State) (c u : Nat)  : (s.intFirst c u).fw = s.fw := by
  unfold State.intFirst; split <;> rfl
@[simp] theorem State.intFirst_chk (s : State) (c u : Nat)  : (s.intFirst c u).chk = s.chk := by
  unfold State.intFirst; split <;> rfl
@[simp] theorem State.intFirst_sec (s : State) (c u : Nat)  : (s.intFirst c u).sec = s.sec := by
  unfold State.intFirst; split <;> rfl
@[simp] theorem State.intFirst_coc (s : State) (c u : Nat)  : (s.intFirst c u).coc = s.coc := by
  unfold State.intFirst; split <;> rfl
@[simp] theorem State.intFirst_pwr (s : State) (c u : Nat)  : (s.intFirst c u).pwr = s.pwr := by
  unfold State.intFirst; split <;> rfl
@[simp] theorem State.intFirst_prs (s : State) (c u : Nat)  : (s.intFirst c u).prs = s.prs := by
  unfold State.intFirst; split <;> rfl
@[simp] theorem State.intFirst_freeCtr (s : State) (c u : Nat)  : (s.intFirst c u).freeCtr = s.freeCtr := by
  unfold State.intFirst; split <;> rfl
@[simp] theorem State.intFirst_pending (s : State) (c u : Nat)  : (s.intFirst c u).pending = s.pending := by
  unfold State.intFirst; split <;> rfl
@[simp] theorem State.intFirst_tile (s : State) (c u : Nat) (k : Nat) : (s.intFirst c u).tile k = s.tile k := by
  unfold State.intFirst; split <;> rfl
@[simp] theorem State.intFirst_brood (s : State) (c u : Nat) (k : Nat) : (s.intFirst c u).brood k = s.brood k := by
  unfold State.intFirst; split <;> rfl
@[simp] theorem State.intFirst_slot (s : State) (c u : Nat) (k : Nat) : (s.intFirst c u).slot k = s.slot k := by
  unfold State.intFirst; split <;> rfl
@[simp] theorem State.intFirst_chan (s : State) (c u : Nat) (k : Nat) : (s.intFirst c u).chan k = s.chan k := by
  unfold State.intFirst; split <;> rfl
@[simp] theorem State.intFirst_peek (s : State) (c u : Nat) (k : Nat) : (s.intFirst c u).peek k = s.peek k := by
  unfold State.intFirst; split <;> rfl
@[simp] theorem State.intFirst_cara (s : State) (c u : Nat)  : (s.intFirst c u).cara = s.cara := by
  unfold State.intFirst; split <;> rfl

@[simp] theorem State.raiseEv_tick (s : State) (e : Event)  : (s.raiseEv e).tick = s.tick := by
  simp [State.raiseEv]
@[simp] theorem State.raiseEv_fuses (s : State) (e : Event)  : (s.raiseEv e).fuses = s.fuses := by
  simp [State.raiseEv]
@[simp] theorem State.raiseEv_cfg (s : State) (e : Event)  : (s.raiseEv e).cfg = s.cfg := by
  simp [State.raiseEv]
@[simp] theorem State.raiseEv_dev (s : State) (e : Event)  : (s.raiseEv e).dev = s.dev := by
  simp [State.raiseEv]
@[simp] theorem State.raiseEv_mem (s : State) (e : Event)  : (s.raiseEv e).mem = s.mem := by
  simp [State.raiseEv]
@[simp] theorem State.raiseEv_chans (s : State) (e : Event)  : (s.raiseEv e).chans = s.chans := by
  simp [State.raiseEv]
@[simp] theorem State.raiseEv_swarm (s : State) (e : Event)  : (s.raiseEv e).swarm = s.swarm := by
  simp [State.raiseEv]
@[simp] theorem State.raiseEv_mesh (s : State) (e : Event)  : (s.raiseEv e).mesh = s.mesh := by
  simp [State.raiseEv]
@[simp] theorem State.raiseEv_sched (s : State) (e : Event)  : (s.raiseEv e).sched = s.sched := by
  simp [State.raiseEv]
@[simp] theorem State.raiseEv_intake (s : State) (e : Event)  : (s.raiseEv e).intake = s.intake := by
  simp [State.raiseEv]
@[simp] theorem State.raiseEv_host (s : State) (e : Event)  : (s.raiseEv e).host = s.host := by
  simp [State.raiseEv]
@[simp] theorem State.raiseEv_modes (s : State) (e : Event)  : (s.raiseEv e).modes = s.modes := by
  simp [State.raiseEv]
@[simp] theorem State.raiseEv_fw (s : State) (e : Event)  : (s.raiseEv e).fw = s.fw := by
  simp [State.raiseEv]
@[simp] theorem State.raiseEv_chk (s : State) (e : Event)  : (s.raiseEv e).chk = s.chk := by
  simp [State.raiseEv]
@[simp] theorem State.raiseEv_sec (s : State) (e : Event)  : (s.raiseEv e).sec = s.sec := by
  simp [State.raiseEv]
@[simp] theorem State.raiseEv_coc (s : State) (e : Event)  : (s.raiseEv e).coc = s.coc := by
  simp [State.raiseEv]
@[simp] theorem State.raiseEv_pwr (s : State) (e : Event)  : (s.raiseEv e).pwr = s.pwr := by
  simp [State.raiseEv]
@[simp] theorem State.raiseEv_prs (s : State) (e : Event)  : (s.raiseEv e).prs = s.prs := by
  simp [State.raiseEv]
@[simp] theorem State.raiseEv_freeCtr (s : State) (e : Event)  : (s.raiseEv e).freeCtr = s.freeCtr := by
  simp [State.raiseEv]
@[simp] theorem State.raiseEv_pending (s : State) (e : Event)  : (s.raiseEv e).pending = s.pending := by
  simp [State.raiseEv]
@[simp] theorem State.raiseEv_tile (s : State) (e : Event) (k : Nat) : (s.raiseEv e).tile k = s.tile k := by
  show (s.intFirst _ _).tile k = _
  simp
@[simp] theorem State.raiseEv_brood (s : State) (e : Event) (k : Nat) : (s.raiseEv e).brood k = s.brood k := by
  show (s.intFirst _ _).brood k = _
  simp
@[simp] theorem State.raiseEv_slot (s : State) (e : Event) (k : Nat) : (s.raiseEv e).slot k = s.slot k := by
  show (s.intFirst _ _).slot k = _
  simp
@[simp] theorem State.raiseEv_chan (s : State) (e : Event) (k : Nat) : (s.raiseEv e).chan k = s.chan k := by
  show (s.intFirst _ _).chan k = _
  simp
@[simp] theorem State.raiseEv_peek (s : State) (e : Event) (k : Nat) : (s.raiseEv e).peek k = s.peek k := by
  show (s.intFirst _ _).peek k = _
  simp
@[simp] theorem State.raiseEv_cara_latched (s : State) (e : Event)  : (s.raiseEv e).cara.latched = s.cara.latched := by
  simp [State.raiseEv]
@[simp] theorem State.raiseEv_cara_table (s : State) (e : Event)  : (s.raiseEv e).cara.table = s.cara.table := by
  simp [State.raiseEv]
@[simp] theorem State.raiseEv_cara_tlog (s : State) (e : Event)  : (s.raiseEv e).cara.tlog = s.cara.tlog := by
  simp [State.raiseEv]
@[simp] theorem State.raiseEv_cara_tlogSeq (s : State) (e : Event)  : (s.raiseEv e).cara.tlogSeq = s.cara.tlogSeq := by
  simp [State.raiseEv]
@[simp] theorem State.raiseEv_cara_mgmtQ (s : State) (e : Event)  : (s.raiseEv e).cara.mgmtQ = s.cara.mgmtQ := by
  simp [State.raiseEv]
@[simp] theorem State.raiseEv_cara_mgmtSeq (s : State) (e : Event)  : (s.raiseEv e).cara.mgmtSeq = s.cara.mgmtSeq := by
  simp [State.raiseEv]
@[simp] theorem State.raiseEv_cara_mgmtLoss (s : State) (e : Event)  : (s.raiseEv e).cara.mgmtLoss = s.cara.mgmtLoss := by
  simp [State.raiseEv]
@[simp] theorem State.raiseEv_cara_mgmtAt (s : State) (e : Event)  : (s.raiseEv e).cara.mgmtAt = s.cara.mgmtAt := by
  simp [State.raiseEv]
@[simp] theorem State.raiseEv_cara_mgmtSent (s : State) (e : Event)  : (s.raiseEv e).cara.mgmtSent = s.cara.mgmtSent := by
  simp [State.raiseEv]
@[simp] theorem State.raiseEv_cara_wins (s : State) (e : Event)  : (s.raiseEv e).cara.wins = s.cara.wins := by
  simp [State.raiseEv]
@[simp] theorem State.raiseEv_cara_aliveLevel (s : State) (e : Event)  : (s.raiseEv e).cara.aliveLevel = s.cara.aliveLevel := by
  simp [State.raiseEv]
@[simp] theorem State.raiseEv_cara_aliveAt (s : State) (e : Event)  : (s.raiseEv e).cara.aliveAt = s.cara.aliveAt := by
  simp [State.raiseEv]
@[simp] theorem State.raiseEv_cara_aliveHold (s : State) (e : Event)  : (s.raiseEv e).cara.aliveHold = s.cara.aliveHold := by
  simp [State.raiseEv]
@[simp] theorem State.raiseEv_cara_selBlock (s : State) (e : Event)  : (s.raiseEv e).cara.selBlock = s.cara.selBlock := by
  simp [State.raiseEv]
@[simp] theorem State.raiseEv_cara_stopAt (s : State) (e : Event)  : (s.raiseEv e).cara.stopAt = s.cara.stopAt := by
  simp [State.raiseEv]
@[simp] theorem State.raiseEv_cara_wdtAt (s : State) (e : Event)  : (s.raiseEv e).cara.wdtAt = s.cara.wdtAt := by
  simp [State.raiseEv]
@[simp] theorem State.raiseEv_cara_testAt (s : State) (e : Event)  : (s.raiseEv e).cara.testAt = s.cara.testAt := by
  simp [State.raiseEv]
@[simp] theorem State.raiseEv_cara_lineTestAt (s : State) (e : Event)  : (s.raiseEv e).cara.lineTestAt = s.cara.lineTestAt := by
  simp [State.raiseEv]
@[simp] theorem State.raiseEv_cara_testBit (s : State) (e : Event)  : (s.raiseEv e).cara.testBit = s.cara.testBit := by
  simp [State.raiseEv]
@[simp] theorem State.raiseEv_cara_debug (s : State) (e : Event)  : (s.raiseEv e).cara.debug = s.cara.debug := by
  simp [State.raiseEv]
@[simp] theorem State.raiseEv_cara_dbgHalt (s : State) (e : Event)  : (s.raiseEv e).cara.dbgHalt = s.cara.dbgHalt := by
  simp [State.raiseEv]
@[simp] theorem State.raiseEv_cara_dbgKicks (s : State) (e : Event)  : (s.raiseEv e).cara.dbgKicks = s.cara.dbgKicks := by
  simp [State.raiseEv]
@[simp] theorem State.raiseEv_cara_split (s : State) (e : Event)  : (s.raiseEv e).cara.split = s.cara.split := by
  simp [State.raiseEv]
@[simp] theorem State.raiseEv_cara_restarts (s : State) (e : Event)  : (s.raiseEv e).cara.restarts = s.cara.restarts := by
  simp [State.raiseEv]
@[simp] theorem State.raiseEv_cara_partials (s : State) (e : Event)  : (s.raiseEv e).cara.partials = s.cara.partials := by
  simp [State.raiseEv]
@[simp] theorem State.raiseEv_cara_restartDue (s : State) (e : Event)  : (s.raiseEv e).cara.restartDue = s.cara.restartDue := by
  simp [State.raiseEv]
@[simp] theorem State.raiseEv_cara_zeroFill (s : State) (e : Event)  : (s.raiseEv e).cara.zeroFill = s.cara.zeroFill := by
  simp [State.raiseEv]
@[simp] theorem State.raiseEv_cara_lastSm (s : State) (e : Event)  : (s.raiseEv e).cara.lastSm = s.cara.lastSm := by
  simp [State.raiseEv]
@[simp] theorem State.raiseEv_cara_mgmtTo (s : State) (e : Event)  : (s.raiseEv e).cara.mgmtTo = s.cara.mgmtTo := by
  simp [State.raiseEv]

@[simp] theorem State.raise_tick (s : State) (l c u : Nat)  : (s.raise l c u).tick = s.tick := by
  simp [State.raise]
@[simp] theorem State.raise_fuses (s : State) (l c u : Nat)  : (s.raise l c u).fuses = s.fuses := by
  simp [State.raise]
@[simp] theorem State.raise_cfg (s : State) (l c u : Nat)  : (s.raise l c u).cfg = s.cfg := by
  simp [State.raise]
@[simp] theorem State.raise_dev (s : State) (l c u : Nat)  : (s.raise l c u).dev = s.dev := by
  simp [State.raise]
@[simp] theorem State.raise_mem (s : State) (l c u : Nat)  : (s.raise l c u).mem = s.mem := by
  simp [State.raise]
@[simp] theorem State.raise_chans (s : State) (l c u : Nat)  : (s.raise l c u).chans = s.chans := by
  simp [State.raise]
@[simp] theorem State.raise_swarm (s : State) (l c u : Nat)  : (s.raise l c u).swarm = s.swarm := by
  simp [State.raise]
@[simp] theorem State.raise_mesh (s : State) (l c u : Nat)  : (s.raise l c u).mesh = s.mesh := by
  simp [State.raise]
@[simp] theorem State.raise_sched (s : State) (l c u : Nat)  : (s.raise l c u).sched = s.sched := by
  simp [State.raise]
@[simp] theorem State.raise_intake (s : State) (l c u : Nat)  : (s.raise l c u).intake = s.intake := by
  simp [State.raise]
@[simp] theorem State.raise_host (s : State) (l c u : Nat)  : (s.raise l c u).host = s.host := by
  simp [State.raise]
@[simp] theorem State.raise_modes (s : State) (l c u : Nat)  : (s.raise l c u).modes = s.modes := by
  simp [State.raise]
@[simp] theorem State.raise_fw (s : State) (l c u : Nat)  : (s.raise l c u).fw = s.fw := by
  simp [State.raise]
@[simp] theorem State.raise_chk (s : State) (l c u : Nat)  : (s.raise l c u).chk = s.chk := by
  simp [State.raise]
@[simp] theorem State.raise_sec (s : State) (l c u : Nat)  : (s.raise l c u).sec = s.sec := by
  simp [State.raise]
@[simp] theorem State.raise_coc (s : State) (l c u : Nat)  : (s.raise l c u).coc = s.coc := by
  simp [State.raise]
@[simp] theorem State.raise_pwr (s : State) (l c u : Nat)  : (s.raise l c u).pwr = s.pwr := by
  simp [State.raise]
@[simp] theorem State.raise_prs (s : State) (l c u : Nat)  : (s.raise l c u).prs = s.prs := by
  simp [State.raise]
@[simp] theorem State.raise_freeCtr (s : State) (l c u : Nat)  : (s.raise l c u).freeCtr = s.freeCtr := by
  simp [State.raise]
@[simp] theorem State.raise_pending (s : State) (l c u : Nat)  : (s.raise l c u).pending = s.pending := by
  simp [State.raise]
@[simp] theorem State.raise_tile (s : State) (l c u : Nat) (k : Nat) : (s.raise l c u).tile k = s.tile k := by
  simp [State.raise]
@[simp] theorem State.raise_brood (s : State) (l c u : Nat) (k : Nat) : (s.raise l c u).brood k = s.brood k := by
  simp [State.raise]
@[simp] theorem State.raise_slot (s : State) (l c u : Nat) (k : Nat) : (s.raise l c u).slot k = s.slot k := by
  simp [State.raise]
@[simp] theorem State.raise_chan (s : State) (l c u : Nat) (k : Nat) : (s.raise l c u).chan k = s.chan k := by
  simp [State.raise]
@[simp] theorem State.raise_peek (s : State) (l c u : Nat) (k : Nat) : (s.raise l c u).peek k = s.peek k := by
  simp [State.raise]
@[simp] theorem State.raise_cara_latched (s : State) (l c u : Nat)  : (s.raise l c u).cara.latched = s.cara.latched := by
  simp [State.raise]
@[simp] theorem State.raise_cara_table (s : State) (l c u : Nat)  : (s.raise l c u).cara.table = s.cara.table := by
  simp [State.raise]
@[simp] theorem State.raise_cara_tlog (s : State) (l c u : Nat)  : (s.raise l c u).cara.tlog = s.cara.tlog := by
  simp [State.raise]
@[simp] theorem State.raise_cara_tlogSeq (s : State) (l c u : Nat)  : (s.raise l c u).cara.tlogSeq = s.cara.tlogSeq := by
  simp [State.raise]
@[simp] theorem State.raise_cara_mgmtQ (s : State) (l c u : Nat)  : (s.raise l c u).cara.mgmtQ = s.cara.mgmtQ := by
  simp [State.raise]
@[simp] theorem State.raise_cara_mgmtSeq (s : State) (l c u : Nat)  : (s.raise l c u).cara.mgmtSeq = s.cara.mgmtSeq := by
  simp [State.raise]
@[simp] theorem State.raise_cara_mgmtLoss (s : State) (l c u : Nat)  : (s.raise l c u).cara.mgmtLoss = s.cara.mgmtLoss := by
  simp [State.raise]
@[simp] theorem State.raise_cara_mgmtAt (s : State) (l c u : Nat)  : (s.raise l c u).cara.mgmtAt = s.cara.mgmtAt := by
  simp [State.raise]
@[simp] theorem State.raise_cara_mgmtSent (s : State) (l c u : Nat)  : (s.raise l c u).cara.mgmtSent = s.cara.mgmtSent := by
  simp [State.raise]
@[simp] theorem State.raise_cara_wins (s : State) (l c u : Nat)  : (s.raise l c u).cara.wins = s.cara.wins := by
  simp [State.raise]
@[simp] theorem State.raise_cara_aliveLevel (s : State) (l c u : Nat)  : (s.raise l c u).cara.aliveLevel = s.cara.aliveLevel := by
  simp [State.raise]
@[simp] theorem State.raise_cara_aliveAt (s : State) (l c u : Nat)  : (s.raise l c u).cara.aliveAt = s.cara.aliveAt := by
  simp [State.raise]
@[simp] theorem State.raise_cara_aliveHold (s : State) (l c u : Nat)  : (s.raise l c u).cara.aliveHold = s.cara.aliveHold := by
  simp [State.raise]
@[simp] theorem State.raise_cara_selBlock (s : State) (l c u : Nat)  : (s.raise l c u).cara.selBlock = s.cara.selBlock := by
  simp [State.raise]
@[simp] theorem State.raise_cara_stopAt (s : State) (l c u : Nat)  : (s.raise l c u).cara.stopAt = s.cara.stopAt := by
  simp [State.raise]
@[simp] theorem State.raise_cara_wdtAt (s : State) (l c u : Nat)  : (s.raise l c u).cara.wdtAt = s.cara.wdtAt := by
  simp [State.raise]
@[simp] theorem State.raise_cara_testAt (s : State) (l c u : Nat)  : (s.raise l c u).cara.testAt = s.cara.testAt := by
  simp [State.raise]
@[simp] theorem State.raise_cara_lineTestAt (s : State) (l c u : Nat)  : (s.raise l c u).cara.lineTestAt = s.cara.lineTestAt := by
  simp [State.raise]
@[simp] theorem State.raise_cara_testBit (s : State) (l c u : Nat)  : (s.raise l c u).cara.testBit = s.cara.testBit := by
  simp [State.raise]
@[simp] theorem State.raise_cara_debug (s : State) (l c u : Nat)  : (s.raise l c u).cara.debug = s.cara.debug := by
  simp [State.raise]
@[simp] theorem State.raise_cara_dbgHalt (s : State) (l c u : Nat)  : (s.raise l c u).cara.dbgHalt = s.cara.dbgHalt := by
  simp [State.raise]
@[simp] theorem State.raise_cara_dbgKicks (s : State) (l c u : Nat)  : (s.raise l c u).cara.dbgKicks = s.cara.dbgKicks := by
  simp [State.raise]
@[simp] theorem State.raise_cara_split (s : State) (l c u : Nat)  : (s.raise l c u).cara.split = s.cara.split := by
  simp [State.raise]
@[simp] theorem State.raise_cara_restarts (s : State) (l c u : Nat)  : (s.raise l c u).cara.restarts = s.cara.restarts := by
  simp [State.raise]
@[simp] theorem State.raise_cara_partials (s : State) (l c u : Nat)  : (s.raise l c u).cara.partials = s.cara.partials := by
  simp [State.raise]
@[simp] theorem State.raise_cara_restartDue (s : State) (l c u : Nat)  : (s.raise l c u).cara.restartDue = s.cara.restartDue := by
  simp [State.raise]
@[simp] theorem State.raise_cara_zeroFill (s : State) (l c u : Nat)  : (s.raise l c u).cara.zeroFill = s.cara.zeroFill := by
  simp [State.raise]
@[simp] theorem State.raise_cara_lastSm (s : State) (l c u : Nat)  : (s.raise l c u).cara.lastSm = s.cara.lastSm := by
  simp [State.raise]
@[simp] theorem State.raise_cara_mgmtTo (s : State) (l c u : Nat)  : (s.raise l c u).cara.mgmtTo = s.cara.mgmtTo := by
  simp [State.raise]

@[simp] theorem State.raiseFor_tick (s : State) (l c : Nat) (us st : List Nat)  : (s.raiseFor l c us st).tick = s.tick := by
  simp [State.raiseFor]
@[simp] theorem State.raiseFor_fuses (s : State) (l c : Nat) (us st : List Nat)  : (s.raiseFor l c us st).fuses = s.fuses := by
  simp [State.raiseFor]
@[simp] theorem State.raiseFor_cfg (s : State) (l c : Nat) (us st : List Nat)  : (s.raiseFor l c us st).cfg = s.cfg := by
  simp [State.raiseFor]
@[simp] theorem State.raiseFor_dev (s : State) (l c : Nat) (us st : List Nat)  : (s.raiseFor l c us st).dev = s.dev := by
  simp [State.raiseFor]
@[simp] theorem State.raiseFor_mem (s : State) (l c : Nat) (us st : List Nat)  : (s.raiseFor l c us st).mem = s.mem := by
  simp [State.raiseFor]
@[simp] theorem State.raiseFor_chans (s : State) (l c : Nat) (us st : List Nat)  : (s.raiseFor l c us st).chans = s.chans := by
  simp [State.raiseFor]
@[simp] theorem State.raiseFor_swarm (s : State) (l c : Nat) (us st : List Nat)  : (s.raiseFor l c us st).swarm = s.swarm := by
  simp [State.raiseFor]
@[simp] theorem State.raiseFor_mesh (s : State) (l c : Nat) (us st : List Nat)  : (s.raiseFor l c us st).mesh = s.mesh := by
  simp [State.raiseFor]
@[simp] theorem State.raiseFor_sched (s : State) (l c : Nat) (us st : List Nat)  : (s.raiseFor l c us st).sched = s.sched := by
  simp [State.raiseFor]
@[simp] theorem State.raiseFor_intake (s : State) (l c : Nat) (us st : List Nat)  : (s.raiseFor l c us st).intake = s.intake := by
  simp [State.raiseFor]
@[simp] theorem State.raiseFor_host (s : State) (l c : Nat) (us st : List Nat)  : (s.raiseFor l c us st).host = s.host := by
  simp [State.raiseFor]
@[simp] theorem State.raiseFor_modes (s : State) (l c : Nat) (us st : List Nat)  : (s.raiseFor l c us st).modes = s.modes := by
  simp [State.raiseFor]
@[simp] theorem State.raiseFor_fw (s : State) (l c : Nat) (us st : List Nat)  : (s.raiseFor l c us st).fw = s.fw := by
  simp [State.raiseFor]
@[simp] theorem State.raiseFor_chk (s : State) (l c : Nat) (us st : List Nat)  : (s.raiseFor l c us st).chk = s.chk := by
  simp [State.raiseFor]
@[simp] theorem State.raiseFor_sec (s : State) (l c : Nat) (us st : List Nat)  : (s.raiseFor l c us st).sec = s.sec := by
  simp [State.raiseFor]
@[simp] theorem State.raiseFor_coc (s : State) (l c : Nat) (us st : List Nat)  : (s.raiseFor l c us st).coc = s.coc := by
  simp [State.raiseFor]
@[simp] theorem State.raiseFor_pwr (s : State) (l c : Nat) (us st : List Nat)  : (s.raiseFor l c us st).pwr = s.pwr := by
  simp [State.raiseFor]
@[simp] theorem State.raiseFor_prs (s : State) (l c : Nat) (us st : List Nat)  : (s.raiseFor l c us st).prs = s.prs := by
  simp [State.raiseFor]
@[simp] theorem State.raiseFor_freeCtr (s : State) (l c : Nat) (us st : List Nat)  : (s.raiseFor l c us st).freeCtr = s.freeCtr := by
  simp [State.raiseFor]
@[simp] theorem State.raiseFor_pending (s : State) (l c : Nat) (us st : List Nat)  : (s.raiseFor l c us st).pending = s.pending := by
  simp [State.raiseFor]
@[simp] theorem State.raiseFor_tile (s : State) (l c : Nat) (us st : List Nat) (k : Nat) : (s.raiseFor l c us st).tile k = s.tile k := by
  simp [State.raiseFor]
@[simp] theorem State.raiseFor_brood (s : State) (l c : Nat) (us st : List Nat) (k : Nat) : (s.raiseFor l c us st).brood k = s.brood k := by
  simp [State.raiseFor]
@[simp] theorem State.raiseFor_slot (s : State) (l c : Nat) (us st : List Nat) (k : Nat) : (s.raiseFor l c us st).slot k = s.slot k := by
  simp [State.raiseFor]
@[simp] theorem State.raiseFor_chan (s : State) (l c : Nat) (us st : List Nat) (k : Nat) : (s.raiseFor l c us st).chan k = s.chan k := by
  simp [State.raiseFor]
@[simp] theorem State.raiseFor_peek (s : State) (l c : Nat) (us st : List Nat) (k : Nat) : (s.raiseFor l c us st).peek k = s.peek k := by
  simp [State.raiseFor]
@[simp] theorem State.raiseFor_cara_latched (s : State) (l c : Nat) (us st : List Nat)  : (s.raiseFor l c us st).cara.latched = s.cara.latched := by
  simp [State.raiseFor]
@[simp] theorem State.raiseFor_cara_table (s : State) (l c : Nat) (us st : List Nat)  : (s.raiseFor l c us st).cara.table = s.cara.table := by
  simp [State.raiseFor]
@[simp] theorem State.raiseFor_cara_tlog (s : State) (l c : Nat) (us st : List Nat)  : (s.raiseFor l c us st).cara.tlog = s.cara.tlog := by
  simp [State.raiseFor]
@[simp] theorem State.raiseFor_cara_tlogSeq (s : State) (l c : Nat) (us st : List Nat)  : (s.raiseFor l c us st).cara.tlogSeq = s.cara.tlogSeq := by
  simp [State.raiseFor]
@[simp] theorem State.raiseFor_cara_mgmtQ (s : State) (l c : Nat) (us st : List Nat)  : (s.raiseFor l c us st).cara.mgmtQ = s.cara.mgmtQ := by
  simp [State.raiseFor]
@[simp] theorem State.raiseFor_cara_mgmtSeq (s : State) (l c : Nat) (us st : List Nat)  : (s.raiseFor l c us st).cara.mgmtSeq = s.cara.mgmtSeq := by
  simp [State.raiseFor]
@[simp] theorem State.raiseFor_cara_mgmtLoss (s : State) (l c : Nat) (us st : List Nat)  : (s.raiseFor l c us st).cara.mgmtLoss = s.cara.mgmtLoss := by
  simp [State.raiseFor]
@[simp] theorem State.raiseFor_cara_mgmtAt (s : State) (l c : Nat) (us st : List Nat)  : (s.raiseFor l c us st).cara.mgmtAt = s.cara.mgmtAt := by
  simp [State.raiseFor]
@[simp] theorem State.raiseFor_cara_mgmtSent (s : State) (l c : Nat) (us st : List Nat)  : (s.raiseFor l c us st).cara.mgmtSent = s.cara.mgmtSent := by
  simp [State.raiseFor]
@[simp] theorem State.raiseFor_cara_wins (s : State) (l c : Nat) (us st : List Nat)  : (s.raiseFor l c us st).cara.wins = s.cara.wins := by
  simp [State.raiseFor]
@[simp] theorem State.raiseFor_cara_aliveLevel (s : State) (l c : Nat) (us st : List Nat)  : (s.raiseFor l c us st).cara.aliveLevel = s.cara.aliveLevel := by
  simp [State.raiseFor]
@[simp] theorem State.raiseFor_cara_aliveAt (s : State) (l c : Nat) (us st : List Nat)  : (s.raiseFor l c us st).cara.aliveAt = s.cara.aliveAt := by
  simp [State.raiseFor]
@[simp] theorem State.raiseFor_cara_aliveHold (s : State) (l c : Nat) (us st : List Nat)  : (s.raiseFor l c us st).cara.aliveHold = s.cara.aliveHold := by
  simp [State.raiseFor]
@[simp] theorem State.raiseFor_cara_selBlock (s : State) (l c : Nat) (us st : List Nat)  : (s.raiseFor l c us st).cara.selBlock = s.cara.selBlock := by
  simp [State.raiseFor]
@[simp] theorem State.raiseFor_cara_stopAt (s : State) (l c : Nat) (us st : List Nat)  : (s.raiseFor l c us st).cara.stopAt = s.cara.stopAt := by
  simp [State.raiseFor]
@[simp] theorem State.raiseFor_cara_wdtAt (s : State) (l c : Nat) (us st : List Nat)  : (s.raiseFor l c us st).cara.wdtAt = s.cara.wdtAt := by
  simp [State.raiseFor]
@[simp] theorem State.raiseFor_cara_testAt (s : State) (l c : Nat) (us st : List Nat)  : (s.raiseFor l c us st).cara.testAt = s.cara.testAt := by
  simp [State.raiseFor]
@[simp] theorem State.raiseFor_cara_lineTestAt (s : State) (l c : Nat) (us st : List Nat)  : (s.raiseFor l c us st).cara.lineTestAt = s.cara.lineTestAt := by
  simp [State.raiseFor]
@[simp] theorem State.raiseFor_cara_testBit (s : State) (l c : Nat) (us st : List Nat)  : (s.raiseFor l c us st).cara.testBit = s.cara.testBit := by
  simp [State.raiseFor]
@[simp] theorem State.raiseFor_cara_debug (s : State) (l c : Nat) (us st : List Nat)  : (s.raiseFor l c us st).cara.debug = s.cara.debug := by
  simp [State.raiseFor]
@[simp] theorem State.raiseFor_cara_dbgHalt (s : State) (l c : Nat) (us st : List Nat)  : (s.raiseFor l c us st).cara.dbgHalt = s.cara.dbgHalt := by
  simp [State.raiseFor]
@[simp] theorem State.raiseFor_cara_dbgKicks (s : State) (l c : Nat) (us st : List Nat)  : (s.raiseFor l c us st).cara.dbgKicks = s.cara.dbgKicks := by
  simp [State.raiseFor]
@[simp] theorem State.raiseFor_cara_split (s : State) (l c : Nat) (us st : List Nat)  : (s.raiseFor l c us st).cara.split = s.cara.split := by
  simp [State.raiseFor]
@[simp] theorem State.raiseFor_cara_restarts (s : State) (l c : Nat) (us st : List Nat)  : (s.raiseFor l c us st).cara.restarts = s.cara.restarts := by
  simp [State.raiseFor]
@[simp] theorem State.raiseFor_cara_partials (s : State) (l c : Nat) (us st : List Nat)  : (s.raiseFor l c us st).cara.partials = s.cara.partials := by
  simp [State.raiseFor]
@[simp] theorem State.raiseFor_cara_restartDue (s : State) (l c : Nat) (us st : List Nat)  : (s.raiseFor l c us st).cara.restartDue = s.cara.restartDue := by
  simp [State.raiseFor]
@[simp] theorem State.raiseFor_cara_zeroFill (s : State) (l c : Nat) (us st : List Nat)  : (s.raiseFor l c us st).cara.zeroFill = s.cara.zeroFill := by
  simp [State.raiseFor]
@[simp] theorem State.raiseFor_cara_lastSm (s : State) (l c : Nat) (us st : List Nat)  : (s.raiseFor l c us st).cara.lastSm = s.cara.lastSm := by
  simp [State.raiseFor]
@[simp] theorem State.raiseFor_cara_mgmtTo (s : State) (l c : Nat) (us st : List Nat)  : (s.raiseFor l c us st).cara.mgmtTo = s.cara.mgmtTo := by
  simp [State.raiseFor]

/-- The entry that `raiseEv` presents. -/
def Event.at' (e : Event) (s : State) : Event :=
  { e with tick := s.tick, hostMode := s.modes.react, op := if s.dev.phase = 0 then 0 else s.dev.phase * 256 + s.dev.step }

theorem State.raiseEv_asserted (s : State) (e : Event) : (s.raiseEv e).cara.asserted = s.cara.asserted ++ [e.at' s] := by
  simp [State.raiseEv, Event.at']

theorem State.raiseEv_rd (s : State) {e : Event} (f : Fld) (i : Nat) (h : e.code / 4096 ≠ 5) : (s.raiseEv e).rd f i = s.rd f i := by
  simp [State.raiseEv, State.intFirst_other s h, State.rd]

theorem State.raise_rd (s : State) {l c u : Nat} (f : Fld) (i : Nat) (h : c / 4096 ≠ 5) : (s.raise l c u).rd f i = s.rd f i :=
  State.raiseEv_rd s f i h

theorem presented_raise (s : State) (l c u : Nat) : Presented s (s.raise l c u) l c u :=
  ⟨_, State.raiseEv_asserted s _, rfl, rfl, rfl, rfl⟩

theorem Presented.of_eq {s s' u u' : State} {l c n : Nat} (h : Presented s u l c n) (a : s'.cara.asserted = s.cara.asserted)
    (b : u'.cara.asserted = u.cara.asserted) (t : s'.tick = s.tick) : Presented s' u' l c n := by
  obtain ⟨e, h1, h2, h3, h4, h5⟩ := h
  exact ⟨e, by rw [b, h1, a], h2, h3, h4, by rw [h5, t]⟩

end Sys2Proof.Machine
end

