-- ==== Sys2Proof/Laws/Keep.lean ====
section
/-! SUPPORT. What no command may break: memory is canonical, the queue and the fuses are left alone, the time base fits 64 bits. -/
namespace Sys2Proof.Machine

/-- The fuses `G` differ from `F` at most by an owner root that was enrolled while none was locked (R533). -/
def FusesKeep (F G : Fuses) : Prop :=
  G.variantB = F.variantB ∧ G.serial = F.serial ∧ G.splitDisable = F.splitDisable ∧ G.debugDisable = F.debugDisable ∧
  G.fusedOff = F.fusedOff ∧ G.pratharRoot = F.pratharRoot ∧ G.step = F.step ∧ G.deviceSeed = F.deviceSeed ∧
  (F.ownerLock = true → G.ownerLock = true ∧ G.ownerRoot = F.ownerRoot)

theorem FusesKeep.refl (F : Fuses) : FusesKeep F F := ⟨rfl, rfl, rfl, rfl, rfl, rfl, rfl, rfl, fun h => ⟨h, rfl⟩⟩

/-- The memory is canonical, the queue is the given one, the fuses are the given ones but for an enrolment, and the time base fits
its 64 bits. -/
def Good (q : List Instr) (F : Fuses) (s : State) : Prop :=
  Memory.wf s.mem.cells = true ∧ s.pending = q ∧ FusesKeep F s.fuses ∧ s.tick < 2 ^ 64

/-- A state that differs in other fields only. -/
theorem Good.upd {q F} {t : State} {cfg_ : Cfg} {dev_ : DeviceMode} {regs_ : FMap Nat} {mem_ : Mem} {chans_ : FMap MemChan} {swarm_ : Swarm} {mesh_ : Mesh} {sched_ : Sched} {intake_ : Intake} {host_ : HostIf} {modes_ : Modes} {fw_ : Fw} {cara_ : Carapace} {chk_ : Checking} {sec_ : SecObj} {coc_ : Cocoon} {pwr_ : Power} {prs_ : Persist} {freeCtr_ : Nat}
    (h : Good q F t) (hm : mem_.cells = t.mem.cells) :
    Good q F (State.mk t.tick t.fuses cfg_ dev_ regs_ mem_ chans_ swarm_ mesh_ sched_ intake_ host_ modes_ fw_ cara_ chk_ sec_ coc_ pwr_ prs_ freeCtr_ t.pending) := by
  unfold Good at *; rw [hm]; exact h

/-- `Good` of the state that an outcome goes on to. -/
def GoodOut (q : List Instr) (F : Fuses) : Host.Outcome State Fault Refusal → Prop
  | .next s => Good q F s
  | _ => True

theorem Good.done {q F s} (h : Good q F s) : GoodOut q F (done s) := h

theorem Good.ite {q F} {c : Prop} [Decidable c] {a b : State} (h : c → Good q F a) (k : ¬ c → Good q F b) :
    Good q F (if c then a else b) := by
  split
  · exact h ‹_›
  · exact k ‹_›

theorem Good.ite₂ {q F} {α : Type} {c : Prop} [Decidable c] {a b : α × State} (h : c → Good q F a.2) (k : ¬ c → Good q F b.2) :
    Good q F (if c then a else b).2 := by
  split
  · exact h ‹_›
  · exact k ‹_›

theorem Good.eta {α β : Type} (p : α × β) : p = (p.1, p.2) := by cases p; rfl
theorem Good.eta3 {α β γ : Type} (p : α × β × γ) : p = (p.1, p.2.1, p.2.2) := by cases p; rfl

/-- A fold over pairs with a state keeps it good. -/
theorem Good.fold {q F} {β γ : Type} {f : γ × State → β → γ × State} {l : List β} {r : γ × State} {y : γ} {t : State}
    (e : l.foldl f r = (y, t)) (h : Good q F r.2) (hf : ∀ y s b, Good q F s → Good q F (f (y, s) b).2) : Good q F t := by
  have go : ∀ (l : List β) (r : γ × State), Good q F r.2 → Good q F (l.foldl f r).2 := by
    intro l
    induction l with
    | nil => intro r h; exact h
    | cons a m ih => intro r h; exact ih _ (hf r.1 r.2 a h)
  have := go l r h
  rw [e] at this
  exact this

/-- The same over two values and a state. -/
theorem Good.fold3 {q F} {β γ δ : Type} {f : γ × δ × State → β → γ × δ × State} {l : List β} {r : γ × δ × State}
    (h : Good q F r.2.2) (hf : ∀ y z s b, Good q F s → Good q F (f (y, z, s) b).2.2) : Good q F (l.foldl f r).2.2 := by
  induction l generalizing r with
  | nil => exact h
  | cons a m ih => exact ih (hf r.1 r.2.1 r.2.2 a h)

end Sys2Proof.Machine
end

