-- ==== Sys2Proof/Laws/KeepOps.lean ====
section
/-! SUPPORT. Every operation and command of Machine/Ops.lean keeps what `Good` says of a state. -/
namespace Sys2Proof.Machine

theorem onlyIf_good {pq fz c s f} (h_s : Good pq fz s) (h_f : ∀ x0, Good pq fz x0 → Good pq fz (f x0)) :
    Good pq fz (onlyIf c s f) := by
  unfold onlyIf
  repeat' first
    | with_reducible assumption
    | refine h_f _ ?_
    | with_reducible refine Good.done ?_
    | split
    | dsimp only
    | with_reducible refine Good.upd ?_ rfl
    | (simp only [id_eq])
    | intro _ _
    | intro _

theorem State.wr_good {pq fz s f v i} (h_s : Good pq fz s) :
    Good pq fz (State.wr s f v i) := by
  unfold State.wr
  repeat' first
    | with_reducible assumption
    | with_reducible refine Good.done ?_
    | split
    | dsimp only
    | with_reducible refine Good.upd ?_ rfl
    | (simp only [id_eq])
    | intro _ _
    | intro _

theorem State.cnt_good {pq fz s f i k} (h_s : Good pq fz s) :
    Good pq fz (State.cnt s f i k) := by
  unfold State.cnt
  repeat' first
    | with_reducible assumption
    | with_reducible refine State.wr_good ?_
    | with_reducible refine Good.done ?_
    | split
    | dsimp only
    | with_reducible refine Good.upd ?_ rfl
    | (simp only [id_eq])
    | intro _ _
    | intro _

theorem State.violation_good {pq fz s} (h_s : Good pq fz s) :
    Good pq fz (State.violation s) := by
  unfold State.violation
  repeat' first
    | with_reducible assumption
    | with_reducible refine State.cnt_good ?_
    | with_reducible refine Good.done ?_
    | split
    | dsimp only
    | with_reducible refine Good.upd ?_ rfl
    | (simp only [id_eq])
    | intro _ _
    | intro _

theorem State.each_good {α : Type} {pq fz} {s : State} {l : List α} {f : State → α → State} (h_s : Good pq fz s)
    (h_f : ∀ x0 x1, Good pq fz x0 → Good pq fz (f x0 x1)) : Good pq fz (State.each s l f) := by
  unfold State.each
  induction l generalizing s with
  | nil => exact h_s
  | cons a r ih => exact ih (h_f s a h_s)

theorem State.intFirst_good {pq fz s code unit} (h_s : Good pq fz s) :
    Good pq fz (State.intFirst s code unit) := by
  unfold State.intFirst
  repeat' first
    | with_reducible assumption
    | with_reducible refine State.wr_good ?_
    | with_reducible refine Good.done ?_
    | split
    | dsimp only
    | with_reducible refine Good.upd ?_ rfl
    | (simp only [id_eq])
    | intro _ _
    | intro _

theorem State.raiseEv_good {pq fz s e} (h_s : Good pq fz s) :
    Good pq fz (State.raiseEv s e) := by
  unfold State.raiseEv
  repeat' first
    | with_reducible assumption
    | with_reducible refine State.intFirst_good ?_
    | with_reducible refine Good.done ?_
    | split
    | dsimp only
    | with_reducible refine Good.upd ?_ rfl
    | (simp only [id_eq])
    | intro _ _
    | intro _

theorem State.raise_good {pq fz s line code unit} (h_s : Good pq fz s) :
    Good pq fz (State.raise s line code unit) := by
  unfold State.raise
  repeat' first
    | with_reducible assumption
    | with_reducible refine State.raiseEv_good ?_
    | with_reducible refine Good.done ?_
    | split
    | dsimp only
    | with_reducible refine Good.upd ?_ rfl
    | (simp only [id_eq])
    | intro _ _
    | intro _

theorem State.peak_good {pq fz s f v i} (h_s : Good pq fz s) :
    Good pq fz (State.peak s f v i) := by
  unfold State.peak
  repeat' first
    | with_reducible assumption
    | with_reducible refine State.wr_good ?_
    | with_reducible refine Good.done ?_
    | split
    | dsimp only
    | with_reducible refine Good.upd ?_ rfl
    | (simp only [id_eq])
    | intro _ _
    | intro _

theorem State.setTile_good {pq fz s t x} (h_s : Good pq fz s) :
    Good pq fz (State.setTile s t x) := by
  unfold State.setTile
  repeat' first
    | with_reducible assumption
    | with_reducible refine Good.done ?_
    | split
    | dsimp only
    | with_reducible refine Good.upd ?_ rfl
    | (simp only [id_eq])
    | intro _ _
    | intro _

theorem State.modTile_good {pq fz s t f} (h_s : Good pq fz s) :
    Good pq fz (State.modTile s t f) := by
  unfold State.modTile
  repeat' first
    | with_reducible assumption
    | with_reducible refine State.setTile_good ?_
    | with_reducible refine Good.done ?_
    | split
    | dsimp only
    | with_reducible refine Good.upd ?_ rfl
    | (simp only [id_eq])
    | intro _ _
    | intro _

theorem State.setBrood_good {pq fz s b x} (h_s : Good pq fz s) :
    Good pq fz (State.setBrood s b x) := by
  unfold State.setBrood
  repeat' first
    | with_reducible assumption
    | with_reducible refine Good.done ?_
    | split
    | dsimp only
    | with_reducible refine Good.upd ?_ rfl
    | (simp only [id_eq])
    | intro _ _
    | intro _

theorem State.modBrood_good {pq fz s b f} (h_s : Good pq fz s) :
    Good pq fz (State.modBrood s b f) := by
  unfold State.modBrood
  repeat' first
    | with_reducible assumption
    | with_reducible refine State.setBrood_good ?_
    | with_reducible refine Good.done ?_
    | split
    | dsimp only
    | with_reducible refine Good.upd ?_ rfl
    | (simp only [id_eq])
    | intro _ _
    | intro _

theorem State.raiseBrood_good {pq fz s b code} (h_s : Good pq fz s) :
    Good pq fz (State.raiseBrood s b code) := by
  unfold State.raiseBrood
  repeat' first
    | with_reducible assumption
    | with_reducible refine State.raise_good ?_
    | with_reducible refine Good.done ?_
    | split
    | dsimp only
    | with_reducible refine Good.upd ?_ rfl
    | (simp only [id_eq])
    | intro _ _
    | intro _

theorem State.setSlot_good {pq fz s p x} (h_s : Good pq fz s) :
    Good pq fz (State.setSlot s p x) := by
  unfold State.setSlot
  repeat' first
    | with_reducible assumption
    | with_reducible refine Good.done ?_
    | split
    | dsimp only
    | with_reducible refine Good.upd ?_ rfl
    | (simp only [id_eq])
    | intro _ _
    | intro _

theorem State.modSlot_good {pq fz s p f} (h_s : Good pq fz s) :
    Good pq fz (State.modSlot s p f) := by
  unfold State.modSlot
  repeat' first
    | with_reducible assumption
    | with_reducible refine State.setSlot_good ?_
    | with_reducible refine Good.done ?_
    | split
    | dsimp only
    | with_reducible refine Good.upd ?_ rfl
    | (simp only [id_eq])
    | intro _ _
    | intro _

theorem State.raiseTile_good {pq fz s t code} (h_s : Good pq fz s) :
    Good pq fz (State.raiseTile s t code) := by
  unfold State.raiseTile
  repeat' first
    | with_reducible assumption
    | with_reducible refine State.raise_good ?_
    | with_reducible refine State.modTile_good ?_
    | with_reducible refine Good.done ?_
    | split
    | dsimp only
    | with_reducible refine Good.upd ?_ rfl
    | (simp only [id_eq])
    | intro _ _
    | intro _

theorem State.wrB_good {pq fz s f v i} (h_s : Good pq fz s) :
    Good pq fz (State.wrB s f v i) := by
  unfold State.wrB
  repeat' first
    | with_reducible assumption
    | with_reducible refine State.wr_good ?_
    | with_reducible refine Good.done ?_
    | split
    | dsimp only
    | with_reducible refine Good.upd ?_ rfl
    | (simp only [id_eq])
    | intro _ _
    | intro _

theorem State.raiseFor_good {pq fz s line code units stages} (h_s : Good pq fz s) :
    Good pq fz (State.raiseFor s line code units stages) := by
  unfold State.raiseFor
  repeat' first
    | with_reducible assumption
    | with_reducible refine State.raiseEv_good ?_
    | with_reducible refine Good.done ?_
    | split
    | dsimp only
    | with_reducible refine Good.upd ?_ rfl
    | (simp only [id_eq])
    | intro _ _
    | intro _

theorem State.freeB_good {pq fz s} {y_ t_} (e_ : (State.freeB s) = (y_, t_)) (h_s : Good pq fz s) :
    Good pq fz t_ := by
  unfold State.freeB at e_
  repeat' first
    | with_reducible assumption
    | (simp only [Prod.mk.injEq] at e_)
    | (obtain ⟨_, rfl⟩ := e_)
    | (obtain ⟨_, _, rfl⟩ := e_)
    | subst e_
    | split at e_
    | with_reducible refine Good.done ?_
    | split
    | dsimp only
    | with_reducible refine Good.upd ?_ rfl
    | (simp only [id_eq])
    | intro _ _
    | intro _

theorem State.freeB_keeps {pq fz s} (h_s : Good pq fz s) : Good pq fz (State.freeB s).2 :=
  State.freeB_good (y_ := (State.freeB s).1) (t_ := (State.freeB s).2) (Good.eta _) h_s

theorem State.freeBs_good {pq fz n s y_ t_} (e_ : State.freeBs n s = (y_, t_)) (h_s : Good pq fz s) : Good pq fz t_ := by
  induction n generalizing s y_ t_ with
  | zero => simp only [State.freeBs, Prod.mk.injEq] at e_; obtain ⟨_, rfl⟩ := e_; exact h_s
  | succ n ih =>
    simp only [State.freeBs, Prod.mk.injEq] at e_
    obtain ⟨_, rfl⟩ := e_
    exact ih rfl (State.freeB_good rfl h_s)

theorem State.freeBs_keeps {pq fz a0 a1} (h_a1 : Good pq fz a1) : Good pq fz (State.freeBs a0 a1).2 :=
  State.freeBs_good (y_ := (State.freeBs a0 a1).1) (t_ := (State.freeBs a0 a1).2) (Good.eta _) h_a1

theorem State.violHole_good {pq fz s} (h_s : Good pq fz s) :
    Good pq fz (State.violHole s) := by
  unfold State.violHole
  repeat' first
    | with_reducible assumption
    | with_reducible refine State.cnt_good ?_
    | with_reducible refine Good.done ?_
    | split
    | dsimp only
    | with_reducible refine Good.upd ?_ rfl
    | (simp only [id_eq])
    | intro _ _
    | intro _

theorem State.free_good {pq fz s} {y_ t_} (e_ : (State.free s) = (y_, t_)) (h_s : Good pq fz s) :
    Good pq fz t_ := by
  unfold State.free at e_
  repeat' first
    | with_reducible assumption
    | (simp only [Prod.mk.injEq] at e_)
    | (obtain ⟨_, rfl⟩ := e_)
    | (obtain ⟨_, _, rfl⟩ := e_)
    | subst e_
    | split at e_
    | with_reducible refine Good.done ?_
    | split
    | dsimp only
    | with_reducible refine Good.upd ?_ rfl
    | (simp only [id_eq])
    | intro _ _
    | intro _

theorem State.free_keeps {pq fz s} (h_s : Good pq fz s) : Good pq fz (State.free s).2 :=
  State.free_good (y_ := (State.free s).1) (t_ := (State.free s).2) (Good.eta _) h_s

theorem State.clearFlds_good {pq fz s fs i} (h_s : Good pq fz s) : Good pq fz (State.clearFlds s fs i) := by
  unfold State.clearFlds
  induction fs generalizing s with
  | nil => exact h_s
  | cons a r ih => exact ih (State.wr_good h_s)

theorem State.holdAccess_good {pq fz s t a} (h_s : Good pq fz s) :
    Good pq fz (State.holdAccess s t a) := by
  unfold State.holdAccess
  repeat' first
    | with_reducible assumption
    | with_reducible refine State.modBrood_good ?_
    | with_reducible refine Good.done ?_
    | split
    | dsimp only
    | with_reducible refine Good.upd ?_ rfl
    | (simp only [id_eq])
    | intro _ _
    | intro _

theorem runAll_keeps {α : Type} {pq fz} {f : α → State → Bool × State} {l s} (h_f : ∀ a s, Good pq fz s → Good pq fz (f a s).2)
    (h_s : Good pq fz s) : Good pq fz (runAll f l s).2 := by
  induction l generalizing s with
  | nil => exact h_s
  | cons a r ih =>
    rw [runAll]
    have h := h_f a s h_s
    split
    · rename_i he; rw [he] at h; exact h
    · rename_i he; rw [he] at h; exact ih h

theorem runAll_good {α : Type} {pq fz} {f : α → State → Bool × State} {l s y_ t_} (e_ : runAll f l s = (y_, t_))
    (h_f : ∀ a s, Good pq fz s → Good pq fz (f a s).2) (h_s : Good pq fz s) : Good pq fz t_ := by
  have h := runAll_keeps (l := l) h_f h_s
  rw [e_] at h
  exact h

end Sys2Proof.Machine
end

