-- ==== Sys2Proof/Laws/KeepPersist.lean ====
section
/-! SUPPORT. Every operation and command of Machine/Persist.lean keeps what `Good` says of a state. -/
namespace Sys2Proof.Machine

theorem State.prsRequest_good {pq fz s idx v} (h_s : Good pq fz s) :
    Good pq fz (State.prsRequest s idx v) := by
  unfold State.prsRequest
  repeat' first
    | with_reducible assumption
    | with_reducible refine Good.done ?_
    | split
    | dsimp only
    | with_reducible refine Good.upd ?_ rfl
    | (simp only [id_eq])
    | intro _ _
    | intro _

theorem State.lifeWrite_good {pq fz s idx} (h_s : Good pq fz s) :
    Good pq fz (State.lifeWrite s idx) := by
  unfold State.lifeWrite
  repeat' first
    | with_reducible assumption
    | with_reducible refine State.prsRequest_good ?_
    | with_reducible refine Good.done ?_
    | split
    | dsimp only
    | with_reducible refine Good.upd ?_ rfl
    | (simp only [id_eq])
    | intro _ _
    | intro _

theorem State.lifeFlush_good {pq fz s} (h_s : Good pq fz s) :
    Good pq fz (State.lifeFlush s) := by
  unfold State.lifeFlush
  repeat' first
    | with_reducible assumption
    | with_reducible refine State.each_good ?_ ?_
    | with_reducible refine State.lifeWrite_good ?_
    | with_reducible refine Good.done ?_
    | split
    | dsimp only
    | with_reducible refine Good.upd ?_ rfl
    | (simp only [id_eq])
    | intro _ _
    | intro _

theorem State.lifeUp_good {pq fz s idx} (h_s : Good pq fz s) :
    Good pq fz (State.lifeUp s idx) := by
  unfold State.lifeUp
  repeat' first
    | with_reducible assumption
    | with_reducible refine State.prsRequest_good ?_
    | with_reducible refine Good.done ?_
    | split
    | dsimp only
    | with_reducible refine Good.upd ?_ rfl
    | (simp only [id_eq])
    | intro _ _
    | intro _

theorem State.modPrs_good {pq fz s idx f} (h_s : Good pq fz s) :
    Good pq fz (State.modPrs s idx f) := by
  unfold State.modPrs
  repeat' first
    | with_reducible assumption
    | with_reducible refine Good.done ?_
    | split
    | dsimp only
    | with_reducible refine Good.upd ?_ rfl
    | (simp only [id_eq])
    | intro _ _
    | intro _

theorem State.prsDo_good {pq fz s idx v} (h_s : Good pq fz s) :
    Good pq fz (State.prsDo s idx v) := by
  unfold State.prsDo
  repeat' first
    | with_reducible assumption
    | with_reducible refine State.raise_good ?_
    | with_reducible refine State.cnt_good ?_
    | with_reducible refine State.modPrs_good ?_
    | with_reducible refine Good.done ?_
    | split
    | dsimp only
    | with_reducible refine Good.upd ?_ rfl
    | (simp only [id_eq])
    | intro _ _
    | intro _

theorem State.prsFlush_good {pq fz s} (h_s : Good pq fz s) :
    Good pq fz (State.prsFlush s) := by
  unfold State.prsFlush
  repeat' first
    | with_reducible assumption
    | with_reducible refine State.each_good ?_ ?_
    | with_reducible refine State.prsDo_good ?_
    | with_reducible refine Good.done ?_
    | split
    | dsimp only
    | with_reducible refine Good.upd ?_ rfl
    | (simp only [id_eq])
    | intro _ _
    | intro _

theorem State.prsNow_good {pq fz s idx v} (h_s : Good pq fz s) :
    Good pq fz (State.prsNow s idx v) := by
  unfold State.prsNow
  repeat' first
    | with_reducible assumption
    | with_reducible refine State.prsFlush_good ?_
    | with_reducible refine State.prsRequest_good ?_
    | with_reducible refine Good.done ?_
    | split
    | dsimp only
    | with_reducible refine Good.upd ?_ rfl
    | (simp only [id_eq])
    | intro _ _
    | intro _

end Sys2Proof.Machine
end

