-- ==== Sys2Proof/Laws/Memory.lean ====
section
/-! SUPPORT. Laws of memory: what is written is read, every other byte is left alone, and every operation keeps the canonical form. -/
namespace Sys2Proof.Machine

theorem Memory.wf_iff (m : FMap Byte) :
    Memory.wf m = true ↔ FMap.rising m = true ∧ ∀ e ∈ m, e.2 ≠ memDef e.1 := by
  cases m with
  | nil => simp [Memory.wf, FMap.rising]
  | cons e r => simp [Memory.wf, FMap.rising]

/-- Writing one byte keeps the canonical form. -/
theorem Memory.wf_set {m : FMap Byte} (a : Nat) (b : Byte) (h : Memory.wf m = true) :
    Memory.wf (FMap.set (memDef a) m a b) = true := by
  rw [Memory.wf_iff] at h ⊢
  unfold FMap.set
  split
  · exact ⟨FMap.rising_erase a h.1, fun e he => h.2 e (FMap.mem_erase he)⟩
  · rename_i hb
    refine ⟨FMap.rising_place b (FMap.rising_erase a h.1) (FMap.lacks_erase m a), fun e he => ?_⟩
    rcases FMap.mem_place he with rfl | he
    · exact hb
    · exact h.2 e (FMap.mem_erase he)

/-- Writing bytes keeps the canonical form. -/
theorem Memory.wf_poke {m : FMap Byte} (a : Nat) (l : List Byte) (h : Memory.wf m = true) : Memory.wf (pokeCells m a l) = true := by
  induction l generalizing m a with
  | nil => exact h
  | cons b r ih => exact ih (a + 1) (Memory.wf_set a b h)

/-- Removing bytes keeps the canonical form. -/
theorem Memory.wf_filter {m : FMap Byte} (p : Nat × Byte → Bool) (h : Memory.wf m = true) : Memory.wf (m.filter p) = true := by
  rw [Memory.wf_iff] at h ⊢
  exact ⟨FMap.rising_filter p h.1, fun e he => h.2 e (List.mem_filter.mp he).1⟩

/-- Clearing a set of addresses keeps the canonical form. -/
theorem Memory.wf_clear {m : FMap Byte} (p : Nat → Bool) (h : Memory.wf m = true) : Memory.wf (FMap.clear m p) = true :=
  Memory.wf_filter _ h

/-- A byte outside the stored ones reads as before. -/
theorem State.peek_poke_other (s : State) (a i : Nat) (l : List Byte) (h : i < a ∨ a + l.length ≤ i) :
    (s.poke a l).peek i = s.peek i := by
  have go : ∀ (l : List Byte) (m : FMap Byte) (a : Nat), i < a ∨ a + l.length ≤ i →
      FMap.get (memDef i) (pokeCells m a l) i = FMap.get (memDef i) m i := by
    intro l
    induction l with
    | nil => intros; rfl
    | cons b r ih =>
      intro m a h
      simp only [List.length_cons] at h
      simp only [pokeCells]
      rw [ih _ (a + 1) (by omega), FMap.get_set_ne (memDef a) (memDef i) m b (by omega)]
  exact go l s.mem.cells a h

/-- The first stored byte reads as stored. -/
theorem State.peek_poke_head (s : State) (a : Nat) (b : Byte) (l : List Byte) : (s.poke a (b :: l)).peek a = b := by
  have h : (s.poke a (b :: l)) = ({ s with mem.cells := FMap.set (memDef a) s.mem.cells a b } : State).poke (a + 1) l := rfl
  rw [h, State.peek_poke_other _ (a + 1) a l (by omega)]
  exact FMap.get_set_same (memDef a) s.mem.cells a b

/-- Bytes stored from an address read back in order. -/
theorem State.peekN_poke (s : State) (a : Nat) (l : List Byte) : (s.poke a l).peekN a l.length = l := by
  induction l generalizing s a with
  | nil => rfl
  | cons b r ih =>
    simp only [List.length_cons, State.peekN, State.peek_poke_head]
    have h : (s.poke a (b :: r)) = ({ s with mem.cells := FMap.set (memDef a) s.mem.cells a b } : State).poke (a + 1) r := rfl
    rw [h, ih]

end Sys2Proof.Machine
end

