-- ==== Sys2Proof/Laws/KeepMem.lean ====
section
/-! SUPPORT. Every operation and command of Machine/Mem.lean keeps what `Good` says of a state. -/
namespace Sys2Proof.Machine

theorem State.setDiff_good {pq fz s sec e} (h_s : Good pq fz s) :
    Good pq fz (State.setDiff s sec e) := by
  unfold State.setDiff
  repeat' first
    | with_reducible assumption
    | with_reducible refine Good.done ?_
    | split
    | dsimp only
    | with_reducible refine Good.upd ?_ rfl
    | (simp only [id_eq])
    | intro _ _
    | intro _

theorem State.poke_good {pq fz s a l} (h_s : Good pq fz s) : Good pq fz (State.poke s a l) :=
  ⟨Memory.wf_poke a l h_s.1, h_s.2⟩

theorem State.hitSec_good {pq fz s sec f} (h_s : Good pq fz s) :
    Good pq fz (State.hitSec s sec f) := by
  unfold State.hitSec
  repeat' first
    | with_reducible assumption
    | with_reducible refine State.setDiff_good ?_
    | with_reducible refine State.poke_good ?_
    | with_reducible refine Good.done ?_
    | split
    | dsimp only
    | with_reducible refine Good.upd ?_ rfl
    | (simp only [id_eq])
    | intro _ _
    | intro _

theorem State.injectSec_good {pq fz s sec c} (h_s : Good pq fz s) :
    Good pq fz (State.injectSec s sec c) := by
  unfold State.injectSec
  repeat' first
    | with_reducible assumption
    | with_reducible refine State.wr_good ?_
    | with_reducible refine State.hitSec_good ?_
    | with_reducible refine Good.done ?_
    | split
    | dsimp only
    | with_reducible refine Good.upd ?_ rfl
    | (simp only [id_eq])
    | intro _ _
    | intro _

theorem State.setChan_good {pq fz s c x} (h_s : Good pq fz s) :
    Good pq fz (State.setChan s c x) := by
  unfold State.setChan
  repeat' first
    | with_reducible assumption
    | with_reducible refine Good.done ?_
    | split
    | dsimp only
    | with_reducible refine Good.upd ?_ rfl
    | (simp only [id_eq])
    | intro _ _
    | intro _

theorem State.modChan_good {pq fz s c f} (h_s : Good pq fz s) :
    Good pq fz (State.modChan s c f) := by
  unfold State.modChan
  repeat' first
    | with_reducible assumption
    | with_reducible refine State.setChan_good ?_
    | with_reducible refine Good.done ?_
    | split
    | dsimp only
    | with_reducible refine Good.upd ?_ rfl
    | (simp only [id_eq])
    | intro _ _
    | intro _

theorem State.dropCorr_good {pq fz s sec c} (h_s : Good pq fz s) :
    Good pq fz (State.dropCorr s sec c) := by
  unfold State.dropCorr
  repeat' first
    | with_reducible assumption
    | with_reducible refine State.modChan_good ?_
    | with_reducible refine Good.done ?_
    | split
    | dsimp only
    | with_reducible refine Good.upd ?_ rfl
    | (simp only [id_eq])
    | intro _ _
    | intro _

theorem State.storeSec_good {pq fz s sec d} (h_s : Good pq fz s) :
    Good pq fz (State.storeSec s sec d) := by
  unfold State.storeSec
  repeat' first
    | with_reducible assumption
    | with_reducible refine State.setDiff_good ?_
    | with_reducible refine State.poke_good ?_
    | with_reducible refine Good.done ?_
    | split
    | dsimp only
    | with_reducible refine Good.upd ?_ rfl
    | (simp only [id_eq])
    | intro _ _
    | intro _

theorem State.secFound_good {pq fz s m} (h_s : Good pq fz s) :
    Good pq fz (State.secFound s m) := by
  unfold State.secFound
  repeat' first
    | with_reducible assumption
    | with_reducible refine State.modChan_good ?_
    | with_reducible refine Good.done ?_
    | split
    | dsimp only
    | with_reducible refine Good.upd ?_ rfl
    | (simp only [id_eq])
    | intro _ _
    | intro _

theorem State.raiseMem_good {pq fz s c code master addr acc} (h_s : Good pq fz s) :
    Good pq fz (State.raiseMem s c code master addr acc) := by
  unfold State.raiseMem
  repeat' first
    | with_reducible assumption
    | with_reducible refine State.raiseEv_good ?_
    | with_reducible refine Good.done ?_
    | split
    | dsimp only
    | with_reducible refine Good.upd ?_ rfl
    | (simp only [id_eq])
    | intro _ _
    | intro _

theorem State.sramFirst_good {pq fz s a} (h_s : Good pq fz s) :
    Good pq fz (State.sramFirst s a) := by
  unfold State.sramFirst
  repeat' first
    | with_reducible assumption
    | with_reducible refine State.wr_good ?_
    | with_reducible refine Good.done ?_
    | split
    | dsimp only
    | with_reducible refine Good.upd ?_ rfl
    | (simp only [id_eq])
    | intro _ _
    | intro _

theorem State.chkWordRead_good {pq fz s c line a} {y_ t_} (e_ : (State.chkWordRead s c line a) = (y_, t_)) (h_s : Good pq fz s) :
    Good pq fz t_ := by
  unfold State.chkWordRead at e_
  repeat' first
    | with_reducible assumption
    | (simp only [Prod.mk.injEq] at e_)
    | (obtain ⟨_, rfl⟩ := e_)
    | (obtain ⟨_, _, rfl⟩ := e_)
    | subst e_
    | split at e_
    | with_reducible refine State.raiseMem_good ?_
    | with_reducible refine State.cnt_good ?_
    | with_reducible refine State.sramFirst_good ?_
    | with_reducible refine Good.done ?_
    | split
    | dsimp only
    | with_reducible refine Good.upd ?_ rfl
    | (simp only [id_eq])
    | intro _ _
    | intro _

theorem State.chkWordRead_keeps {pq fz s c line a} (h_s : Good pq fz s) : Good pq fz (State.chkWordRead s c line a).2 :=
  State.chkWordRead_good (y_ := (State.chkWordRead s c line a).1) (t_ := (State.chkWordRead s c line a).2) (Good.eta _) h_s

theorem State.lineRead_good {pq fz s c l ws} {y_ t_} (e_ : (State.lineRead s c l ws) = (y_, t_)) (h_s : Good pq fz s) :
    Good pq fz t_ := Good.fold e_ h_s (fun _ _ _ h => State.chkWordRead_keeps h)

theorem State.lineRead_keeps {pq fz s c l ws} (h_s : Good pq fz s) : Good pq fz (State.lineRead s c l ws).2 :=
  State.lineRead_good (y_ := (State.lineRead s c l ws).1) (t_ := (State.lineRead s c l ws).2) (Good.eta _) h_s

theorem State.cacheHit_good {pq fz s c} (h_s : Good pq fz s) :
    Good pq fz (State.cacheHit s c) := by
  unfold State.cacheHit
  repeat' first
    | with_reducible assumption
    | with_reducible refine State.cnt_good ?_
    | with_reducible refine State.modChan_good ?_
    | with_reducible refine Good.done ?_
    | split
    | dsimp only
    | with_reducible refine Good.upd ?_ rfl
    | (simp only [id_eq])
    | intro _ _
    | intro _

theorem State.dropLine_good {pq fz s c line} (h_s : Good pq fz s) :
    Good pq fz (State.dropLine s c line) := by
  unfold State.dropLine
  repeat' first
    | with_reducible assumption
    | with_reducible refine State.modChan_good ?_
    | with_reducible refine Good.done ?_
    | split
    | dsimp only
    | with_reducible refine Good.upd ?_ rfl
    | (simp only [id_eq])
    | intro _ _
    | intro _

theorem State.loseLine_good {pq fz s c line} (h_s : Good pq fz s) :
    Good pq fz (State.loseLine s c line) := by
  unfold State.loseLine
  repeat' first
    | with_reducible assumption
    | with_reducible refine State.raiseMem_good ?_
    | with_reducible refine State.cnt_good ?_
    | with_reducible refine State.modChan_good ?_
    | with_reducible refine Good.done ?_
    | split
    | dsimp only
    | with_reducible refine Good.upd ?_ rfl
    | (simp only [id_eq])
    | intro _ _
    | intro _

theorem State.memFirst_good {pq fz s c typ master addr} (h_s : Good pq fz s) :
    Good pq fz (State.memFirst s c typ master addr) := by
  unfold State.memFirst
  repeat' first
    | with_reducible assumption
    | with_reducible refine State.wr_good ?_
    | with_reducible refine Good.done ?_
    | split
    | dsimp only
    | with_reducible refine Good.upd ?_ rfl
    | (simp only [id_eq])
    | intro _ _
    | intro _

theorem State.evictLine_good {pq fz s c l} (h_s : Good pq fz s) :
    Good pq fz (State.evictLine s c l) := by
  unfold State.evictLine
  repeat' first
    | with_reducible assumption
    | with_reducible refine State.dropLine_good ?_
    | with_reducible refine State.lineRead_good (by assumption) ?_
    | with_reducible refine State.lineRead_keeps ?_
    | with_reducible refine State.loseLine_good ?_
    | with_reducible refine State.memFirst_good ?_
    | with_reducible refine Good.done ?_
    | split
    | dsimp only
    | with_reducible refine Good.upd ?_ rfl
    | (simp only [id_eq])
    | intro _ _
    | intro _

theorem State.takeWay_good {pq fz s c line} {y_ t_} (e_ : (State.takeWay s c line) = (y_, t_)) (h_s : Good pq fz s) :
    Good pq fz t_ := by
  unfold State.takeWay at e_
  repeat' first
    | with_reducible assumption
    | (simp only [Prod.mk.injEq] at e_)
    | (obtain ⟨_, rfl⟩ := e_)
    | (obtain ⟨_, _, rfl⟩ := e_)
    | subst e_
    | split at e_
    | with_reducible refine State.evictLine_good ?_
    | with_reducible refine Good.done ?_
    | split
    | dsimp only
    | with_reducible refine Good.upd ?_ rfl
    | (simp only [id_eq])
    | intro _ _
    | intro _

theorem State.takeWay_keeps {pq fz s c line} (h_s : Good pq fz s) : Good pq fz (State.takeWay s c line).2 :=
  State.takeWay_good (y_ := (State.takeWay s c line).1) (t_ := (State.takeWay s c line).2) (Good.eta _) h_s

theorem State.cacheMiss_good {pq fz s c} (h_s : Good pq fz s) :
    Good pq fz (State.cacheMiss s c) := by
  unfold State.cacheMiss
  repeat' first
    | with_reducible assumption
    | with_reducible refine State.cnt_good ?_
    | with_reducible refine State.modChan_good ?_
    | with_reducible refine Good.done ?_
    | split
    | dsimp only
    | with_reducible refine Good.upd ?_ rfl
    | (simp only [id_eq])
    | intro _ _
    | intro _

theorem State.fillLine_good {pq fz s m dirty} (h_s : Good pq fz s) :
    Good pq fz (State.fillLine s m dirty) := by
  unfold State.fillLine
  repeat' first
    | with_reducible assumption
    | with_reducible refine State.takeWay_good (by assumption) ?_
    | with_reducible refine State.takeWay_keeps ?_
    | with_reducible refine State.cacheMiss_good ?_
    | with_reducible refine State.modChan_good ?_
    | with_reducible refine Good.done ?_
    | split
    | dsimp only
    | with_reducible refine Good.upd ?_ rfl
    | (simp only [id_eq])
    | intro _ _
    | intro _

theorem State.cacheTouch_good {pq fz s m dirty} (h_s : Good pq fz s) :
    Good pq fz (State.cacheTouch s m dirty) := by
  unfold State.cacheTouch
  repeat' first
    | with_reducible assumption
    | with_reducible refine State.lineRead_good (by assumption) ?_
    | with_reducible refine State.lineRead_keeps ?_
    | with_reducible refine State.cacheHit_good ?_
    | with_reducible refine State.modChan_good ?_
    | with_reducible refine State.dropLine_good ?_
    | with_reducible refine State.fillLine_good ?_
    | with_reducible refine State.loseLine_good ?_
    | with_reducible refine Good.done ?_
    | split
    | dsimp only
    | with_reducible refine Good.upd ?_ rfl
    | (simp only [id_eq])
    | intro _ _
    | intro _

theorem State.accepts_good {pq fz s c master} (h_s : Good pq fz s) :
    Good pq fz (State.accepts s c master) := by
  unfold State.accepts
  repeat' first
    | with_reducible assumption
    | with_reducible refine State.peak_good ?_
    | with_reducible refine Good.done ?_
    | split
    | dsimp only
    | with_reducible refine Good.upd ?_ rfl
    | (simp only [id_eq])
    | intro _ _
    | intro _

theorem State.writeSec_good {pq fz s sec master d} (h_s : Good pq fz s) :
    Good pq fz (State.writeSec s sec master d) := by
  unfold State.writeSec
  repeat' first
    | with_reducible assumption
    | with_reducible refine State.injectSec_good ?_
    | with_reducible refine State.dropCorr_good ?_
    | with_reducible refine State.storeSec_good ?_
    | with_reducible refine State.secFound_good ?_
    | with_reducible refine State.cacheTouch_good ?_
    | with_reducible refine State.accepts_good ?_
    | with_reducible refine Good.done ?_
    | split
    | dsimp only
    | with_reducible refine Good.upd ?_ rfl
    | (simp only [id_eq])
    | intro _ _
    | intro _

theorem State.uncorrected_good {pq fz s sec master typ code acc} (h_s : Good pq fz s) :
    Good pq fz (State.uncorrected s sec master typ code acc) := by
  unfold State.uncorrected
  repeat' first
    | with_reducible assumption
    | with_reducible refine State.raiseMem_good ?_
    | with_reducible refine State.memFirst_good ?_
    | with_reducible refine State.cnt_good ?_
    | with_reducible refine Good.done ?_
    | split
    | dsimp only
    | with_reducible refine Good.upd ?_ rfl
    | (simp only [id_eq])
    | intro _ _
    | intro _

theorem State.mergeSec_good {pq fz s sec off d master} {y_ t_} (e_ : (State.mergeSec s sec off d master) = (y_, t_)) (h_s : Good pq fz s) :
    Good pq fz t_ := by
  unfold State.mergeSec at e_
  repeat' first
    | with_reducible assumption
    | (simp only [Prod.mk.injEq] at e_)
    | (obtain ⟨_, rfl⟩ := e_)
    | (obtain ⟨_, _, rfl⟩ := e_)
    | subst e_
    | split at e_
    | with_reducible refine State.cacheTouch_good ?_
    | with_reducible refine State.accepts_good ?_
    | with_reducible refine State.uncorrected_good ?_
    | with_reducible refine State.raiseMem_good ?_
    | with_reducible refine State.cnt_good ?_
    | with_reducible refine State.dropCorr_good ?_
    | with_reducible refine State.storeSec_good ?_
    | with_reducible refine Good.done ?_
    | split
    | dsimp only
    | with_reducible refine Good.upd ?_ rfl
    | (simp only [id_eq])
    | intro _ _
    | intro _

theorem State.mergeSec_keeps {pq fz s sec off d master} (h_s : Good pq fz s) : Good pq fz (State.mergeSec s sec off d master).2 :=
  State.mergeSec_good (y_ := (State.mergeSec s sec off d master).1) (t_ := (State.mergeSec s sec off d master).2) (Good.eta _) h_s

theorem State.gWriteGo_good {pq fz master a1 a2 a3 a4 a5} {y_ t_} (e_ : (State.gWriteGo master a1 a2 a3 a4 a5) = (y_, t_))
    (h_a5 : Good pq fz a5) : Good pq fz t_ := by
  induction a1 generalizing a2 a3 a4 a5 y_ t_ with
  | zero => simp only [State.gWriteGo, Prod.mk.injEq] at e_; obtain ⟨_, rfl⟩ := e_; exact h_a5
  | succ n ih =>
    cases a3 with
    | nil => simp only [State.gWriteGo, Prod.mk.injEq] at e_; obtain ⟨_, rfl⟩ := e_; exact h_a5
    | cons x r =>
      rw [State.gWriteGo] at e_
      · generalize (x :: r : List Byte) = d at e_
        dsimp only at e_
        split at e_
        · exact ih e_ (State.writeSec_good h_a5)
        · exact ih e_ (State.mergeSec_good rfl h_a5)
      · exact List.cons_ne_nil x r

theorem State.gWriteGo_keeps {pq fz master a1 a2 a3 a4 a5} (h_a5 : Good pq fz a5) : Good pq fz (State.gWriteGo master a1 a2 a3 a4 a5).2 :=
  State.gWriteGo_good (y_ := (State.gWriteGo master a1 a2 a3 a4 a5).1) (t_ := (State.gWriteGo master a1 a2 a3 a4 a5).2) (Good.eta _) h_a5

theorem State.gWrite_good {pq fz s master a d} {y_ t_} (e_ : (State.gWrite s master a d) = (y_, t_)) (h_s : Good pq fz s) :
    Good pq fz t_ := by
  unfold State.gWrite at e_
  repeat' first
    | with_reducible assumption
    | (simp only [Prod.mk.injEq] at e_)
    | (obtain ⟨_, rfl⟩ := e_)
    | (obtain ⟨_, _, rfl⟩ := e_)
    | subst e_
    | split at e_
    | with_reducible refine State.gWriteGo_good (by assumption) ?_
    | with_reducible refine State.gWriteGo_keeps ?_
    | with_reducible refine Good.done ?_
    | split
    | dsimp only
    | with_reducible refine Good.upd ?_ rfl
    | (simp only [id_eq])
    | intro _ _
    | intro _

theorem State.gWrite_keeps {pq fz s master a d} (h_s : Good pq fz s) : Good pq fz (State.gWrite s master a d).2 :=
  State.gWrite_good (y_ := (State.gWrite s master a d).1) (t_ := (State.gWrite s master a d).2) (Good.eta _) h_s

theorem State.raiseSram_good {pq fz s a code master} (h_s : Good pq fz s) :
    Good pq fz (State.raiseSram s a code master) := by
  unfold State.raiseSram
  repeat' first
    | with_reducible assumption
    | with_reducible refine State.raiseEv_good ?_
    | with_reducible refine Good.done ?_
    | split
    | dsimp only
    | with_reducible refine Good.upd ?_ rfl
    | (simp only [id_eq])
    | intro _ _
    | intro _

theorem State.sramWordRead_good {pq fz s e master inner} (h_s : Good pq fz s) :
    Good pq fz (State.sramWordRead s e master inner) := by
  unfold State.sramWordRead
  repeat' first
    | with_reducible assumption
    | with_reducible refine State.raiseSram_good ?_
    | with_reducible refine State.cnt_good ?_
    | with_reducible refine State.sramFirst_good ?_
    | with_reducible refine Good.done ?_
    | split
    | dsimp only
    | with_reducible refine Good.upd ?_ rfl
    | (simp only [id_eq])
    | intro _ _
    | intro _

theorem State.sramWrite_good {pq fz s master inner a d} {y_ t_} (e_ : (State.sramWrite s master inner a d) = (y_, t_)) (h_s : Good pq fz s) :
    Good pq fz t_ := by
  unfold State.sramWrite at e_
  repeat' first
    | with_reducible assumption
    | (simp only [Prod.mk.injEq] at e_)
    | (obtain ⟨_, rfl⟩ := e_)
    | (obtain ⟨_, _, rfl⟩ := e_)
    | subst e_
    | split at e_
    | with_reducible refine State.each_good ?_ ?_
    | with_reducible refine State.sramWordRead_good ?_
    | with_reducible refine State.poke_good ?_
    | with_reducible refine Good.done ?_
    | split
    | dsimp only
    | with_reducible refine Good.upd ?_ rfl
    | (simp only [id_eq])
    | intro _ _
    | intro _

theorem State.sramWrite_keeps {pq fz s master inner a d} (h_s : Good pq fz s) : Good pq fz (State.sramWrite s master inner a d).2 :=
  State.sramWrite_good (y_ := (State.sramWrite s master inner a d).1) (t_ := (State.sramWrite s master inner a d).2) (Good.eta _) h_s

theorem State.busWriteAt_good {pq fz s master a d} {y_ z_ t_} (e_ : (State.busWriteAt s master a d) = (y_, z_, t_)) (h_s : Good pq fz s) :
    Good pq fz t_ := by
  unfold State.busWriteAt at e_
  repeat' first
    | with_reducible assumption
    | (simp only [Prod.mk.injEq] at e_)
    | (obtain ⟨_, rfl⟩ := e_)
    | (obtain ⟨_, _, rfl⟩ := e_)
    | subst e_
    | split at e_
    | with_reducible refine State.gWrite_good (by assumption) ?_
    | with_reducible refine State.gWrite_keeps ?_
    | with_reducible refine State.sramWrite_good (by assumption) ?_
    | with_reducible refine State.sramWrite_keeps ?_
    | with_reducible refine Good.done ?_
    | split
    | dsimp only
    | with_reducible refine Good.upd ?_ rfl
    | (simp only [id_eq])
    | intro _ _
    | intro _

theorem State.busWriteAt_keeps {pq fz s master a d} (h_s : Good pq fz s) : Good pq fz (State.busWriteAt s master a d).2.2 :=
  State.busWriteAt_good (y_ := (State.busWriteAt s master a d).1) (z_ := (State.busWriteAt s master a d).2.1) (t_ := (State.busWriteAt s master a d).2.2) (Good.eta3 _) h_s

theorem State.busWrite_good {pq fz s master a d} {y_ t_} (e_ : (State.busWrite s master a d) = (y_, t_)) (h_s : Good pq fz s) :
    Good pq fz t_ := by
  unfold State.busWrite at e_
  repeat' first
    | with_reducible assumption
    | (simp only [Prod.mk.injEq] at e_)
    | (obtain ⟨_, rfl⟩ := e_)
    | (obtain ⟨_, _, rfl⟩ := e_)
    | subst e_
    | split at e_
    | with_reducible refine State.busWriteAt_good (by assumption) ?_
    | with_reducible refine State.busWriteAt_keeps ?_
    | with_reducible refine Good.done ?_
    | split
    | dsimp only
    | with_reducible refine Good.upd ?_ rfl
    | (simp only [id_eq])
    | intro _ _
    | intro _

theorem State.busWrite_keeps {pq fz s master a d} (h_s : Good pq fz s) : Good pq fz (State.busWrite s master a d).2 :=
  State.busWrite_good (y_ := (State.busWrite s master a d).1) (t_ := (State.busWrite s master a d).2) (Good.eta _) h_s

theorem State.store_good {pq fz s master a d} (h_s : Good pq fz s) :
    Good pq fz (State.store s master a d) := by
  unfold State.store
  repeat' first
    | with_reducible assumption
    | with_reducible refine State.busWrite_good (by assumption) ?_
    | with_reducible refine State.busWrite_keeps ?_
    | with_reducible refine Good.done ?_
    | split
    | dsimp only
    | with_reducible refine Good.upd ?_ rfl
    | (simp only [id_eq])
    | intro _ _
    | intro _

theorem State.corrected_good {pq fz s sec master} (h_s : Good pq fz s) :
    Good pq fz (State.corrected s sec master) := by
  unfold State.corrected
  repeat' first
    | with_reducible assumption
    | with_reducible refine State.modChan_good ?_
    | with_reducible refine State.raiseMem_good ?_
    | with_reducible refine State.cnt_good ?_
    | with_reducible refine Good.done ?_
    | split
    | dsimp only
    | with_reducible refine Good.upd ?_ rfl
    | (simp only [id_eq])
    | intro _ _
    | intro _

theorem State.readSec_good {pq fz s sec master} {y_ t_} (e_ : (State.readSec s sec master) = (y_, t_)) (h_s : Good pq fz s) :
    Good pq fz t_ := by
  unfold State.readSec at e_
  repeat' first
    | with_reducible assumption
    | (simp only [Prod.mk.injEq] at e_)
    | (obtain ⟨_, rfl⟩ := e_)
    | (obtain ⟨_, _, rfl⟩ := e_)
    | subst e_
    | split at e_
    | with_reducible refine State.cacheTouch_good ?_
    | with_reducible refine State.accepts_good ?_
    | with_reducible refine State.uncorrected_good ?_
    | with_reducible refine State.corrected_good ?_
    | with_reducible refine Good.done ?_
    | split
    | dsimp only
    | with_reducible refine Good.upd ?_ rfl
    | (simp only [id_eq])
    | intro _ _
    | intro _

theorem State.readSec_keeps {pq fz s sec master} (h_s : Good pq fz s) : Good pq fz (State.readSec s sec master).2 :=
  State.readSec_good (y_ := (State.readSec s sec master).1) (t_ := (State.readSec s sec master).2) (Good.eta _) h_s

theorem State.readSecs_good {pq fz s master a2 a3} {y_ t_} (e_ : (State.readSecs s master a2 a3) = (y_, t_)) (h_s : Good pq fz s) :
    Good pq fz t_ := by
  induction a3 generalizing s master a2 y_ t_ with
  | zero =>
    unfold State.readSecs at e_
    repeat' first
      | with_reducible assumption
      | (simp only [Prod.mk.injEq] at e_)
      | (obtain ⟨_, rfl⟩ := e_)
      | (obtain ⟨_, _, rfl⟩ := e_)
      | subst e_
      | split at e_
      | with_reducible refine State.readSec_good (by assumption) ?_
      | with_reducible refine State.readSec_keeps ?_
      | with_reducible refine Good.done ?_
      | split
      | dsimp only
      | with_reducible refine Good.upd ?_ rfl
      | (simp only [id_eq])
      | intro _ _
      | intro _
  | succ n ih =>
    unfold State.readSecs at e_
    repeat' first
      | with_reducible assumption
      | (simp only [Prod.mk.injEq] at e_)
      | (obtain ⟨_, rfl⟩ := e_)
      | (obtain ⟨_, _, rfl⟩ := e_)
      | subst e_
      | split at e_
      | with_reducible refine ih (by assumption) ?_
      | with_reducible refine ih rfl ?_
      | with_reducible refine State.readSec_good (by assumption) ?_
      | with_reducible refine State.readSec_keeps ?_
      | with_reducible refine Good.done ?_
      | split
      | dsimp only
      | with_reducible refine Good.upd ?_ rfl
      | (simp only [id_eq])
      | intro _ _
      | intro _

theorem State.readSecs_keeps {pq fz s master a2 a3} (h_s : Good pq fz s) : Good pq fz (State.readSecs s master a2 a3).2 :=
  State.readSecs_good (y_ := (State.readSecs s master a2 a3).1) (t_ := (State.readSecs s master a2 a3).2) (Good.eta _) h_s

theorem State.gRead_good {pq fz s master a n} {y_ t_} (e_ : (State.gRead s master a n) = (y_, t_)) (h_s : Good pq fz s) :
    Good pq fz t_ := by
  unfold State.gRead at e_
  repeat' first
    | with_reducible assumption
    | (simp only [Prod.mk.injEq] at e_)
    | (obtain ⟨_, rfl⟩ := e_)
    | (obtain ⟨_, _, rfl⟩ := e_)
    | subst e_
    | split at e_
    | with_reducible refine State.readSecs_good (by assumption) ?_
    | with_reducible refine State.readSecs_keeps ?_
    | with_reducible refine Good.done ?_
    | split
    | dsimp only
    | with_reducible refine Good.upd ?_ rfl
    | (simp only [id_eq])
    | intro _ _
    | intro _

theorem State.gRead_keeps {pq fz s master a n} (h_s : Good pq fz s) : Good pq fz (State.gRead s master a n).2 :=
  State.gRead_good (y_ := (State.gRead s master a n).1) (t_ := (State.gRead s master a n).2) (Good.eta _) h_s

theorem State.sramRead_good {pq fz s master inner a n} {y_ t_} (e_ : (State.sramRead s master inner a n) = (y_, t_)) (h_s : Good pq fz s) :
    Good pq fz t_ := by
  unfold State.sramRead at e_
  repeat' first
    | with_reducible assumption
    | (simp only [Prod.mk.injEq] at e_)
    | (obtain ⟨_, rfl⟩ := e_)
    | (obtain ⟨_, _, rfl⟩ := e_)
    | subst e_
    | split at e_
    | with_reducible refine State.each_good ?_ ?_
    | with_reducible refine State.sramWordRead_good ?_
    | with_reducible refine Good.done ?_
    | split
    | dsimp only
    | with_reducible refine Good.upd ?_ rfl
    | (simp only [id_eq])
    | intro _ _
    | intro _

theorem State.sramRead_keeps {pq fz s master inner a n} (h_s : Good pq fz s) : Good pq fz (State.sramRead s master inner a n).2 :=
  State.sramRead_good (y_ := (State.sramRead s master inner a n).1) (t_ := (State.sramRead s master inner a n).2) (Good.eta _) h_s

theorem State.busRead_good {pq fz s master a n} {y_ z_ t_} (e_ : (State.busRead s master a n) = (y_, z_, t_)) (h_s : Good pq fz s) :
    Good pq fz t_ := by
  unfold State.busRead at e_
  repeat' first
    | with_reducible assumption
    | (simp only [Prod.mk.injEq] at e_)
    | (obtain ⟨_, rfl⟩ := e_)
    | (obtain ⟨_, _, rfl⟩ := e_)
    | subst e_
    | split at e_
    | with_reducible refine State.gRead_good (by assumption) ?_
    | with_reducible refine State.gRead_keeps ?_
    | with_reducible refine State.sramRead_good (by assumption) ?_
    | with_reducible refine State.sramRead_keeps ?_
    | with_reducible refine Good.done ?_
    | split
    | dsimp only
    | with_reducible refine Good.upd ?_ rfl
    | (simp only [id_eq])
    | intro _ _
    | intro _

theorem State.busRead_keeps {pq fz s master a n} (h_s : Good pq fz s) : Good pq fz (State.busRead s master a n).2.2 :=
  State.busRead_good (y_ := (State.busRead s master a n).1) (z_ := (State.busRead s master a n).2.1) (t_ := (State.busRead s master a n).2.2) (Good.eta3 _) h_s

theorem State.writeBack_good {pq fz s} (h_s : Good pq fz s) :
    Good pq fz (State.writeBack s) := by
  unfold State.writeBack
  repeat' first
    | with_reducible assumption
    | with_reducible refine State.each_good ?_ ?_
    | with_reducible refine State.evictLine_good ?_
    | with_reducible refine Good.done ?_
    | split
    | dsimp only
    | with_reducible refine Good.upd ?_ rfl
    | (simp only [id_eq])
    | intro _ _
    | intro _

theorem State.readN_good {pq fz s master a n} {y_ t_} (e_ : (State.readN s master a n) = (y_, t_)) (h_s : Good pq fz s) :
    Good pq fz t_ := by
  unfold State.readN at e_
  repeat' first
    | with_reducible assumption
    | (simp only [Prod.mk.injEq] at e_)
    | (obtain ⟨_, rfl⟩ := e_)
    | (obtain ⟨_, _, rfl⟩ := e_)
    | subst e_
    | split at e_
    | with_reducible refine State.busRead_good (by assumption) ?_
    | with_reducible refine State.busRead_keeps ?_
    | with_reducible refine Good.done ?_
    | split
    | dsimp only
    | with_reducible refine Good.upd ?_ rfl
    | (simp only [id_eq])
    | intro _ _
    | intro _

theorem State.readN_keeps {pq fz s master a n} (h_s : Good pq fz s) : Good pq fz (State.readN s master a n).2 :=
  State.readN_good (y_ := (State.readN s master a n).1) (t_ := (State.readN s master a n).2) (Good.eta _) h_s

theorem State.storeN_good {pq fz s master a n v} (h_s : Good pq fz s) :
    Good pq fz (State.storeN s master a n v) := by
  unfold State.storeN
  repeat' first
    | with_reducible assumption
    | with_reducible refine State.store_good ?_
    | with_reducible refine Good.done ?_
    | split
    | dsimp only
    | with_reducible refine Good.upd ?_ rfl
    | (simp only [id_eq])
    | intro _ _
    | intro _

theorem State.clearRange_good {pq fz s lo hi} (h_s : Good pq fz s) : Good pq fz (State.clearRange s lo hi) :=
  ⟨Memory.wf_clear (fun a => decide (lo ≤ a) && decide (a < hi)) h_s.1, h_s.2⟩

theorem State.makeDue_good {pq fz s c} (h_s : Good pq fz s) :
    Good pq fz (State.makeDue s c) := by
  unfold State.makeDue
  repeat' first
    | with_reducible assumption
    | with_reducible refine State.modChan_good ?_
    | with_reducible refine State.wr_good ?_
    | with_reducible refine Good.done ?_
    | split
    | dsimp only
    | with_reducible refine Good.upd ?_ rfl
    | (simp only [id_eq])
    | intro _ _
    | intro _

theorem State.edcRetry_good {pq fz s c master addr acc} (h_s : Good pq fz s) :
    Good pq fz (State.edcRetry s c master addr acc) := by
  unfold State.edcRetry
  repeat' first
    | with_reducible assumption
    | with_reducible refine State.raiseMem_good ?_
    | with_reducible refine State.cnt_good ?_
    | with_reducible refine State.makeDue_good ?_
    | with_reducible refine State.modChan_good ?_
    | with_reducible refine Good.done ?_
    | split
    | dsimp only
    | with_reducible refine Good.upd ?_ rfl
    | (simp only [id_eq])
    | intro _ _
    | intro _

theorem State.edcRetries_good {pq fz s c master addr acc n} (h_s : Good pq fz s) :
    Good pq fz (State.edcRetries s c master addr acc n) := by
  unfold State.edcRetries
  repeat' first
    | with_reducible assumption
    | with_reducible refine State.each_good ?_ ?_
    | with_reducible refine State.edcRetry_good ?_
    | with_reducible refine State.cnt_good ?_
    | with_reducible refine Good.done ?_
    | split
    | dsimp only
    | with_reducible refine Good.upd ?_ rfl
    | (simp only [id_eq])
    | intro _ _
    | intro _

theorem State.memWrite_good {pq fz s master a d edc} {y_ t_} (e_ : (State.memWrite s master a d edc) = (y_, t_)) (h_s : Good pq fz s) :
    Good pq fz t_ := by
  refine Good.fold e_ h_s (fun y s b h => ?_)
  dsimp only
  split
  · exact State.raiseMem_good (State.edcRetries_good h)
  · exact State.gWrite_keeps (State.edcRetries_good h)

theorem State.memWrite_keeps {pq fz s master a d edc} (h_s : Good pq fz s) : Good pq fz (State.memWrite s master a d edc).2 :=
  State.memWrite_good (y_ := (State.memWrite s master a d edc).1) (t_ := (State.memWrite s master a d edc).2) (Good.eta _) h_s

theorem State.memRead_good {pq fz s master a n edc} {y_ t_} (e_ : (State.memRead s master a n edc) = (y_, t_)) (h_s : Good pq fz s) :
    Good pq fz t_ := by
  refine Good.fold e_ h_s (fun y s b h => ?_)
  dsimp only
  split <;> exact Good.ite₂ (fun _ => State.uncorrected_good (State.edcRetries_good h)) (fun _ => State.gRead_keeps (State.edcRetries_good h))

theorem State.memRead_keeps {pq fz s master a n edc} (h_s : Good pq fz s) : Good pq fz (State.memRead s master a n edc).2 :=
  State.memRead_good (y_ := (State.memRead s master a n edc).1) (t_ := (State.memRead s master a n edc).2) (Good.eta _) h_s

end Sys2Proof.Machine
end

