-- ==== Sys2Proof/Laws/KeepRings.lean ====
section
/-! SUPPORT. Every operation and command of Machine/Rings.lean keeps what `Good` says of a state. -/
namespace Sys2Proof.Machine

theorem State.trace_good {pq fz s point src args} (h_s : Good pq fz s) :
    Good pq fz (State.trace s point src args) := by
  unfold State.trace
  repeat' first
    | with_reducible assumption
    | with_reducible refine State.cnt_good ?_
    | with_reducible refine State.raise_good ?_
    | with_reducible refine Good.done ?_
    | split
    | dsimp only
    | with_reducible refine Good.upd ?_ rfl
    | (simp only [id_eq])
    | intro _ _
    | intro _

theorem State.ringLose_good {pq fz s r} (h_s : Good pq fz s) :
    Good pq fz (State.ringLose s r) := by
  unfold State.ringLose
  repeat' first
    | with_reducible assumption
    | with_reducible refine State.cnt_good ?_
    | with_reducible refine State.wr_good ?_
    | with_reducible refine State.raise_good ?_
    | with_reducible refine Good.done ?_
    | split
    | dsimp only
    | with_reducible refine Good.upd ?_ rfl
    | (simp only [id_eq])
    | intro _ _
    | intro _

theorem State.ringPut_good {pq fz s r master mk} (h_s : Good pq fz s) :
    Good pq fz (State.ringPut s r master mk) := by
  unfold State.ringPut
  repeat' first
    | with_reducible assumption
    | with_reducible refine State.ringLose_good ?_
    | with_reducible refine State.wr_good ?_
    | with_reducible refine State.store_good ?_
    | with_reducible refine Good.done ?_
    | split
    | dsimp only
    | with_reducible refine Good.upd ?_ rfl
    | (simp only [id_eq])
    | intro _ _
    | intro _

theorem State.msix_good {pq fz s v} (h_s : Good pq fz s) :
    Good pq fz (State.msix s v) := by
  unfold State.msix
  repeat' first
    | with_reducible assumption
    | with_reducible refine Good.done ?_
    | split
    | dsimp only
    | with_reducible refine Good.upd ?_ rfl
    | (simp only [id_eq])
    | intro _ _
    | intro _

theorem State.putCompl_good {pq fz s c} (h_s : Good pq fz s) :
    Good pq fz (State.putCompl s c) := by
  unfold State.putCompl
  repeat' first
    | with_reducible assumption
    | with_reducible refine State.ringPut_good ?_
    | with_reducible refine State.msix_good ?_
    | with_reducible refine Good.done ?_
    | split
    | dsimp only
    | with_reducible refine Good.upd ?_ rfl
    | (simp only [id_eq])
    | intro _ _
    | intro _

theorem State.flushCompl_good {pq fz s} (h_s : Good pq fz s) :
    Good pq fz (State.flushCompl s) := by
  unfold State.flushCompl
  repeat' first
    | with_reducible assumption
    | with_reducible refine State.each_good ?_ ?_
    | with_reducible refine State.putCompl_good ?_
    | with_reducible refine Good.done ?_
    | split
    | dsimp only
    | with_reducible refine Good.upd ?_ rfl
    | (simp only [id_eq])
    | intro _ _
    | intro _

theorem State.setDev_good {pq fz s new} (h_s : Good pq fz s) :
    Good pq fz (State.setDev s new) := by
  unfold State.setDev
  repeat' first
    | with_reducible assumption
    | with_reducible refine State.msix_good ?_
    | with_reducible refine State.wr_good ?_
    | with_reducible refine Good.done ?_
    | split
    | dsimp only
    | with_reducible refine Good.upd ?_ rfl
    | (simp only [id_eq])
    | intro _ _
    | intro _

theorem State.complete_good {pq fz s c} (h_s : Good pq fz s) :
    Good pq fz (State.complete s c) := by
  unfold State.complete
  repeat' first
    | with_reducible assumption
    | with_reducible refine State.putCompl_good ?_
    | with_reducible refine Good.done ?_
    | split
    | dsimp only
    | with_reducible refine Good.upd ?_ rfl
    | (simp only [id_eq])
    | intro _ _
    | intro _

theorem State.rearm_good {pq fz s m} (h_s : Good pq fz s) :
    Good pq fz (State.rearm s m) := by
  unfold State.rearm
  repeat' first
    | with_reducible assumption
    | with_reducible refine Good.done ?_
    | split
    | dsimp only
    | with_reducible refine Good.upd ?_ rfl
    | (simp only [id_eq])
    | intro _ _
    | intro _

theorem State.setHost_good {pq fz s new cause} (h_s : Good pq fz s) :
    Good pq fz (State.setHost s new cause) := by
  unfold State.setHost
  repeat' first
    | with_reducible assumption
    | with_reducible refine State.msix_good ?_
    | with_reducible refine State.trace_good ?_
    | with_reducible refine State.wr_good ?_
    | with_reducible refine Good.done ?_
    | split
    | dsimp only
    | with_reducible refine Good.upd ?_ rfl
    | (simp only [id_eq])
    | intro _ _
    | intro _

theorem State.sendPend_good {pq fz s} (h_s : Good pq fz s) :
    Good pq fz (State.sendPend s) := by
  unfold State.sendPend
  repeat' first
    | with_reducible assumption
    | with_reducible refine State.each_good ?_ ?_
    | with_reducible refine Good.done ?_
    | split
    | dsimp only
    | with_reducible refine Good.upd ?_ rfl
    | (simp only [id_eq])
    | intro _ _
    | intro _

theorem State.queueEvt_good {pq fz s e} (h_s : Good pq fz s) :
    Good pq fz (State.queueEvt s e) := by
  unfold State.queueEvt
  repeat' first
    | with_reducible assumption
    | with_reducible refine State.cnt_good ?_
    | with_reducible refine Good.done ?_
    | split
    | dsimp only
    | with_reducible refine Good.upd ?_ rfl
    | (simp only [id_eq])
    | intro _ _
    | intro _

theorem State.queueLog_good {pq fz s e} (h_s : Good pq fz s) :
    Good pq fz (State.queueLog s e) := by
  unfold State.queueLog
  repeat' first
    | with_reducible assumption
    | with_reducible refine State.cnt_good ?_
    | with_reducible refine Good.done ?_
    | split
    | dsimp only
    | with_reducible refine Good.upd ?_ rfl
    | (simp only [id_eq])
    | intro _ _
    | intro _

end Sys2Proof.Machine
end

