-- ==== Sys2Proof/Laws/KeepSched.lean ====
section
/-! SUPPORT. Every operation and command of Machine/Sched.lean keeps what `Good` says of a state. -/
namespace Sys2Proof.Machine

theorem State.modJob_good {pq fz s id f} (h_s : Good pq fz s) :
    Good pq fz (State.modJob s id f) := by
  unfold State.modJob
  repeat' first
    | with_reducible assumption
    | with_reducible refine Good.done ?_
    | split
    | dsimp only
    | with_reducible refine Good.upd ?_ rfl
    | (simp only [id_eq])
    | intro _ _
    | intro _

theorem State.modPipe_good {pq fz s p f} (h_s : Good pq fz s) :
    Good pq fz (State.modPipe s p f) := by
  unfold State.modPipe
  repeat' first
    | with_reducible assumption
    | with_reducible refine Good.done ?_
    | split
    | dsimp only
    | with_reducible refine Good.upd ?_ rfl
    | (simp only [id_eq])
    | intro _ _
    | intro _

theorem State.modFrame_good {pq fz s p n g} (h_s : Good pq fz s) :
    Good pq fz (State.modFrame s p n g) := by
  unfold State.modFrame
  repeat' first
    | with_reducible assumption
    | with_reducible refine State.modPipe_good ?_
    | with_reducible refine Good.done ?_
    | split
    | dsimp only
    | with_reducible refine Good.upd ?_ rfl
    | (simp only [id_eq])
    | intro _ _
    | intro _

theorem State.setLobj_good {pq fz s t o v} (h_s : Good pq fz s) :
    Good pq fz (State.setLobj s t o v) := by
  unfold State.setLobj
  repeat' first
    | with_reducible assumption
    | with_reducible refine State.modTile_good ?_
    | with_reducible refine Good.done ?_
    | split
    | dsimp only
    | with_reducible refine Good.upd ?_ rfl
    | (simp only [id_eq])
    | intro _ _
    | intro _

theorem State.setGobj_good {pq fz s o v} (h_s : Good pq fz s) :
    Good pq fz (State.setGobj s o v) := by
  unfold State.setGobj
  repeat' first
    | with_reducible assumption
    | with_reducible refine Good.done ?_
    | split
    | dsimp only
    | with_reducible refine Good.upd ?_ rfl
    | (simp only [id_eq])
    | intro _ _
    | intro _

theorem State.initObj_good {pq fz s e} (h_s : Good pq fz s) :
    Good pq fz (State.initObj s e) := by
  unfold State.initObj
  repeat' first
    | with_reducible assumption
    | with_reducible refine State.setLobj_good ?_
    | with_reducible refine State.setGobj_good ?_
    | with_reducible refine Good.done ?_
    | split
    | dsimp only
    | with_reducible refine Good.upd ?_ rfl
    | (simp only [id_eq])
    | intro _ _
    | intro _

theorem State.pipeObjs_good {pq fz s x} (h_s : Good pq fz s) :
    Good pq fz (State.pipeObjs s x) := by
  unfold State.pipeObjs
  repeat' first
    | with_reducible assumption
    | with_reducible refine State.each_good ?_ ?_
    | with_reducible refine State.initObj_good ?_
    | with_reducible refine Good.done ?_
    | split
    | dsimp only
    | with_reducible refine Good.upd ?_ rfl
    | (simp only [id_eq])
    | intro _ _
    | intro _

theorem State.frameObjs_good {pq fz s x} (h_s : Good pq fz s) :
    Good pq fz (State.frameObjs s x) := by
  unfold State.frameObjs
  repeat' first
    | with_reducible assumption
    | with_reducible refine State.each_good ?_ ?_
    | with_reducible refine State.initObj_good ?_
    | with_reducible refine Good.done ?_
    | split
    | dsimp only
    | with_reducible refine Good.upd ?_ rfl
    | (simp only [id_eq])
    | intro _ _
    | intro _

theorem State.setStrm_good {pq fz s n x} (h_s : Good pq fz s) :
    Good pq fz (State.setStrm s n x) := by
  unfold State.setStrm
  repeat' first
    | with_reducible assumption
    | with_reducible refine Good.done ?_
    | split
    | dsimp only
    | with_reducible refine Good.upd ?_ rfl
    | (simp only [id_eq])
    | intro _ _
    | intro _

theorem State.modStrm_good {pq fz s n f} (h_s : Good pq fz s) :
    Good pq fz (State.modStrm s n f) := by
  unfold State.modStrm
  repeat' first
    | with_reducible assumption
    | with_reducible refine State.setStrm_good ?_
    | with_reducible refine Good.done ?_
    | split
    | dsimp only
    | with_reducible refine Good.upd ?_ rfl
    | (simp only [id_eq])
    | intro _ _
    | intro _

theorem State.localAdd_good {pq fz s t o v} (h_s : Good pq fz s) :
    Good pq fz (State.localAdd s t o v) := by
  unfold State.localAdd
  repeat' first
    | with_reducible assumption
    | with_reducible refine State.cnt_good ?_
    | with_reducible refine State.setLobj_good ?_
    | with_reducible refine Good.done ?_
    | split
    | dsimp only
    | with_reducible refine Good.upd ?_ rfl
    | (simp only [id_eq])
    | intro _ _
    | intro _

theorem State.putObj_good {pq fz s v} (h_s : Good pq fz s) :
    Good pq fz (State.putObj s v) := by
  unfold State.putObj
  repeat' first
    | with_reducible assumption
    | with_reducible refine State.setGobj_good ?_
    | with_reducible refine State.setLobj_good ?_
    | with_reducible refine Good.done ?_
    | split
    | dsimp only
    | with_reducible refine Good.upd ?_ rfl
    | (simp only [id_eq])
    | intro _ _
    | intro _

end Sys2Proof.Machine
end

