-- ==== Sys2Proof/Laws/KeepJobs.lean ====
section
/-! SUPPORT. Every operation and command of Machine/Jobs.lean keeps what `Good` says of a state. -/
namespace Sys2Proof.Machine

theorem State.haltCapture_good {pq fz s t pc cause} (h_s : Good pq fz s) :
    Good pq fz (State.haltCapture s t pc cause) := by
  unfold State.haltCapture
  repeat' first
    | with_reducible assumption
    | with_reducible refine State.wr_good ?_
    | with_reducible refine Good.done ?_
    | split
    | dsimp only
    | with_reducible refine Good.upd ?_ rfl
    | (simp only [id_eq])
    | intro _ _
    | intro _

theorem State.stopTile_good {pq fz s t} (h_s : Good pq fz s) :
    Good pq fz (State.stopTile s t) := by
  unfold State.stopTile
  repeat' first
    | with_reducible assumption
    | with_reducible refine State.modTile_good ?_
    | with_reducible refine State.haltCapture_good ?_
    | with_reducible refine Good.done ?_
    | split
    | dsimp only
    | with_reducible refine Good.upd ?_ rfl
    | (simp only [id_eq])
    | intro _ _
    | intro _

theorem State.stopParts_good {pq fz s id} (h_s : Good pq fz s) :
    Good pq fz (State.stopParts s id) := by
  unfold State.stopParts
  repeat' first
    | with_reducible assumption
    | with_reducible refine State.modJob_good ?_
    | with_reducible refine State.each_good ?_ ?_
    | with_reducible refine State.stopTile_good ?_
    | with_reducible refine Good.done ?_
    | split
    | dsimp only
    | with_reducible refine Good.upd ?_ rfl
    | (simp only [id_eq])
    | intro _ _
    | intro _

theorem State.markFailed_good {pq fz s p f st code units} (h_s : Good pq fz s) :
    Good pq fz (State.markFailed s p f st code units) := by
  unfold State.markFailed
  repeat' first
    | with_reducible assumption
    | with_reducible refine State.modFrame_good ?_
    | with_reducible refine Good.done ?_
    | split
    | dsimp only
    | with_reducible refine Good.upd ?_ rfl
    | (simp only [id_eq])
    | intro _ _
    | intro _

theorem State.modWin_good {pq fz s st f} (h_s : Good pq fz s) :
    Good pq fz (State.modWin s st f) := by
  unfold State.modWin
  repeat' first
    | with_reducible assumption
    | with_reducible refine Good.done ?_
    | split
    | dsimp only
    | with_reducible refine Good.upd ?_ rfl
    | (simp only [id_eq])
    | intro _ _
    | intro _

theorem State.winStop_good {pq fz s st} (h_s : Good pq fz s) :
    Good pq fz (State.winStop s st) := by
  unfold State.winStop
  repeat' first
    | with_reducible assumption
    | with_reducible refine State.modWin_good ?_
    | with_reducible refine Good.done ?_
    | split
    | dsimp only
    | with_reducible refine Good.upd ?_ rfl
    | (simp only [id_eq])
    | intro _ _
    | intro _

theorem State.beginTest_good {pq fz s b p} (h_s : Good pq fz s) :
    Good pq fz (State.beginTest s b p) := by
  unfold State.beginTest
  repeat' first
    | with_reducible assumption
    | with_reducible refine State.wr_good ?_
    | with_reducible refine State.modBrood_good ?_
    | with_reducible refine Good.done ?_
    | split
    | dsimp only
    | with_reducible refine Good.upd ?_ rfl
    | (simp only [id_eq])
    | intro _ _
    | intro _

theorem State.startTest_good {pq fz s b} (h_s : Good pq fz s) :
    Good pq fz (State.startTest s b) := by
  unfold State.startTest
  repeat' first
    | with_reducible assumption
    | with_reducible refine State.beginTest_good ?_
    | with_reducible refine State.wr_good ?_
    | with_reducible refine Good.done ?_
    | split
    | dsimp only
    | with_reducible refine Good.upd ?_ rfl
    | (simp only [id_eq])
    | intro _ _
    | intro _

theorem State.freeSpare_good {pq fz s b} (h_s : Good pq fz s) :
    Good pq fz (State.freeSpare s b) := by
  unfold State.freeSpare
  repeat' first
    | with_reducible assumption
    | with_reducible refine State.modBrood_good ?_
    | with_reducible refine State.startTest_good ?_
    | with_reducible refine Good.done ?_
    | split
    | dsimp only
    | with_reducible refine Good.upd ?_ rfl
    | (simp only [id_eq])
    | intro _ _
    | intro _

theorem State.finishJob_good {pq fz s j status} (h_s : Good pq fz s) :
    Good pq fz (State.finishJob s j status) := by
  unfold State.finishJob
  repeat' first
    | with_reducible assumption
    | with_reducible refine State.trace_good ?_
    | with_reducible refine State.winStop_good ?_
    | with_reducible refine State.each_good ?_ ?_
    | with_reducible refine State.freeSpare_good ?_
    | with_reducible refine State.complete_good ?_
    | with_reducible refine Good.done ?_
    | split
    | dsimp only
    | with_reducible refine Good.upd ?_ rfl
    | (simp only [id_eq])
    | intro _ _
    | intro _

theorem State.killJob_good {pq fz s id code} (h_s : Good pq fz s) :
    Good pq fz (State.killJob s id code) := by
  unfold State.killJob
  repeat' first
    | with_reducible assumption
    | with_reducible refine State.stopParts_good ?_
    | with_reducible refine State.markFailed_good ?_
    | with_reducible refine State.modFrame_good ?_
    | with_reducible refine State.finishJob_good ?_
    | with_reducible refine Good.done ?_
    | split
    | dsimp only
    | with_reducible refine Good.upd ?_ rfl
    | (simp only [id_eq])
    | intro _ _
    | intro _

theorem State.sysPut_good {pq fz s a n v} (h_s : Good pq fz s) :
    Good pq fz (State.sysPut s a n v) := by
  unfold State.sysPut
  repeat' first
    | with_reducible assumption
    | with_reducible refine State.storeN_good ?_
    | with_reducible refine Good.done ?_
    | split
    | dsimp only
    | with_reducible refine Good.upd ?_ rfl
    | (simp only [id_eq])
    | intro _ _
    | intro _

theorem State.sysInc_good {pq fz s a n} (h_s : Good pq fz s) :
    Good pq fz (State.sysInc s a n) := by
  unfold State.sysInc
  repeat' first
    | with_reducible assumption
    | with_reducible refine State.readN_good (by assumption) ?_
    | with_reducible refine State.readN_keeps ?_
    | with_reducible refine State.sysPut_good ?_
    | with_reducible refine Good.done ?_
    | split
    | dsimp only
    | with_reducible refine Good.upd ?_ rfl
    | (simp only [id_eq])
    | intro _ _
    | intro _

theorem State.frameEntry_good {pq fz s p f status pub} (h_s : Good pq fz s) :
    Good pq fz (State.frameEntry s p f status pub) := by
  unfold State.frameEntry
  repeat' first
    | with_reducible assumption
    | with_reducible refine State.complete_good ?_
    | with_reducible refine Good.done ?_
    | split
    | dsimp only
    | with_reducible refine Good.upd ?_ rfl
    | (simp only [id_eq])
    | intro _ _
    | intro _

theorem State.withhold_good {pq fz s p f code} (h_s : Good pq fz s) :
    Good pq fz (State.withhold s p f code) := by
  unfold State.withhold
  repeat' first
    | with_reducible assumption
    | with_reducible refine State.each_good ?_ ?_
    | with_reducible refine State.killJob_good ?_
    | with_reducible refine State.modPipe_good ?_
    | with_reducible refine State.sysInc_good ?_
    | with_reducible refine State.raiseEv_good ?_
    | with_reducible refine State.trace_good ?_
    | with_reducible refine State.frameEntry_good ?_
    | with_reducible refine Good.done ?_
    | split
    | dsimp only
    | with_reducible refine Good.upd ?_ rfl
    | (simp only [id_eq])
    | intro _ _
    | intro _

theorem State.failStageAt_good {pq fz s st tick} (h_s : Good pq fz s) :
    Good pq fz (State.failStageAt s st tick) := by
  unfold State.failStageAt
  repeat' first
    | with_reducible assumption
    | with_reducible refine State.each_good ?_ ?_
    | with_reducible refine State.killJob_good ?_
    | with_reducible refine State.modFrame_good ?_
    | with_reducible refine Good.done ?_
    | split
    | dsimp only
    | with_reducible refine Good.upd ?_ rfl
    | (simp only [id_eq])
    | intro _ _
    | intro _

theorem State.failStage_good {pq fz s st} (h_s : Good pq fz s) :
    Good pq fz (State.failStage s st) := by
  unfold State.failStage
  repeat' first
    | with_reducible assumption
    | with_reducible refine State.failStageAt_good ?_
    | with_reducible refine Good.done ?_
    | split
    | dsimp only
    | with_reducible refine Good.upd ?_ rfl
    | (simp only [id_eq])
    | intro _ _
    | intro _

theorem State.failBrood_good {pq fz s b} (h_s : Good pq fz s) :
    Good pq fz (State.failBrood s b) := by
  unfold State.failBrood
  repeat' first
    | with_reducible assumption
    | with_reducible refine State.each_good ?_ ?_
    | with_reducible refine State.failStage_good ?_
    | with_reducible refine Good.done ?_
    | split
    | dsimp only
    | with_reducible refine Good.upd ?_ rfl
    | (simp only [id_eq])
    | intro _ _
    | intro _

end Sys2Proof.Machine
end

