-- ==== Sys2Proof/Laws/KeepSwarm.lean ====
section
/-! SUPPORT. Every operation and command of Machine/Swarm.lean keeps what `Good` says of a state. -/
namespace Sys2Proof.Machine

theorem State.setSlotState_good {pq fz s b p v} (h_s : Good pq fz s) :
    Good pq fz (State.setSlotState s b p v) := by
  unfold State.setSlotState
  repeat' first
    | with_reducible assumption
    | with_reducible refine State.wr_good ?_
    | with_reducible refine Good.done ?_
    | split
    | dsimp only
    | with_reducible refine Good.upd ?_ rfl
    | (simp only [id_eq])
    | intro _ _
    | intro _

theorem State.readSlots_good {pq fz s b} (h_s : Good pq fz s) :
    Good pq fz (State.readSlots s b) := by
  unfold State.readSlots
  repeat' first
    | with_reducible assumption
    | with_reducible refine State.each_good ?_ ?_
    | with_reducible refine State.setSlotState_good ?_
    | with_reducible refine Good.done ?_
    | split
    | dsimp only
    | with_reducible refine Good.upd ?_ rfl
    | (simp only [id_eq])
    | intro _ _
    | intro _

theorem State.setSpare_good {pq fz s b sp} (h_s : Good pq fz s) :
    Good pq fz (State.setSpare s b sp) := by
  unfold State.setSpare
  repeat' first
    | with_reducible assumption
    | with_reducible refine State.wr_good ?_
    | with_reducible refine Good.done ?_
    | split
    | dsimp only
    | with_reducible refine Good.upd ?_ rfl
    | (simp only [id_eq])
    | intro _ _
    | intro _

theorem State.hostOn_good {pq fz s b k slot} (h_s : Good pq fz s) :
    Good pq fz (State.hostOn s b k slot) := by
  unfold State.hostOn
  repeat' first
    | with_reducible assumption
    | with_reducible refine State.wr_good ?_
    | with_reducible refine Good.done ?_
    | split
    | dsimp only
    | with_reducible refine Good.upd ?_ rfl
    | (simp only [id_eq])
    | intro _ _
    | intro _

theorem State.mapBrood_good {pq fz s set b} (h_s : Good pq fz s) :
    Good pq fz (State.mapBrood s set b) := by
  unfold State.mapBrood
  repeat' first
    | with_reducible assumption
    | with_reducible refine State.modBrood_good ?_
    | with_reducible refine State.each_good ?_ ?_
    | with_reducible refine State.hostOn_good ?_
    | with_reducible refine State.startTest_good ?_
    | with_reducible refine State.setSpare_good ?_
    | with_reducible refine State.wr_good ?_
    | with_reducible refine Good.done ?_
    | split
    | dsimp only
    | with_reducible refine Good.upd ?_ rfl
    | (simp only [id_eq])
    | intro _ _
    | intro _

theorem State.setReplace_good {pq fz s code b} (h_s : Good pq fz s) :
    Good pq fz (State.setReplace s code b) := by
  unfold State.setReplace
  repeat' first
    | with_reducible assumption
    | with_reducible refine State.raiseBrood_good ?_
    | with_reducible refine State.prsNow_good ?_
    | with_reducible refine Good.done ?_
    | split
    | dsimp only
    | with_reducible refine Good.upd ?_ rfl
    | (simp only [id_eq])
    | intro _ _
    | intro _

theorem State.lastTest_good {pq fz s b slot aborted lbist mbist skew} (h_s : Good pq fz s) :
    Good pq fz (State.lastTest s b slot aborted lbist mbist skew) := by
  unfold State.lastTest
  repeat' first
    | with_reducible assumption
    | with_reducible refine State.wr_good ?_
    | with_reducible refine Good.done ?_
    | split
    | dsimp only
    | with_reducible refine Good.upd ?_ rfl
    | (simp only [id_eq])
    | intro _ _
    | intro _

theorem State.dropSpare_good {pq fz s b} (h_s : Good pq fz s) :
    Good pq fz (State.dropSpare s b) := by
  unfold State.dropSpare
  repeat' first
    | with_reducible assumption
    | with_reducible refine State.wr_good ?_
    | with_reducible refine State.setSpare_good ?_
    | with_reducible refine State.raiseBrood_good ?_
    | with_reducible refine State.modBrood_good ?_
    | with_reducible refine Good.done ?_
    | split
    | dsimp only
    | with_reducible refine Good.upd ?_ rfl
    | (simp only [id_eq])
    | intro _ _
    | intro _

theorem State.loseHost_good {pq fz s b} (h_s : Good pq fz s) :
    Good pq fz (State.loseHost s b) := by
  unfold State.loseHost
  repeat' first
    | with_reducible assumption
    | with_reducible refine State.failBrood_good ?_
    | with_reducible refine State.mapBrood_good ?_
    | with_reducible refine State.prsNow_good ?_
    | with_reducible refine State.setReplace_good ?_
    | with_reducible refine State.raiseBrood_good ?_
    | with_reducible refine Good.done ?_
    | split
    | dsimp only
    | with_reducible refine Good.upd ?_ rfl
    | (simp only [id_eq])
    | intro _ _
    | intro _

theorem State.dropClaims_good {pq fz s b} (h_s : Good pq fz s) :
    Good pq fz (State.dropClaims s b) := by
  unfold State.dropClaims
  repeat' first
    | with_reducible assumption
    | with_reducible refine State.each_good ?_ ?_
    | with_reducible refine State.modJob_good ?_
    | with_reducible refine State.killJob_good ?_
    | with_reducible refine State.modBrood_good ?_
    | with_reducible refine Good.done ?_
    | split
    | dsimp only
    | with_reducible refine Good.upd ?_ rfl
    | (simp only [id_eq])
    | intro _ _
    | intro _

theorem State.abortTest_good {pq fz s b} (h_s : Good pq fz s) :
    Good pq fz (State.abortTest s b) := by
  unfold State.abortTest
  repeat' first
    | with_reducible assumption
    | with_reducible refine State.raiseBrood_good ?_
    | with_reducible refine State.cnt_good ?_
    | with_reducible refine State.lastTest_good ?_
    | with_reducible refine State.modBrood_good ?_
    | with_reducible refine State.wr_good ?_
    | with_reducible refine Good.done ?_
    | split
    | dsimp only
    | with_reducible refine Good.upd ?_ rfl
    | (simp only [id_eq])
    | intro _ _
    | intro _

theorem State.releaseSpare_good {pq fz s b} (h_s : Good pq fz s) :
    Good pq fz (State.releaseSpare s b) := by
  unfold State.releaseSpare
  repeat' first
    | with_reducible assumption
    | with_reducible refine State.abortTest_good ?_
    | with_reducible refine State.wr_good ?_
    | with_reducible refine State.modBrood_good ?_
    | with_reducible refine Good.done ?_
    | split
    | dsimp only
    | with_reducible refine Good.upd ?_ rfl
    | (simp only [id_eq])
    | intro _ _
    | intro _

theorem State.takeOutAs_good {pq fz s b slot qm code} (h_s : Good pq fz s) :
    Good pq fz (State.takeOutAs s b slot qm code) := by
  unfold State.takeOutAs
  repeat' first
    | with_reducible assumption
    | with_reducible refine State.prsNow_good ?_
    | with_reducible refine State.setSlotState_good ?_
    | with_reducible refine State.lifeUp_good ?_
    | with_reducible refine State.raise_good ?_
    | with_reducible refine State.dropSpare_good ?_
    | with_reducible refine State.loseHost_good ?_
    | with_reducible refine State.modBrood_good ?_
    | with_reducible refine State.dropClaims_good ?_
    | with_reducible refine State.releaseSpare_good ?_
    | with_reducible refine Good.done ?_
    | split
    | dsimp only
    | with_reducible refine Good.upd ?_ rfl
    | (simp only [id_eq])
    | intro _ _
    | intro _

theorem State.takeOut_good {pq fz s b slot qm} (h_s : Good pq fz s) :
    Good pq fz (State.takeOut s b slot qm) := by
  unfold State.takeOut
  repeat' first
    | with_reducible assumption
    | with_reducible refine State.takeOutAs_good ?_
    | with_reducible refine Good.done ?_
    | split
    | dsimp only
    | with_reducible refine Good.upd ?_ rfl
    | (simp only [id_eq])
    | intro _ _
    | intro _

theorem State.countEvent_good {pq fz s p chk} (h_s : Good pq fz s) :
    Good pq fz (State.countEvent s p chk) := by
  unfold State.countEvent
  repeat' first
    | with_reducible assumption
    | with_reducible refine State.busRead_good (by assumption) ?_
    | with_reducible refine State.busRead_keeps ?_
    | with_reducible refine State.store_good ?_
    | with_reducible refine State.lifeUp_good ?_
    | with_reducible refine State.takeOut_good ?_
    | with_reducible refine Good.done ?_
    | split
    | dsimp only
    | with_reducible refine Good.upd ?_ rfl
    | (simp only [id_eq])
    | intro _ _
    | intro _

theorem State.decideArb_good {pq fz s a stage outcome} (h_s : Good pq fz s) :
    Good pq fz (State.decideArb s a stage outcome) := by
  unfold State.decideArb
  repeat' first
    | with_reducible assumption
    | with_reducible refine State.sysInc_good ?_
    | with_reducible refine State.trace_good ?_
    | with_reducible refine State.raise_good ?_
    | with_reducible refine State.countEvent_good ?_
    | with_reducible refine State.readN_good (by assumption) ?_
    | with_reducible refine State.readN_keeps ?_
    | with_reducible refine State.sysPut_good ?_
    | with_reducible refine State.takeOut_good ?_
    | with_reducible refine Good.done ?_
    | split
    | dsimp only
    | with_reducible refine Good.upd ?_ rfl
    | (simp only [id_eq])
    | intro _ _
    | intro _

theorem State.settleArbsGo_good {pq fz a0 a1} (h_a1 : Good pq fz a1) :
    Good pq fz (State.settleArbsGo a0 a1) := by
  induction a0 generalizing a1 with
  | zero =>
    unfold State.settleArbsGo
    repeat' first
      | with_reducible assumption
      | with_reducible refine State.decideArb_good ?_
      | with_reducible refine Good.done ?_
      | split
      | dsimp only
      | with_reducible refine Good.upd ?_ rfl
      | (simp only [id_eq])
      | intro _ _
      | intro _
  | succ n ih =>
    unfold State.settleArbsGo
    repeat' first
      | with_reducible assumption
      | with_reducible refine ih ?_
      | with_reducible refine State.decideArb_good ?_
      | with_reducible refine Good.done ?_
      | split
      | dsimp only
      | with_reducible refine Good.upd ?_ rfl
      | (simp only [id_eq])
      | intro _ _
      | intro _

theorem State.settleArbs_good {pq fz s} (h_s : Good pq fz s) :
    Good pq fz (State.settleArbs s) := by
  unfold State.settleArbs
  repeat' first
    | with_reducible assumption
    | with_reducible refine State.settleArbsGo_good ?_
    | with_reducible refine Good.done ?_
    | split
    | dsimp only
    | with_reducible refine Good.upd ?_ rfl
    | (simp only [id_eq])
    | intro _ _
    | intro _

end Sys2Proof.Machine
end

