-- ==== Sys2Proof/Laws/KeepSequencer.lean ====
section
/-! SUPPORT. Every operation and command of Machine/Sequencer.lean keeps what `Good` says of a state. -/
namespace Sys2Proof.Machine

theorem State.restore_good {pq fz s m l} (h_s : Good pq fz s) :
    Good pq fz (State.restore s m l) := by
  unfold State.restore
  repeat' first
    | with_reducible assumption
    | with_reducible refine State.each_good ?_ ?_
    | with_reducible refine State.busRead_good (by assumption) ?_
    | with_reducible refine State.busRead_keeps ?_
    | with_reducible refine State.store_good ?_
    | with_reducible refine Good.done ?_
    | split
    | dsimp only
    | with_reducible refine Good.upd ?_ rfl
    | (simp only [id_eq])
    | intro _ _
    | intro _

theorem State.checkLost_good {pq fz s} (h_s : Good pq fz s) :
    Good pq fz (State.checkLost s) := by
  unfold State.checkLost
  repeat' first
    | with_reducible assumption
    | with_reducible refine State.each_good ?_ ?_
    | with_reducible refine State.raise_good ?_
    | with_reducible refine State.modPipe_good ?_
    | with_reducible refine Good.done ?_
    | split
    | dsimp only
    | with_reducible refine Good.upd ?_ rfl
    | (simp only [id_eq])
    | intro _ _
    | intro _

theorem State.holdJob_good {pq fz s j} (h_s : Good pq fz s) :
    Good pq fz (State.holdJob s j) := by
  unfold State.holdJob
  repeat' first
    | with_reducible assumption
    | with_reducible refine State.modJob_good ?_
    | with_reducible refine State.each_good ?_ ?_
    | with_reducible refine State.raiseBrood_good ?_
    | with_reducible refine State.cnt_good ?_
    | with_reducible refine Good.done ?_
    | split
    | dsimp only
    | with_reducible refine Good.upd ?_ rfl
    | (simp only [id_eq])
    | intro _ _
    | intro _

theorem State.startTile_good {pq fz s t x entry block} (h_s : Good pq fz s) :
    Good pq fz (State.startTile s t x entry block) := by
  unfold State.startTile
  repeat' first
    | with_reducible assumption
    | with_reducible refine State.store_good ?_
    | with_reducible refine State.modTile_good ?_
    | with_reducible refine Good.done ?_
    | split
    | dsimp only
    | with_reducible refine Good.upd ?_ rfl
    | (simp only [id_eq])
    | intro _ _
    | intro _

theorem State.launchSingle_good {pq fz s j x} (h_s : Good pq fz s) :
    Good pq fz (State.launchSingle s j x) := by
  unfold State.launchSingle
  repeat' first
    | with_reducible assumption
    | with_reducible refine State.each_good ?_ ?_
    | with_reducible refine State.modJob_good ?_
    | with_reducible refine State.wr_good ?_
    | with_reducible refine State.startTile_good ?_
    | with_reducible refine State.initObj_good ?_
    | with_reducible refine Good.done ?_
    | split
    | dsimp only
    | with_reducible refine Good.upd ?_ rfl
    | (simp only [id_eq])
    | intro _ _
    | intro _

theorem State.resolveJob_good {pq fz s id x c} (h_s : Good pq fz s) :
    Good pq fz (State.resolveJob s id x c) := by
  unfold State.resolveJob
  repeat' first
    | with_reducible assumption
    | with_reducible refine State.modJob_good ?_
    | with_reducible refine Good.done ?_
    | split
    | dsimp only
    | with_reducible refine Good.upd ?_ rfl
    | (simp only [id_eq])
    | intro _ _
    | intro _

theorem State.launch_good {pq fz s id} (h_s : Good pq fz s) :
    Good pq fz (State.launch s id) := by
  unfold State.launch
  repeat' first
    | with_reducible assumption
    | with_reducible refine State.resolveJob_good ?_
    | with_reducible refine State.modJob_good ?_
    | with_reducible refine State.modWin_good ?_
    | with_reducible refine State.modFrame_good ?_
    | with_reducible refine State.each_good ?_ ?_
    | with_reducible refine State.wrB_good ?_
    | with_reducible refine State.startTile_good ?_
    | with_reducible refine State.frameObjs_good ?_
    | with_reducible refine State.trace_good ?_
    | with_reducible refine Good.done ?_
    | split
    | dsimp only
    | with_reducible refine Good.upd ?_ rfl
    | (simp only [id_eq])
    | intro _ _
    | intro _

theorem State.kickJob_good {pq fz s id} (h_s : Good pq fz s) :
    Good pq fz (State.kickJob s id) := by
  unfold State.kickJob
  repeat' first
    | with_reducible assumption
    | with_reducible refine State.holdJob_good ?_
    | with_reducible refine State.launchSingle_good ?_
    | with_reducible refine State.launch_good ?_
    | with_reducible refine Good.done ?_
    | split
    | dsimp only
    | with_reducible refine Good.upd ?_ rfl
    | (simp only [id_eq])
    | intro _ _
    | intro _

theorem State.kickJobs_good {pq fz s} (h_s : Good pq fz s) :
    Good pq fz (State.kickJobs s) := by
  unfold State.kickJobs
  repeat' first
    | with_reducible assumption
    | with_reducible refine State.each_good ?_ ?_
    | with_reducible refine State.kickJob_good ?_
    | with_reducible refine Good.done ?_
    | split
    | dsimp only
    | with_reducible refine Good.upd ?_ rfl
    | (simp only [id_eq])
    | intro _ _
    | intro _

theorem State.failJob_good {pq fz s id} (h_s : Good pq fz s) :
    Good pq fz (State.failJob s id) := by
  unfold State.failJob
  repeat' first
    | with_reducible assumption
    | with_reducible refine State.kickJobs_good ?_
    | with_reducible refine State.settleArbs_good ?_
    | with_reducible refine State.killJob_good ?_
    | with_reducible refine Good.done ?_
    | split
    | dsimp only
    | with_reducible refine Good.upd ?_ rfl
    | (simp only [id_eq])
    | intro _ _
    | intro _

theorem State.commitStage_good {pq fz s j} (h_s : Good pq fz s) :
    Good pq fz (State.commitStage s j) := by
  unfold State.commitStage
  repeat' first
    | with_reducible assumption
    | with_reducible refine State.modFrame_good ?_
    | with_reducible refine State.trace_good ?_
    | with_reducible refine State.kickJobs_good ?_
    | with_reducible refine State.settleArbs_good ?_
    | with_reducible refine State.finishJob_good ?_
    | with_reducible refine Good.done ?_
    | split
    | dsimp only
    | with_reducible refine Good.upd ?_ rfl
    | (simp only [id_eq])
    | intro _ _
    | intro _

theorem State.endStage_good {pq fz s id} (h_s : Good pq fz s) :
    Good pq fz (State.endStage s id) := by
  unfold State.endStage
  repeat' first
    | with_reducible assumption
    | with_reducible refine State.kickJobs_good ?_
    | with_reducible refine State.settleArbs_good ?_
    | with_reducible refine State.finishJob_good ?_
    | with_reducible refine State.failJob_good ?_
    | with_reducible refine State.raiseFor_good ?_
    | with_reducible refine State.modWin_good ?_
    | with_reducible refine State.commitStage_good ?_
    | with_reducible refine Good.done ?_
    | split
    | dsimp only
    | with_reducible refine Good.upd ?_ rfl
    | (simp only [id_eq])
    | intro _ _
    | intro _

theorem State.checkJob_good {pq fz s id} (h_s : Good pq fz s) :
    Good pq fz (State.checkJob s id) := by
  unfold State.checkJob
  repeat' first
    | with_reducible assumption
    | with_reducible refine State.failJob_good ?_
    | with_reducible refine State.endStage_good ?_
    | with_reducible refine Good.done ?_
    | split
    | dsimp only
    | with_reducible refine Good.upd ?_ rfl
    | (simp only [id_eq])
    | intro _ _
    | intro _

theorem State.claimSpare_good {pq fz s b id} (h_s : Good pq fz s) :
    Good pq fz (State.claimSpare s b id) := by
  unfold State.claimSpare
  repeat' first
    | with_reducible assumption
    | with_reducible refine State.modBrood_good ?_
    | with_reducible refine State.releaseSpare_good ?_
    | with_reducible refine Good.done ?_
    | split
    | dsimp only
    | with_reducible refine Good.upd ?_ rfl
    | (simp only [id_eq])
    | intro _ _
    | intro _

theorem State.failPart_good {pq fz s id u code retry} (h_s : Good pq fz s) :
    Good pq fz (State.failPart s id u code retry) := by
  unfold State.failPart
  repeat' first
    | with_reducible assumption
    | with_reducible refine State.modJob_good ?_
    | with_reducible refine State.claimSpare_good ?_
    | with_reducible refine Good.done ?_
    | split
    | dsimp only
    | with_reducible refine Good.upd ?_ rfl
    | (simp only [id_eq])
    | intro _ _
    | intro _

theorem State.tileHalt_good {pq fz s t pc cause} (h_s : Good pq fz s) :
    Good pq fz (State.tileHalt s t pc cause) := by
  unfold State.tileHalt
  repeat' first
    | with_reducible assumption
    | with_reducible refine State.modTile_good ?_
    | with_reducible refine State.haltCapture_good ?_
    | with_reducible refine State.raiseTile_good ?_
    | with_reducible refine State.checkJob_good ?_
    | with_reducible refine State.failPart_good ?_
    | with_reducible refine Good.done ?_
    | split
    | dsimp only
    | with_reducible refine Good.upd ?_ rfl
    | (simp only [id_eq])
    | intro _ _
    | intro _

theorem State.putRecord_good {pq fz s p f} (h_s : Good pq fz s) :
    Good pq fz (State.putRecord s p f) := by
  unfold State.putRecord
  repeat' first
    | with_reducible assumption
    | with_reducible refine State.store_good ?_
    | with_reducible refine Good.done ?_
    | split
    | dsimp only
    | with_reducible refine Good.upd ?_ rfl
    | (simp only [id_eq])
    | intro _ _
    | intro _

theorem State.renumber_good {pq fz s p top} (h_s : Good pq fz s) :
    Good pq fz (State.renumber s p top) := by
  unfold State.renumber
  repeat' first
    | with_reducible assumption
    | with_reducible refine State.modPipe_good ?_
    | with_reducible refine State.each_good ?_ ?_
    | with_reducible refine State.putRecord_good ?_
    | with_reducible refine Good.done ?_
    | split
    | dsimp only
    | with_reducible refine Good.upd ?_ rfl
    | (simp only [id_eq])
    | intro _ _
    | intro _

theorem State.tryBarrier_good {pq fz s} (h_s : Good pq fz s) :
    Good pq fz (State.tryBarrier s) := by
  unfold State.tryBarrier
  repeat' first
    | with_reducible assumption
    | with_reducible refine State.renumber_good ?_
    | with_reducible refine State.wr_good ?_
    | with_reducible refine Good.done ?_
    | split
    | dsimp only
    | with_reducible refine Good.upd ?_ rfl
    | (simp only [id_eq])
    | intro _ _
    | intro _

theorem State.openFrame_good {pq fz s p num inputs stamp} (h_s : Good pq fz s) :
    Good pq fz (State.openFrame s p num inputs stamp) := by
  unfold State.openFrame
  repeat' first
    | with_reducible assumption
    | with_reducible refine State.modPipe_good ?_
    | with_reducible refine State.putRecord_good ?_
    | with_reducible refine State.tryBarrier_good ?_
    | with_reducible refine State.trace_good ?_
    | with_reducible refine Good.done ?_
    | split
    | dsimp only
    | with_reducible refine Good.upd ?_ rfl
    | (simp only [id_eq])
    | intro _ _
    | intro _

theorem State.trigger_good {pq fz s p} (h_s : Good pq fz s) :
    Good pq fz (State.trigger s p) := by
  unfold State.trigger
  repeat' first
    | with_reducible assumption
    | with_reducible refine State.openFrame_good ?_
    | with_reducible refine Good.done ?_
    | split
    | dsimp only
    | with_reducible refine Good.upd ?_ rfl
    | (simp only [id_eq])
    | intro _ _
    | intro _

theorem State.arrive_good {pq fz s g p} (h_s : Good pq fz s) :
    Good pq fz (State.arrive s g p) := by
  unfold State.arrive
  repeat' first
    | with_reducible assumption
    | with_reducible refine State.trigger_good ?_
    | with_reducible refine State.modPipe_good ?_
    | with_reducible refine Good.done ?_
    | split
    | dsimp only
    | with_reducible refine Good.upd ?_ rfl
    | (simp only [id_eq])
    | intro _ _
    | intro _

theorem State.raiseTrigger_good {pq fz s g} (h_s : Good pq fz s) :
    Good pq fz (State.raiseTrigger s g) := by
  unfold State.raiseTrigger
  repeat' first
    | with_reducible assumption
    | with_reducible refine State.each_good ?_ ?_
    | with_reducible refine State.arrive_good ?_
    | with_reducible refine Good.done ?_
    | split
    | dsimp only
    | with_reducible refine Good.upd ?_ rfl
    | (simp only [id_eq])
    | intro _ _
    | intro _

theorem State.releaseHolds_good {pq fz s} (h_s : Good pq fz s) :
    Good pq fz (State.releaseHolds s) := by
  unfold State.releaseHolds
  repeat' first
    | with_reducible assumption
    | with_reducible refine Good.done ?_
    | split
    | dsimp only
    | with_reducible refine Good.upd ?_ rfl
    | (simp only [id_eq])
    | intro _ _
    | intro _

theorem State.markPart_good {pq fz s t code} (h_s : Good pq fz s) :
    Good pq fz (State.markPart s t code) := by
  unfold State.markPart
  repeat' first
    | with_reducible assumption
    | with_reducible refine State.modJob_good ?_
    | with_reducible refine State.modTile_good ?_
    | with_reducible refine Good.done ?_
    | split
    | dsimp only
    | with_reducible refine Good.upd ?_ rfl
    | (simp only [id_eq])
    | intro _ _
    | intro _

theorem State.markJobPart_good {pq fz s t id code} (h_s : Good pq fz s) :
    Good pq fz (State.markJobPart s t id code) := by
  unfold State.markJobPart
  repeat' first
    | with_reducible assumption
    | with_reducible refine State.checkJob_good ?_
    | with_reducible refine State.failPart_good ?_
    | with_reducible refine State.markPart_good ?_
    | with_reducible refine Good.done ?_
    | split
    | dsimp only
    | with_reducible refine Good.upd ?_ rfl
    | (simp only [id_eq])
    | intro _ _
    | intro _

theorem State.makeJob_good {pq fz s x p num tag host flags seed stream refs} (h_s : Good pq fz s) :
    Good pq fz (State.makeJob s x p num tag host flags seed stream refs) := by
  unfold State.makeJob
  repeat' first
    | with_reducible assumption
    | with_reducible refine State.kickJob_good ?_
    | with_reducible refine Good.done ?_
    | split
    | dsimp only
    | with_reducible refine Good.upd ?_ rfl
    | (simp only [id_eq])
    | intro _ _
    | intro _

theorem State.dropHolds_good {pq fz s} (h_s : Good pq fz s) :
    Good pq fz (State.dropHolds s) := by
  unfold State.dropHolds
  repeat' first
    | with_reducible assumption
    | with_reducible refine State.each_good ?_ ?_
    | with_reducible refine State.modPipe_good ?_
    | with_reducible refine Good.done ?_
    | split
    | dsimp only
    | with_reducible refine Good.upd ?_ rfl
    | (simp only [id_eq])
    | intro _ _
    | intro _

theorem State.lapse_good {pq fz s p} (h_s : Good pq fz s) :
    Good pq fz (State.lapse s p) := by
  unfold State.lapse
  repeat' first
    | with_reducible assumption
    | with_reducible refine State.each_good ?_ ?_
    | with_reducible refine State.raiseEv_good ?_
    | with_reducible refine State.modPipe_good ?_
    | with_reducible refine Good.done ?_
    | split
    | dsimp only
    | with_reducible refine Good.upd ?_ rfl
    | (simp only [id_eq])
    | intro _ _
    | intro _

theorem State.dropExport_good {pq fz s p} (h_s : Good pq fz s) :
    Good pq fz (State.dropExport s p) := by
  unfold State.dropExport
  repeat' first
    | with_reducible assumption
    | with_reducible refine State.raise_good ?_
    | with_reducible refine Good.done ?_
    | split
    | dsimp only
    | with_reducible refine Good.upd ?_ rfl
    | (simp only [id_eq])
    | intro _ _
    | intro _

theorem State.linkExport_good {pq fz s x f} (h_s : Good pq fz s) :
    Good pq fz (State.linkExport s x f) := by
  unfold State.linkExport
  repeat' first
    | with_reducible assumption
    | with_reducible refine State.each_good ?_ ?_
    | with_reducible refine State.busRead_good (by assumption) ?_
    | with_reducible refine State.busRead_keeps ?_
    | with_reducible refine State.raise_good ?_
    | with_reducible refine Good.done ?_
    | split
    | dsimp only
    | with_reducible refine Good.upd ?_ rfl
    | (simp only [id_eq])
    | intro _ _
    | intro _

theorem State.publishWith_good {pq fz s x f sel} (h_s : Good pq fz s) :
    Good pq fz (State.publishWith s x f sel) := by
  unfold State.publishWith
  repeat' first
    | with_reducible assumption
    | with_reducible refine State.store_good ?_
    | with_reducible refine State.storeN_good ?_
    | with_reducible refine State.frameEntry_good ?_
    | with_reducible refine State.modPipe_good ?_
    | with_reducible refine State.lapse_good ?_
    | with_reducible refine State.releaseHolds_good ?_
    | with_reducible refine State.dropExport_good ?_
    | with_reducible refine State.linkExport_good ?_
    | with_reducible refine State.kickJobs_good ?_
    | with_reducible refine State.trace_good ?_
    | with_reducible refine Good.done ?_
    | split
    | dsimp only
    | with_reducible refine Good.upd ?_ rfl
    | (simp only [id_eq])
    | intro _ _
    | intro _

theorem State.publishFrame_good {pq fz s x f} (h_s : Good pq fz s) :
    Good pq fz (State.publishFrame s x f) := by
  unfold State.publishFrame
  repeat' first
    | with_reducible assumption
    | with_reducible refine State.readN_good (by assumption) ?_
    | with_reducible refine State.readN_keeps ?_
    | with_reducible refine State.publishWith_good ?_
    | with_reducible refine State.kickJobs_good ?_
    | with_reducible refine State.settleArbs_good ?_
    | with_reducible refine State.withhold_good ?_
    | with_reducible refine Good.done ?_
    | split
    | dsimp only
    | with_reducible refine Good.upd ?_ rfl
    | (simp only [id_eq])
    | intro _ _
    | intro _

theorem State.takeSlots_good {pq fz s p num} {t_ : State} (e_ : (State.takeSlots s p num) = some t_) (h_s : Good pq fz s) :
    Good pq fz t_ := by
  unfold State.takeSlots at e_
  repeat' first
    | with_reducible assumption
    | (simp only [Option.some.injEq, reduceCtorEq] at e_)
    | (obtain ⟨_, rfl⟩ := e_)
    | (obtain ⟨_, _, rfl⟩ := e_)
    | subst e_
    | split at e_
    | with_reducible refine State.releaseHolds_good ?_
    | with_reducible refine State.modPipe_good ?_
    | with_reducible refine State.modFrame_good ?_
    | with_reducible refine Good.done ?_
    | split
    | dsimp only
    | with_reducible refine Good.upd ?_ rfl
    | (simp only [id_eq])
    | intro _ _
    | intro _

theorem State.clearTile_good {pq fz s t} (h_s : Good pq fz s) :
    Good pq fz (State.clearTile s t) := by
  unfold State.clearTile
  repeat' first
    | with_reducible assumption
    | with_reducible refine State.modTile_good ?_
    | with_reducible refine State.clearRange_good ?_
    | with_reducible refine Good.done ?_
    | split
    | dsimp only
    | with_reducible refine Good.upd ?_ rfl
    | (simp only [id_eq])
    | intro _ _
    | intro _

theorem State.rehost_good {pq fz s b k} (h_s : Good pq fz s) :
    Good pq fz (State.rehost s b k) := by
  unfold State.rehost
  repeat' first
    | with_reducible assumption
    | with_reducible refine State.hostOn_good ?_
    | with_reducible refine State.wr_good ?_
    | with_reducible refine State.setSpare_good ?_
    | with_reducible refine State.dropSpare_good ?_
    | with_reducible refine State.clearTile_good ?_
    | with_reducible refine Good.done ?_
    | split
    | dsimp only
    | with_reducible refine Good.upd ?_ rfl
    | (simp only [id_eq])
    | intro _ _
    | intro _

theorem State.rerunJob_good {pq fz s j x moved} (h_s : Good pq fz s) :
    Good pq fz (State.rerunJob s j x moved) := by
  unfold State.rerunJob
  repeat' first
    | with_reducible assumption
    | with_reducible refine State.stopParts_good ?_
    | with_reducible refine State.each_good ?_ ?_
    | with_reducible refine State.rehost_good ?_
    | with_reducible refine State.restore_good ?_
    | with_reducible refine State.putObj_good ?_
    | with_reducible refine State.modJob_good ?_
    | with_reducible refine State.launchSingle_good ?_
    | with_reducible refine State.launch_good ?_
    | with_reducible refine Good.done ?_
    | split
    | dsimp only
    | with_reducible refine Good.upd ?_ rfl
    | (simp only [id_eq])
    | intro _ _
    | intro _

end Sys2Proof.Machine
end

