-- ==== Sys2Proof/Laws/KeepCheck.lean ====
section
/-! SUPPORT. Every operation and command of Machine/Check.lean keeps what `Good` says of a state. -/
namespace Sys2Proof.Machine

theorem State.capture_good {pq fz s c} {y_ t_} (e_ : (State.capture s c) = (y_, t_)) (h_s : Good pq fz s) :
    Good pq fz t_ := by
  unfold State.capture at e_
  repeat' first
    | with_reducible assumption
    | (simp only [Prod.mk.injEq] at e_)
    | (obtain ⟨_, rfl⟩ := e_)
    | (obtain ⟨_, _, rfl⟩ := e_)
    | subst e_
    | split at e_
    | with_reducible refine State.readN_good (by assumption) ?_
    | with_reducible refine State.readN_keeps ?_
    | with_reducible refine State.store_good ?_
    | with_reducible refine State.sysPut_good ?_
    | with_reducible refine Good.done ?_
    | split
    | dsimp only
    | with_reducible refine Good.upd ?_ rfl
    | (simp only [id_eq])
    | intro _ _
    | intro _

theorem State.capture_keeps {pq fz s c} (h_s : Good pq fz s) : Good pq fz (State.capture s c).2 :=
  State.capture_good (y_ := (State.capture s c).1) (t_ := (State.capture s c).2) (Good.eta _) h_s

theorem State.mismatch_good {pq fz s c} (h_s : Good pq fz s) : Good pq fz (State.mismatch s c) := by
  unfold State.mismatch
  dsimp only
  have h : Good pq fz (s.capture c).2 := State.capture_keeps h_s
  generalize s.capture c = x at h
  split
  · exact State.raiseTile_good (State.sysInc_good h_s)
  · split
    · rename_i j _
      generalize (if j.rerun = true then 2 else 1) = lim
      split
      · exact State.sysInc_good h_s
      · refine State.checkJob_good (State.stopParts_good (State.failPart_good (State.modJob_good ?_)))
        split
        · exact State.raiseTile_good h
        · exact Good.upd (State.raiseTile_good h) rfl
    · exact State.sysInc_good h_s

theorem State.arbitrate_good {pq fz s t ord index sums q res} (h_s : Good pq fz s) :
    Good pq fz (State.arbitrate s t ord index sums q res) := by
  unfold State.arbitrate
  repeat' first
    | with_reducible assumption
    | with_reducible refine State.decideArb_good ?_
    | with_reducible refine State.failJob_good ?_
    | with_reducible refine State.kickJobs_good ?_
    | with_reducible refine State.settleArbs_good ?_
    | with_reducible refine Good.done ?_
    | split
    | dsimp only
    | with_reducible refine Good.upd ?_ rfl
    | (simp only [id_eq])
    | intro _ _
    | intro _

end Sys2Proof.Machine
end

