-- ==== Sys2Proof/Laws/KeepTile.lean ====
section
/-! SUPPORT. Every operation and command of Machine/Tile.lean keeps what `Good` says of a state. -/
namespace Sys2Proof.Machine

theorem State.issue_good {pq fz s t f} (h_s : Good pq fz s) (h_f : ∀ x0 x1, Good pq fz x0 → Good pq fz (f x0 x1)) :
    Good pq fz (State.issue s t f) := by
  unfold State.issue
  repeat' first
    | with_reducible assumption
    | refine h_f _ _ ?_
    | with_reducible refine State.sramRead_good (by assumption) ?_
    | with_reducible refine State.sramRead_keeps ?_
    | with_reducible refine State.tileHalt_good ?_
    | with_reducible refine Good.done ?_
    | split
    | dsimp only
    | with_reducible refine Good.upd ?_ rfl
    | (simp only [id_eq])
    | intro _ _
    | intro _

theorem State.goOn_good {pq fz s t pc last} (h_s : Good pq fz s) :
    Good pq fz (State.goOn s t pc last) := by
  unfold State.goOn
  repeat' first
    | with_reducible assumption
    | with_reducible refine State.tileHalt_good ?_
    | with_reducible refine State.modTile_good ?_
    | with_reducible refine Good.done ?_
    | split
    | dsimp only
    | with_reducible refine Good.upd ?_ rfl
    | (simp only [id_eq])
    | intro _ _
    | intro _

theorem State.advance_good {pq fz s t} (h_s : Good pq fz s) :
    Good pq fz (State.advance s t) := by
  unfold State.advance
  repeat' first
    | with_reducible assumption
    | with_reducible refine State.goOn_good ?_
    | with_reducible refine Good.done ?_
    | split
    | dsimp only
    | with_reducible refine Good.upd ?_ rfl
    | (simp only [id_eq])
    | intro _ _
    | intro _

theorem State.setG_good {pq fz s t r v} (h_s : Good pq fz s) :
    Good pq fz (State.setG s t r v) := by
  unfold State.setG
  repeat' first
    | with_reducible assumption
    | with_reducible refine State.modTile_good ?_
    | with_reducible refine Good.done ?_
    | split
    | dsimp only
    | with_reducible refine Good.upd ?_ rfl
    | (simp only [id_eq])
    | intro _ _
    | intro _

theorem State.trapAt_good {pq fz s t cause} (h_s : Good pq fz s) :
    Good pq fz (State.trapAt s t cause) := by
  unfold State.trapAt
  repeat' first
    | with_reducible assumption
    | with_reducible refine State.tileHalt_good ?_
    | with_reducible refine Good.done ?_
    | split
    | dsimp only
    | with_reducible refine Good.upd ?_ rfl
    | (simp only [id_eq])
    | intro _ _
    | intro _

theorem State.issueC_good {pq fz s t f} (h_s : Good pq fz s) (h_f : ∀ x0 x1, Good pq fz x0 → Good pq fz (f x0 x1)) :
    Good pq fz (State.issueC s t f) := by
  unfold State.issueC
  repeat' first
    | with_reducible assumption
    | refine h_f _ _ ?_
    | with_reducible refine State.issue_good ?_ ?_
    | with_reducible refine State.tileHalt_good ?_
    | with_reducible refine Good.done ?_
    | split
    | dsimp only
    | with_reducible refine Good.upd ?_ rfl
    | (simp only [id_eq])
    | intro _ _
    | intro _

theorem State.tileStore_good {pq fz s t a align b} {y_ t_} (e_ : (State.tileStore s t a align b) = (y_, t_)) (h_s : Good pq fz s) :
    Good pq fz t_ := by
  unfold State.tileStore at e_
  repeat' first
    | with_reducible assumption
    | (simp only [Prod.mk.injEq] at e_)
    | (obtain ⟨_, rfl⟩ := e_)
    | (obtain ⟨_, _, rfl⟩ := e_)
    | subst e_
    | split at e_
    | with_reducible refine State.sramWrite_good (by assumption) ?_
    | with_reducible refine State.sramWrite_keeps ?_
    | with_reducible refine State.markPart_good ?_
    | with_reducible refine Good.done ?_
    | split
    | dsimp only
    | with_reducible refine Good.upd ?_ rfl
    | (simp only [id_eq])
    | intro _ _
    | intro _

theorem State.tileStore_keeps {pq fz s t a align b} (h_s : Good pq fz s) : Good pq fz (State.tileStore s t a align b).2 :=
  State.tileStore_good (y_ := (State.tileStore s t a align b).1) (t_ := (State.tileStore s t a align b).2) (Good.eta _) h_s

theorem State.setV_good {pq fz s t r l} (h_s : Good pq fz s) :
    Good pq fz (State.setV s t r l) := by
  unfold State.setV
  repeat' first
    | with_reducible assumption
    | with_reducible refine State.modTile_good ?_
    | with_reducible refine Good.done ?_
    | split
    | dsimp only
    | with_reducible refine Good.upd ?_ rfl
    | (simp only [id_eq])
    | intro _ _
    | intro _

theorem State.jump_good {pq fz s t target link} (h_s : Good pq fz s) (h_link : ∀ x0, Good pq fz x0 → Good pq fz (link x0)) :
    Good pq fz (State.jump s t target link) := by
  unfold State.jump
  repeat' first
    | with_reducible assumption
    | refine h_link _ ?_
    | with_reducible refine State.tileHalt_good ?_
    | with_reducible refine State.modTile_good ?_
    | with_reducible refine Good.done ?_
    | split
    | dsimp only
    | with_reducible refine Good.upd ?_ rfl
    | (simp only [id_eq])
    | intro _ _
    | intro _

theorem State.tileLoad_good {pq fz s t a n align} {y_ t_} (e_ : (State.tileLoad s t a n align) = (y_, t_)) (h_s : Good pq fz s) :
    Good pq fz t_ := by
  unfold State.tileLoad at e_
  repeat' first
    | with_reducible assumption
    | (simp only [Prod.mk.injEq] at e_)
    | (obtain ⟨_, rfl⟩ := e_)
    | (obtain ⟨_, _, rfl⟩ := e_)
    | subst e_
    | split at e_
    | with_reducible refine State.sramRead_good (by assumption) ?_
    | with_reducible refine State.sramRead_keeps ?_
    | with_reducible refine State.markPart_good ?_
    | with_reducible refine Good.done ?_
    | split
    | dsimp only
    | with_reducible refine Good.upd ?_ rfl
    | (simp only [id_eq])
    | intro _ _
    | intro _

theorem State.tileLoad_keeps {pq fz s t a n align} (h_s : Good pq fz s) : Good pq fz (State.tileLoad s t a n align).2 :=
  State.tileLoad_good (y_ := (State.tileLoad s t a n align).1) (t_ := (State.tileLoad s t a n align).2) (Good.eta _) h_s

end Sys2Proof.Machine
end

