-- ==== Sys2Proof/Laws/KeepArray.lean ====
section
/-! SUPPORT. Every operation and command of Machine/Array.lean keeps what `Good` says of a state. -/
namespace Sys2Proof.Machine

theorem State.writeRuns_good {pq fz s u base l} {y_ t_} (e_ : (State.writeRuns s u base l) = (y_, t_)) (h_s : Good pq fz s) :
    Good pq fz t_ :=
  Good.fold e_ h_s (fun _ s b h =>
    State.sramWrite_good (y_ := (s.sramWrite (mDma u) true (base + b.1) b.2).1) (t_ := (s.sramWrite (mDma u) true (base + b.1) b.2).2) rfl h)

theorem State.writeRuns_keeps {pq fz s u base l} (h_s : Good pq fz s) : Good pq fz (State.writeRuns s u base l).2 :=
  State.writeRuns_good (y_ := (State.writeRuns s u base l).1) (t_ := (State.writeRuns s u base l).2) (Good.eta _) h_s

theorem State.arrHalt_good {pq fz s t u pc cause} (h_s : Good pq fz s) :
    Good pq fz (State.arrHalt s t u pc cause) := by
  unfold State.arrHalt
  repeat' first
    | with_reducible assumption
    | with_reducible refine State.modTile_good ?_
    | with_reducible refine State.tileHalt_good ?_
    | with_reducible refine Good.done ?_
    | split
    | dsimp only
    | with_reducible refine Good.upd ?_ rfl
    | (simp only [id_eq])
    | intro _ _
    | intro _

theorem State.drainPut_keeps {pq fz s t d e} (h_s : Good pq fz s) : Good pq fz (State.drainPut s t d e).2 := by
  unfold State.drainPut
  repeat' first
    | with_reducible assumption
    | with_reducible refine State.writeRuns_good (by assumption) ?_
    | with_reducible refine State.writeRuns_keeps ?_
    | with_reducible refine State.arrHalt_good ?_
    | with_reducible refine State.cnt_good ?_
    | with_reducible refine State.wr_good ?_
    | with_reducible refine State.sramWrite_good (by assumption) ?_
    | with_reducible refine State.sramWrite_keeps ?_
    | split
    | dsimp only
    | with_reducible refine Good.upd ?_ rfl
    | (simp only [id_eq])
    | intro _ _
    | intro _

theorem State.drainPut_good {pq fz s t d e} {y_ t_} (e_ : (State.drainPut s t d e) = (y_, t_)) (h_s : Good pq fz s) : Good pq fz t_ := by
  have h := State.drainPut_keeps (pq := pq) (fz := fz) (s := s) (t := t) (d := d) (e := e) h_s
  rw [e_] at h
  exact h

theorem State.drainLast_keeps {pq fz s t d e shadow} (h_s : Good pq fz s) : Good pq fz (State.drainLast s t d e shadow).2 := by
  unfold State.drainLast
  repeat' first
    | with_reducible assumption
    | with_reducible refine State.drainPut_good (by assumption) ?_
    | with_reducible refine State.drainPut_keeps ?_
    | split
    | dsimp only
    | with_reducible refine Good.upd ?_ rfl
    | (simp only [id_eq])
    | intro _ _
    | intro _

theorem State.drainLast_good {pq fz s t d e shadow} {y_ t_} (e_ : (State.drainLast s t d e shadow) = (y_, t_)) (h_s : Good pq fz s) : Good pq fz t_ := by
  have h := State.drainLast_keeps (pq := pq) (fz := fz) (s := s) (t := t) (d := d) (e := e) (shadow := shadow) h_s
  rw [e_] at h
  exact h

theorem State.freeNats_good {pq fz n s y_ t_} (e_ : State.freeNats n s = (y_, t_)) (h_s : Good pq fz s) : Good pq fz t_ := by
  induction n generalizing s y_ t_ with
  | zero => simp only [State.freeNats, Prod.mk.injEq] at e_; obtain ⟨_, rfl⟩ := e_; exact h_s
  | succ n ih =>
    simp only [State.freeNats, Prod.mk.injEq] at e_
    obtain ⟨_, rfl⟩ := e_
    exact ih rfl (State.free_keeps h_s)

theorem State.freeNats_keeps {pq fz a0 a1} (h_a1 : Good pq fz a1) : Good pq fz (State.freeNats a0 a1).2 :=
  State.freeNats_good (y_ := (State.freeNats a0 a1).1) (t_ := (State.freeNats a0 a1).2) (Good.eta _) h_a1

theorem State.drainOver_good {pq fz s t d e shadow} (h_s : Good pq fz s) : Good pq fz (State.drainOver s t d e shadow) := by
  have h1 : Good pq fz (match d.sig with
    | some o => (s.modTile t (fun x => { x with drain := none })).localAdd t o 1
    | none => s.modTile t (fun x => { x with drain := none })) := by
    split
    · exact State.localAdd_good (State.modTile_good h_s)
    · exact State.modTile_good h_s
  unfold State.drainOver
  refine Good.ite (fun _ => ?_) (fun _ => State.arbitrate_good h1)
  exact State.mismatch_good (State.freeNats_good rfl h1)

theorem State.drainEnd_good {pq fz s t shadow} (h_s : Good pq fz s) :
    Good pq fz (State.drainEnd s t shadow) := by
  unfold State.drainEnd
  repeat' first
    | with_reducible assumption
    | with_reducible refine State.drainLast_good (by assumption) ?_
    | with_reducible refine State.drainLast_keeps ?_
    | with_reducible refine State.drainOver_good ?_
    | with_reducible refine Good.done ?_
    | split
    | dsimp only
    | with_reducible refine Good.upd ?_ rfl
    | (simp only [id_eq])
    | intro _ _
    | intro _

theorem execDrainEnd_good {pq fz t shadow s} (h_s : Good pq fz s) :
    GoodOut pq fz (execDrainEnd t shadow s) := by
  unfold execDrainEnd
  repeat' first
    | with_reducible assumption
    | with_reducible refine State.drainEnd_good ?_
    | with_reducible refine Good.done ?_
    | split
    | dsimp only
    | with_reducible refine Good.upd ?_ rfl
    | (simp only [id_eq])
    | intro _ _
    | intro _

theorem State.dataRead_good {pq fz s u a n} {y_ t_} (e_ : (State.dataRead s u a n) = (y_, t_)) (h_s : Good pq fz s) : Good pq fz t_ :=
  State.sramRead_good e_ h_s

theorem State.dataRead_keeps {pq fz s u a n} (h_s : Good pq fz s) : Good pq fz (State.dataRead s u a n).2 :=
  State.dataRead_good (y_ := (State.dataRead s u a n).1) (t_ := (State.dataRead s u a n).2) (Good.eta _) h_s

theorem State.readSome_keeps {pq fz s u a n} (h_s : Good pq fz s) : Good pq fz (State.readSome s u a n).2 := by
  unfold State.readSome
  repeat' first
    | with_reducible assumption
    | with_reducible refine State.dataRead_good (by assumption) ?_
    | with_reducible refine State.dataRead_keeps ?_
    | split
    | dsimp only
    | with_reducible refine Good.upd ?_ rfl
    | (simp only [id_eq])
    | intro _ _
    | intro _

theorem State.readSome_good {pq fz s u a n} {y_ t_} (e_ : (State.readSome s u a n) = (y_, t_)) (h_s : Good pq fz s) : Good pq fz t_ := by
  have h := State.readSome_keeps (pq := pq) (fz := fz) (s := s) (u := u) (a := a) (n := n) h_s
  rw [e_] at h
  exact h

theorem State.readChunk_keeps {pq fz s t f u} (h_s : Good pq fz s) : Good pq fz (State.readChunk s t f u).2 := by
  unfold State.readChunk
  repeat' first
    | with_reducible assumption
    | with_reducible refine State.dataRead_good (by assumption) ?_
    | with_reducible refine State.dataRead_keeps ?_
    | with_reducible refine State.arrHalt_good ?_
    | with_reducible refine State.readSome_good (by assumption) ?_
    | with_reducible refine State.readSome_keeps ?_
    | with_reducible refine State.cnt_good ?_
    | split
    | dsimp only
    | with_reducible refine Good.upd ?_ rfl
    | (simp only [id_eq])
    | intro _ _
    | intro _

theorem State.readChunk_good {pq fz s t f u} {y_ t_} (e_ : (State.readChunk s t f u) = (y_, t_)) (h_s : Good pq fz s) : Good pq fz t_ := by
  have h := State.readChunk_keeps (pq := pq) (fz := fz) (s := s) (t := t) (f := f) (u := u) h_s
  rw [e_] at h
  exact h

theorem State.acceptBeat_good {pq fz s t st c} (h_s : Good pq fz s) :
    Good pq fz (State.acceptBeat s t st c) := by
  unfold State.acceptBeat
  repeat' first
    | with_reducible assumption
    | with_reducible refine State.modTile_good ?_
    | with_reducible refine Good.done ?_
    | split
    | dsimp only
    | with_reducible refine Good.upd ?_ rfl
    | (simp only [id_eq])
    | intro _ _
    | intro _

theorem State.accRead_good {pq fz s u a n} {y_ t_} (e_ : (State.accRead s u a n) = (y_, t_)) (h_s : Good pq fz s) : Good pq fz t_ :=
  State.sramRead_good e_ h_s

theorem State.accRead_keeps {pq fz s u a n} (h_s : Good pq fz s) : Good pq fz (State.accRead s u a n).2 :=
  State.accRead_good (y_ := (State.accRead s u a n).1) (t_ := (State.accRead s u a n).2) (Good.eta _) h_s

theorem State.carryOf_keeps {pq fz s f hs n} (h_s : Good pq fz s) : Good pq fz (State.carryOf s f hs n).2 := by
  unfold State.carryOf
  repeat' first
    | with_reducible assumption
    | with_reducible refine State.accRead_good (by assumption) ?_
    | with_reducible refine State.accRead_keeps ?_
    | split
    | dsimp only
    | with_reducible refine Good.upd ?_ rfl
    | (simp only [id_eq])
    | intro _ _
    | intro _

theorem State.carryOf_good {pq fz s f hs n} {y_ t_} (e_ : (State.carryOf s f hs n) = (y_, t_)) (h_s : Good pq fz s) : Good pq fz t_ := by
  have h := State.carryOf_keeps (pq := pq) (fz := fz) (s := s) (f := f) (hs := hs) (n := n) h_s
  rw [e_] at h
  exact h

theorem State.modVec_good {pq fz s t p g} (h_s : Good pq fz s) :
    Good pq fz (State.modVec s t p g) := by
  unfold State.modVec
  repeat' first
    | with_reducible assumption
    | with_reducible refine State.modTile_good ?_
    | with_reducible refine Good.done ?_
    | split
    | dsimp only
    | with_reducible refine Good.upd ?_ rfl
    | (simp only [id_eq])
    | intro _ _
    | intro _

theorem State.putRow_good {pq fz s f u i vals} {y_ t_} (e_ : (State.putRow s f u i vals) = (y_, t_)) (h_s : Good pq fz s) :
    Good pq fz t_ := by
  unfold State.putRow at e_
  repeat' first
    | with_reducible assumption
    | (simp only [Prod.mk.injEq] at e_)
    | (obtain ⟨_, rfl⟩ := e_)
    | (obtain ⟨_, _, rfl⟩ := e_)
    | subst e_
    | split at e_
    | with_reducible refine State.writeRuns_good (by assumption) ?_
    | with_reducible refine State.writeRuns_keeps ?_
    | with_reducible refine Good.done ?_
    | split
    | dsimp only
    | with_reducible refine Good.upd ?_ rfl
    | (simp only [id_eq])
    | intro _ _
    | intro _

theorem State.putRow_keeps {pq fz s f u i vals} (h_s : Good pq fz s) : Good pq fz (State.putRow s f u i vals).2 :=
  State.putRow_good (y_ := (State.putRow s f u i vals).1) (t_ := (State.putRow s f u i vals).2) (Good.eta _) h_s

theorem State.vectorAccumulate_good {pq fz s u err shadow} (h_s : Good pq fz s) :
    Good pq fz (State.vectorAccumulate s u err shadow) := by
  unfold State.vectorAccumulate
  repeat' first
    | with_reducible assumption
    | with_reducible refine State.carryOf_good (by assumption) ?_
    | with_reducible refine State.carryOf_keeps ?_
    | with_reducible refine State.arrHalt_good ?_
    | with_reducible refine State.modVec_good ?_
    | with_reducible refine State.cnt_good ?_
    | with_reducible refine State.wr_good ?_
    | with_reducible refine State.putRow_good (by assumption) ?_
    | with_reducible refine State.putRow_keeps ?_
    | with_reducible refine Good.done ?_
    | split
    | dsimp only
    | with_reducible refine Good.upd ?_ rfl
    | (simp only [id_eq])
    | intro _ _
    | intro _

theorem State.noteBank_good {pq fz s u n c f} (h_s : Good pq fz s) :
    Good pq fz (State.noteBank s u n c f) := by
  unfold State.noteBank
  repeat' first
    | with_reducible assumption
    | with_reducible refine State.modTile_good ?_
    | with_reducible refine Good.done ?_
    | split
    | dsimp only
    | with_reducible refine Good.upd ?_ rfl
    | (simp only [id_eq])
    | intro _ _
    | intro _

theorem State.flyTile_keeps {pq fz s t c u n f} (h_s : Good pq fz s) : Good pq fz (State.flyTile s t c u n f).2 := by
  unfold State.flyTile
  repeat' first
    | with_reducible assumption
    | with_reducible refine State.noteBank_good ?_
    | with_reducible refine State.readChunk_good (by assumption) ?_
    | with_reducible refine State.readChunk_keeps ?_
    | split
    | dsimp only
    | with_reducible refine Good.upd ?_ rfl
    | (simp only [id_eq])
    | intro _ _
    | intro _

theorem State.flyTile_good {pq fz s t c u n f} {y_ t_} (e_ : (State.flyTile s t c u n f) = (y_, t_)) (h_s : Good pq fz s) : Good pq fz t_ := by
  have h := State.flyTile_keeps (pq := pq) (fz := fz) (s := s) (t := t) (c := c) (u := u) (n := n) (f := f) h_s
  rw [e_] at h
  exact h

theorem State.flyVec_good {pq fz s t c f} {y_ t_} (e_ : (State.flyVec s t c f) = (y_, t_)) (h_s : Good pq fz s) :
    Good pq fz t_ := by
  refine Good.fold e_ h_s (fun y s b h => ?_)
  cases y with
  | none => exact h
  | some f => exact State.flyTile_keeps h

theorem State.flyVec_keeps {pq fz s t c f} (h_s : Good pq fz s) : Good pq fz (State.flyVec s t c f).2 :=
  State.flyVec_good (y_ := (State.flyVec s t c f).1) (t_ := (State.flyVec s t c f).2) (Good.eta _) h_s

theorem execArrClrCnt_good {pq fz t s} (h_s : Good pq fz s) :
    GoodOut pq fz (execArrClrCnt t s) := by
  unfold execArrClrCnt
  repeat' first
    | with_reducible assumption
    | with_reducible refine State.violHole_good ?_
    | with_reducible refine State.holdAccess_good ?_
    | with_reducible refine State.clearFlds_good ?_
    | with_reducible refine Good.done ?_
    | split
    | dsimp only
    | with_reducible refine Good.upd ?_ rfl
    | (simp only [id_eq])
    | intro _ _
    | intro _

theorem State.residueCompare_good {pq fz s u err} (h_s : Good pq fz s) :
    Good pq fz (State.residueCompare s u err) := by
  unfold State.residueCompare
  repeat' first
    | with_reducible assumption
    | with_reducible refine State.modTile_good ?_
    | with_reducible refine State.arbitrate_good ?_
    | with_reducible refine State.mismatch_good ?_
    | with_reducible refine Good.done ?_
    | split
    | dsimp only
    | with_reducible refine Good.upd ?_ rfl
    | (simp only [id_eq])
    | intro _ _
    | intro _

theorem State.modLoad_good {pq fz s t o f} (h_s : Good pq fz s) :
    Good pq fz (State.modLoad s t o f) := by
  unfold State.modLoad
  repeat' first
    | with_reducible assumption
    | with_reducible refine State.modTile_good ?_
    | with_reducible refine Good.done ?_
    | split
    | dsimp only
    | with_reducible refine Good.upd ?_ rfl
    | (simp only [id_eq])
    | intro _ _
    | intro _

theorem State.loadBegin_keeps {pq fz s t o u n} (h_s : Good pq fz s) : Good pq fz (State.loadBegin s t o u n).2 := by
  unfold State.loadBegin
  repeat' first
    | with_reducible assumption
    | with_reducible refine State.readSome_good (by assumption) ?_
    | with_reducible refine State.readSome_keeps ?_
    | with_reducible refine State.arrHalt_good ?_
    | with_reducible refine State.modLoad_good ?_
    | with_reducible refine State.modTile_good ?_
    | with_reducible refine State.cnt_good ?_
    | split
    | dsimp only
    | with_reducible refine Good.upd ?_ rfl
    | (simp only [id_eq])
    | intro _ _
    | intro _

theorem State.loadBegin_good {pq fz s t o u n} {y_ t_} (e_ : (State.loadBegin s t o u n) = (y_, t_)) (h_s : Good pq fz s) : Good pq fz t_ := by
  have h := State.loadBegin_keeps (pq := pq) (fz := fz) (s := s) (t := t) (o := o) (u := u) (n := n) h_s
  rw [e_] at h
  exact h

theorem State.sideFor_keeps {pq fz s t o u n r} (h_s : Good pq fz s) : Good pq fz (State.sideFor s t o u n r).2 := by
  unfold State.sideFor
  repeat' first
    | with_reducible assumption
    | with_reducible refine State.loadBegin_good (by assumption) ?_
    | with_reducible refine State.loadBegin_keeps ?_
    | split
    | dsimp only
    | with_reducible refine Good.upd ?_ rfl
    | (simp only [id_eq])
    | intro _ _
    | intro _

theorem State.sideFor_good {pq fz s t o u n r} {y_ t_} (e_ : (State.sideFor s t o u n r) = (y_, t_)) (h_s : Good pq fz s) : Good pq fz t_ := by
  have h := State.sideFor_keeps (pq := pq) (fz := fz) (s := s) (t := t) (o := o) (u := u) (n := n) (r := r) h_s
  rw [e_] at h
  exact h

theorem State.loadRow_keeps {pq fz s t o u n r} (h_s : Good pq fz s) : Good pq fz (State.loadRow s t o u n r).2 := by
  unfold State.loadRow
  repeat' first
    | with_reducible assumption
    | with_reducible refine State.sideFor_good (by assumption) ?_
    | with_reducible refine State.sideFor_keeps ?_
    | with_reducible refine State.readSome_good (by assumption) ?_
    | with_reducible refine State.readSome_keeps ?_
    | with_reducible refine State.arrHalt_good ?_
    | with_reducible refine State.modTile_good ?_
    | split
    | dsimp only
    | with_reducible refine Good.upd ?_ rfl
    | (simp only [id_eq])
    | intro _ _
    | intro _

theorem State.loadRow_good {pq fz s t o u n r} {y_ t_} (e_ : (State.loadRow s t o u n r) = (y_, t_)) (h_s : Good pq fz s) : Good pq fz t_ := by
  have h := State.loadRow_keeps (pq := pq) (fz := fz) (s := s) (t := t) (o := o) (u := u) (n := n) (r := r) h_s
  rw [e_] at h
  exact h

theorem State.loadStep_good {pq fz s t c} (h_s : Good pq fz s) :
    Good pq fz (State.loadStep s t c) := by
  unfold State.loadStep
  repeat' first
    | with_reducible assumption
    | with_reducible refine runAll_good (by assumption) ?_ ?_
    | with_reducible refine runAll_keeps ?_ ?_
    | with_reducible refine State.loadRow_good (by assumption) ?_
    | with_reducible refine State.loadRow_keeps ?_
    | with_reducible refine Good.done ?_
    | split
    | dsimp only
    | with_reducible refine Good.upd ?_ rfl
    | (simp only [id_eq])
    | intro _ _
    | intro _

theorem State.noteFeed_good {pq fz s u r feeder} (h_s : Good pq fz s) :
    Good pq fz (State.noteFeed s u r feeder) := by
  unfold State.noteFeed
  repeat' first
    | with_reducible assumption
    | with_reducible refine State.modTile_good ?_
    | with_reducible refine State.cnt_good ?_
    | with_reducible refine Good.done ?_
    | split
    | dsimp only
    | with_reducible refine Good.upd ?_ rfl
    | (simp only [id_eq])
    | intro _ _
    | intro _

theorem State.feed_good {pq fz s t c} (h_s : Good pq fz s) :
    Good pq fz (State.feed s t c) := by
  unfold State.feed
  repeat' first
    | with_reducible assumption
    | with_reducible refine State.modTile_good ?_
    | with_reducible refine State.each_good ?_ ?_
    | with_reducible refine State.noteFeed_good ?_
    | with_reducible refine State.acceptBeat_good ?_
    | with_reducible refine Good.done ?_
    | split
    | dsimp only
    | with_reducible refine Good.upd ?_ rfl
    | (simp only [id_eq])
    | intro _ _
    | intro _

theorem execResidueCompare_good {pq fz t err s} (h_s : Good pq fz s) :
    GoodOut pq fz (execResidueCompare t err s) := by
  unfold execResidueCompare
  repeat' first
    | with_reducible assumption
    | with_reducible refine State.residueCompare_good ?_
    | with_reducible refine Good.done ?_
    | split
    | dsimp only
    | with_reducible refine Good.upd ?_ rfl
    | (simp only [id_eq])
    | intro _ _
    | intro _

theorem State.startLoad_good {pq fz s t o} (h_s : Good pq fz s) :
    Good pq fz (State.startLoad s t o) := by
  unfold State.startLoad
  repeat' first
    | with_reducible assumption
    | with_reducible refine State.arrHalt_good ?_
    | with_reducible refine State.modTile_good ?_
    | with_reducible refine State.dataRead_good (by assumption) ?_
    | with_reducible refine State.dataRead_keeps ?_
    | with_reducible refine Good.done ?_
    | split
    | dsimp only
    | with_reducible refine Good.upd ?_ rfl
    | (simp only [id_eq])
    | intro _ _
    | intro _

theorem State.startStream_good {pq fz s t o} (h_s : Good pq fz s) :
    Good pq fz (State.startStream s t o) := by
  unfold State.startStream
  repeat' first
    | with_reducible assumption
    | with_reducible refine State.arrHalt_good ?_
    | with_reducible refine State.modTile_good ?_
    | with_reducible refine State.each_good ?_ ?_
    | with_reducible refine State.wr_good ?_
    | with_reducible refine Good.done ?_
    | split
    | dsimp only
    | with_reducible refine Good.upd ?_ rfl
    | (simp only [id_eq])
    | intro _ _
    | intro _

theorem State.readDescs_good {pq fz t pc desc cols fp l s} {y_ t_} (e_ : (State.readDescs t pc desc cols fp l s) = (y_, t_))
    (h_s : Good pq fz s) : Good pq fz t_ := by
  induction l generalizing s y_ t_ with
  | nil => simp only [State.readDescs, Prod.mk.injEq] at e_; obtain ⟨_, rfl⟩ := e_; exact h_s
  | cons u r ih =>
    rw [State.readDescs] at e_
    split at e_
    · rename_i hd; simp only [Prod.mk.injEq] at e_; obtain ⟨_, rfl⟩ := e_; exact State.arrHalt_good (State.dataRead_good hd h_s)
    · rename_i hd
      have h := State.dataRead_good hd h_s
      dsimp only at e_
      split at e_
      · simp only [Prod.mk.injEq] at e_; obtain ⟨_, rfl⟩ := e_; exact State.arrHalt_good h
      · split at e_
        · rename_i hd; simp only [Prod.mk.injEq] at e_; obtain ⟨_, rfl⟩ := e_; exact State.arrHalt_good (State.dataRead_good hd h)
        · rename_i hd
          have h := State.dataRead_good hd h
          split at e_
          · simp only [Prod.mk.injEq] at e_; obtain ⟨_, rfl⟩ := e_; exact State.arrHalt_good h
          · simp only [Prod.mk.injEq] at e_; obtain ⟨_, rfl⟩ := e_; exact ih rfl h

theorem State.readDescs_keeps {pq fz t pc desc cols fp a5 a6} (h_a6 : Good pq fz a6) : Good pq fz (State.readDescs t pc desc cols fp a5 a6).2 :=
  State.readDescs_good (y_ := (State.readDescs t pc desc cols fp a5 a6).1) (t_ := (State.readDescs t pc desc cols fp a5 a6).2) (Good.eta _) h_a6

theorem State.startDrain_good {pq fz s t o} (h_s : Good pq fz s) :
    Good pq fz (State.startDrain s t o) := by
  unfold State.startDrain
  repeat' first
    | with_reducible assumption
    | with_reducible refine State.arrHalt_good ?_
    | with_reducible refine State.readDescs_good (by assumption) ?_
    | with_reducible refine State.readDescs_keeps ?_
    | with_reducible refine State.modTile_good ?_
    | with_reducible refine Good.done ?_
    | split
    | dsimp only
    | with_reducible refine Good.upd ?_ rfl
    | (simp only [id_eq])
    | intro _ _
    | intro _

theorem State.arrayOpStart_good {pq fz s t} (h_s : Good pq fz s) :
    Good pq fz (State.arrayOpStart s t) := by
  unfold State.arrayOpStart
  repeat' first
    | with_reducible assumption
    | with_reducible refine State.startLoad_good ?_
    | with_reducible refine State.startStream_good ?_
    | with_reducible refine State.startDrain_good ?_
    | with_reducible refine Good.done ?_
    | split
    | dsimp only
    | with_reducible refine Good.upd ?_ rfl
    | (simp only [id_eq])
    | intro _ _
    | intro _

theorem execArrayOpStart_good {pq fz t s} (h_s : Good pq fz s) :
    GoodOut pq fz (execArrayOpStart t s) := by
  unfold execArrayOpStart
  repeat' first
    | with_reducible assumption
    | with_reducible refine State.arrayOpStart_good ?_
    | with_reducible refine Good.done ?_
    | split
    | dsimp only
    | with_reducible refine Good.upd ?_ rfl
    | (simp only [id_eq])
    | intro _ _
    | intro _

theorem State.drainWrites_keeps {pq fz s t c} (h_s : Good pq fz s) : Good pq fz (State.drainWrites s t c).2 := by
  unfold State.drainWrites
  repeat' first
    | with_reducible assumption
    | with_reducible refine runAll_good (by assumption) ?_ ?_
    | with_reducible refine runAll_keeps ?_ ?_
    | with_reducible refine State.drainPut_good (by assumption) ?_
    | with_reducible refine State.drainPut_keeps ?_
    | with_reducible refine State.modTile_good ?_
    | with_reducible refine State.arbitrate_good ?_
    | split
    | dsimp only
    | with_reducible refine Good.upd ?_ rfl
    | (simp only [id_eq])
    | intro _ _
    | intro _

theorem State.drainWrites_good {pq fz s t c} {y_ t_} (e_ : (State.drainWrites s t c) = (y_, t_)) (h_s : Good pq fz s) : Good pq fz t_ := by
  have h := State.drainWrites_keeps (pq := pq) (fz := fz) (s := s) (t := t) (c := c) h_s
  rw [e_] at h
  exact h

theorem State.drainReads_keeps {pq fz s t c} (h_s : Good pq fz s) : Good pq fz (State.drainReads s t c).2 := by
  unfold State.drainReads
  repeat' first
    | with_reducible assumption
    | with_reducible refine runAll_good (by assumption) ?_ ?_
    | with_reducible refine runAll_keeps ?_ ?_
    | with_reducible refine State.accRead_good (by assumption) ?_
    | with_reducible refine State.accRead_keeps ?_
    | with_reducible refine State.arrHalt_good ?_
    | with_reducible refine State.modTile_good ?_
    | split
    | dsimp only
    | with_reducible refine Good.upd ?_ rfl
    | (simp only [id_eq])
    | intro _ _
    | intro _

theorem State.drainReads_good {pq fz s t c} {y_ t_} (e_ : (State.drainReads s t c) = (y_, t_)) (h_s : Good pq fz s) : Good pq fz t_ := by
  have h := State.drainReads_keeps (pq := pq) (fz := fz) (s := s) (t := t) (c := c) h_s
  rw [e_] at h
  exact h

theorem State.drainStep_good {pq fz s t c} (h_s : Good pq fz s) :
    Good pq fz (State.drainStep s t c) := by
  unfold State.drainStep
  repeat' first
    | with_reducible assumption
    | with_reducible refine State.drainWrites_good (by assumption) ?_
    | with_reducible refine State.drainWrites_keeps ?_
    | with_reducible refine State.drainReads_good (by assumption) ?_
    | with_reducible refine State.drainReads_keeps ?_
    | with_reducible refine Good.done ?_
    | split
    | dsimp only
    | with_reducible refine Good.upd ?_ rfl
    | (simp only [id_eq])
    | intro _ _
    | intro _

theorem State.flyStep_good {pq fz s t c} (h_s : Good pq fz s) :
    Good pq fz (State.flyStep s t c) := by
  unfold State.flyStep
  repeat' first
    | with_reducible assumption
    | with_reducible refine runAll_good (by assumption) ?_ ?_
    | with_reducible refine runAll_keeps ?_ ?_
    | with_reducible refine State.flyVec_good (by assumption) ?_
    | with_reducible refine State.flyVec_keeps ?_
    | with_reducible refine State.modTile_good ?_
    | with_reducible refine Good.done ?_
    | split
    | dsimp only
    | with_reducible refine Good.upd ?_ rfl
    | (simp only [id_eq])
    | intro _ _
    | intro _

theorem State.feederCycle_good {pq fz s t} (h_s : Good pq fz s) :
    Good pq fz (State.feederCycle s t) := by
  unfold State.feederCycle
  repeat' first
    | with_reducible assumption
    | with_reducible refine State.drainStep_good ?_
    | with_reducible refine State.flyStep_good ?_
    | with_reducible refine State.loadStep_good ?_
    | with_reducible refine State.feed_good ?_
    | with_reducible refine State.modTile_good ?_
    | with_reducible refine Good.done ?_
    | split
    | dsimp only
    | with_reducible refine Good.upd ?_ rfl
    | (simp only [id_eq])
    | intro _ _
    | intro _

theorem execVectorAccumulate_good {pq fz t err shadow s} (h_s : Good pq fz s) :
    GoodOut pq fz (execVectorAccumulate t err shadow s) := by
  unfold execVectorAccumulate
  repeat' first
    | with_reducible assumption
    | with_reducible refine State.vectorAccumulate_good ?_
    | with_reducible refine Good.done ?_
    | split
    | dsimp only
    | with_reducible refine Good.upd ?_ rfl
    | (simp only [id_eq])
    | intro _ _
    | intro _

theorem execFeederCycle_good {pq fz t s} (h_s : Good pq fz s) :
    GoodOut pq fz (execFeederCycle t s) := by
  unfold execFeederCycle
  repeat' first
    | with_reducible assumption
    | with_reducible refine onlyIf_good ?_ ?_
    | with_reducible refine State.feederCycle_good ?_
    | with_reducible refine Good.done ?_
    | split
    | dsimp only
    | with_reducible refine Good.upd ?_ rfl
    | (simp only [id_eq])
    | intro _ _
    | intro _

end Sys2Proof.Machine
end

