-- ==== Sys2Proof/Laws/KeepMailbox.lean ====
section
/-! SUPPORT. Every operation and command of Machine/Mailbox.lean keeps what `Good` says of a state. -/
namespace Sys2Proof.Machine

theorem State.offer_good {pq fz s kind sl body} (h_s : Good pq fz s) :
    Good pq fz (State.offer s kind sl body) := by
  unfold State.offer
  repeat' first
    | with_reducible assumption
    | with_reducible refine Good.done ?_
    | split
    | dsimp only
    | with_reducible refine Good.upd ?_ rfl
    | (simp only [id_eq])
    | intro _ _
    | intro _

end Sys2Proof.Machine
end

