-- ==== Sys2Proof/Laws/KeepStreams.lean ====
section
/-! SUPPORT. Every operation and command of Machine/Streams.lean keeps what `Good` says of a state. -/
namespace Sys2Proof.Machine

theorem State.noteState_good {pq fz s n} (h_s : Good pq fz s) :
    Good pq fz (State.noteState s n) := by
  unfold State.noteState
  repeat' first
    | with_reducible assumption
    | with_reducible refine State.freeBs_good (by assumption) ?_
    | with_reducible refine State.freeBs_keeps ?_
    | with_reducible refine State.store_good ?_
    | with_reducible refine Good.done ?_
    | split
    | dsimp only
    | with_reducible refine Good.upd ?_ rfl
    | (simp only [id_eq])
    | intro _ _
    | intro _

theorem State.readDesc_good {pq fz s n} {y_ t_} (e_ : (State.readDesc s n) = (y_, t_)) (h_s : Good pq fz s) :
    Good pq fz t_ := by
  unfold State.readDesc at e_
  repeat' first
    | with_reducible assumption
    | (simp only [Prod.mk.injEq] at e_)
    | (obtain ⟨_, rfl⟩ := e_)
    | (obtain ⟨_, _, rfl⟩ := e_)
    | subst e_
    | split at e_
    | with_reducible refine State.busRead_good (by assumption) ?_
    | with_reducible refine State.busRead_keeps ?_
    | with_reducible refine Good.done ?_
    | split
    | dsimp only
    | with_reducible refine Good.upd ?_ rfl
    | (simp only [id_eq])
    | intro _ _
    | intro _

theorem State.readDesc_keeps {pq fz s n} (h_s : Good pq fz s) : Good pq fz (State.readDesc s n).2 :=
  State.readDesc_good (y_ := (State.readDesc s n).1) (t_ := (State.readDesc s n).2) (Good.eta _) h_s

theorem State.loadTimer_good {pq fz s n} (h_s : Good pq fz s) :
    Good pq fz (State.loadTimer s n) := by
  unfold State.loadTimer
  repeat' first
    | with_reducible assumption
    | with_reducible refine State.modStrm_good ?_
    | with_reducible refine Good.done ?_
    | split
    | dsimp only
    | with_reducible refine Good.upd ?_ rfl
    | (simp only [id_eq])
    | intro _ _
    | intro _

theorem State.setDesc_good {pq fz s n d} (h_s : Good pq fz s) :
    Good pq fz (State.setDesc s n d) := by
  unfold State.setDesc
  repeat' first
    | with_reducible assumption
    | with_reducible refine State.modStrm_good ?_
    | with_reducible refine State.loadTimer_good ?_
    | with_reducible refine Good.done ?_
    | split
    | dsimp only
    | with_reducible refine Good.upd ?_ rfl
    | (simp only [id_eq])
    | intro _ _
    | intro _

theorem State.applyDesc_good {pq fz s n} (h_s : Good pq fz s) :
    Good pq fz (State.applyDesc s n) := by
  unfold State.applyDesc
  repeat' first
    | with_reducible assumption
    | with_reducible refine State.readDesc_good (by assumption) ?_
    | with_reducible refine State.readDesc_keeps ?_
    | with_reducible refine State.setStrm_good ?_
    | with_reducible refine State.setDesc_good ?_
    | with_reducible refine State.raise_good ?_
    | with_reducible refine Good.done ?_
    | split
    | dsimp only
    | with_reducible refine Good.upd ?_ rfl
    | (simp only [id_eq])
    | intro _ _
    | intro _

theorem State.descUpdate_good {pq fz s} (h_s : Good pq fz s) :
    Good pq fz (State.descUpdate s) := by
  unfold State.descUpdate
  repeat' first
    | with_reducible assumption
    | with_reducible refine State.applyDesc_good ?_
    | with_reducible refine Good.done ?_
    | split
    | dsimp only
    | with_reducible refine Good.upd ?_ rfl
    | (simp only [id_eq])
    | intro _ _
    | intro _

theorem execDescUpdateApply_good {pq fz s} (h_s : Good pq fz s) :
    GoodOut pq fz (execDescUpdateApply s) := by
  unfold execDescUpdateApply
  repeat' first
    | with_reducible assumption
    | with_reducible refine State.descUpdate_good ?_
    | with_reducible refine Good.done ?_
    | split
    | dsimp only
    | with_reducible refine Good.upd ?_ rfl
    | (simp only [id_eq])
    | intro _ _
    | intro _

theorem execIntDescUpd_good {pq fz n s} (h_s : Good pq fz s) :
    GoodOut pq fz (execIntDescUpd n s) := by
  unfold execIntDescUpd
  repeat' first
    | with_reducible assumption
    | with_reducible refine State.violation_good ?_
    | with_reducible refine State.wr_good ?_
    | with_reducible refine Good.done ?_
    | split
    | dsimp only
    | with_reducible refine Good.upd ?_ rfl
    | (simp only [id_eq])
    | intro _ _
    | intro _

theorem execWrpCfgUpd_good {pq fz n s} (h_s : Good pq fz s) :
    GoodOut pq fz (execWrpCfgUpd n s) := by
  unfold execWrpCfgUpd
  repeat' first
    | with_reducible assumption
    | with_reducible refine State.violation_good ?_
    | with_reducible refine State.wr_good ?_
    | with_reducible refine Good.done ?_
    | split
    | dsimp only
    | with_reducible refine Good.upd ?_ rfl
    | (simp only [id_eq])
    | intro _ _
    | intro _

theorem execIntClrCnt_good {pq fz s} (h_s : Good pq fz s) :
    GoodOut pq fz (execIntClrCnt s) := by
  unfold execIntClrCnt
  repeat' first
    | with_reducible assumption
    | with_reducible refine State.each_good ?_ ?_
    | with_reducible refine State.clearFlds_good ?_
    | with_reducible refine State.wr_good ?_
    | with_reducible refine Good.done ?_
    | split
    | dsimp only
    | with_reducible refine Good.upd ?_ rfl
    | (simp only [id_eq])
    | intro _ _
    | intro _

theorem execJxsClrCnt_good {pq fz e s} (h_s : Good pq fz s) :
    GoodOut pq fz (execJxsClrCnt e s) := by
  unfold execJxsClrCnt
  repeat' first
    | with_reducible assumption
    | with_reducible refine State.clearFlds_good ?_
    | with_reducible refine Good.done ?_
    | split
    | dsimp only
    | with_reducible refine Good.upd ?_ rfl
    | (simp only [id_eq])
    | intro _ _
    | intro _

theorem execWrpClrCnt_good {pq fz e s} (h_s : Good pq fz s) :
    GoodOut pq fz (execWrpClrCnt e s) := by
  unfold execWrpClrCnt
  repeat' first
    | with_reducible assumption
    | with_reducible refine State.clearFlds_good ?_
    | with_reducible refine Good.done ?_
    | split
    | dsimp only
    | with_reducible refine Good.upd ?_ rfl
    | (simp only [id_eq])
    | intro _ _
    | intro _

theorem State.keepCfg_good {pq fz s m c} (h_s : Good pq fz s) :
    Good pq fz (State.keepCfg s m c) := by
  unfold State.keepCfg
  repeat' first
    | with_reducible assumption
    | with_reducible refine Good.done ?_
    | split
    | dsimp only
    | with_reducible refine Good.upd ?_ rfl
    | (simp only [id_eq])
    | intro _ _
    | intro _

theorem State.installTables_good {pq fz s} (h_s : Good pq fz s) :
    Good pq fz (State.installTables s) := by
  unfold State.installTables
  repeat' first
    | with_reducible assumption
    | with_reducible refine State.each_good ?_ ?_
    | with_reducible refine State.busRead_good (by assumption) ?_
    | with_reducible refine State.busRead_keeps ?_
    | with_reducible refine State.keepCfg_good ?_
    | with_reducible refine State.wrB_good ?_
    | with_reducible refine State.applyDesc_good ?_
    | with_reducible refine Good.done ?_
    | split
    | dsimp only
    | with_reducible refine Good.upd ?_ rfl
    | (simp only [id_eq])
    | intro _ _
    | intro _

theorem State.warpSettled_good {pq fz s} (h_s : Good pq fz s) :
    Good pq fz (State.warpSettled s) := by
  unfold State.warpSettled
  repeat' first
    | with_reducible assumption
    | with_reducible refine Good.done ?_
    | split
    | dsimp only
    | with_reducible refine Good.upd ?_ rfl
    | (simp only [id_eq])
    | intro _ _
    | intro _

theorem State.warpUpdate_good {pq fz s} (h_s : Good pq fz s) :
    Good pq fz (State.warpUpdate s) := by
  unfold State.warpUpdate
  split
  · exact h_s
  rename_i m _
  dsimp only
  split
  · exact h_s
  have hb : Good pq fz (s.busRead (mWarp 0) (warpTable + 1024 * m) 1024).2.2 := State.busRead_keeps h_s
  generalize hx : (if s.intake.warpNew ≠ [] then ((Bus.ok, s.intake.warpNew), s)
    else (((s.busRead (mWarp 0) (warpTable + 1024 * m) 1024).1, (s.busRead (mWarp 0) (warpTable + 1024 * m) 1024).2.1),
      (s.busRead (mWarp 0) (warpTable + 1024 * m) 1024).2.2)) = x
  have h : Good pq fz x.2 := by
    subst hx
    split
    · exact h_s
    · exact hb
  clear hx hb
  obtain ⟨r, s1⟩ := x
  repeat' first
    | with_reducible assumption
    | with_reducible refine State.busRead_good (by assumption) ?_
    | with_reducible refine State.busRead_keeps ?_
    | with_reducible refine State.raise_good ?_
    | with_reducible refine State.warpSettled_good ?_
    | with_reducible refine State.keepCfg_good ?_
    | with_reducible refine Good.done ?_
    | split
    | dsimp only
    | with_reducible refine Good.upd ?_ rfl
    | (simp only [id_eq])
    | intro _ _
    | intro _

theorem State.boundary_good {pq fz s} (h_s : Good pq fz s) :
    Good pq fz (State.boundary s) := by
  unfold State.boundary
  repeat' first
    | with_reducible assumption
    | with_reducible refine State.warpUpdate_good ?_
    | with_reducible refine State.descUpdate_good ?_
    | with_reducible refine Good.done ?_
    | split
    | dsimp only
    | with_reducible refine Good.upd ?_ rfl
    | (simp only [id_eq])
    | intro _ _
    | intro _

theorem execWarpCfgApply_good {pq fz s} (h_s : Good pq fz s) :
    GoodOut pq fz (execWarpCfgApply s) := by
  unfold execWarpCfgApply
  repeat' first
    | with_reducible assumption
    | with_reducible refine State.warpUpdate_good ?_
    | with_reducible refine Good.done ?_
    | split
    | dsimp only
    | with_reducible refine Good.upd ?_ rfl
    | (simp only [id_eq])
    | intro _ _
    | intro _

end Sys2Proof.Machine
end

