-- ==== Sys2Proof/Laws/KeepIntake.lean ====
section
/-! SUPPORT. Every operation and command of Machine/Intake.lean keeps what `Good` says of a state. -/
namespace Sys2Proof.Machine

theorem State.loss_good {pq fz s n code line} (h_s : Good pq fz s) :
    Good pq fz (State.loss s n code line) := by
  unfold State.loss
  repeat' first
    | with_reducible assumption
    | with_reducible refine State.cnt_good ?_
    | with_reducible refine State.raise_good ?_
    | with_reducible refine State.noteState_good ?_
    | with_reducible refine State.modStrm_good ?_
    | with_reducible refine State.wr_good ?_
    | with_reducible refine State.checkLost_good ?_
    | with_reducible refine State.raiseTrigger_good ?_
    | with_reducible refine Good.done ?_
    | split
    | dsimp only
    | with_reducible refine Good.upd ?_ rfl
    | (simp only [id_eq])
    | intro _ _
    | intro _

theorem State.dropCur_good {pq fz s n} (h_s : Good pq fz s) :
    Good pq fz (State.dropCur s n) := by
  unfold State.dropCur
  repeat' first
    | with_reducible assumption
    | with_reducible refine State.modStrm_good ?_
    | with_reducible refine Good.done ?_
    | split
    | dsimp only
    | with_reducible refine Good.upd ?_ rfl
    | (simp only [id_eq])
    | intro _ _
    | intro _

theorem State.expire_good {pq fz s n} (h_s : Good pq fz s) :
    Good pq fz (State.expire s n) := by
  unfold State.expire
  repeat' first
    | with_reducible assumption
    | with_reducible refine State.modStrm_good ?_
    | with_reducible refine State.loss_good ?_
    | with_reducible refine State.dropCur_good ?_
    | with_reducible refine Good.done ?_
    | split
    | dsimp only
    | with_reducible refine Good.upd ?_ rfl
    | (simp only [id_eq])
    | intro _ _
    | intro _

theorem State.lateExpiry_good {pq fz s n} (h_s : Good pq fz s) :
    Good pq fz (State.lateExpiry s n) := by
  unfold State.lateExpiry
  repeat' first
    | with_reducible assumption
    | with_reducible refine State.expire_good ?_
    | with_reducible refine Good.done ?_
    | split
    | dsimp only
    | with_reducible refine Good.upd ?_ rfl
    | (simp only [id_eq])
    | intro _ _
    | intro _

theorem State.loseFrame_good {pq fz s n x code line} (h_s : Good pq fz s) :
    Good pq fz (State.loseFrame s n x code line) := by
  unfold State.loseFrame
  repeat' first
    | with_reducible assumption
    | with_reducible refine State.loss_good ?_
    | with_reducible refine State.raise_good ?_
    | with_reducible refine Good.done ?_
    | split
    | dsimp only
    | with_reducible refine Good.upd ?_ rfl
    | (simp only [id_eq])
    | intro _ _
    | intro _

theorem State.queueWarp_good {pq fz s n x} (h_s : Good pq fz s) :
    Good pq fz (State.queueWarp s n x) := by
  unfold State.queueWarp
  repeat' first
    | with_reducible assumption
    | with_reducible refine State.loseFrame_good ?_
    | with_reducible refine Good.done ?_
    | split
    | dsimp only
    | with_reducible refine Good.upd ?_ rfl
    | (simp only [id_eq])
    | intro _ _
    | intro _

theorem State.warpReady_good {pq fz s n x} (h_s : Good pq fz s) :
    Good pq fz (State.warpReady s n x) := by
  unfold State.warpReady
  repeat' first
    | with_reducible assumption
    | with_reducible refine State.queueWarp_good ?_
    | with_reducible refine Good.done ?_
    | split
    | dsimp only
    | with_reducible refine Good.upd ?_ rfl
    | (simp only [id_eq])
    | intro _ _
    | intro _

theorem State.breakFrame_good {pq fz s n} (h_s : Good pq fz s) :
    Good pq fz (State.breakFrame s n) := by
  unfold State.breakFrame
  repeat' first
    | with_reducible assumption
    | with_reducible refine State.loss_good ?_
    | with_reducible refine State.dropCur_good ?_
    | with_reducible refine Good.done ?_
    | split
    | dsimp only
    | with_reducible refine Good.upd ?_ rfl
    | (simp only [id_eq])
    | intro _ _
    | intro _

theorem State.putLine_good {pq fz s n i l} (h_s : Good pq fz s) :
    Good pq fz (State.putLine s n i l) := by
  unfold State.putLine
  repeat' first
    | with_reducible assumption
    | with_reducible refine State.busWrite_good (by assumption) ?_
    | with_reducible refine State.busWrite_keeps ?_
    | with_reducible refine State.breakFrame_good ?_
    | with_reducible refine Good.done ?_
    | split
    | dsimp only
    | with_reducible refine Good.upd ?_ rfl
    | (simp only [id_eq])
    | intro _ _
    | intro _

theorem State.putPattern_good {pq fz s n} (h_s : Good pq fz s) :
    Good pq fz (State.putPattern s n) := by
  unfold State.putPattern
  repeat' first
    | with_reducible assumption
    | with_reducible refine State.each_good ?_ ?_
    | with_reducible refine State.putLine_good ?_
    | with_reducible refine Good.done ?_
    | split
    | dsimp only
    | with_reducible refine Good.upd ?_ rfl
    | (simp only [id_eq])
    | intro _ _
    | intro _

theorem State.unclaimed_good {pq fz s rx} (h_s : Good pq fz s) :
    Good pq fz (State.unclaimed s rx) := by
  unfold State.unclaimed
  repeat' first
    | with_reducible assumption
    | with_reducible refine State.cnt_good ?_
    | with_reducible refine Good.done ?_
    | split
    | dsimp only
    | with_reducible refine Good.upd ?_ rfl
    | (simp only [id_eq])
    | intro _ _
    | intro _

theorem execCsiUnclaimedPacket_good {pq fz rx vc pkt s} (h_s : Good pq fz s) :
    GoodOut pq fz (execCsiUnclaimedPacket rx vc pkt s) := by
  unfold execCsiUnclaimedPacket
  repeat' first
    | with_reducible assumption
    | with_reducible refine onlyIf_good ?_ ?_
    | with_reducible refine State.unclaimed_good ?_
    | with_reducible refine State.cnt_good ?_
    | with_reducible refine Good.done ?_
    | split
    | dsimp only
    | with_reducible refine Good.upd ?_ rfl
    | (simp only [id_eq])
    | intro _ _
    | intro _

theorem State.modCur_good {pq fz s n f} (h_s : Good pq fz s) :
    Good pq fz (State.modCur s n f) := by
  unfold State.modCur
  repeat' first
    | with_reducible assumption
    | with_reducible refine State.modStrm_good ?_
    | with_reducible refine Good.done ?_
    | split
    | dsimp only
    | with_reducible refine Good.upd ?_ rfl
    | (simp only [id_eq])
    | intro _ _
    | intro _

theorem State.admitSample_good {pq fz s n x} (h_s : Good pq fz s) :
    Good pq fz (State.admitSample s n x) := by
  unfold State.admitSample
  repeat' first
    | with_reducible assumption
    | with_reducible refine State.raise_good ?_
    | with_reducible refine State.cnt_good ?_
    | with_reducible refine State.modStrm_good ?_
    | with_reducible refine State.wr_good ?_
    | with_reducible refine State.raiseTrigger_good ?_
    | with_reducible refine State.noteState_good ?_
    | with_reducible refine Good.done ?_
    | split
    | dsimp only
    | with_reducible refine Good.upd ?_ rfl
    | (simp only [id_eq])
    | intro _ _
    | intro _

theorem State.forCams_good {pq fz s rx l f} (h_s : Good pq fz s) (h_f : ∀ x0 x1, Good pq fz x0 → Good pq fz (f x0 x1)) :
    Good pq fz (State.forCams s rx l f) := by
  unfold State.forCams
  repeat' first
    | with_reducible assumption
    | refine h_f _ _ ?_
    | with_reducible refine State.unclaimed_good ?_
    | with_reducible refine State.each_good ?_ ?_
    | with_reducible refine State.lateExpiry_good ?_
    | with_reducible refine Good.done ?_
    | split
    | dsimp only
    | with_reducible refine Good.upd ?_ rfl
    | (simp only [id_eq])
    | intro _ _
    | intro _

theorem State.testRow_good {pq fz s n l} (h_s : Good pq fz s) :
    Good pq fz (State.testRow s n l) := by
  unfold State.testRow
  repeat' first
    | with_reducible assumption
    | with_reducible refine State.modCur_good ?_
    | with_reducible refine State.loss_good ?_
    | with_reducible refine State.cnt_good ?_
    | with_reducible refine State.dropCur_good ?_
    | with_reducible refine Good.done ?_
    | split
    | dsimp only
    | with_reducible refine Good.upd ?_ rfl
    | (simp only [id_eq])
    | intro _ _
    | intro _

theorem execCsiEmbeddedData_good {pq fz rx vc crcOk payload s} (h_s : Good pq fz s) :
    GoodOut pq fz (execCsiEmbeddedData rx vc crcOk payload s) := by
  unfold execCsiEmbeddedData
  repeat' first
    | with_reducible assumption
    | with_reducible refine State.cnt_good ?_
    | with_reducible refine State.forCams_good ?_ ?_
    | with_reducible refine State.breakFrame_good ?_
    | with_reducible refine State.testRow_good ?_
    | with_reducible refine Good.done ?_
    | split
    | dsimp only
    | with_reducible refine Good.upd ?_ rfl
    | (simp only [id_eq])
    | intro _ _
    | intro _

theorem execCsiLongPacket_good {pq fz rx vc dt crcOk payload s} (h_s : Good pq fz s) :
    GoodOut pq fz (execCsiLongPacket rx vc dt crcOk payload s) := by
  unfold execCsiLongPacket
  repeat' first
    | with_reducible assumption
    | with_reducible refine State.cnt_good ?_
    | with_reducible refine State.forCams_good ?_ ?_
    | with_reducible refine State.breakFrame_good ?_
    | with_reducible refine State.putLine_good ?_
    | with_reducible refine State.modCur_good ?_
    | with_reducible refine State.testRow_good ?_
    | with_reducible refine Good.done ?_
    | split
    | dsimp only
    | with_reducible refine Good.upd ?_ rfl
    | (simp only [id_eq])
    | intro _ _
    | intro _

theorem State.accept_good {pq fz s n stamp mk} (h_s : Good pq fz s) :
    Good pq fz (State.accept s n stamp mk) := by
  unfold State.accept
  repeat' first
    | with_reducible assumption
    | with_reducible refine State.loss_good ?_
    | with_reducible refine State.cnt_good ?_
    | with_reducible refine State.modStrm_good ?_
    | with_reducible refine State.noteState_good ?_
    | with_reducible refine State.loadTimer_good ?_
    | with_reducible refine Good.done ?_
    | split
    | dsimp only
    | with_reducible refine Good.upd ?_ rfl
    | (simp only [id_eq])
    | intro _ _
    | intro _

theorem State.complete?_good {pq fz s n} (h_s : Good pq fz s) :
    Good pq fz (State.complete? s n) := by
  unfold State.complete?
  repeat' first
    | with_reducible assumption
    | with_reducible refine State.loss_good ?_
    | with_reducible refine State.cnt_good ?_
    | with_reducible refine State.dropCur_good ?_
    | with_reducible refine State.warpReady_good ?_
    | with_reducible refine State.modStrm_good ?_
    | with_reducible refine Good.done ?_
    | split
    | dsimp only
    | with_reducible refine Good.upd ?_ rfl
    | (simp only [id_eq])
    | intro _ _
    | intro _

theorem State.selectEncode_good {pq fz s n x} (h_s : Good pq fz s) :
    Good pq fz (State.selectEncode s n x) := by
  unfold State.selectEncode
  repeat' first
    | with_reducible assumption
    | with_reducible refine State.each_good ?_ ?_
    | with_reducible refine Good.done ?_
    | split
    | dsimp only
    | with_reducible refine Good.upd ?_ rfl
    | (simp only [id_eq])
    | intro _ _
    | intro _

theorem execFrameTimerExpiry_good {pq fz n s} (h_s : Good pq fz s) :
    GoodOut pq fz (execFrameTimerExpiry n s) := by
  unfold execFrameTimerExpiry
  repeat' first
    | with_reducible assumption
    | with_reducible refine onlyIf_good ?_ ?_
    | with_reducible refine State.expire_good ?_
    | with_reducible refine Good.done ?_
    | split
    | dsimp only
    | with_reducible refine Good.upd ?_ rfl
    | (simp only [id_eq])
    | intro _ _
    | intro _

theorem execPatternInjectEnd_good {pq fz c s} (h_s : Good pq fz s) :
    GoodOut pq fz (execPatternInjectEnd c s) := by
  unfold execPatternInjectEnd
  repeat' first
    | with_reducible assumption
    | with_reducible refine State.lateExpiry_good ?_
    | with_reducible refine onlyIf_good ?_ ?_
    | with_reducible refine State.complete?_good ?_
    | with_reducible refine State.modCur_good ?_
    | with_reducible refine State.putPattern_good ?_
    | with_reducible refine Good.done ?_
    | split
    | dsimp only
    | with_reducible refine Good.upd ?_ rfl
    | (simp only [id_eq])
    | intro _ _
    | intro _

theorem State.breakEarly_good {pq fz s n} (h_s : Good pq fz s) :
    Good pq fz (State.breakEarly s n) := by
  unfold State.breakEarly
  repeat' first
    | with_reducible assumption
    | with_reducible refine State.each_good ?_ ?_
    | with_reducible refine State.wr_good ?_
    | with_reducible refine State.loss_good ?_
    | with_reducible refine Good.done ?_
    | split
    | dsimp only
    | with_reducible refine Good.upd ?_ rfl
    | (simp only [id_eq])
    | intro _ _
    | intro _

theorem execCsiFrameStart_good {pq fz rx vc fnum s} (h_s : Good pq fz s) :
    GoodOut pq fz (execCsiFrameStart rx vc fnum s) := by
  unfold execCsiFrameStart
  repeat' first
    | with_reducible assumption
    | with_reducible refine State.forCams_good ?_ ?_
    | with_reducible refine State.expire_good ?_
    | with_reducible refine State.boundary_good ?_
    | with_reducible refine State.breakEarly_good ?_
    | with_reducible refine State.breakFrame_good ?_
    | with_reducible refine State.accept_good ?_
    | with_reducible refine Good.done ?_
    | split
    | dsimp only
    | with_reducible refine Good.upd ?_ rfl
    | (simp only [id_eq])
    | intro _ _
    | intro _

theorem execCsiHeaderError_good {pq fz rx vc dt uncorr s} (h_s : Good pq fz s) :
    GoodOut pq fz (execCsiHeaderError rx vc dt uncorr s) := by
  unfold execCsiHeaderError
  repeat' first
    | with_reducible assumption
    | with_reducible refine State.each_good ?_ ?_
    | with_reducible refine State.cnt_good ?_
    | with_reducible refine State.breakFrame_good ?_
    | with_reducible refine State.raise_good ?_
    | with_reducible refine Good.done ?_
    | split
    | dsimp only
    | with_reducible refine Good.upd ?_ rfl
    | (simp only [id_eq])
    | intro _ _
    | intro _

theorem execCsiFrameEnd_good {pq fz rx vc s} (h_s : Good pq fz s) :
    GoodOut pq fz (execCsiFrameEnd rx vc s) := by
  unfold execCsiFrameEnd
  repeat' first
    | with_reducible assumption
    | with_reducible refine State.forCams_good ?_ ?_
    | with_reducible refine State.breakFrame_good ?_
    | with_reducible refine State.complete?_good ?_
    | with_reducible refine State.modCur_good ?_
    | with_reducible refine Good.done ?_
    | split
    | dsimp only
    | with_reducible refine Good.upd ?_ rfl
    | (simp only [id_eq])
    | intro _ _
    | intro _

end Sys2Proof.Machine
end

