-- ==== Sys2Proof/Laws/KeepEthernet.lean ====
section
/-! SUPPORT. Every operation and command of Machine/Ethernet.lean keeps what `Good` says of a state. -/
namespace Sys2Proof.Machine

theorem execGptpEventTransmit_good {pq fz s} (h_s : Good pq fz s) :
    GoodOut pq fz (execGptpEventTransmit s) := by
  unfold execGptpEventTransmit
  repeat' first
    | with_reducible assumption
    | with_reducible refine Good.done ?_
    | split
    | dsimp only
    | with_reducible refine Good.upd ?_ rfl
    | (simp only [id_eq])
    | intro _ _
    | intro _

theorem pointRecord_good {pq fz p elev l t s b i} {y_ t_} (e_ : (pointRecord p elev l t s b i) = (y_, t_)) (h_s : Good pq fz s) :
    Good pq fz t_ := by
  unfold pointRecord at e_
  repeat' first
    | with_reducible assumption
    | (simp only [Prod.mk.injEq] at e_)
    | (obtain ⟨_, rfl⟩ := e_)
    | (obtain ⟨_, _, rfl⟩ := e_)
    | subst e_
    | split at e_
    | with_reducible refine State.free_good (by assumption) ?_
    | with_reducible refine State.free_keeps ?_
    | with_reducible refine Good.done ?_
    | split
    | dsimp only
    | with_reducible refine Good.upd ?_ rfl
    | (simp only [id_eq])
    | intro _ _
    | intro _

theorem pointRecord_keeps {pq fz p elev l t s b i} (h_s : Good pq fz s) : Good pq fz (pointRecord p elev l t s b i).2 :=
  pointRecord_good (y_ := (pointRecord p elev l t s b i).1) (t_ := (pointRecord p elev l t s b i).2) (Good.eta _) h_s

theorem packetRecords_good {pq fz p elev l t s} {y_ t_} (e_ : (packetRecords p elev l t s) = (y_, t_)) (h_s : Good pq fz s) :
    Good pq fz t_ := Good.fold e_ h_s (fun _ s b h => pointRecord_good (y_ := (pointRecord p elev l t s (b / p.npt) (b % p.npt)).1) rfl h)

theorem packetRecords_keeps {pq fz p elev l t s} (h_s : Good pq fz s) : Good pq fz (packetRecords p elev l t s).2 :=
  packetRecords_good (y_ := (packetRecords p elev l t s).1) (t_ := (packetRecords p elev l t s).2) (Good.eta _) h_s

theorem State.endLidar_good {pq fz s n} (h_s : Good pq fz s) :
    Good pq fz (State.endLidar s n) := by
  unfold State.endLidar
  repeat' first
    | with_reducible assumption
    | with_reducible refine State.modStrm_good ?_
    | with_reducible refine State.loss_good ?_
    | with_reducible refine Good.done ?_
    | split
    | dsimp only
    | with_reducible refine Good.upd ?_ rfl
    | (simp only [id_eq])
    | intro _ _
    | intro _

theorem State.lidarRecords_good {pq fz s n l stamp} (h_s : Good pq fz s) :
    Good pq fz (State.lidarRecords s n l stamp) := by
  unfold State.lidarRecords
  repeat' first
    | with_reducible assumption
    | with_reducible refine State.raise_good ?_
    | with_reducible refine packetRecords_good (by assumption) ?_
    | with_reducible refine packetRecords_keeps ?_
    | with_reducible refine State.busWrite_good (by assumption) ?_
    | with_reducible refine State.busWrite_keeps ?_
    | with_reducible refine State.modCur_good ?_
    | with_reducible refine State.endLidar_good ?_
    | with_reducible refine State.breakFrame_good ?_
    | with_reducible refine Good.done ?_
    | split
    | dsimp only
    | with_reducible refine Good.upd ?_ rfl
    | (simp only [id_eq])
    | intro _ _
    | intro _

theorem State.rejectJxs_good {pq fz s n} (h_s : Good pq fz s) :
    Good pq fz (State.rejectJxs s n) := by
  unfold State.rejectJxs
  repeat' first
    | with_reducible assumption
    | with_reducible refine State.loss_good ?_
    | with_reducible refine State.cnt_good ?_
    | with_reducible refine Good.done ?_
    | split
    | dsimp only
    | with_reducible refine Good.upd ?_ rfl
    | (simp only [id_eq])
    | intro _ _
    | intro _

theorem State.endRtp_good {pq fz s n} (h_s : Good pq fz s) :
    Good pq fz (State.endRtp s n) := by
  unfold State.endRtp
  repeat' first
    | with_reducible assumption
    | with_reducible refine State.modStrm_good ?_
    | with_reducible refine State.rejectJxs_good ?_
    | with_reducible refine Good.done ?_
    | split
    | dsimp only
    | with_reducible refine Good.upd ?_ rfl
    | (simp only [id_eq])
    | intro _ _
    | intro _

theorem State.rtpStore_good {pq fz s n seq marker l} (h_s : Good pq fz s) :
    Good pq fz (State.rtpStore s n seq marker l) := by
  unfold State.rtpStore
  repeat' first
    | with_reducible assumption
    | with_reducible refine State.modStrm_good ?_
    | with_reducible refine State.breakFrame_good ?_
    | with_reducible refine State.busWrite_good (by assumption) ?_
    | with_reducible refine State.busWrite_keeps ?_
    | with_reducible refine State.modCur_good ?_
    | with_reducible refine State.endRtp_good ?_
    | with_reducible refine Good.done ?_
    | split
    | dsimp only
    | with_reducible refine Good.upd ?_ rfl
    | (simp only [id_eq])
    | intro _ _
    | intro _

theorem State.rtpPacket_good {pq fz s mac n l stamp} (h_s : Good pq fz s) :
    Good pq fz (State.rtpPacket s mac n l stamp) := by
  unfold State.rtpPacket
  repeat' first
    | with_reducible assumption
    | with_reducible refine State.cnt_good ?_
    | with_reducible refine State.rtpStore_good ?_
    | with_reducible refine State.modStrm_good ?_
    | with_reducible refine State.expire_good ?_
    | with_reducible refine State.rejectJxs_good ?_
    | with_reducible refine State.accept_good ?_
    | with_reducible refine Good.done ?_
    | split
    | dsimp only
    | with_reducible refine Good.upd ?_ rfl
    | (simp only [id_eq])
    | intro _ _
    | intro _

theorem State.beginLidar_good {pq fz s n l stamp} (h_s : Good pq fz s) :
    Good pq fz (State.beginLidar s n l stamp) := by
  unfold State.beginLidar
  repeat' first
    | with_reducible assumption
    | with_reducible refine State.expire_good ?_
    | with_reducible refine State.accept_good ?_
    | with_reducible refine State.lidarRecords_good ?_
    | with_reducible refine State.store_good ?_
    | with_reducible refine State.modStrm_good ?_
    | with_reducible refine Good.done ?_
    | split
    | dsimp only
    | with_reducible refine Good.upd ?_ rfl
    | (simp only [id_eq])
    | intro _ _
    | intro _

theorem execPtpSyncReceive_good {pq fz ofs interval s} (h_s : Good pq fz s) :
    GoodOut pq fz (execPtpSyncReceive ofs interval s) := by
  unfold execPtpSyncReceive
  repeat' first
    | with_reducible assumption
    | with_reducible refine State.cnt_good ?_
    | with_reducible refine State.wr_good ?_
    | with_reducible refine Good.done ?_
    | split
    | dsimp only
    | with_reducible refine Good.upd ?_ rfl
    | (simp only [id_eq])
    | intro _ _
    | intro _

theorem execEthLinkChange_good {pq fz mac speed s} (h_s : Good pq fz s) :
    GoodOut pq fz (execEthLinkChange mac speed s) := by
  unfold execEthLinkChange
  repeat' first
    | with_reducible assumption
    | with_reducible refine State.raise_good ?_
    | with_reducible refine State.wr_good ?_
    | with_reducible refine State.wrB_good ?_
    | with_reducible refine Good.done ?_
    | split
    | dsimp only
    | with_reducible refine Good.upd ?_ rfl
    | (simp only [id_eq])
    | intro _ _
    | intro _

theorem State.ethDrop_good {pq fz s f mac} (h_s : Good pq fz s) :
    Good pq fz (State.ethDrop s f mac) := by
  unfold State.ethDrop
  repeat' first
    | with_reducible assumption
    | with_reducible refine State.raise_good ?_
    | with_reducible refine State.cnt_good ?_
    | with_reducible refine Good.done ?_
    | split
    | dsimp only
    | with_reducible refine Good.upd ?_ rfl
    | (simp only [id_eq])
    | intro _ _
    | intro _

theorem State.lidarPacket_good {pq fz s mac n u stamp} (h_s : Good pq fz s) :
    Good pq fz (State.lidarPacket s mac n u stamp) := by
  unfold State.lidarPacket
  repeat' first
    | with_reducible assumption
    | with_reducible refine State.cnt_good ?_
    | with_reducible refine State.boundary_good ?_
    | with_reducible refine State.endLidar_good ?_
    | with_reducible refine State.ethDrop_good ?_
    | with_reducible refine State.beginLidar_good ?_
    | with_reducible refine State.lidarRecords_good ?_
    | with_reducible refine State.raise_good ?_
    | with_reducible refine Good.done ?_
    | split
    | dsimp only
    | with_reducible refine Good.upd ?_ rfl
    | (simp only [id_eq])
    | intro _ _
    | intro _

theorem execEthFrameReceive_good {pq fz mac fcsOk frame s} (h_s : Good pq fz s) :
    GoodOut pq fz (execEthFrameReceive mac fcsOk frame s) := by
  unfold execEthFrameReceive
  repeat' first
    | with_reducible assumption
    | with_reducible refine State.ethDrop_good ?_
    | with_reducible refine State.boundary_good ?_
    | with_reducible refine State.lateExpiry_good ?_
    | with_reducible refine State.lidarPacket_good ?_
    | with_reducible refine State.rtpPacket_good ?_
    | with_reducible refine Good.done ?_
    | split
    | dsimp only
    | with_reducible refine Good.upd ?_ rfl
    | (simp only [id_eq])
    | intro _ _
    | intro _

theorem execLidarTestPacketEnd_good {pq fz n s} (h_s : Good pq fz s) : GoodOut pq fz (execLidarTestPacketEnd n s) := by
  unfold execLidarTestPacketEnd
  refine Good.done ?_
  dsimp only
  split
  · exact h_s
  · rename_i c r _
    refine Good.ite (fun _ => State.admitSample_good ?_) (fun _ => State.loss_good (State.cnt_good ?_)) <;>
      exact State.modStrm_good (State.store_good (Good.ite₂ (fun _ => packetRecords_keeps h_s) (fun _ => h_s)))

theorem execPtpHoldover_good {pq fz s} (h_s : Good pq fz s) :
    GoodOut pq fz (execPtpHoldover s) := by
  unfold execPtpHoldover
  repeat' first
    | with_reducible assumption
    | with_reducible refine onlyIf_good ?_ ?_
    | with_reducible refine State.raise_good ?_
    | with_reducible refine State.wr_good ?_
    | with_reducible refine Good.done ?_
    | split
    | dsimp only
    | with_reducible refine Good.upd ?_ rfl
    | (simp only [id_eq])
    | intro _ _
    | intro _

end Sys2Proof.Machine
end

