-- ==== Sys2Proof/Laws/KeepJpegXs.lean ====
section
/-! SUPPORT. Every operation and command of Machine/JpegXs.lean keeps what `Good` says of a state. -/
namespace Sys2Proof.Machine

theorem State.settleMode_good {pq fz s e} (h_s : Good pq fz s) :
    Good pq fz (State.settleMode s e) := by
  unfold State.settleMode
  repeat' first
    | with_reducible assumption
    | with_reducible refine State.wr_good ?_
    | with_reducible refine Good.done ?_
    | split
    | dsimp only
    | with_reducible refine Good.upd ?_ rfl
    | (simp only [id_eq])
    | intro _ _
    | intro _

theorem State.modJxs_good {pq fz s e f} (h_s : Good pq fz s) :
    Good pq fz (State.modJxs s e f) := by
  unfold State.modJxs
  repeat' first
    | with_reducible assumption
    | with_reducible refine Good.done ?_
    | split
    | dsimp only
    | with_reducible refine Good.upd ?_ rfl
    | (simp only [id_eq])
    | intro _ _
    | intro _

theorem State.jxsDone_good {pq fz s e} (h_s : Good pq fz s) :
    Good pq fz (State.jxsDone s e) := by
  unfold State.jxsDone
  repeat' first
    | with_reducible assumption
    | with_reducible refine State.settleMode_good ?_
    | with_reducible refine State.wr_good ?_
    | with_reducible refine State.modJxs_good ?_
    | with_reducible refine Good.done ?_
    | split
    | dsimp only
    | with_reducible refine Good.upd ?_ rfl
    | (simp only [id_eq])
    | intro _ _
    | intro _

theorem State.putRows_good {pq fz s e base stride row l rows} {t_ : State} (e_ : (State.putRows s e base stride row l rows) = some t_)
    (h_s : Good pq fz s) : Good pq fz t_ := by
  unfold State.putRows at e_
  generalize List.range rows = is at e_
  have go : ∀ (is : List Nat) (o : Option State), (∀ s, o = some s → Good pq fz s) → ∀ t,
      is.foldl (fun (o : Option State) i => o.bind (fun s =>
        match s.busWrite (mJxs e) (base + i * stride) (((l.drop (i * row)).take row).map (fun w => natLe 2 w.toNat)).flatten with
        | (.ok, s) => some s
        | _ => none)) o = some t → Good pq fz t := by
    intro is
    induction is with
    | nil => intro o ho t ht; exact ho t ht
    | cons a r ih =>
      intro o ho t ht
      refine ih _ ?_ t ht
      intro u hu
      cases o with
      | none => cases hu
      | some v =>
        simp only [Option.bind_some] at hu
        split at hu
        · rename_i heq; cases hu; exact State.busWrite_good heq (ho v rfl)
        · cases hu
  exact go is _ (fun s hs => by cases hs; exact h_s) t_ e_

theorem State.jxsReset_good {pq fz s e} (h_s : Good pq fz s) :
    Good pq fz (State.jxsReset s e) := by
  unfold State.jxsReset
  repeat' first
    | with_reducible assumption
    | with_reducible refine State.modJxs_good ?_
    | with_reducible refine State.cnt_good ?_
    | with_reducible refine Good.done ?_
    | split
    | dsimp only
    | with_reducible refine Good.upd ?_ rfl
    | (simp only [id_eq])
    | intro _ _
    | intro _

theorem State.missingClip_good {pq fz s n x code} (h_s : Good pq fz s) :
    Good pq fz (State.missingClip s n x code) := by
  unfold State.missingClip
  repeat' first
    | with_reducible assumption
    | with_reducible refine State.offer_good ?_
    | with_reducible refine Good.done ?_
    | split
    | dsimp only
    | with_reducible refine Good.upd ?_ rfl
    | (simp only [id_eq])
    | intro _ _
    | intro _

theorem State.jxsBufferError_good {pq fz s e} (h_s : Good pq fz s) :
    Good pq fz (State.jxsBufferError s e) := by
  unfold State.jxsBufferError
  repeat' first
    | with_reducible assumption
    | with_reducible refine State.wr_good ?_
    | with_reducible refine State.jxsReset_good ?_
    | with_reducible refine State.jxsDone_good ?_
    | with_reducible refine State.loseFrame_good ?_
    | with_reducible refine State.missingClip_good ?_
    | with_reducible refine State.raise_good ?_
    | with_reducible refine Good.done ?_
    | split
    | dsimp only
    | with_reducible refine Good.upd ?_ rfl
    | (simp only [id_eq])
    | intro _ _
    | intro _

theorem execJxsDecodeEnd_good {pq fz e ok pix band cycles s} (h_s : Good pq fz s) :
    GoodOut pq fz (execJxsDecodeEnd e ok pix band cycles s) := by
  unfold execJxsDecodeEnd
  refine Good.done ?_
  dsimp only
  split
  · exact h_s
  · refine onlyIf_good h_s (fun s h_s => ?_)
    split
    · rename_i heq
      have h := State.busRead_good heq (State.wr_good h_s)
      split
      · exact State.loseFrame_good (State.cnt_good (State.jxsDone_good h))
      · split
        · rename_i hb
          rw [Option.bind_eq_some_iff] at hb
          obtain ⟨a, ha, hb⟩ := hb
          exact State.queueWarp_good (State.modStrm_good (State.jxsDone_good (State.putRows_good hb (State.putRows_good ha h))))
        · exact State.jxsBufferError_good h
    · rename_i heq
      exact State.jxsBufferError_good (State.busRead_good heq (State.wr_good h_s))

theorem execJxsModeWrite_good {pq fz e mode s} (h_s : Good pq fz s) :
    GoodOut pq fz (execJxsModeWrite e mode s) := by
  unfold execJxsModeWrite
  repeat' first
    | with_reducible assumption
    | with_reducible refine State.settleMode_good ?_
    | with_reducible refine State.wrB_good ?_
    | with_reducible refine Good.done ?_
    | split
    | dsimp only
    | with_reducible refine Good.upd ?_ rfl
    | (simp only [id_eq])
    | intro _ _
    | intro _

theorem State.jxsTake_good {pq fz s e n f} (h_s : Good pq fz s) :
    Good pq fz (State.jxsTake s e n f) := by
  unfold State.jxsTake
  repeat' first
    | with_reducible assumption
    | with_reducible refine State.wr_good ?_
    | with_reducible refine State.modJxs_good ?_
    | with_reducible refine Good.done ?_
    | split
    | dsimp only
    | with_reducible refine Good.upd ?_ rfl
    | (simp only [id_eq])
    | intro _ _
    | intro _

theorem execJxsBufferError_good {pq fz e s} (h_s : Good pq fz s) :
    GoodOut pq fz (execJxsBufferError e s) := by
  unfold execJxsBufferError
  repeat' first
    | with_reducible assumption
    | with_reducible refine State.jxsBufferError_good ?_
    | with_reducible refine Good.done ?_
    | split
    | dsimp only
    | with_reducible refine Good.upd ?_ rfl
    | (simp only [id_eq])
    | intro _ _
    | intro _

theorem execJxsDecodeStart_good {pq fz e s} (h_s : Good pq fz s) :
    GoodOut pq fz (execJxsDecodeStart e s) := by
  unfold execJxsDecodeStart
  repeat' first
    | with_reducible assumption
    | with_reducible refine onlyIf_good ?_ ?_
    | with_reducible refine State.jxsTake_good ?_
    | with_reducible refine Good.done ?_
    | split
    | dsimp only
    | with_reducible refine Good.upd ?_ rfl
    | (simp only [id_eq])
    | intro _ _
    | intro _

theorem execJxsEngineReady_good {pq fz e s} (h_s : Good pq fz s) :
    GoodOut pq fz (execJxsEngineReady e s) := by
  unfold execJxsEngineReady
  repeat' first
    | with_reducible assumption
    | with_reducible refine onlyIf_good ?_ ?_
    | with_reducible refine State.modJxs_good ?_
    | with_reducible refine Good.done ?_
    | split
    | dsimp only
    | with_reducible refine Good.upd ?_ rfl
    | (simp only [id_eq])
    | intro _ _
    | intro _

theorem execJxsEncodeEnd_good {pq fz e clip cycles s} (h_s : Good pq fz s) :
    GoodOut pq fz (execJxsEncodeEnd e clip cycles s) := by
  unfold execJxsEncodeEnd
  repeat' first
    | with_reducible assumption
    | with_reducible refine onlyIf_good ?_ ?_
    | with_reducible refine State.wr_good ?_
    | with_reducible refine State.busRead_good (by assumption) ?_
    | with_reducible refine State.busRead_keeps ?_
    | with_reducible refine State.busWrite_good (by assumption) ?_
    | with_reducible refine State.busWrite_keeps ?_
    | with_reducible refine State.offer_good ?_
    | with_reducible refine State.modJxs_good ?_
    | with_reducible refine State.jxsDone_good ?_
    | with_reducible refine State.jxsBufferError_good ?_
    | with_reducible refine Good.done ?_
    | split
    | dsimp only
    | with_reducible refine Good.upd ?_ rfl
    | (simp only [id_eq])
    | intro _ _
    | intro _

theorem execJxsBudgetExpiry_good {pq fz e s} (h_s : Good pq fz s) :
    GoodOut pq fz (execJxsBudgetExpiry e s) := by
  unfold execJxsBudgetExpiry
  repeat' first
    | with_reducible assumption
    | with_reducible refine onlyIf_good ?_ ?_
    | with_reducible refine State.loseFrame_good ?_
    | with_reducible refine State.jxsReset_good ?_
    | with_reducible refine State.cnt_good ?_
    | with_reducible refine State.jxsDone_good ?_
    | with_reducible refine State.wr_good ?_
    | with_reducible refine Good.done ?_
    | split
    | dsimp only
    | with_reducible refine Good.upd ?_ rfl
    | (simp only [id_eq])
    | intro _ _
    | intro _

theorem execJxsEncodeStart_good {pq fz e s} (h_s : Good pq fz s) :
    GoodOut pq fz (execJxsEncodeStart e s) := by
  unfold execJxsEncodeStart
  repeat' first
    | with_reducible assumption
    | with_reducible refine onlyIf_good ?_ ?_
    | with_reducible refine State.jxsTake_good ?_
    | with_reducible refine Good.done ?_
    | split
    | dsimp only
    | with_reducible refine Good.upd ?_ rfl
    | (simp only [id_eq])
    | intro _ _
    | intro _

theorem execJxsEncodeBudgetExpiry_good {pq fz e s} (h_s : Good pq fz s) :
    GoodOut pq fz (execJxsEncodeBudgetExpiry e s) := by
  unfold execJxsEncodeBudgetExpiry
  repeat' first
    | with_reducible assumption
    | with_reducible refine onlyIf_good ?_ ?_
    | with_reducible refine State.missingClip_good ?_
    | with_reducible refine State.raise_good ?_
    | with_reducible refine State.cnt_good ?_
    | with_reducible refine State.jxsDone_good ?_
    | with_reducible refine State.wr_good ?_
    | with_reducible refine Good.done ?_
    | split
    | dsimp only
    | with_reducible refine Good.upd ?_ rfl
    | (simp only [id_eq])
    | intro _ _
    | intro _

end Sys2Proof.Machine
end

