-- ==== Sys2Proof/Laws/KeepTileUnits.lean ====
section
/-! SUPPORT. Every operation and command of Machine/TileUnits.lean keeps what `Good` says of a state. -/
namespace Sys2Proof.Machine

theorem State.spend_good {pq fz s t n} (h_s : Good pq fz s) :
    Good pq fz (State.spend s t n) := by
  unfold State.spend
  repeat' first
    | with_reducible assumption
    | with_reducible refine State.modJob_good ?_
    | with_reducible refine State.cnt_good ?_
    | with_reducible refine Good.done ?_
    | split
    | dsimp only
    | with_reducible refine Good.upd ?_ rfl
    | (simp only [id_eq])
    | intro _ _
    | intro _

theorem execMsg_good {pq fz t ga gb gc ctl s} (h_s : Good pq fz s) :
    GoodOut pq fz (execMsg t ga gb gc ctl s) := by
  unfold execMsg
  repeat' first
    | with_reducible assumption
    | with_reducible refine State.issue_good ?_ ?_
    | with_reducible refine State.trapAt_good ?_
    | with_reducible refine State.advance_good ?_
    | with_reducible refine State.cnt_good ?_
    | with_reducible refine State.spend_good ?_
    | with_reducible refine State.modTile_good ?_
    | with_reducible refine Good.done ?_
    | split
    | dsimp only
    | with_reducible refine Good.upd ?_ rfl
    | (simp only [id_eq])
    | intro _ _
    | intro _

theorem State.sendOp_good {pq fz s t kind o v gd wait} (h_s : Good pq fz s) :
    Good pq fz (State.sendOp s t kind o v gd wait) := by
  unfold State.sendOp
  repeat' first
    | with_reducible assumption
    | with_reducible refine State.modTile_good ?_
    | with_reducible refine State.advance_good ?_
    | with_reducible refine Good.done ?_
    | split
    | dsimp only
    | with_reducible refine Good.upd ?_ rfl
    | (simp only [id_eq])
    | intro _ _
    | intro _

theorem State.barrierOp_good {pq fz s t kind spec v gd} (h_s : Good pq fz s) :
    Good pq fz (State.barrierOp s t kind spec v gd) := by
  unfold State.barrierOp
  repeat' first
    | with_reducible assumption
    | with_reducible refine State.sendOp_good ?_
    | with_reducible refine State.trapAt_good ?_
    | with_reducible refine Good.done ?_
    | split
    | dsimp only
    | with_reducible refine Good.upd ?_ rfl
    | (simp only [id_eq])
    | intro _ _
    | intro _

theorem State.arrIssue_good {pq fz s t kind bad ga gb gc ctl} (h_s : Good pq fz s) :
    Good pq fz (State.arrIssue s t kind bad ga gb gc ctl) := by
  unfold State.arrIssue
  repeat' first
    | with_reducible assumption
    | with_reducible refine State.issue_good ?_ ?_
    | with_reducible refine State.trapAt_good ?_
    | with_reducible refine State.advance_good ?_
    | with_reducible refine State.modTile_good ?_
    | with_reducible refine Good.done ?_
    | split
    | dsimp only
    | with_reducible refine Good.upd ?_ rfl
    | (simp only [id_eq])
    | intro _ _
    | intro _

theorem execAstr_good {pq fz t ga gb gc ctl s} (h_s : Good pq fz s) :
    GoodOut pq fz (execAstr t ga gb gc ctl s) := by
  unfold execAstr
  repeat' first
    | with_reducible assumption
    | with_reducible refine State.arrIssue_good ?_
    | with_reducible refine Good.done ?_
    | split
    | dsimp only
    | with_reducible refine Good.upd ?_ rfl
    | (simp only [id_eq])
    | intro _ _
    | intro _

theorem State.syncAdd_good {pq fz s t spec v} (h_s : Good pq fz s) :
    Good pq fz (State.syncAdd s t spec v) := by
  unfold State.syncAdd
  repeat' first
    | with_reducible assumption
    | with_reducible refine State.advance_good ?_
    | with_reducible refine State.localAdd_good ?_
    | with_reducible refine State.trapAt_good ?_
    | with_reducible refine State.sendOp_good ?_
    | with_reducible refine Good.done ?_
    | split
    | dsimp only
    | with_reducible refine Good.upd ?_ rfl
    | (simp only [id_eq])
    | intro _ _
    | intro _

theorem execSaddi_good {pq fz t ga ctl s} (h_s : Good pq fz s) :
    GoodOut pq fz (execSaddi t ga ctl s) := by
  unfold execSaddi
  repeat' first
    | with_reducible assumption
    | with_reducible refine State.issue_good ?_ ?_
    | with_reducible refine State.syncAdd_good ?_
    | with_reducible refine Good.done ?_
    | split
    | dsimp only
    | with_reducible refine Good.upd ?_ rfl
    | (simp only [id_eq])
    | intro _ _
    | intro _

theorem State.dmaRead_good {pq fz t fuel a n s} {y_ z_ t_} (e_ : (State.dmaRead t fuel a n s) = (y_, z_, t_)) (h_s : Good pq fz s) :
    Good pq fz t_ := by
  induction fuel generalizing a n s y_ z_ t_ with
  | zero => simp only [State.dmaRead, Prod.mk.injEq] at e_; obtain ⟨_, _, rfl⟩ := e_; exact h_s
  | succ k ih =>
    rw [State.dmaRead] at e_
    split at e_
    · simp only [Prod.mk.injEq] at e_; obtain ⟨_, _, rfl⟩ := e_; exact h_s
    · dsimp only at e_
      generalize hb : s.busRead (mDma t) a _ = x at e_
      obtain ⟨r, b, s1⟩ := x
      have h := State.busRead_good hb h_s
      clear hb
      dsimp only at e_
      generalize hq : State.dmaRead t k _ _ s1 = x at e_
      obtain ⟨l, e, s2⟩ := x
      have h := ih hq h
      clear hq
      dsimp only at e_
      split at e_ <;> simp only [Prod.mk.injEq] at e_ <;> obtain ⟨_, _, rfl⟩ := e_ <;> exact h

theorem State.dmaRead_keeps {pq fz t a1 a2 a3 a4} (h_a4 : Good pq fz a4) : Good pq fz (State.dmaRead t a1 a2 a3 a4).2.2 :=
  State.dmaRead_good (y_ := (State.dmaRead t a1 a2 a3 a4).1) (z_ := (State.dmaRead t a1 a2 a3 a4).2.1) (t_ := (State.dmaRead t a1 a2 a3 a4).2.2) (Good.eta3 _) h_a4

theorem execSrd_good {pq fz t gd ga s} (h_s : Good pq fz s) :
    GoodOut pq fz (execSrd t gd ga s) := by
  unfold execSrd
  repeat' first
    | with_reducible assumption
    | with_reducible refine State.issue_good ?_ ?_
    | with_reducible refine State.advance_good ?_
    | with_reducible refine State.setG_good ?_
    | with_reducible refine State.sendOp_good ?_
    | with_reducible refine State.trapAt_good ?_
    | with_reducible refine Good.done ?_
    | split
    | dsimp only
    | with_reducible refine Good.upd ?_ rfl
    | (simp only [id_eq])
    | intro _ _
    | intro _

theorem execSwait_good {pq fz t ga gb s} (h_s : Good pq fz s) :
    GoodOut pq fz (execSwait t ga gb s) := by
  unfold execSwait
  repeat' first
    | with_reducible assumption
    | with_reducible refine State.issue_good ?_ ?_
    | with_reducible refine State.advance_good ?_
    | with_reducible refine State.trapAt_good ?_
    | with_reducible refine State.sendOp_good ?_
    | with_reducible refine Good.done ?_
    | split
    | dsimp only
    | with_reducible refine Good.upd ?_ rfl
    | (simp only [id_eq])
    | intro _ _
    | intro _

theorem State.dmaFailed_good {pq fz s t pc a write} {y_ t_} (e_ : (State.dmaFailed s t pc a write) = (y_, t_)) (h_s : Good pq fz s) :
    Good pq fz t_ := by
  unfold State.dmaFailed at e_
  repeat' first
    | with_reducible assumption
    | (simp only [Prod.mk.injEq] at e_)
    | (obtain ⟨_, rfl⟩ := e_)
    | (obtain ⟨_, _, rfl⟩ := e_)
    | subst e_
    | split at e_
    | with_reducible refine State.tileHalt_good ?_
    | with_reducible refine State.markPart_good ?_
    | with_reducible refine Good.done ?_
    | split
    | dsimp only
    | with_reducible refine Good.upd ?_ rfl
    | (simp only [id_eq])
    | intro _ _
    | intro _

theorem State.dmaFailed_keeps {pq fz s t pc a write} (h_s : Good pq fz s) : Good pq fz (State.dmaFailed s t pc a write).2 :=
  State.dmaFailed_good (y_ := (State.dmaFailed s t pc a write).1) (t_ := (State.dmaFailed s t pc a write).2) (Good.eta _) h_s

theorem State.dmaOr_good {pq fz s t pc f write} {y_ t_} (e_ : (State.dmaOr s t pc f write) = (y_, t_)) (h_s : Good pq fz s) :
    Good pq fz t_ := by
  unfold State.dmaOr at e_
  repeat' first
    | with_reducible assumption
    | (simp only [Prod.mk.injEq] at e_)
    | (obtain ⟨_, rfl⟩ := e_)
    | (obtain ⟨_, _, rfl⟩ := e_)
    | subst e_
    | split at e_
    | with_reducible refine State.dmaFailed_good (by assumption) ?_
    | with_reducible refine State.dmaFailed_keeps ?_
    | with_reducible refine Good.done ?_
    | split
    | dsimp only
    | with_reducible refine Good.upd ?_ rfl
    | (simp only [id_eq])
    | intro _ _
    | intro _

theorem State.dmaOr_keeps {pq fz s t pc f write} (h_s : Good pq fz s) : Good pq fz (State.dmaOr s t pc f write).2 :=
  State.dmaOr_good (y_ := (State.dmaOr s t pc f write).1) (t_ := (State.dmaOr s t pc f write).2) (Good.eta _) h_s

theorem State.dmaWrite_good {pq fz s t a l} {y_ t_} (e_ : (State.dmaWrite s t a l) = (y_, t_)) (h_s : Good pq fz s) :
    Good pq fz t_ :=
  Good.fold e_ h_s (fun _ s b h =>
    State.busWrite_good (y_ := (s.busWrite (mDma t) (a + b.1) b.2).1) (t_ := (s.busWrite (mDma t) (a + b.1) b.2).2) rfl h)

theorem State.dmaWrite_keeps {pq fz s t a l} (h_s : Good pq fz s) : Good pq fz (State.dmaWrite s t a l).2 :=
  State.dmaWrite_good (y_ := (State.dmaWrite s t a l).1) (t_ := (State.dmaWrite s t a l).2) (Good.eta _) h_s

theorem State.dmaRows_keeps {pq fz s t q rows} (h_s : Good pq fz s) : Good pq fz (State.dmaRows s t q rows).2 := by
  unfold State.dmaRows
  repeat' first
    | with_reducible assumption
    | with_reducible refine runAll_good (by assumption) ?_ ?_
    | with_reducible refine runAll_keeps ?_ ?_
    | with_reducible refine State.dmaRead_good (by assumption) ?_
    | with_reducible refine State.dmaRead_keeps ?_
    | with_reducible refine State.dmaOr_good (by assumption) ?_
    | with_reducible refine State.dmaOr_keeps ?_
    | with_reducible refine State.dmaWrite_good (by assumption) ?_
    | with_reducible refine State.dmaWrite_keeps ?_
    | split
    | dsimp only
    | with_reducible refine Good.upd ?_ rfl
    | (simp only [id_eq])
    | intro _ _
    | intro _

theorem State.dmaRows_good {pq fz s t q rows} {y_ t_} (e_ : (State.dmaRows s t q rows) = (y_, t_)) (h_s : Good pq fz s) : Good pq fz t_ := by
  have h := State.dmaRows_keeps (pq := pq) (fz := fz) (s := s) (t := t) (q := q) (rows := rows) h_s
  rw [e_] at h
  exact h

theorem execSbwait_good {pq fz t ga gb s} (h_s : Good pq fz s) :
    GoodOut pq fz (execSbwait t ga gb s) := by
  unfold execSbwait
  repeat' first
    | with_reducible assumption
    | with_reducible refine State.issue_good ?_ ?_
    | with_reducible refine State.barrierOp_good ?_
    | with_reducible refine Good.done ?_
    | split
    | dsimp only
    | with_reducible refine Good.upd ?_ rfl
    | (simp only [id_eq])
    | intro _ _
    | intro _

theorem execSarv_good {pq fz t gd ga s} (h_s : Good pq fz s) :
    GoodOut pq fz (execSarv t gd ga s) := by
  unfold execSarv
  repeat' first
    | with_reducible assumption
    | with_reducible refine State.issue_good ?_ ?_
    | with_reducible refine State.barrierOp_good ?_
    | with_reducible refine Good.done ?_
    | split
    | dsimp only
    | with_reducible refine Good.upd ?_ rfl
    | (simp only [id_eq])
    | intro _ _
    | intro _

theorem execDma_good {pq fz t ga s} (h_s : Good pq fz s) :
    GoodOut pq fz (execDma t ga s) := by
  unfold execDma
  repeat' first
    | with_reducible assumption
    | with_reducible refine State.issue_good ?_ ?_
    | with_reducible refine State.trapAt_good ?_
    | with_reducible refine State.dataRead_good (by assumption) ?_
    | with_reducible refine State.dataRead_keeps ?_
    | with_reducible refine State.advance_good ?_
    | with_reducible refine State.spend_good ?_
    | with_reducible refine State.modTile_good ?_
    | with_reducible refine Good.done ?_
    | split
    | dsimp only
    | with_reducible refine Good.upd ?_ rfl
    | (simp only [id_eq])
    | intro _ _
    | intro _

theorem execAfence_good {pq fz t s} (h_s : Good pq fz s) :
    GoodOut pq fz (execAfence t s) := by
  unfold execAfence
  repeat' first
    | with_reducible assumption
    | with_reducible refine State.issue_good ?_ ?_
    | with_reducible refine State.trapAt_good ?_
    | with_reducible refine State.advance_good ?_
    | with_reducible refine Good.done ?_
    | split
    | dsimp only
    | with_reducible refine Good.upd ?_ rfl
    | (simp only [id_eq])
    | intro _ _
    | intro _

theorem execPartFinish_good {pq fz t s} (h_s : Good pq fz s) :
    GoodOut pq fz (execPartFinish t s) := by
  unfold execPartFinish
  repeat' first
    | with_reducible assumption
    | with_reducible refine onlyIf_good ?_ ?_
    | with_reducible refine State.modTile_good ?_
    | with_reducible refine State.kickJobs_good ?_
    | with_reducible refine State.failPart_good ?_
    | with_reducible refine State.modJob_good ?_
    | with_reducible refine State.checkJob_good ?_
    | with_reducible refine Good.done ?_
    | split
    | dsimp only
    | with_reducible refine Good.upd ?_ rfl
    | (simp only [id_eq])
    | intro _ _
    | intro _

theorem execDmaDescComplete_good {pq fz e s} (h_s : Good pq fz s) :
    GoodOut pq fz (execDmaDescComplete e s) := by
  unfold execDmaDescComplete
  repeat' first
    | with_reducible assumption
    | with_reducible refine State.dmaRows_good (by assumption) ?_
    | with_reducible refine State.dmaRows_keeps ?_
    | with_reducible refine State.modTile_good ?_
    | with_reducible refine State.localAdd_good ?_
    | with_reducible refine Good.done ?_
    | split
    | dsimp only
    | with_reducible refine Good.upd ?_ rfl
    | (simp only [id_eq])
    | intro _ _
    | intro _

theorem execWld_good {pq fz t ga gb gc ctl s} (h_s : Good pq fz s) :
    GoodOut pq fz (execWld t ga gb gc ctl s) := by
  unfold execWld
  repeat' first
    | with_reducible assumption
    | with_reducible refine State.arrIssue_good ?_
    | with_reducible refine Good.done ?_
    | split
    | dsimp only
    | with_reducible refine Good.upd ?_ rfl
    | (simp only [id_eq])
    | intro _ _
    | intro _

theorem execAdrn_good {pq fz t ga gb gc ctl s} (h_s : Good pq fz s) :
    GoodOut pq fz (execAdrn t ga gb gc ctl s) := by
  unfold execAdrn
  repeat' first
    | with_reducible assumption
    | with_reducible refine State.arrIssue_good ?_
    | with_reducible refine Good.done ?_
    | split
    | dsimp only
    | with_reducible refine Good.upd ?_ rfl
    | (simp only [id_eq])
    | intro _ _
    | intro _

theorem execMfence_good {pq fz t s} (h_s : Good pq fz s) :
    GoodOut pq fz (execMfence t s) := by
  unfold execMfence
  repeat' first
    | with_reducible assumption
    | with_reducible refine State.issue_good ?_ ?_
    | with_reducible refine State.advance_good ?_
    | with_reducible refine Good.done ?_
    | split
    | dsimp only
    | with_reducible refine Good.upd ?_ rfl
    | (simp only [id_eq])
    | intro _ _
    | intro _

theorem execSadd_good {pq fz t ga gb s} (h_s : Good pq fz s) :
    GoodOut pq fz (execSadd t ga gb s) := by
  unfold execSadd
  repeat' first
    | with_reducible assumption
    | with_reducible refine State.issue_good ?_ ?_
    | with_reducible refine State.syncAdd_good ?_
    | with_reducible refine Good.done ?_
    | split
    | dsimp only
    | with_reducible refine Good.upd ?_ rfl
    | (simp only [id_eq])
    | intro _ _
    | intro _

theorem execSrst_good {pq fz t ga s} (h_s : Good pq fz s) :
    GoodOut pq fz (execSrst t ga s) := by
  unfold execSrst
  repeat' first
    | with_reducible assumption
    | with_reducible refine State.issue_good ?_ ?_
    | with_reducible refine State.advance_good ?_
    | with_reducible refine State.setLobj_good ?_
    | with_reducible refine State.trapAt_good ?_
    | with_reducible refine Good.done ?_
    | split
    | dsimp only
    | with_reducible refine Good.upd ?_ rfl
    | (simp only [id_eq])
    | intro _ _
    | intro _

end Sys2Proof.Machine
end

