-- ==== Sys2Proof/Laws/KeepMesh.lean ====
section
/-! SUPPORT. Every operation and command of Machine/Mesh.lean keeps what `Good` says of a state. -/
namespace Sys2Proof.Machine

theorem State.modPort_good {pq fz s p f} (h_s : Good pq fz s) :
    Good pq fz (State.modPort s p f) := by
  unfold State.modPort
  repeat' first
    | with_reducible assumption
    | with_reducible refine Good.done ?_
    | split
    | dsimp only
    | with_reducible refine Good.upd ?_ rfl
    | (simp only [id_eq])
    | intro _ _
    | intro _

theorem State.dropMsg_good {pq fz s t chip dst} (h_s : Good pq fz s) :
    Good pq fz (State.dropMsg s t chip dst) := by
  unfold State.dropMsg
  repeat' first
    | with_reducible assumption
    | with_reducible refine Good.done ?_
    | split
    | dsimp only
    | with_reducible refine Good.upd ?_ rfl
    | (simp only [id_eq])
    | intro _ _
    | intro _

theorem State.nocFirst_good {pq fz s kind stage srcChip src off dstChip dst} (h_s : Good pq fz s) :
    Good pq fz (State.nocFirst s kind stage srcChip src off dstChip dst) := by
  unfold State.nocFirst
  repeat' first
    | with_reducible assumption
    | with_reducible refine State.wr_good ?_
    | with_reducible refine Good.done ?_
    | split
    | dsimp only
    | with_reducible refine Good.upd ?_ rfl
    | (simp only [id_eq])
    | intro _ _
    | intro _

theorem State.abandon_good {pq fz s m code kind fld} (h_s : Good pq fz s) :
    Good pq fz (State.abandon s m code kind fld) := by
  unfold State.abandon
  repeat' first
    | with_reducible assumption
    | with_reducible refine State.cnt_good ?_
    | with_reducible refine State.dropMsg_good ?_
    | with_reducible refine State.nocFirst_good ?_
    | with_reducible refine State.markJobPart_good ?_
    | with_reducible refine State.raiseTile_good ?_
    | with_reducible refine Good.done ?_
    | split
    | dsimp only
    | with_reducible refine Good.upd ?_ rfl
    | (simp only [id_eq])
    | intro _ _
    | intro _

theorem State.modMsg_good {pq fz s t chip dst f} (h_s : Good pq fz s) :
    Good pq fz (State.modMsg s t chip dst f) := by
  unfold State.modMsg
  repeat' first
    | with_reducible assumption
    | with_reducible refine Good.done ?_
    | split
    | dsimp only
    | with_reducible refine Good.upd ?_ rfl
    | (simp only [id_eq])
    | intro _ _
    | intro _

theorem execMsgNack_good {pq fz t dst s} (h_s : Good pq fz s) :
    GoodOut pq fz (execMsgNack t dst s) := by
  unfold execMsgNack
  repeat' first
    | with_reducible assumption
    | with_reducible refine onlyIf_good ?_ ?_
    | with_reducible refine State.abandon_good ?_
    | with_reducible refine State.cnt_good ?_
    | with_reducible refine State.modMsg_good ?_
    | with_reducible refine Good.done ?_
    | split
    | dsimp only
    | with_reducible refine Good.upd ?_ rfl
    | (simp only [id_eq])
    | intro _ _
    | intro _

theorem execNocClrCnt_good {pq fz s} (h_s : Good pq fz s) :
    GoodOut pq fz (execNocClrCnt s) := by
  unfold execNocClrCnt
  repeat' first
    | with_reducible assumption
    | with_reducible refine State.clearFlds_good ?_
    | with_reducible refine Good.done ?_
    | split
    | dsimp only
    | with_reducible refine Good.upd ?_ rfl
    | (simp only [id_eq])
    | intro _ _
    | intro _

theorem execSynClrCnt_good {pq fz s} (h_s : Good pq fz s) :
    GoodOut pq fz (execSynClrCnt s) := by
  unfold execSynClrCnt
  repeat' first
    | with_reducible assumption
    | with_reducible refine State.clearFlds_good ?_
    | with_reducible refine Good.done ?_
    | split
    | dsimp only
    | with_reducible refine Good.upd ?_ rfl
    | (simp only [id_eq])
    | intro _ _
    | intro _

theorem State.modOp_good {pq fz s p f} (h_s : Good pq fz s) :
    Good pq fz (State.modOp s p f) := by
  unfold State.modOp
  repeat' first
    | with_reducible assumption
    | with_reducible refine Good.done ?_
    | split
    | dsimp only
    | with_reducible refine Good.upd ?_ rfl
    | (simp only [id_eq])
    | intro _ _
    | intro _

theorem State.discard_good {pq fz s k} (h_s : Good pq fz s) :
    Good pq fz (State.discard s k) := by
  unfold State.discard
  repeat' first
    | with_reducible assumption
    | with_reducible refine State.modMsg_good ?_
    | with_reducible refine State.modOp_good ?_
    | with_reducible refine State.modTile_good ?_
    | with_reducible refine Good.done ?_
    | split
    | dsimp only
    | with_reducible refine Good.upd ?_ rfl
    | (simp only [id_eq])
    | intro _ _
    | intro _

theorem State.barrierArrive_good {pq fz s o} (h_s : Good pq fz s) :
    Good pq fz (State.barrierArrive s o) := by
  unfold State.barrierArrive
  repeat' first
    | with_reducible assumption
    | with_reducible refine State.setGobj_good ?_
    | with_reducible refine Good.done ?_
    | split
    | dsimp only
    | with_reducible refine Good.upd ?_ rfl
    | (simp only [id_eq])
    | intro _ _
    | intro _

theorem State.resume_good {pq fz s t} (h_s : Good pq fz s) :
    Good pq fz (State.resume s t) := by
  unfold State.resume
  repeat' first
    | with_reducible assumption
    | with_reducible refine State.advance_good ?_
    | with_reducible refine State.modTile_good ?_
    | with_reducible refine Good.done ?_
    | split
    | dsimp only
    | with_reducible refine Good.upd ?_ rfl
    | (simp only [id_eq])
    | intro _ _
    | intro _

theorem execMsgSend_good {pq fz t s} (h_s : Good pq fz s) :
    GoodOut pq fz (execMsgSend t s) := by
  unfold execMsgSend
  repeat' first
    | with_reducible assumption
    | with_reducible refine State.dataRead_good (by assumption) ?_
    | with_reducible refine State.dataRead_keeps ?_
    | with_reducible refine State.tileHalt_good ?_
    | with_reducible refine State.modTile_good ?_
    | with_reducible refine Good.done ?_
    | split
    | dsimp only
    | with_reducible refine Good.upd ?_ rfl
    | (simp only [id_eq])
    | intro _ _
    | intro _

theorem execMsgAckTimeout_good {pq fz t dst s} (h_s : Good pq fz s) :
    GoodOut pq fz (execMsgAckTimeout t dst s) := by
  unfold execMsgAckTimeout
  repeat' first
    | with_reducible assumption
    | with_reducible refine onlyIf_good ?_ ?_
    | with_reducible refine State.abandon_good ?_
    | with_reducible refine Good.done ?_
    | split
    | dsimp only
    | with_reducible refine Good.upd ?_ rfl
    | (simp only [id_eq])
    | intro _ _
    | intro _

theorem execMsgAck_good {pq fz t dst s} (h_s : Good pq fz s) :
    GoodOut pq fz (execMsgAck t dst s) := by
  unfold execMsgAck
  repeat' first
    | with_reducible assumption
    | with_reducible refine onlyIf_good ?_ ?_
    | with_reducible refine State.dropMsg_good ?_
    | with_reducible refine Good.done ?_
    | split
    | dsimp only
    | with_reducible refine Good.upd ?_ rfl
    | (simp only [id_eq])
    | intro _ _
    | intro _

theorem State.wake_good {pq fz s obj} (h_s : Good pq fz s) :
    Good pq fz (State.wake s obj) := by
  unfold State.wake
  repeat' first
    | with_reducible assumption
    | with_reducible refine Good.done ?_
    | split
    | dsimp only
    | with_reducible refine Good.upd ?_ rfl
    | (simp only [id_eq])
    | intro _ _
    | intro _

theorem State.globalAdd_good {pq fz s o v} (h_s : Good pq fz s) :
    Good pq fz (State.globalAdd s o v) := by
  unfold State.globalAdd
  repeat' first
    | with_reducible assumption
    | with_reducible refine State.free_good (by assumption) ?_
    | with_reducible refine State.free_keeps ?_
    | with_reducible refine State.setGobj_good ?_
    | with_reducible refine State.cnt_good ?_
    | with_reducible refine Good.done ?_
    | split
    | dsimp only
    | with_reducible refine Good.upd ?_ rfl
    | (simp only [id_eq])
    | intro _ _
    | intro _

theorem State.applyOp_good {pq fz s o} (h_s : Good pq fz s) :
    Good pq fz (State.applyOp s o) := by
  unfold State.applyOp
  repeat' first
    | with_reducible assumption
    | with_reducible refine State.wake_good ?_
    | with_reducible refine State.modOp_good ?_
    | with_reducible refine State.globalAdd_good ?_
    | with_reducible refine State.barrierArrive_good ?_
    | with_reducible refine State.peak_good ?_
    | with_reducible refine Good.done ?_
    | split
    | dsimp only
    | with_reducible refine Good.upd ?_ rfl
    | (simp only [id_eq])
    | intro _ _
    | intro _

theorem execSyncOpApply_good {pq fz p bad s} (h_s : Good pq fz s) :
    GoodOut pq fz (execSyncOpApply p bad s) := by
  unfold execSyncOpApply
  repeat' first
    | with_reducible assumption
    | with_reducible refine State.cnt_good ?_
    | with_reducible refine State.modOp_good ?_
    | with_reducible refine State.raise_good ?_
    | with_reducible refine State.nocFirst_good ?_
    | with_reducible refine State.applyOp_good ?_
    | with_reducible refine Good.done ?_
    | split
    | dsimp only
    | with_reducible refine Good.upd ?_ rfl
    | (simp only [id_eq])
    | intro _ _
    | intro _

theorem State.landMsg_good {pq fz s src dst b} {y_ t_} (e_ : (State.landMsg s src dst b) = (y_, t_)) (h_s : Good pq fz s) :
    Good pq fz t_ := by
  unfold State.landMsg at e_
  repeat' first
    | with_reducible assumption
    | (simp only [Prod.mk.injEq] at e_)
    | (obtain ⟨_, rfl⟩ := e_)
    | (obtain ⟨_, _, rfl⟩ := e_)
    | subst e_
    | split at e_
    | with_reducible refine State.raiseTile_good ?_
    | with_reducible refine State.sramWrite_good (by assumption) ?_
    | with_reducible refine State.sramWrite_keeps ?_
    | with_reducible refine State.localAdd_good ?_
    | with_reducible refine Good.done ?_
    | split
    | dsimp only
    | with_reducible refine Good.upd ?_ rfl
    | (simp only [id_eq])
    | intro _ _
    | intro _

theorem State.landMsg_keeps {pq fz s src dst b} (h_s : Good pq fz s) : Good pq fz (State.landMsg s src dst b).2 :=
  State.landMsg_good (y_ := (State.landMsg s src dst b).1) (t_ := (State.landMsg s src dst b).2) (Good.eta _) h_s

theorem execMsgArrive_good {pq fz src dst link err s} (h_s : Good pq fz s) :
    GoodOut pq fz (execMsgArrive src dst link err s) := by
  unfold execMsgArrive
  repeat' first
    | with_reducible assumption
    | with_reducible refine onlyIf_good ?_ ?_
    | with_reducible refine State.landMsg_good (by assumption) ?_
    | with_reducible refine State.landMsg_keeps ?_
    | with_reducible refine State.modMsg_good ?_
    | with_reducible refine Good.done ?_
    | split
    | dsimp only
    | with_reducible refine Good.upd ?_ rfl
    | (simp only [id_eq])
    | intro _ _
    | intro _

theorem State.completeOp_good {pq fz s o v} (h_s : Good pq fz s) :
    Good pq fz (State.completeOp s o v) := by
  unfold State.completeOp
  repeat' first
    | with_reducible assumption
    | with_reducible refine State.modMsg_good ?_
    | with_reducible refine State.resume_good ?_
    | with_reducible refine State.setG_good ?_
    | with_reducible refine Good.done ?_
    | split
    | dsimp only
    | with_reducible refine Good.upd ?_ rfl
    | (simp only [id_eq])
    | intro _ _
    | intro _

theorem execSyncOpResponse_good {pq fz p s} (h_s : Good pq fz s) :
    GoodOut pq fz (execSyncOpResponse p s) := by
  unfold execSyncOpResponse
  repeat' first
    | with_reducible assumption
    | with_reducible refine State.modOp_good ?_
    | with_reducible refine State.completeOp_good ?_
    | with_reducible refine Good.done ?_
    | split
    | dsimp only
    | with_reducible refine Good.upd ?_ rfl
    | (simp only [id_eq])
    | intro _ _
    | intro _

theorem execMsgReject_good {pq fz t dst s} (h_s : Good pq fz s) :
    GoodOut pq fz (execMsgReject t dst s) := by
  unfold execMsgReject
  repeat' first
    | with_reducible assumption
    | with_reducible refine onlyIf_good ?_ ?_
    | with_reducible refine State.abandon_good ?_
    | with_reducible refine Good.done ?_
    | split
    | dsimp only
    | with_reducible refine Good.upd ?_ rfl
    | (simp only [id_eq])
    | intro _ _
    | intro _

theorem execSyncWaitRetry_good {pq fz t s} (h_s : Good pq fz s) :
    GoodOut pq fz (execSyncWaitRetry t s) := by
  unfold execSyncWaitRetry
  repeat' first
    | with_reducible assumption
    | with_reducible refine onlyIf_good ?_ ?_
    | with_reducible refine State.cnt_good ?_
    | with_reducible refine State.modOp_good ?_
    | with_reducible refine Good.done ?_
    | split
    | dsimp only
    | with_reducible refine Good.upd ?_ rfl
    | (simp only [id_eq])
    | intro _ _
    | intro _

theorem execSyncOpTimeout_good {pq fz t s} (h_s : Good pq fz s) :
    GoodOut pq fz (execSyncOpTimeout t s) := by
  unfold execSyncOpTimeout
  repeat' first
    | with_reducible assumption
    | with_reducible refine State.markJobPart_good ?_
    | with_reducible refine State.completeOp_good ?_
    | with_reducible refine Good.done ?_
    | split
    | dsimp only
    | with_reducible refine Good.upd ?_ rfl
    | (simp only [id_eq])
    | intro _ _
    | intro _

theorem State.nocPkt_good {pq fz s k} (h_s : Good pq fz s) :
    Good pq fz (State.nocPkt s k) := by
  unfold State.nocPkt
  repeat' first
    | with_reducible assumption
    | with_reducible refine State.nocFirst_good ?_
    | with_reducible refine Good.done ?_
    | split
    | dsimp only
    | with_reducible refine Good.upd ?_ rfl
    | (simp only [id_eq])
    | intro _ _
    | intro _

theorem execRouterBufferError_good {pq fz x y uncorr pkt s} (h_s : Good pq fz s) :
    GoodOut pq fz (execRouterBufferError x y uncorr pkt s) := by
  unfold execRouterBufferError
  repeat' first
    | with_reducible assumption
    | with_reducible refine onlyIf_good ?_ ?_
    | with_reducible refine State.raise_good ?_
    | with_reducible refine State.cnt_good ?_
    | with_reducible refine State.discard_good ?_
    | with_reducible refine State.nocPkt_good ?_
    | with_reducible refine Good.done ?_
    | split
    | dsimp only
    | with_reducible refine Good.upd ?_ rfl
    | (simp only [id_eq])
    | intro _ _
    | intro _

end Sys2Proof.Machine
end

