-- ==== Sys2Proof/Laws/KeepLinks.lean ====
section
/-! SUPPORT. Every operation and command of Machine/Links.lean keeps what `Good` says of a state. -/
namespace Sys2Proof.Machine

theorem execTimebaseCompare_good {pq fz port offset s} (h_s : Good pq fz s) : GoodOut pq fz (execTimebaseCompare port offset s) := by
  unfold execTimebaseCompare
  refine Good.done (onlyIf_good h_s (fun s h => ?_))
  have h := State.modPort_good (p := port.toNat) (f := fun x => { x with cmpAt := s.tick }) h
  dsimp only
  split
  · split
    · refine State.tryBarrier_good ⟨h.1, h.2.1, h.2.2.1, ?_⟩
      have hp : ((((s.modPort port.toNat (fun x => { x with cmpAt := s.tick })).tick : Int) + offset.toInt / 6) % 2 ^ 64) < 2 ^ 64 :=
        Int.emod_lt_of_pos _ (by decide)
      show (((((s.modPort port.toNat (fun x => { x with cmpAt := s.tick })).tick : Int) + offset.toInt / 6) % 2 ^ 64).toNat) < 2 ^ 64
      omega
    · exact h
  · split
    · exact Good.upd (State.raise_good (State.wr_good h)) rfl
    · exact h

theorem State.setLink_good {pq fz s p v} (h_s : Good pq fz s) :
    Good pq fz (State.setLink s p v) := by
  unfold State.setLink
  repeat' first
    | with_reducible assumption
    | with_reducible refine State.wr_good ?_
    | with_reducible refine Good.done ?_
    | split
    | dsimp only
    | with_reducible refine Good.upd ?_ rfl
    | (simp only [id_eq])
    | intro _ _
    | intro _

theorem State.failMulti_good {pq fz s} (h_s : Good pq fz s) :
    Good pq fz (State.failMulti s) := by
  unfold State.failMulti
  repeat' first
    | with_reducible assumption
    | with_reducible refine State.each_good ?_ ?_
    | with_reducible refine State.failStage_good ?_
    | with_reducible refine Good.done ?_
    | split
    | dsimp only
    | with_reducible refine Good.upd ?_ rfl
    | (simp only [id_eq])
    | intro _ _
    | intro _

theorem State.loseCross_good {pq fz s p} (h_s : Good pq fz s) :
    Good pq fz (State.loseCross s p) := by
  unfold State.loseCross
  repeat' first
    | with_reducible assumption
    | with_reducible refine Good.done ?_
    | split
    | dsimp only
    | with_reducible refine Good.upd ?_ rfl
    | (simp only [id_eq])
    | intro _ _
    | intro _

theorem State.linkDown_good {pq fz s p} (h_s : Good pq fz s) :
    Good pq fz (State.linkDown s p) := by
  unfold State.linkDown
  repeat' first
    | with_reducible assumption
    | with_reducible refine State.wr_good ?_
    | with_reducible refine State.setLink_good ?_
    | with_reducible refine State.modPort_good ?_
    | with_reducible refine State.cnt_good ?_
    | with_reducible refine State.failMulti_good ?_
    | with_reducible refine State.loseCross_good ?_
    | with_reducible refine State.raise_good ?_
    | with_reducible refine Good.done ?_
    | split
    | dsimp only
    | with_reducible refine Good.upd ?_ rfl
    | (simp only [id_eq])
    | intro _ _
    | intro _

theorem State.refuse_good {pq fz s p} (h_s : Good pq fz s) :
    Good pq fz (State.refuse s p) := by
  unfold State.refuse
  repeat' first
    | with_reducible assumption
    | with_reducible refine State.wr_good ?_
    | with_reducible refine State.cnt_good ?_
    | with_reducible refine State.setLink_good ?_
    | with_reducible refine State.raise_good ?_
    | with_reducible refine State.modPort_good ?_
    | with_reducible refine Good.done ?_
    | split
    | dsimp only
    | with_reducible refine Good.upd ?_ rfl
    | (simp only [id_eq])
    | intro _ _
    | intro _

theorem State.linkUp_good {pq fz s p} (h_s : Good pq fz s) :
    Good pq fz (State.linkUp s p) := by
  unfold State.linkUp
  repeat' first
    | with_reducible assumption
    | with_reducible refine State.modPort_good ?_
    | with_reducible refine State.wr_good ?_
    | with_reducible refine State.setLink_good ?_
    | with_reducible refine Good.done ?_
    | split
    | dsimp only
    | with_reducible refine Good.upd ?_ rfl
    | (simp only [id_eq])
    | intro _ _
    | intro _

theorem State.afterAuth_good {pq fz s p} (h_s : Good pq fz s) :
    Good pq fz (State.afterAuth s p) := by
  unfold State.afterAuth
  repeat' first
    | with_reducible assumption
    | with_reducible refine State.modPort_good ?_
    | with_reducible refine State.linkUp_good ?_
    | with_reducible refine Good.done ?_
    | split
    | dsimp only
    | with_reducible refine Good.upd ?_ rfl
    | (simp only [id_eq])
    | intro _ _
    | intro _

theorem execChlAuthMessage_good {pq fz port ok s} (h_s : Good pq fz s) :
    GoodOut pq fz (execChlAuthMessage port ok s) := by
  unfold execChlAuthMessage
  repeat' first
    | with_reducible assumption
    | with_reducible refine onlyIf_good ?_ ?_
    | with_reducible refine State.refuse_good ?_
    | with_reducible refine State.modPort_good ?_
    | with_reducible refine State.wr_good ?_
    | with_reducible refine State.afterAuth_good ?_
    | with_reducible refine Good.done ?_
    | split
    | dsimp only
    | with_reducible refine Good.upd ?_ rfl
    | (simp only [id_eq])
    | intro _ _
    | intro _

theorem State.trainPort_good {pq fz s p full} (h_s : Good pq fz s) :
    Good pq fz (State.trainPort s p full) := by
  unfold State.trainPort
  repeat' first
    | with_reducible assumption
    | with_reducible refine State.modPort_good ?_
    | with_reducible refine State.setLink_good ?_
    | with_reducible refine State.wr_good ?_
    | with_reducible refine Good.done ?_
    | split
    | dsimp only
    | with_reducible refine Good.upd ?_ rfl
    | (simp only [id_eq])
    | intro _ _
    | intro _

theorem execChlRetrain_good {pq fz port s} (h_s : Good pq fz s) :
    GoodOut pq fz (execChlRetrain port s) := by
  unfold execChlRetrain
  repeat' first
    | with_reducible assumption
    | with_reducible refine State.violation_good ?_
    | with_reducible refine onlyIf_good ?_ ?_
    | with_reducible refine State.wr_good ?_
    | with_reducible refine State.trainPort_good ?_
    | with_reducible refine Good.done ?_
    | split
    | dsimp only
    | with_reducible refine Good.upd ?_ rfl
    | (simp only [id_eq])
    | intro _ _
    | intro _

theorem execSyncIoRelease_good {pq fz s} (h_s : Good pq fz s) :
    GoodOut pq fz (execSyncIoRelease s) := by
  unfold execSyncIoRelease
  repeat' first
    | with_reducible assumption
    | with_reducible refine onlyIf_good ?_ ?_
    | with_reducible refine State.wr_good ?_
    | with_reducible refine Good.done ?_
    | split
    | dsimp only
    | with_reducible refine Good.upd ?_ rfl
    | (simp only [id_eq])
    | intro _ _
    | intro _

theorem State.leaveBarrier_good {pq fz s} (h_s : Good pq fz s) :
    Good pq fz (State.leaveBarrier s) := by
  unfold State.leaveBarrier
  repeat' first
    | with_reducible assumption
    | with_reducible refine State.wr_good ?_
    | with_reducible refine Good.done ?_
    | split
    | dsimp only
    | with_reducible refine Good.upd ?_ rfl
    | (simp only [id_eq])
    | intro _ _
    | intro _

theorem execSyncIoSample_good {pq fz high s} (h_s : Good pq fz s) : GoodOut pq fz (execSyncIoSample high s) := by
  unfold execSyncIoSample
  refine Good.done (onlyIf_good h_s (fun s h => ?_))
  have h := State.wrB_good (f := F.SYNC_IO_STATUS_LINE) (v := high) (i := 0) h
  dsimp only
  split
  · split
    · exact h
    · refine State.kickJobs_good (State.tryBarrier_good (State.modFrame_good (Good.upd (State.wr_good (State.wr_good
        (State.leaveBarrier_good ?_))) rfl)))
      exact ⟨h.1, h.2.1, h.2.2.1, Nat.mod_lt _ (by decide)⟩
  · exact h

theorem State.takeWidth_good {pq fz s p} {y_ t_} (e_ : (State.takeWidth s p) = (y_, t_)) (h_s : Good pq fz s) :
    Good pq fz t_ := by
  unfold State.takeWidth at e_
  repeat' first
    | with_reducible assumption
    | (simp only [Prod.mk.injEq] at e_)
    | (obtain ⟨_, rfl⟩ := e_)
    | (obtain ⟨_, _, rfl⟩ := e_)
    | subst e_
    | split at e_
    | with_reducible refine State.wr_good ?_
    | with_reducible refine State.linkDown_good ?_
    | with_reducible refine Good.done ?_
    | split
    | dsimp only
    | with_reducible refine Good.upd ?_ rfl
    | (simp only [id_eq])
    | intro _ _
    | intro _

theorem State.takeWidth_keeps {pq fz s p} (h_s : Good pq fz s) : Good pq fz (State.takeWidth s p).2 :=
  State.takeWidth_good (y_ := (State.takeWidth s p).1) (t_ := (State.takeWidth s p).2) (Good.eta _) h_s

theorem execChlLaneFault_good {pq fz port lane s} (h_s : Good pq fz s) :
    GoodOut pq fz (execChlLaneFault port lane s) := by
  unfold execChlLaneFault
  repeat' first
    | with_reducible assumption
    | with_reducible refine onlyIf_good ?_ ?_
    | with_reducible refine State.wr_good ?_
    | with_reducible refine State.raise_good ?_
    | with_reducible refine State.cnt_good ?_
    | with_reducible refine State.takeWidth_good (by assumption) ?_
    | with_reducible refine State.takeWidth_keeps ?_
    | with_reducible refine State.setLink_good ?_
    | with_reducible refine Good.done ?_
    | split
    | dsimp only
    | with_reducible refine Good.upd ?_ rfl
    | (simp only [id_eq])
    | intro _ _
    | intro _

theorem execChlTimeAlign_good {pq fz port latency refTick s} (h_s : Good pq fz s) :
    GoodOut pq fz (execChlTimeAlign port latency refTick s) := by
  unfold execChlTimeAlign
  refine Good.done (onlyIf_good h_s (fun s h => State.linkUp_good ?_))
  exact ⟨h.1, h.2.1, h.2.2.1, refTick.isLt⟩

theorem execChlTrainStart_good {pq fz port s} (h_s : Good pq fz s) :
    GoodOut pq fz (execChlTrainStart port s) := by
  unfold execChlTrainStart
  repeat' first
    | with_reducible assumption
    | with_reducible refine onlyIf_good ?_ ?_
    | with_reducible refine State.trainPort_good ?_
    | with_reducible refine Good.done ?_
    | split
    | dsimp only
    | with_reducible refine Good.upd ?_ rfl
    | (simp only [id_eq])
    | intro _ _
    | intro _

theorem execChlRetrainEnd_good {pq fz port s} (h_s : Good pq fz s) :
    GoodOut pq fz (execChlRetrainEnd port s) := by
  unfold execChlRetrainEnd
  repeat' first
    | with_reducible assumption
    | with_reducible refine onlyIf_good ?_ ?_
    | with_reducible refine State.setLink_good ?_
    | with_reducible refine Good.done ?_
    | split
    | dsimp only
    | with_reducible refine Good.upd ?_ rfl
    | (simp only [id_eq])
    | intro _ _
    | intro _

theorem execBarrierSeqReceive_good {pq fz seq frame s} (h_s : Good pq fz s) :
    GoodOut pq fz (execBarrierSeqReceive seq frame s) := by
  unfold execBarrierSeqReceive
  repeat' first
    | with_reducible assumption
    | with_reducible refine State.raise_good ?_
    | with_reducible refine State.cnt_good ?_
    | with_reducible refine State.withhold_good ?_
    | with_reducible refine State.modPipe_good ?_
    | with_reducible refine State.kickJobs_good ?_
    | with_reducible refine State.settleArbs_good ?_
    | with_reducible refine Good.done ?_
    | split
    | dsimp only
    | with_reducible refine Good.upd ?_ rfl
    | (simp only [id_eq])
    | intro _ _
    | intro _

theorem execSyncIoTimeout_good {pq fz s} (h_s : Good pq fz s) :
    GoodOut pq fz (execSyncIoTimeout s) := by
  unfold execSyncIoTimeout
  repeat' first
    | with_reducible assumption
    | with_reducible refine onlyIf_good ?_ ?_
    | with_reducible refine State.raise_good ?_
    | with_reducible refine State.cnt_good ?_
    | with_reducible refine State.leaveBarrier_good ?_
    | with_reducible refine State.withhold_good ?_
    | with_reducible refine State.tryBarrier_good ?_
    | with_reducible refine State.settleArbs_good ?_
    | with_reducible refine Good.done ?_
    | split
    | dsimp only
    | with_reducible refine Good.upd ?_ rfl
    | (simp only [id_eq])
    | intro _ _
    | intro _

theorem execChlLockEnd_good {pq fz port good s} (h_s : Good pq fz s) :
    GoodOut pq fz (execChlLockEnd port good s) := by
  unfold execChlLockEnd
  repeat' first
    | with_reducible assumption
    | with_reducible refine onlyIf_good ?_ ?_
    | with_reducible refine State.wr_good ?_
    | with_reducible refine State.takeWidth_good (by assumption) ?_
    | with_reducible refine State.takeWidth_keeps ?_
    | with_reducible refine State.modPort_good ?_
    | with_reducible refine State.setLink_good ?_
    | with_reducible refine Good.done ?_
    | split
    | dsimp only
    | with_reducible refine Good.upd ?_ rfl
    | (simp only [id_eq])
    | intro _ _
    | intro _

theorem execChlIdentityReceive_good {pq fz port chip chips gridX gridY ver digest s} (h_s : Good pq fz s) :
    GoodOut pq fz (execChlIdentityReceive port chip chips gridX gridY ver digest s) := by
  unfold execChlIdentityReceive
  repeat' first
    | with_reducible assumption
    | with_reducible refine onlyIf_good ?_ ?_
    | with_reducible refine State.wr_good ?_
    | with_reducible refine State.refuse_good ?_
    | with_reducible refine State.afterAuth_good ?_
    | with_reducible refine State.modPort_good ?_
    | with_reducible refine State.setLink_good ?_
    | with_reducible refine Good.done ?_
    | split
    | dsimp only
    | with_reducible refine Good.upd ?_ rfl
    | (simp only [id_eq])
    | intro _ _
    | intro _

theorem execChlTrainTimeout_good {pq fz port s} (h_s : Good pq fz s) :
    GoodOut pq fz (execChlTrainTimeout port s) := by
  unfold execChlTrainTimeout
  repeat' first
    | with_reducible assumption
    | with_reducible refine onlyIf_good ?_ ?_
    | with_reducible refine State.refuse_good ?_
    | with_reducible refine Good.done ?_
    | split
    | dsimp only
    | with_reducible refine Good.upd ?_ rfl
    | (simp only [id_eq])
    | intro _ _
    | intro _

theorem execChlBlockReceive_good {pq fz port crcOk tagOk s} (h_s : Good pq fz s) :
    GoodOut pq fz (execChlBlockReceive port crcOk tagOk s) := by
  unfold execChlBlockReceive
  repeat' first
    | with_reducible assumption
    | with_reducible refine onlyIf_good ?_ ?_
    | with_reducible refine State.raise_good ?_
    | with_reducible refine State.cnt_good ?_
    | with_reducible refine State.wr_good ?_
    | with_reducible refine State.modPort_good ?_
    | with_reducible refine State.setLink_good ?_
    | with_reducible refine State.failMulti_good ?_
    | with_reducible refine State.loseCross_good ?_
    | with_reducible refine Good.done ?_
    | split
    | dsimp only
    | with_reducible refine Good.upd ?_ rfl
    | (simp only [id_eq])
    | intro _ _
    | intro _

theorem execChlRetryTimer_good {pq fz port s} (h_s : Good pq fz s) :
    GoodOut pq fz (execChlRetryTimer port s) := by
  unfold execChlRetryTimer
  repeat' first
    | with_reducible assumption
    | with_reducible refine onlyIf_good ?_ ?_
    | with_reducible refine State.trainPort_good ?_
    | with_reducible refine Good.done ?_
    | split
    | dsimp only
    | with_reducible refine Good.upd ?_ rfl
    | (simp only [id_eq])
    | intro _ _
    | intro _

end Sys2Proof.Machine
end

