-- ==== Sys2Proof/Laws/KeepWarpEngines.lean ====
section
/-! SUPPORT. Every operation and command of Machine/WarpEngines.lean keeps what `Good` says of a state. -/
namespace Sys2Proof.Machine

theorem State.modWarp_good {pq fz s e f} (h_s : Good pq fz s) :
    Good pq fz (State.modWarp s e f) := by
  unfold State.modWarp
  repeat' first
    | with_reducible assumption
    | with_reducible refine Good.done ?_
    | split
    | dsimp only
    | with_reducible refine Good.upd ?_ rfl
    | (simp only [id_eq])
    | intro _ _
    | intro _

theorem State.warpStop_good {pq fz s e} (h_s : Good pq fz s) :
    Good pq fz (State.warpStop s e) := by
  unfold State.warpStop
  repeat' first
    | with_reducible assumption
    | with_reducible refine State.wr_good ?_
    | with_reducible refine State.modWarp_good ?_
    | with_reducible refine Good.done ?_
    | split
    | dsimp only
    | with_reducible refine Good.upd ?_ rfl
    | (simp only [id_eq])
    | intro _ _
    | intro _

theorem State.traceWarp_good {pq fz s e n code cycles} (h_s : Good pq fz s) :
    Good pq fz (State.traceWarp s e n code cycles) := by
  unfold State.traceWarp
  repeat' first
    | with_reducible assumption
    | with_reducible refine State.trace_good ?_
    | with_reducible refine Good.done ?_
    | split
    | dsimp only
    | with_reducible refine Good.upd ?_ rfl
    | (simp only [id_eq])
    | intro _ _
    | intro _

theorem State.warpReset_good {pq fz s e} (h_s : Good pq fz s) :
    Good pq fz (State.warpReset s e) := by
  unfold State.warpReset
  repeat' first
    | with_reducible assumption
    | with_reducible refine State.modWarp_good ?_
    | with_reducible refine State.warpStop_good ?_
    | with_reducible refine State.loseFrame_good ?_
    | with_reducible refine State.traceWarp_good ?_
    | with_reducible refine State.raise_good ?_
    | with_reducible refine Good.done ?_
    | split
    | dsimp only
    | with_reducible refine Good.upd ?_ rfl
    | (simp only [id_eq])
    | intro _ _
    | intro _

theorem State.startWarp_good {pq fz s e n x first} (h_s : Good pq fz s) :
    Good pq fz (State.startWarp s e n x first) := by
  unfold State.startWarp
  repeat' first
    | with_reducible assumption
    | with_reducible refine State.trace_good ?_
    | with_reducible refine State.modWarp_good ?_
    | with_reducible refine State.wr_good ?_
    | with_reducible refine State.wrB_good ?_
    | with_reducible refine Good.done ?_
    | split
    | dsimp only
    | with_reducible refine Good.upd ?_ rfl
    | (simp only [id_eq])
    | intro _ _
    | intro _

theorem execWarpAssign_good {pq fz s} (h_s : Good pq fz s) :
    GoodOut pq fz (execWarpAssign s) := by
  unfold execWarpAssign
  repeat' first
    | with_reducible assumption
    | with_reducible refine State.startWarp_good ?_
    | with_reducible refine Good.done ?_
    | split
    | dsimp only
    | with_reducible refine Good.upd ?_ rfl
    | (simp only [id_eq])
    | intro _ _
    | intro _

theorem State.runWarp_good {pq fz s e n x} {y_ t_} (e_ : (State.runWarp s e n x) = (y_, t_)) (h_s : Good pq fz s) :
    Good pq fz t_ := by
  unfold State.runWarp at e_
  dsimp only at e_
  split at e_
  · rename_i fb s1 hb
    have h := State.busRead_good hb h_s
    clear hb
    split at e_
    · rename_i mesh s2 hb
      have h := State.busRead_good hb h
      clear hb
      generalize hr : List.foldl _ (true, s2) _ = r at e_
      obtain ⟨ok, s3⟩ := r
      have h : Good pq fz s3 := by
        refine Good.fold hr h (fun y s b h => ?_)
        dsimp only
        split
        · rename_i hw; exact State.busWrite_good hw h
        · rename_i hw; exact State.busWrite_good hw h
      clear hr
      dsimp only at e_
      split at e_ <;> simp only [Prod.mk.injEq] at e_ <;> obtain ⟨_, rfl⟩ := e_ <;> exact h
    · rename_i hb; simp only [Prod.mk.injEq] at e_; obtain ⟨_, rfl⟩ := e_; exact State.busRead_good hb h
  · rename_i hb; simp only [Prod.mk.injEq] at e_; obtain ⟨_, rfl⟩ := e_; exact State.busRead_good hb h_s

theorem State.runWarp_keeps {pq fz s e n x} (h_s : Good pq fz s) : Good pq fz (State.runWarp s e n x).2 :=
  State.runWarp_good (y_ := (State.runWarp s e n x).1) (t_ := (State.runWarp s e n x).2) (Good.eta _) h_s

theorem State.attribute_good {pq fz s e n} (h_s : Good pq fz s) :
    Good pq fz (State.attribute s e n) := by
  unfold State.attribute
  repeat' first
    | with_reducible assumption
    | with_reducible refine State.raise_good ?_
    | with_reducible refine State.cnt_good ?_
    | with_reducible refine State.modWarp_good ?_
    | with_reducible refine State.wr_good ?_
    | with_reducible refine Good.done ?_
    | split
    | dsimp only
    | with_reducible refine Good.upd ?_ rfl
    | (simp only [id_eq])
    | intro _ _
    | intro _

theorem execWarpCoordMismatch_good {pq fz e s} (h_s : Good pq fz s) :
    GoodOut pq fz (execWarpCoordMismatch e s) := by
  unfold execWarpCoordMismatch
  repeat' first
    | with_reducible assumption
    | with_reducible refine State.attribute_good ?_
    | with_reducible refine State.loseFrame_good ?_
    | with_reducible refine State.cnt_good ?_
    | with_reducible refine State.warpStop_good ?_
    | with_reducible refine State.traceWarp_good ?_
    | with_reducible refine Good.done ?_
    | split
    | dsimp only
    | with_reducible refine Good.upd ?_ rfl
    | (simp only [id_eq])
    | intro _ _
    | intro _

theorem execWarpWaitTimeout_good {pq fz n s} (h_s : Good pq fz s) :
    GoodOut pq fz (execWarpWaitTimeout n s) := by
  unfold execWarpWaitTimeout
  repeat' first
    | with_reducible assumption
    | with_reducible refine State.loseFrame_good ?_
    | with_reducible refine Good.done ?_
    | split
    | dsimp only
    | with_reducible refine Good.upd ?_ rfl
    | (simp only [id_eq])
    | intro _ _
    | intro _

theorem State.patternFail_good {pq fz s e n x first} (h_s : Good pq fz s) :
    Good pq fz (State.patternFail s e n x first) := by
  unfold State.patternFail
  repeat' first
    | with_reducible assumption
    | with_reducible refine State.cnt_good ?_
    | with_reducible refine State.raise_good ?_
    | with_reducible refine State.loseFrame_good ?_
    | with_reducible refine Good.done ?_
    | split
    | dsimp only
    | with_reducible refine Good.upd ?_ rfl
    | (simp only [id_eq])
    | intro _ _
    | intro _

theorem execWarpComplete_good {pq fz e crcErr meshErr cycles s} (h_s : Good pq fz s) :
    GoodOut pq fz (execWarpComplete e crcErr meshErr cycles s) := by
  unfold execWarpComplete
  refine Good.done ?_
  dsimp only
  split
  · exact h_s
  · refine onlyIf_good h_s (fun s h => ?_)
    split
    · rename_i hr; exact State.warpReset_good (State.runWarp_good hr h)
    · rename_i hr
      have h := fun k n c => State.warpStop_good (e := e.toNat) (State.traceWarp_good (e := e.toNat) (n := n) (code := c) (cycles := cycles.toNat)
        (State.wr_good (f := F.WRP_LAST_CYCLES) (v := cycles.toNat) (i := e.toNat) (State.cnt_good (f := F.WRP_PIXELS_COUNT) (i := e.toNat)
        (k := k) (State.runWarp_good hr h))))
      refine Good.ite (fun _ => State.loseFrame_good (State.cnt_good (h _ _ _))) (fun _ =>
        Good.ite (fun _ => State.patternFail_good (h _ _ _)) (fun _ => Good.ite (fun _ => State.selectEncode_good (State.admitSample_good ?_)) (fun _ => ?_)))
      · split
        · exact Good.ite (fun _ => h _ _ _) (fun _ => State.attribute_good (h _ _ _))
        · exact h _ _ _
      · split
        · exact Good.ite (fun _ => h _ _ _) (fun _ => State.attribute_good (h _ _ _))
        · exact h _ _ _

theorem execWarpTimeout_good {pq fz e s} (h_s : Good pq fz s) :
    GoodOut pq fz (execWarpTimeout e s) := by
  unfold execWarpTimeout
  repeat' first
    | with_reducible assumption
    | with_reducible refine onlyIf_good ?_ ?_
    | with_reducible refine State.loseFrame_good ?_
    | with_reducible refine State.cnt_good ?_
    | with_reducible refine State.warpStop_good ?_
    | with_reducible refine State.traceWarp_good ?_
    | with_reducible refine Good.done ?_
    | split
    | dsimp only
    | with_reducible refine Good.upd ?_ rfl
    | (simp only [id_eq])
    | intro _ _
    | intro _

theorem State.bufferWord_good {pq fz s line n} (h_s : Good pq fz s) :
    Good pq fz (State.bufferWord s line n) := by
  unfold State.bufferWord
  repeat' first
    | with_reducible assumption
    | with_reducible refine State.raise_good ?_
    | with_reducible refine State.cnt_good ?_
    | with_reducible refine Good.done ?_
    | split
    | dsimp only
    | with_reducible refine Good.upd ?_ rfl
    | (simp only [id_eq])
    | intro _ _
    | intro _

theorem execWarpBufferError_good {pq fz e s} (h_s : Good pq fz s) :
    GoodOut pq fz (execWarpBufferError e s) := by
  unfold execWarpBufferError
  repeat' first
    | with_reducible assumption
    | with_reducible refine State.warpReset_good ?_
    | with_reducible refine State.bufferWord_good ?_
    | with_reducible refine Good.done ?_
    | split
    | dsimp only
    | with_reducible refine Good.upd ?_ rfl
    | (simp only [id_eq])
    | intro _ _
    | intro _

end Sys2Proof.Machine
end

