-- ==== Sys2Proof/Laws/KeepCollector.lean ====
section
/-! SUPPORT. Every operation and command of Machine/Collector.lean keeps what `Good` says of a state. -/
namespace Sys2Proof.Machine

theorem State.callRestart_good {pq fz s r} (h_s : Good pq fz s) :
    Good pq fz (State.callRestart s r) := by
  unfold State.callRestart
  repeat' first
    | with_reducible assumption
    | with_reducible refine Good.done ?_
    | split
    | dsimp only
    | with_reducible refine Good.upd ?_ rfl
    | (simp only [id_eq])
    | intro _ _
    | intro _

theorem State.fenceUnit_good {pq fz s e} {y_ t_} (e_ : (State.fenceUnit s e) = (y_, t_)) (h_s : Good pq fz s) :
    Good pq fz t_ := by
  unfold State.fenceUnit at e_
  repeat' first
    | with_reducible assumption
    | (simp only [Prod.mk.injEq] at e_)
    | (obtain ⟨_, rfl⟩ := e_)
    | (obtain ⟨_, _, rfl⟩ := e_)
    | subst e_
    | split at e_
    | with_reducible refine State.kickJobs_good ?_
    | with_reducible refine State.settleArbs_good ?_
    | with_reducible refine State.takeOutAs_good ?_
    | with_reducible refine State.linkDown_good ?_
    | with_reducible refine State.modPort_good ?_
    | with_reducible refine State.modJxs_good ?_
    | with_reducible refine State.raise_good ?_
    | with_reducible refine State.wr_good ?_
    | with_reducible refine Good.done ?_
    | split
    | dsimp only
    | with_reducible refine Good.upd ?_ rfl
    | (simp only [id_eq])
    | intro _ _
    | intro _

theorem State.fenceUnit_keeps {pq fz s e} (h_s : Good pq fz s) : Good pq fz (State.fenceUnit s e).2 :=
  State.fenceUnit_good (y_ := (State.fenceUnit s e).1) (t_ := (State.fenceUnit s e).2) (Good.eta _) h_s

theorem State.countReact_good {pq fz s r} (h_s : Good pq fz s) :
    Good pq fz (State.countReact s r) := by
  unfold State.countReact
  repeat' first
    | with_reducible assumption
    | with_reducible refine State.cnt_good ?_
    | with_reducible refine Good.done ?_
    | split
    | dsimp only
    | with_reducible refine Good.upd ?_ rfl
    | (simp only [id_eq])
    | intro _ _
    | intro _

theorem State.addMgmt_good {pq fz s r} (h_s : Good pq fz s) :
    Good pq fz (State.addMgmt s r) := by
  unfold State.addMgmt
  repeat' first
    | with_reducible assumption
    | with_reducible refine State.raise_good ?_
    | with_reducible refine State.cnt_good ?_
    | with_reducible refine Good.done ?_
    | split
    | dsimp only
    | with_reducible refine Good.upd ?_ rfl
    | (simp only [id_eq])
    | intro _ _
    | intro _

theorem State.addTlog_good {pq fz s r} (h_s : Good pq fz s) :
    Good pq fz (State.addTlog s r) := by
  unfold State.addTlog
  repeat' first
    | with_reducible assumption
    | with_reducible refine State.raise_good ?_
    | with_reducible refine Good.done ?_
    | split
    | dsimp only
    | with_reducible refine Good.upd ?_ rfl
    | (simp only [id_eq])
    | intro _ _
    | intro _

theorem State.failStages_good {pq fz s l tick} (h_s : Good pq fz s) :
    Good pq fz (State.failStages s l tick) := by
  unfold State.failStages
  repeat' first
    | with_reducible assumption
    | with_reducible refine State.kickJobs_good ?_
    | with_reducible refine State.settleArbs_good ?_
    | with_reducible refine State.each_good ?_ ?_
    | with_reducible refine State.failStageAt_good ?_
    | with_reducible refine Good.done ?_
    | split
    | dsimp only
    | with_reducible refine Good.upd ?_ rfl
    | (simp only [id_eq])
    | intro _ _
    | intro _

theorem State.failNamed_good {pq fz s e} (h_s : Good pq fz s) :
    Good pq fz (State.failNamed s e) := by
  unfold State.failNamed
  repeat' first
    | with_reducible assumption
    | with_reducible refine State.failStages_good ?_
    | with_reducible refine Good.done ?_
    | split
    | dsimp only
    | with_reducible refine Good.upd ?_ rfl
    | (simp only [id_eq])
    | intro _ _
    | intro _

theorem State.failAll_good {pq fz s tick} (h_s : Good pq fz s) :
    Good pq fz (State.failAll s tick) := by
  unfold State.failAll
  repeat' first
    | with_reducible assumption
    | with_reducible refine State.failStages_good ?_
    | with_reducible refine Good.done ?_
    | split
    | dsimp only
    | with_reducible refine Good.upd ?_ rfl
    | (simp only [id_eq])
    | intro _ _
    | intro _

theorem State.actReact_good {pq fz s e r} (h_s : Good pq fz s) :
    Good pq fz (State.actReact s e r) := by
  unfold State.actReact
  repeat' first
    | with_reducible assumption
    | with_reducible refine State.failNamed_good ?_
    | with_reducible refine State.callRestart_good ?_
    | with_reducible refine State.failAll_good ?_
    | with_reducible refine State.lifeUp_good ?_
    | with_reducible refine Good.done ?_
    | split
    | dsimp only
    | with_reducible refine Good.upd ?_ rfl
    | (simp only [id_eq])
    | intro _ _
    | intro _

theorem State.recordEvent_good {pq fz s e r} (h_s : Good pq fz s) :
    Good pq fz (State.recordEvent s e r) := by
  unfold State.recordEvent
  repeat' first
    | with_reducible assumption
    | with_reducible refine State.offer_good ?_
    | with_reducible refine State.each_good ?_ ?_
    | with_reducible refine Good.done ?_
    | split
    | dsimp only
    | with_reducible refine Good.upd ?_ rfl
    | (simp only [id_eq])
    | intro _ _
    | intro _

theorem State.takeReaction_good {pq fz s e r entry} (h_s : Good pq fz s) :
    Good pq fz (State.takeReaction s e r entry) := by
  unfold State.takeReaction
  repeat' first
    | with_reducible assumption
    | with_reducible refine State.fenceUnit_good (by assumption) ?_
    | with_reducible refine State.fenceUnit_keeps ?_
    | with_reducible refine State.countReact_good ?_
    | with_reducible refine State.addMgmt_good ?_
    | with_reducible refine State.addTlog_good ?_
    | with_reducible refine State.queueEvt_good ?_
    | with_reducible refine State.queueLog_good ?_
    | with_reducible refine State.actReact_good ?_
    | with_reducible refine State.recordEvent_good ?_
    | with_reducible refine Good.done ?_
    | split
    | dsimp only
    | with_reducible refine Good.upd ?_ rfl
    | (simp only [id_eq])
    | intro _ _
    | intro _

theorem State.dropDecides_good {pq fz s} (h_s : Good pq fz s) :
    Good pq fz (State.dropDecides s) := by
  unfold State.dropDecides
  repeat' first
    | with_reducible assumption
    | with_reducible refine State.each_good ?_ ?_
    | with_reducible refine State.takeReaction_good ?_
    | with_reducible refine Good.done ?_
    | split
    | dsimp only
    | with_reducible refine Good.upd ?_ rfl
    | (simp only [id_eq])
    | intro _ _
    | intro _

theorem execErrorLineRailFault_good {pq fz line s} (h_s : Good pq fz s) :
    GoodOut pq fz (execErrorLineRailFault line s) := by
  unfold execErrorLineRailFault
  repeat' first
    | with_reducible assumption
    | with_reducible refine onlyIf_good ?_ ?_
    | with_reducible refine State.wr_good ?_
    | with_reducible refine State.raise_good ?_
    | with_reducible refine Good.done ?_
    | split
    | dsimp only
    | with_reducible refine Good.upd ?_ rfl
    | (simp only [id_eq])
    | intro _ _
    | intro _

theorem execEventEntryWrite_good {pq fz s} (h_s : Good pq fz s) :
    GoodOut pq fz (execEventEntryWrite s) := by
  unfold execEventEntryWrite
  repeat' first
    | with_reducible assumption
    | with_reducible refine onlyIf_good ?_ ?_
    | with_reducible refine State.ringPut_good ?_
    | with_reducible refine State.each_good ?_ ?_
    | with_reducible refine State.msix_good ?_
    | with_reducible refine Good.done ?_
    | split
    | dsimp only
    | with_reducible refine Good.upd ?_ rfl
    | (simp only [id_eq])
    | intro _ _
    | intro _

theorem execTraceEntryWrite_good {pq fz s} (h_s : Good pq fz s) :
    GoodOut pq fz (execTraceEntryWrite s) := by
  unfold execTraceEntryWrite
  repeat' first
    | with_reducible assumption
    | with_reducible refine onlyIf_good ?_ ?_
    | with_reducible refine State.msix_good ?_
    | with_reducible refine State.ringPut_good ?_
    | with_reducible refine Good.done ?_
    | split
    | dsimp only
    | with_reducible refine Good.upd ?_ rfl
    | (simp only [id_eq])
    | intro _ _
    | intro _

theorem execFclClrCnt_good {pq fz s} (h_s : Good pq fz s) :
    GoodOut pq fz (execFclClrCnt s) := by
  unfold execFclClrCnt
  repeat' first
    | with_reducible assumption
    | with_reducible refine State.clearFlds_good ?_
    | with_reducible refine State.each_good ?_ ?_
    | with_reducible refine State.wr_good ?_
    | with_reducible refine Good.done ?_
    | split
    | dsimp only
    | with_reducible refine Good.upd ?_ rfl
    | (simp only [id_eq])
    | intro _ _
    | intro _

theorem State.overrideEntry_good {pq fz s o} (h_s : Good pq fz s) :
    Good pq fz (State.overrideEntry s o) := by
  unfold State.overrideEntry
  repeat' first
    | with_reducible assumption
    | with_reducible refine State.cnt_good ?_
    | with_reducible refine Good.done ?_
    | split
    | dsimp only
    | with_reducible refine Good.upd ?_ rfl
    | (simp only [id_eq])
    | intro _ _
    | intro _

theorem State.buildTable_good {pq fz s} (h_s : Good pq fz s) :
    Good pq fz (State.buildTable s) := by
  unfold State.buildTable
  repeat' first
    | with_reducible assumption
    | with_reducible refine State.each_good ?_ ?_
    | with_reducible refine State.overrideEntry_good ?_
    | with_reducible refine Good.done ?_
    | split
    | dsimp only
    | with_reducible refine Good.upd ?_ rfl
    | (simp only [id_eq])
    | intro _ _
    | intro _

theorem execCollectorReaction_good {pq fz s} (h_s : Good pq fz s) :
    GoodOut pq fz (execCollectorReaction s) := by
  unfold execCollectorReaction
  repeat' first
    | with_reducible assumption
    | with_reducible refine State.queueEvt_good ?_
    | with_reducible refine State.addMgmt_good ?_
    | with_reducible refine State.takeReaction_good ?_
    | with_reducible refine Good.done ?_
    | split
    | dsimp only
    | with_reducible refine Good.upd ?_ rfl
    | (simp only [id_eq])
    | intro _ _
    | intro _

theorem execErrorLineLatch_good {pq fz s} (h_s : Good pq fz s) :
    GoodOut pq fz (execErrorLineLatch s) := by
  unfold execErrorLineLatch
  repeat' first
    | with_reducible assumption
    | with_reducible refine State.wr_good ?_
    | with_reducible refine Good.done ?_
    | split
    | dsimp only
    | with_reducible refine Good.upd ?_ rfl
    | (simp only [id_eq])
    | intro _ _
    | intro _

theorem execStopAliveDelayExpiry_good {pq fz s} (h_s : Good pq fz s) :
    GoodOut pq fz (execStopAliveDelayExpiry s) := by
  unfold execStopAliveDelayExpiry
  repeat' first
    | with_reducible assumption
    | with_reducible refine onlyIf_good ?_ ?_
    | with_reducible refine State.callRestart_good ?_
    | with_reducible refine Good.done ?_
    | split
    | dsimp only
    | with_reducible refine Good.upd ?_ rfl
    | (simp only [id_eq])
    | intro _ _
    | intro _

theorem execDecideTimeout_good {pq fz s} (h_s : Good pq fz s) :
    GoodOut pq fz (execDecideTimeout s) := by
  unfold execDecideTimeout
  repeat' first
    | with_reducible assumption
    | with_reducible refine State.takeReaction_good ?_
    | with_reducible refine State.raise_good ?_
    | with_reducible refine Good.done ?_
    | split
    | dsimp only
    | with_reducible refine Good.upd ?_ rfl
    | (simp only [id_eq])
    | intro _ _
    | intro _

theorem execLogEntryWrite_good {pq fz s} (h_s : Good pq fz s) :
    GoodOut pq fz (execLogEntryWrite s) := by
  unfold execLogEntryWrite
  repeat' first
    | with_reducible assumption
    | with_reducible refine onlyIf_good ?_ ?_
    | with_reducible refine State.freeBs_good (by assumption) ?_
    | with_reducible refine State.freeBs_keeps ?_
    | with_reducible refine State.msix_good ?_
    | with_reducible refine State.ringPut_good ?_
    | with_reducible refine Good.done ?_
    | split
    | dsimp only
    | with_reducible refine Good.upd ?_ rfl
    | (simp only [id_eq])
    | intro _ _
    | intro _

end Sys2Proof.Machine
end

