-- ==== Sys2Proof/Laws/KeepCarapace.lean ====
section
/-! SUPPORT. Every operation and command of Machine/Carapace.lean keeps what `Good` says of a state. -/
namespace Sys2Proof.Machine

theorem execSmbusReadLines_good {pq fz s} (h_s : Good pq fz s) :
    GoodOut pq fz (execSmbusReadLines s) := by
  unfold execSmbusReadLines
  repeat' first
    | with_reducible assumption
    | with_reducible refine onlyIf_good ?_ ?_
    | with_reducible refine Good.done ?_
    | split
    | dsimp only
    | with_reducible refine Good.upd ?_ rfl
    | (simp only [id_eq])
    | intro _ _
    | intro _

theorem execSmbusOtherCommand_good {pq fz _cmd s} (h_s : Good pq fz s) :
    GoodOut pq fz (execSmbusOtherCommand _cmd s) := by
  unfold execSmbusOtherCommand
  repeat' first
    | with_reducible assumption
    | with_reducible refine onlyIf_good ?_ ?_
    | with_reducible refine Good.done ?_
    | split
    | dsimp only
    | with_reducible refine Good.upd ?_ rfl
    | (simp only [id_eq])
    | intro _ _
    | intro _

theorem execSmbusReadStatus_good {pq fz s} (h_s : Good pq fz s) :
    GoodOut pq fz (execSmbusReadStatus s) := by
  unfold execSmbusReadStatus
  repeat' first
    | with_reducible assumption
    | with_reducible refine onlyIf_good ?_ ?_
    | with_reducible refine Good.done ?_
    | split
    | dsimp only
    | with_reducible refine Good.upd ?_ rfl
    | (simp only [id_eq])
    | intro _ _
    | intro _

theorem State.wdtMissed_good {pq fz s} (h_s : Good pq fz s) :
    Good pq fz (State.wdtMissed s) := by
  unfold State.wdtMissed
  repeat' first
    | with_reducible assumption
    | with_reducible refine State.raise_good ?_
    | with_reducible refine State.cnt_good ?_
    | with_reducible refine Good.done ?_
    | split
    | dsimp only
    | with_reducible refine Good.upd ?_ rfl
    | (simp only [id_eq])
    | intro _ _
    | intro _

theorem execCarapaceWdtKick_good {pq fz s} (h_s : Good pq fz s) :
    GoodOut pq fz (execCarapaceWdtKick s) := by
  unfold execCarapaceWdtKick
  repeat' first
    | with_reducible assumption
    | with_reducible refine onlyIf_good ?_ ?_
    | with_reducible refine State.wdtMissed_good ?_
    | with_reducible refine State.raise_good ?_
    | with_reducible refine State.cnt_good ?_
    | with_reducible refine Good.done ?_
    | split
    | dsimp only
    | with_reducible refine Good.upd ?_ rfl
    | (simp only [id_eq])
    | intro _ _
    | intro _

theorem execLockstepMismatch_good {pq fz s} (h_s : Good pq fz s) :
    GoodOut pq fz (execLockstepMismatch s) := by
  unfold execLockstepMismatch
  repeat' first
    | with_reducible assumption
    | with_reducible refine onlyIf_good ?_ ?_
    | with_reducible refine State.raise_good ?_
    | with_reducible refine Good.done ?_
    | split
    | dsimp only
    | with_reducible refine Good.upd ?_ rfl
    | (simp only [id_eq])
    | intro _ _
    | intro _

theorem execCarapaceWdtExpiry_good {pq fz s} (h_s : Good pq fz s) :
    GoodOut pq fz (execCarapaceWdtExpiry s) := by
  unfold execCarapaceWdtExpiry
  repeat' first
    | with_reducible assumption
    | with_reducible refine onlyIf_good ?_ ?_
    | with_reducible refine State.wdtMissed_good ?_
    | with_reducible refine Good.done ?_
    | split
    | dsimp only
    | with_reducible refine Good.upd ?_ rfl
    | (simp only [id_eq])
    | intro _ _
    | intro _

theorem execClockMonitorCheck_good {pq fz ppm s} (h_s : Good pq fz s) :
    GoodOut pq fz (execClockMonitorCheck ppm s) := by
  unfold execClockMonitorCheck
  repeat' first
    | with_reducible assumption
    | with_reducible refine onlyIf_good ?_ ?_
    | with_reducible refine State.raise_good ?_
    | with_reducible refine Good.done ?_
    | split
    | dsimp only
    | with_reducible refine Good.upd ?_ rfl
    | (simp only [id_eq])
    | intro _ _
    | intro _

theorem execSafClrCnt_good {pq fz s} (h_s : Good pq fz s) :
    GoodOut pq fz (execSafClrCnt s) := by
  unfold execSafClrCnt
  repeat' first
    | with_reducible assumption
    | with_reducible refine State.clearFlds_good ?_
    | with_reducible refine State.each_good ?_ ?_
    | with_reducible refine State.modWin_good ?_
    | with_reducible refine Good.done ?_
    | split
    | dsimp only
    | with_reducible refine Good.upd ?_ rfl
    | (simp only [id_eq])
    | intro _ _
    | intro _

theorem State.testMissed_good {pq fz s line unit} (h_s : Good pq fz s) :
    Good pq fz (State.testMissed s line unit) := by
  unfold State.testMissed
  repeat' first
    | with_reducible assumption
    | with_reducible refine State.raise_good ?_
    | with_reducible refine State.cnt_good ?_
    | with_reducible refine Good.done ?_
    | split
    | dsimp only
    | with_reducible refine Good.upd ?_ rfl
    | (simp only [id_eq])
    | intro _ _
    | intro _

theorem execMgmtDatagramSend_good {pq fz s} (h_s : Good pq fz s) :
    GoodOut pq fz (execMgmtDatagramSend s) := by
  unfold execMgmtDatagramSend
  repeat' first
    | with_reducible assumption
    | with_reducible refine onlyIf_good ?_ ?_
    | with_reducible refine State.cnt_good ?_
    | with_reducible refine Good.done ?_
    | split
    | dsimp only
    | with_reducible refine Good.upd ?_ rfl
    | (simp only [id_eq])
    | intro _ _
    | intro _

theorem execDebugAction_good {pq fz act s} (h_s : Good pq fz s) :
    GoodOut pq fz (execDebugAction act s) := by
  unfold execDebugAction
  repeat' first
    | with_reducible assumption
    | with_reducible refine onlyIf_good ?_ ?_
    | with_reducible refine Good.done ?_
    | split
    | dsimp only
    | with_reducible refine Good.upd ?_ rfl
    | (simp only [id_eq])
    | intro _ _
    | intro _

theorem execMgmtLinkChange_good {pq fz up s} (h_s : Good pq fz s) :
    GoodOut pq fz (execMgmtLinkChange up s) := by
  unfold execMgmtLinkChange
  repeat' first
    | with_reducible assumption
    | with_reducible refine onlyIf_good ?_ ?_
    | with_reducible refine State.raise_good ?_
    | with_reducible refine State.wrB_good ?_
    | with_reducible refine Good.done ?_
    | split
    | dsimp only
    | with_reducible refine Good.upd ?_ rfl
    | (simp only [id_eq])
    | intro _ _
    | intro _

theorem execCarapaceSramScrub_good {pq fz errs s} (h_s : Good pq fz s) :
    GoodOut pq fz (execCarapaceSramScrub errs s) := by
  unfold execCarapaceSramScrub
  repeat' first
    | with_reducible assumption
    | with_reducible refine onlyIf_good ?_ ?_
    | with_reducible refine State.raise_good ?_
    | with_reducible refine Good.done ?_
    | split
    | dsimp only
    | with_reducible refine Good.upd ?_ rfl
    | (simp only [id_eq])
    | intro _ _
    | intro _

theorem execMgmtFrameReceive_good {pq fz _frame s} (h_s : Good pq fz s) :
    GoodOut pq fz (execMgmtFrameReceive _frame s) := by
  unfold execMgmtFrameReceive
  repeat' first
    | with_reducible assumption
    | with_reducible refine Good.done ?_
    | split
    | dsimp only
    | with_reducible refine Good.upd ?_ rfl
    | (simp only [id_eq])
    | intro _ _
    | intro _

theorem execComparatorTest_good {pq fz flagged s} (h_s : Good pq fz s) :
    GoodOut pq fz (execComparatorTest flagged s) := by
  unfold execComparatorTest
  repeat' first
    | with_reducible assumption
    | with_reducible refine onlyIf_good ?_ ?_
    | with_reducible refine State.cnt_good ?_
    | with_reducible refine State.testMissed_good ?_
    | with_reducible refine Good.done ?_
    | split
    | dsimp only
    | with_reducible refine Good.upd ?_ rfl
    | (simp only [id_eq])
    | intro _ _
    | intro _

theorem execLinePathTest_good {pq fz bad s} (h_s : Good pq fz s) :
    GoodOut pq fz (execLinePathTest bad s) := by
  unfold execLinePathTest
  repeat' first
    | with_reducible assumption
    | with_reducible refine onlyIf_good ?_ ?_
    | with_reducible refine State.testMissed_good ?_
    | with_reducible refine Good.done ?_
    | split
    | dsimp only
    | with_reducible refine Good.upd ?_ rfl
    | (simp only [id_eq])
    | intro _ _
    | intro _

theorem execMgmtExportSend_good {pq fz s} (h_s : Good pq fz s) :
    GoodOut pq fz (execMgmtExportSend s) := by
  unfold execMgmtExportSend
  repeat' first
    | with_reducible assumption
    | with_reducible refine onlyIf_good ?_ ?_
    | with_reducible refine State.busRead_good (by assumption) ?_
    | with_reducible refine State.busRead_keeps ?_
    | with_reducible refine State.cnt_good ?_
    | with_reducible refine State.raise_good ?_
    | with_reducible refine Good.done ?_
    | split
    | dsimp only
    | with_reducible refine Good.upd ?_ rfl
    | (simp only [id_eq])
    | intro _ _
    | intro _

theorem execAliveToggle_good {pq fz s} (h_s : Good pq fz s) :
    GoodOut pq fz (execAliveToggle s) := by
  unfold execAliveToggle
  repeat' first
    | with_reducible assumption
    | with_reducible refine onlyIf_good ?_ ?_
    | with_reducible refine State.cnt_good ?_
    | with_reducible refine Good.done ?_
    | split
    | dsimp only
    | with_reducible refine Good.upd ?_ rfl
    | (simp only [id_eq])
    | intro _ _
    | intro _

theorem execSmbusReadTlog_good {pq fz s} (h_s : Good pq fz s) :
    GoodOut pq fz (execSmbusReadTlog s) := by
  unfold execSmbusReadTlog
  repeat' first
    | with_reducible assumption
    | with_reducible refine onlyIf_good ?_ ?_
    | with_reducible refine Good.done ?_
    | split
    | dsimp only
    | with_reducible refine Good.upd ?_ rfl
    | (simp only [id_eq])
    | intro _ _
    | intro _

end Sys2Proof.Machine
end

