-- ==== Sys2Proof/Laws/KeepHostIf.lean ====
section
/-! SUPPORT. Every operation and command of Machine/HostIf.lean keeps what `Good` says of a state. -/
namespace Sys2Proof.Machine

theorem State.doorbell_good {pq fz s f} (h_s : Good pq fz s) (h_f : ∀ x0, Good pq fz x0 → Good pq fz (f x0)) :
    Good pq fz (State.doorbell s f) := by
  unfold State.doorbell
  repeat' first
    | with_reducible assumption
    | refine h_f _ ?_
    | with_reducible refine State.violHole_good ?_
    | with_reducible refine Good.done ?_
    | split
    | dsimp only
    | with_reducible refine Good.upd ?_ rfl
    | (simp only [id_eq])
    | intro _ _
    | intro _

theorem State.violIndex_good {pq fz s} (h_s : Good pq fz s) :
    Good pq fz (State.violIndex s) := by
  unfold State.violIndex
  repeat' first
    | with_reducible assumption
    | with_reducible refine State.cnt_good ?_
    | with_reducible refine Good.done ?_
    | split
    | dsimp only
    | with_reducible refine Good.upd ?_ rfl
    | (simp only [id_eq])
    | intro _ _
    | intro _

theorem State.consume_good {pq fz s r v arm} (h_s : Good pq fz s) :
    Good pq fz (State.consume s r v arm) := by
  unfold State.consume
  repeat' first
    | with_reducible assumption
    | with_reducible refine State.doorbell_good ?_ ?_
    | with_reducible refine State.rearm_good ?_
    | with_reducible refine State.wr_good ?_
    | with_reducible refine State.releaseHolds_good ?_
    | with_reducible refine State.violIndex_good ?_
    | with_reducible refine Good.done ?_
    | split
    | dsimp only
    | with_reducible refine Good.upd ?_ rfl
    | (simp only [id_eq])
    | intro _ _
    | intro _

theorem execDbLog_good {pq fz v s} (h_s : Good pq fz s) :
    GoodOut pq fz (execDbLog v s) := by
  unfold execDbLog
  repeat' first
    | with_reducible assumption
    | with_reducible refine State.consume_good ?_
    | with_reducible refine Good.done ?_
    | split
    | dsimp only
    | with_reducible refine Good.upd ?_ rfl
    | (simp only [id_eq])
    | intro _ _
    | intro _

theorem State.attach_good {pq fz s} (h_s : Good pq fz s) :
    Good pq fz (State.attach s) := by
  unfold State.attach
  repeat' first
    | with_reducible assumption
    | with_reducible refine State.wr_good ?_
    | with_reducible refine State.cnt_good ?_
    | with_reducible refine State.raise_good ?_
    | with_reducible refine State.setHost_good ?_
    | with_reducible refine Good.done ?_
    | split
    | dsimp only
    | with_reducible refine Good.upd ?_ rfl
    | (simp only [id_eq])
    | intro _ _
    | intro _

theorem State.setPcie_good {pq fz s width speed} (h_s : Good pq fz s) :
    Good pq fz (State.setPcie s width speed) := by
  unfold State.setPcie
  repeat' first
    | with_reducible assumption
    | with_reducible refine State.msix_good ?_
    | with_reducible refine State.wr_good ?_
    | with_reducible refine Good.done ?_
    | split
    | dsimp only
    | with_reducible refine Good.upd ?_ rfl
    | (simp only [id_eq])
    | intro _ _
    | intro _

theorem State.aerSet_good {pq fz s bit} (h_s : Good pq fz s) :
    Good pq fz (State.aerSet s bit) := by
  unfold State.aerSet
  repeat' first
    | with_reducible assumption
    | with_reducible refine Good.done ?_
    | split
    | dsimp only
    | with_reducible refine Good.upd ?_ rfl
    | (simp only [id_eq])
    | intro _ _
    | intro _

theorem State.leaveTo_good {pq fz s new cause} (h_s : Good pq fz s) :
    Good pq fz (State.leaveTo s new cause) := by
  unfold State.leaveTo
  repeat' first
    | with_reducible assumption
    | with_reducible refine State.setHost_good ?_
    | with_reducible refine State.dropDecides_good ?_
    | with_reducible refine State.dropHolds_good ?_
    | with_reducible refine Good.done ?_
    | split
    | dsimp only
    | with_reducible refine Good.upd ?_ rfl
    | (simp only [id_eq])
    | intro _ _
    | intro _

theorem State.funcReset_good {pq fz s code} (h_s : Good pq fz s) :
    Good pq fz (State.funcReset s code) := by
  unfold State.funcReset
  repeat' first
    | with_reducible assumption
    | with_reducible refine State.raise_good ?_
    | with_reducible refine State.leaveTo_good ?_
    | with_reducible refine Good.done ?_
    | split
    | dsimp only
    | with_reducible refine Good.upd ?_ rfl
    | (simp only [id_eq])
    | intro _ _
    | intro _

theorem State.toD3hot_good {pq fz s} (h_s : Good pq fz s) :
    Good pq fz (State.toD3hot s) := by
  unfold State.toD3hot
  repeat' first
    | with_reducible assumption
    | with_reducible refine State.funcReset_good ?_
    | with_reducible refine Good.done ?_
    | split
    | dsimp only
    | with_reducible refine Good.upd ?_ rfl
    | (simp only [id_eq])
    | intro _ _
    | intro _

theorem State.cfgWrite_good {pq fz s off v} (h_s : Good pq fz s) :
    Good pq fz (State.cfgWrite s off v) := by
  unfold State.cfgWrite
  repeat' first
    | with_reducible assumption
    | with_reducible refine State.sendPend_good ?_
    | with_reducible refine State.toD3hot_good ?_
    | with_reducible refine Good.done ?_
    | split
    | dsimp only
    | with_reducible refine Good.upd ?_ rfl
    | (simp only [id_eq])
    | intro _ _
    | intro _

theorem State.completerAbort_good {pq fz s a} (h_s : Good pq fz s) :
    Good pq fz (State.completerAbort s a) := by
  unfold State.completerAbort
  repeat' first
    | with_reducible assumption
    | with_reducible refine State.raiseEv_good ?_
    | with_reducible refine State.aerSet_good ?_
    | with_reducible refine State.cnt_good ?_
    | with_reducible refine Good.done ?_
    | split
    | dsimp only
    | with_reducible refine Good.upd ?_ rfl
    | (simp only [id_eq])
    | intro _ _
    | intro _

theorem execDbEvt_good {pq fz v s} (h_s : Good pq fz s) :
    GoodOut pq fz (execDbEvt v s) := by
  unfold execDbEvt
  repeat' first
    | with_reducible assumption
    | with_reducible refine State.consume_good ?_
    | with_reducible refine Good.done ?_
    | split
    | dsimp only
    | with_reducible refine Good.upd ?_ rfl
    | (simp only [id_eq])
    | intro _ _
    | intro _

theorem execHifClrCnt_good {pq fz s} (h_s : Good pq fz s) :
    GoodOut pq fz (execHifClrCnt s) := by
  unfold execHifClrCnt
  repeat' first
    | with_reducible assumption
    | with_reducible refine State.clearFlds_good ?_
    | with_reducible refine Good.done ?_
    | split
    | dsimp only
    | with_reducible refine Good.upd ?_ rfl
    | (simp only [id_eq])
    | intro _ _
    | intro _

theorem State.detach_good {pq fz s} (h_s : Good pq fz s) :
    Good pq fz (State.detach s) := by
  unfold State.detach
  repeat' first
    | with_reducible assumption
    | with_reducible refine State.leaveTo_good ?_
    | with_reducible refine Good.done ?_
    | split
    | dsimp only
    | with_reducible refine Good.upd ?_ rfl
    | (simp only [id_eq])
    | intro _ _
    | intro _

theorem execHifAttachDetach_good {pq fz s} (h_s : Good pq fz s) :
    GoodOut pq fz (execHifAttachDetach s) := by
  unfold execHifAttachDetach
  repeat' first
    | with_reducible assumption
    | with_reducible refine onlyIf_good ?_ ?_
    | with_reducible refine State.detach_good ?_
    | with_reducible refine Good.done ?_
    | split
    | dsimp only
    | with_reducible refine Good.upd ?_ rfl
    | (simp only [id_eq])
    | intro _ _
    | intro _

theorem execHifAttachStart_good {pq fz s} (h_s : Good pq fz s) :
    GoodOut pq fz (execHifAttachStart s) := by
  unfold execHifAttachStart
  repeat' first
    | with_reducible assumption
    | with_reducible refine onlyIf_good ?_ ?_
    | with_reducible refine State.detach_good ?_
    | with_reducible refine State.attach_good ?_
    | with_reducible refine State.raise_good ?_
    | with_reducible refine State.wr_good ?_
    | with_reducible refine Good.done ?_
    | split
    | dsimp only
    | with_reducible refine Good.upd ?_ rfl
    | (simp only [id_eq])
    | intro _ _
    | intro _

theorem execDbCmd_good {pq fz v s} (h_s : Good pq fz s) :
    GoodOut pq fz (execDbCmd v s) := by
  unfold execDbCmd
  repeat' first
    | with_reducible assumption
    | with_reducible refine State.doorbell_good ?_ ?_
    | with_reducible refine State.wr_good ?_
    | with_reducible refine State.violIndex_good ?_
    | with_reducible refine Good.done ?_
    | split
    | dsimp only
    | with_reducible refine Good.upd ?_ rfl
    | (simp only [id_eq])
    | intro _ _
    | intro _

theorem execDbCpl_good {pq fz v s} (h_s : Good pq fz s) :
    GoodOut pq fz (execDbCpl v s) := by
  unfold execDbCpl
  repeat' first
    | with_reducible assumption
    | with_reducible refine State.consume_good ?_
    | with_reducible refine Good.done ?_
    | split
    | dsimp only
    | with_reducible refine Good.upd ?_ rfl
    | (simp only [id_eq])
    | intro _ _
    | intro _

theorem execDbTrc_good {pq fz v s} (h_s : Good pq fz s) :
    GoodOut pq fz (execDbTrc v s) := by
  unfold execDbTrc
  repeat' first
    | with_reducible assumption
    | with_reducible refine State.consume_good ?_
    | with_reducible refine Good.done ?_
    | split
    | dsimp only
    | with_reducible refine Good.upd ?_ rfl
    | (simp only [id_eq])
    | intro _ _
    | intro _

theorem execDbHb_good {pq fz _v s} (h_s : Good pq fz s) :
    GoodOut pq fz (execDbHb _v s) := by
  unfold execDbHb
  repeat' first
    | with_reducible assumption
    | with_reducible refine State.violHole_good ?_
    | with_reducible refine State.cnt_good ?_
    | with_reducible refine Good.done ?_
    | split
    | dsimp only
    | with_reducible refine Good.upd ?_ rfl
    | (simp only [id_eq])
    | intro _ _
    | intro _

theorem execDbTensor_good {pq fz n v s} (h_s : Good pq fz s) :
    GoodOut pq fz (execDbTensor n v s) := by
  unfold execDbTensor
  repeat' first
    | with_reducible assumption
    | with_reducible refine State.violHole_good ?_
    | with_reducible refine State.doorbell_good ?_ ?_
    | with_reducible refine State.modStrm_good ?_
    | with_reducible refine State.admitSample_good ?_
    | with_reducible refine State.loadTimer_good ?_
    | with_reducible refine State.violIndex_good ?_
    | with_reducible refine Good.done ?_
    | split
    | dsimp only
    | with_reducible refine Good.upd ?_ rfl
    | (simp only [id_eq])
    | intro _ _
    | intro _

theorem State.hostMemRead_good {pq fz s a n edc} {y_ z_ t_} (e_ : (State.hostMemRead s a n edc) = (y_, z_, t_)) (h_s : Good pq fz s) :
    Good pq fz t_ := by
  unfold State.hostMemRead at e_
  repeat' first
    | with_reducible assumption
    | (simp only [Prod.mk.injEq] at e_)
    | (obtain ⟨_, rfl⟩ := e_)
    | (obtain ⟨_, _, rfl⟩ := e_)
    | subst e_
    | split at e_
    | with_reducible refine State.memRead_good (by assumption) ?_
    | with_reducible refine State.memRead_keeps ?_
    | with_reducible refine State.busRead_good (by assumption) ?_
    | with_reducible refine State.busRead_keeps ?_
    | with_reducible refine Good.done ?_
    | split
    | dsimp only
    | with_reducible refine Good.upd ?_ rfl
    | (simp only [id_eq])
    | intro _ _
    | intro _

theorem State.hostMemRead_keeps {pq fz s a n edc} (h_s : Good pq fz s) : Good pq fz (State.hostMemRead s a n edc).2.2 :=
  State.hostMemRead_good (y_ := (State.hostMemRead s a n edc).1) (z_ := (State.hostMemRead s a n edc).2.1) (t_ := (State.hostMemRead s a n edc).2.2) (Good.eta3 _) h_s

theorem State.hostRead_good {pq fz s a n edc} (h_s : Good pq fz s) :
    Good pq fz (State.hostRead s a n edc) := by
  unfold State.hostRead
  repeat' first
    | with_reducible assumption
    | with_reducible refine State.violHole_good ?_
    | with_reducible refine State.holdAccess_good ?_
    | with_reducible refine State.hostMemRead_good (by assumption) ?_
    | with_reducible refine State.hostMemRead_keeps ?_
    | with_reducible refine State.completerAbort_good ?_
    | with_reducible refine Good.done ?_
    | split
    | dsimp only
    | with_reducible refine Good.upd ?_ rfl
    | (simp only [id_eq])
    | intro _ _
    | intro _

theorem execHostBar4Read_good {pq fz off len s} (h_s : Good pq fz s) :
    GoodOut pq fz (execHostBar4Read off len s) := by
  unfold execHostBar4Read
  repeat' first
    | with_reducible assumption
    | with_reducible refine onlyIf_good ?_ ?_
    | with_reducible refine State.hostRead_good ?_
    | with_reducible refine State.violHole_good ?_
    | with_reducible refine Good.done ?_
    | split
    | dsimp only
    | with_reducible refine Good.upd ?_ rfl
    | (simp only [id_eq])
    | intro _ _
    | intro _

theorem State.hostMemWrite_good {pq fz s a d edc} {y_ z_ t_} (e_ : (State.hostMemWrite s a d edc) = (y_, z_, t_)) (h_s : Good pq fz s) :
    Good pq fz t_ := by
  unfold State.hostMemWrite at e_
  repeat' first
    | with_reducible assumption
    | (simp only [Prod.mk.injEq] at e_)
    | (obtain ⟨_, rfl⟩ := e_)
    | (obtain ⟨_, _, rfl⟩ := e_)
    | subst e_
    | split at e_
    | with_reducible refine State.memWrite_good (by assumption) ?_
    | with_reducible refine State.memWrite_keeps ?_
    | with_reducible refine State.busWriteAt_good (by assumption) ?_
    | with_reducible refine State.busWriteAt_keeps ?_
    | with_reducible refine Good.done ?_
    | split
    | dsimp only
    | with_reducible refine Good.upd ?_ rfl
    | (simp only [id_eq])
    | intro _ _
    | intro _

theorem State.hostMemWrite_keeps {pq fz s a d edc} (h_s : Good pq fz s) : Good pq fz (State.hostMemWrite s a d edc).2.2 :=
  State.hostMemWrite_good (y_ := (State.hostMemWrite s a d edc).1) (z_ := (State.hostMemWrite s a d edc).2.1) (t_ := (State.hostMemWrite s a d edc).2.2) (Good.eta3 _) h_s

theorem State.hostWrite_good {pq fz s a d edc} (h_s : Good pq fz s) :
    Good pq fz (State.hostWrite s a d edc) := by
  unfold State.hostWrite
  repeat' first
    | with_reducible assumption
    | with_reducible refine State.violHole_good ?_
    | with_reducible refine State.holdAccess_good ?_
    | with_reducible refine State.hostMemWrite_good (by assumption) ?_
    | with_reducible refine State.hostMemWrite_keeps ?_
    | with_reducible refine State.completerAbort_good ?_
    | with_reducible refine Good.done ?_
    | split
    | dsimp only
    | with_reducible refine Good.upd ?_ rfl
    | (simp only [id_eq])
    | intro _ _
    | intro _

theorem State.msixReset_good {pq fz s} (h_s : Good pq fz s) :
    Good pq fz (State.msixReset s) := by
  unfold State.msixReset
  repeat' first
    | with_reducible assumption
    | with_reducible refine Good.done ?_
    | split
    | dsimp only
    | with_reducible refine Good.upd ?_ rfl
    | (simp only [id_eq])
    | intro _ _
    | intro _

theorem State.linkGone_good {pq fz s code} (h_s : Good pq fz s) :
    Good pq fz (State.linkGone s code) := by
  unfold State.linkGone
  repeat' first
    | with_reducible assumption
    | with_reducible refine State.raise_good ?_
    | with_reducible refine State.msixReset_good ?_
    | with_reducible refine State.setPcie_good ?_
    | with_reducible refine State.leaveTo_good ?_
    | with_reducible refine Good.done ?_
    | split
    | dsimp only
    | with_reducible refine Good.upd ?_ rfl
    | (simp only [id_eq])
    | intro _ _
    | intro _

theorem execPerstNAssert_good {pq fz s} (h_s : Good pq fz s) :
    GoodOut pq fz (execPerstNAssert s) := by
  unfold execPerstNAssert
  repeat' first
    | with_reducible assumption
    | with_reducible refine onlyIf_good ?_ ?_
    | with_reducible refine State.linkGone_good ?_
    | with_reducible refine Good.done ?_
    | split
    | dsimp only
    | with_reducible refine Good.upd ?_ rfl
    | (simp only [id_eq])
    | intro _ _
    | intro _

theorem execD3hotEntry_good {pq fz s} (h_s : Good pq fz s) :
    GoodOut pq fz (execD3hotEntry s) := by
  unfold execD3hotEntry
  repeat' first
    | with_reducible assumption
    | with_reducible refine onlyIf_good ?_ ?_
    | with_reducible refine State.toD3hot_good ?_
    | with_reducible refine Good.done ?_
    | split
    | dsimp only
    | with_reducible refine Good.upd ?_ rfl
    | (simp only [id_eq])
    | intro _ _
    | intro _

theorem execHoleAccess_good {pq fz write addr s} (h_s : Good pq fz s) :
    GoodOut pq fz (execHoleAccess write addr s) := by
  unfold execHoleAccess
  repeat' first
    | with_reducible assumption
    | with_reducible refine onlyIf_good ?_ ?_
    | with_reducible refine State.violHole_good ?_
    | with_reducible refine Good.done ?_
    | split
    | dsimp only
    | with_reducible refine Good.upd ?_ rfl
    | (simp only [id_eq])
    | intro _ _
    | intro _

theorem execHostBar2Read_good {pq fz at2 len s} (h_s : Good pq fz s) :
    GoodOut pq fz (execHostBar2Read at2 len s) := by
  unfold execHostBar2Read
  repeat' first
    | with_reducible assumption
    | with_reducible refine onlyIf_good ?_ ?_
    | with_reducible refine State.hostRead_good ?_
    | with_reducible refine State.violHole_good ?_
    | with_reducible refine Good.done ?_
    | split
    | dsimp only
    | with_reducible refine Good.upd ?_ rfl
    | (simp only [id_eq])
    | intro _ _
    | intro _

theorem execHostBar2Write_good {pq fz at2 data s} (h_s : Good pq fz s) :
    GoodOut pq fz (execHostBar2Write at2 data s) := by
  unfold execHostBar2Write
  repeat' first
    | with_reducible assumption
    | with_reducible refine onlyIf_good ?_ ?_
    | with_reducible refine State.hostWrite_good ?_
    | with_reducible refine State.violHole_good ?_
    | with_reducible refine Good.done ?_
    | split
    | dsimp only
    | with_reducible refine Good.upd ?_ rfl
    | (simp only [id_eq])
    | intro _ _
    | intro _

theorem execHostBar4Write_good {pq fz off data s} (h_s : Good pq fz s) :
    GoodOut pq fz (execHostBar4Write off data s) := by
  unfold execHostBar4Write
  repeat' first
    | with_reducible assumption
    | with_reducible refine onlyIf_good ?_ ?_
    | with_reducible refine State.hostWrite_good ?_
    | with_reducible refine State.violHole_good ?_
    | with_reducible refine Good.done ?_
    | split
    | dsimp only
    | with_reducible refine Good.upd ?_ rfl
    | (simp only [id_eq])
    | intro _ _
    | intro _

theorem execTlpErrorReceive_good {pq fz kind s} (h_s : Good pq fz s) :
    GoodOut pq fz (execTlpErrorReceive kind s) := by
  unfold execTlpErrorReceive
  repeat' first
    | with_reducible assumption
    | with_reducible refine onlyIf_good ?_ ?_
    | with_reducible refine State.raise_good ?_
    | with_reducible refine State.aerSet_good ?_
    | with_reducible refine State.cnt_good ?_
    | with_reducible refine Good.done ?_
    | split
    | dsimp only
    | with_reducible refine Good.upd ?_ rfl
    | (simp only [id_eq])
    | intro _ _
    | intro _

theorem execPcieLinkUp_good {pq fz width speed s} (h_s : Good pq fz s) :
    GoodOut pq fz (execPcieLinkUp width speed s) := by
  unfold execPcieLinkUp
  repeat' first
    | with_reducible assumption
    | with_reducible refine onlyIf_good ?_ ?_
    | with_reducible refine State.setPcie_good ?_
    | with_reducible refine State.setHost_good ?_
    | with_reducible refine State.raise_good ?_
    | with_reducible refine Good.done ?_
    | split
    | dsimp only
    | with_reducible refine Good.upd ?_ rfl
    | (simp only [id_eq])
    | intro _ _
    | intro _

theorem execPcieLinkLoss_good {pq fz s} (h_s : Good pq fz s) :
    GoodOut pq fz (execPcieLinkLoss s) := by
  unfold execPcieLinkLoss
  repeat' first
    | with_reducible assumption
    | with_reducible refine onlyIf_good ?_ ?_
    | with_reducible refine State.linkGone_good ?_
    | with_reducible refine Good.done ?_
    | split
    | dsimp only
    | with_reducible refine Good.upd ?_ rfl
    | (simp only [id_eq])
    | intro _ _
    | intro _

theorem execFunctionLevelReset_good {pq fz s} (h_s : Good pq fz s) :
    GoodOut pq fz (execFunctionLevelReset s) := by
  unfold execFunctionLevelReset
  repeat' first
    | with_reducible assumption
    | with_reducible refine onlyIf_good ?_ ?_
    | with_reducible refine State.msixReset_good ?_
    | with_reducible refine State.funcReset_good ?_
    | with_reducible refine Good.done ?_
    | split
    | dsimp only
    | with_reducible refine Good.upd ?_ rfl
    | (simp only [id_eq])
    | intro _ _
    | intro _

theorem execHotReset_good {pq fz s} (h_s : Good pq fz s) :
    GoodOut pq fz (execHotReset s) := by
  unfold execHotReset
  repeat' first
    | with_reducible assumption
    | with_reducible refine onlyIf_good ?_ ?_
    | with_reducible refine State.msixReset_good ?_
    | with_reducible refine State.funcReset_good ?_
    | with_reducible refine Good.done ?_
    | split
    | dsimp only
    | with_reducible refine Good.upd ?_ rfl
    | (simp only [id_eq])
    | intro _ _
    | intro _

theorem execHifStateRead_good {pq fz s} (h_s : Good pq fz s) :
    GoodOut pq fz (execHifStateRead s) := by
  unfold execHifStateRead
  repeat' first
    | with_reducible assumption
    | with_reducible refine onlyIf_good ?_ ?_
    | with_reducible refine State.rearm_good ?_
    | with_reducible refine Good.done ?_
    | split
    | dsimp only
    | with_reducible refine Good.upd ?_ rfl
    | (simp only [id_eq])
    | intro _ _
    | intro _

theorem execHeartbeatTimeout_good {pq fz s} (h_s : Good pq fz s) :
    GoodOut pq fz (execHeartbeatTimeout s) := by
  unfold execHeartbeatTimeout
  repeat' first
    | with_reducible assumption
    | with_reducible refine onlyIf_good ?_ ?_
    | with_reducible refine State.raise_good ?_
    | with_reducible refine State.leaveTo_good ?_
    | with_reducible refine Good.done ?_
    | split
    | dsimp only
    | with_reducible refine Good.upd ?_ rfl
    | (simp only [id_eq])
    | intro _ _
    | intro _

end Sys2Proof.Machine
end

