-- ==== Sys2Proof/Laws/KeepCommands.lean ====
section
/-! SUPPORT. Every operation and command of Machine/Commands.lean keeps what `Good` says of a state. -/
namespace Sys2Proof.Machine

theorem State.cmdEntry_good {pq fz s w status detail} (h_s : Good pq fz s) :
    Good pq fz (State.cmdEntry s w status detail) := by
  unfold State.cmdEntry
  repeat' first
    | with_reducible assumption
    | with_reducible refine State.trace_good ?_
    | with_reducible refine State.complete_good ?_
    | with_reducible refine Good.done ?_
    | split
    | dsimp only
    | with_reducible refine Good.upd ?_ rfl
    | (simp only [id_eq])
    | intro _ _
    | intro _

theorem State.endWaiting_good {pq fz s w status detail} (h_s : Good pq fz s) :
    Good pq fz (State.endWaiting s w status detail) := by
  unfold State.endWaiting
  repeat' first
    | with_reducible assumption
    | with_reducible refine State.cmdEntry_good ?_
    | with_reducible refine Good.done ?_
    | split
    | dsimp only
    | with_reducible refine Good.upd ?_ rfl
    | (simp only [id_eq])
    | intro _ _
    | intro _

theorem State.settleNops_good {pq fz s} (h_s : Good pq fz s) :
    Good pq fz (State.settleNops s) := by
  unfold State.settleNops
  repeat' first
    | with_reducible assumption
    | with_reducible refine State.each_good ?_ ?_
    | with_reducible refine State.endWaiting_good ?_
    | with_reducible refine Good.done ?_
    | split
    | dsimp only
    | with_reducible refine Good.upd ?_ rfl
    | (simp only [id_eq])
    | intro _ _
    | intro _

theorem State.endCmd_good {pq fz s tag status detail} (h_s : Good pq fz s) :
    Good pq fz (State.endCmd s tag status detail) := by
  unfold State.endCmd
  repeat' first
    | with_reducible assumption
    | with_reducible refine State.settleNops_good ?_
    | with_reducible refine State.endWaiting_good ?_
    | with_reducible refine Good.done ?_
    | split
    | dsimp only
    | with_reducible refine Good.upd ?_ rfl
    | (simp only [id_eq])
    | intro _ _
    | intro _

theorem State.endReq_good {pq fz s r status} (h_s : Good pq fz s) :
    Good pq fz (State.endReq s r status) := by
  unfold State.endReq
  repeat' first
    | with_reducible assumption
    | with_reducible refine State.endCmd_good ?_
    | with_reducible refine Good.done ?_
    | split
    | dsimp only
    | with_reducible refine Good.upd ?_ rfl
    | (simp only [id_eq])
    | intro _ _
    | intro _

theorem State.reqFail_good {pq fz s b code} (h_s : Good pq fz s) :
    Good pq fz (State.reqFail s b code) := by
  unfold State.reqFail
  repeat' first
    | with_reducible assumption
    | with_reducible refine State.endReq_good ?_
    | with_reducible refine Good.done ?_
    | split
    | dsimp only
    | with_reducible refine Good.upd ?_ rfl
    | (simp only [id_eq])
    | intro _ _
    | intro _

theorem State.lateReqs_good {pq fz s} (h_s : Good pq fz s) :
    Good pq fz (State.lateReqs s) := by
  unfold State.lateReqs
  repeat' first
    | with_reducible assumption
    | with_reducible refine State.each_good ?_ ?_
    | with_reducible refine State.endReq_good ?_
    | with_reducible refine Good.done ?_
    | split
    | dsimp only
    | with_reducible refine Good.upd ?_ rfl
    | (simp only [id_eq])
    | intro _ _
    | intro _

theorem State.reqPass_good {pq fz s b slot start} (h_s : Good pq fz s) :
    Good pq fz (State.reqPass s b slot start) := by
  unfold State.reqPass
  repeat' first
    | with_reducible assumption
    | with_reducible refine State.endReq_good ?_
    | with_reducible refine Good.done ?_
    | split
    | dsimp only
    | with_reducible refine Good.upd ?_ rfl
    | (simp only [id_eq])
    | intro _ _
    | intro _

theorem State.refuseCmd_good {pq fz s tag code detail} (h_s : Good pq fz s) :
    Good pq fz (State.refuseCmd s tag code detail) := by
  unfold State.refuseCmd
  repeat' first
    | with_reducible assumption
    | with_reducible refine State.endCmd_good ?_
    | with_reducible refine State.raise_good ?_
    | with_reducible refine Good.done ?_
    | split
    | dsimp only
    | with_reducible refine Good.upd ?_ rfl
    | (simp only [id_eq])
    | intro _ _
    | intro _

end Sys2Proof.Machine
end

