-- ==== Sys2Proof/Laws/KeepObjects.lean ====
section
/-! SUPPORT. Every operation and command of Machine/Objects.lean keeps what `Good` says of a state. -/
namespace Sys2Proof.Machine

theorem State.secEnds_good {pq fz s result} (h_s : Good pq fz s) :
    Good pq fz (State.secEnds s result) := by
  unfold State.secEnds
  repeat' first
    | with_reducible assumption
    | with_reducible refine State.wr_good ?_
    | with_reducible refine Good.done ?_
    | split
    | dsimp only
    | with_reducible refine Good.upd ?_ rfl
    | (simp only [id_eq])
    | intro _ _
    | intro _

theorem State.countVerify_good {pq fz s type code} (h_s : Good pq fz s) :
    Good pq fz (State.countVerify s type code) := by
  unfold State.countVerify
  repeat' first
    | with_reducible assumption
    | with_reducible refine State.cnt_good ?_
    | with_reducible refine State.raise_good ?_
    | with_reducible refine Good.done ?_
    | split
    | dsimp only
    | with_reducible refine Good.upd ?_ rfl
    | (simp only [id_eq])
    | intro _ _
    | intro _

theorem State.verifyFor_good {pq fz s type addr len sig more refusal} {y_ z_ t_} (e_ : (State.verifyFor s type addr len sig more refusal) = (y_, z_, t_)) (h_s : Good pq fz s) :
    Good pq fz t_ := by
  unfold State.verifyFor at e_
  repeat' first
    | with_reducible assumption
    | (simp only [Prod.mk.injEq] at e_)
    | (obtain ⟨_, rfl⟩ := e_)
    | (obtain ⟨_, _, rfl⟩ := e_)
    | subst e_
    | split at e_
    | with_reducible refine State.busRead_good (by assumption) ?_
    | with_reducible refine State.busRead_keeps ?_
    | with_reducible refine State.countVerify_good ?_
    | with_reducible refine Good.done ?_
    | split
    | dsimp only
    | with_reducible refine Good.upd ?_ rfl
    | (simp only [id_eq])
    | intro _ _
    | intro _

theorem State.verifyFor_keeps {pq fz s type addr len sig more refusal} (h_s : Good pq fz s) : Good pq fz (State.verifyFor s type addr len sig more refusal).2.2 :=
  State.verifyFor_good (y_ := (State.verifyFor s type addr len sig more refusal).1) (z_ := (State.verifyFor s type addr len sig more refusal).2.1) (t_ := (State.verifyFor s type addr len sig more refusal).2.2) (Good.eta3 _) h_s

theorem State.verifyObject_good {pq fz s type addr len sig} {y_ z_ t_} (e_ : (State.verifyObject s type addr len sig) = (y_, z_, t_)) (h_s : Good pq fz s) :
    Good pq fz t_ := by
  unfold State.verifyObject at e_
  repeat' first
    | with_reducible assumption
    | (simp only [Prod.mk.injEq] at e_)
    | (obtain ⟨_, rfl⟩ := e_)
    | (obtain ⟨_, _, rfl⟩ := e_)
    | subst e_
    | split at e_
    | with_reducible refine State.verifyFor_good (by assumption) ?_
    | with_reducible refine State.verifyFor_keeps ?_
    | with_reducible refine Good.done ?_
    | split
    | dsimp only
    | with_reducible refine Good.upd ?_ rfl
    | (simp only [id_eq])
    | intro _ _
    | intro _

theorem State.verifyObject_keeps {pq fz s type addr len sig} (h_s : Good pq fz s) : Good pq fz (State.verifyObject s type addr len sig).2.2 :=
  State.verifyObject_good (y_ := (State.verifyObject s type addr len sig).1) (z_ := (State.verifyObject s type addr len sig).2.1) (t_ := (State.verifyObject s type addr len sig).2.2) (Good.eta3 _) h_s

end Sys2Proof.Machine
end

