-- ==== Sys2Proof/Laws/KeepMemCmds.lean ====
section
/-! SUPPORT. Every operation and command of Machine/MemCmds.lean keeps what `Good` says of a state. -/
namespace Sys2Proof.Machine

theorem State.secAccessFails_good {pq fz s} (h_s : Good pq fz s) :
    Good pq fz (State.secAccessFails s) := by
  unfold State.secAccessFails
  repeat' first
    | with_reducible assumption
    | with_reducible refine State.raise_good ?_
    | with_reducible refine State.secEnds_good ?_
    | with_reducible refine State.countVerify_good ?_
    | with_reducible refine State.endCmd_good ?_
    | with_reducible refine Good.done ?_
    | split
    | dsimp only
    | with_reducible refine Good.upd ?_ rfl
    | (simp only [id_eq])
    | intro _ _
    | intro _

theorem State.masterFails_good {pq fz s m code a} (h_s : Good pq fz s) :
    Good pq fz (State.masterFails s m code a) := by
  unfold State.masterFails
  repeat' first
    | with_reducible assumption
    | with_reducible refine State.markPart_good ?_
    | with_reducible refine State.checkJob_good ?_
    | with_reducible refine State.failPart_good ?_
    | with_reducible refine State.warpReset_good ?_
    | with_reducible refine State.jxsBufferError_good ?_
    | with_reducible refine State.breakFrame_good ?_
    | with_reducible refine State.completerAbort_good ?_
    | with_reducible refine State.endCmd_good ?_
    | with_reducible refine State.kickJobs_good ?_
    | with_reducible refine State.settleArbs_good ?_
    | with_reducible refine State.withhold_good ?_
    | with_reducible refine State.secAccessFails_good ?_
    | with_reducible refine Good.done ?_
    | split
    | dsimp only
    | with_reducible refine Good.upd ?_ rfl
    | (simp only [id_eq])
    | intro _ _
    | intro _

theorem execMemWriteCommit_good {pq fz master addr data edc s} (h_s : Good pq fz s) :
    GoodOut pq fz (execMemWriteCommit master addr data edc s) := by
  unfold execMemWriteCommit
  repeat' first
    | with_reducible assumption
    | with_reducible refine onlyIf_good ?_ ?_
    | with_reducible refine State.memWrite_good (by assumption) ?_
    | with_reducible refine State.memWrite_keeps ?_
    | with_reducible refine State.masterFails_good ?_
    | with_reducible refine Good.done ?_
    | split
    | dsimp only
    | with_reducible refine Good.upd ?_ rfl
    | (simp only [id_eq])
    | intro _ _
    | intro _

theorem execRetrainWindow_good {pq fz ch ok s} (h_s : Good pq fz s) :
    GoodOut pq fz (execRetrainWindow ch ok s) := by
  unfold execRetrainWindow
  repeat' first
    | with_reducible assumption
    | with_reducible refine onlyIf_good ?_ ?_
    | with_reducible refine State.modChan_good ?_
    | with_reducible refine State.wr_good ?_
    | with_reducible refine State.cnt_good ?_
    | with_reducible refine State.raiseMem_good ?_
    | with_reducible refine State.endReq_good ?_
    | with_reducible refine Good.done ?_
    | split
    | dsimp only
    | with_reducible refine Good.upd ?_ rfl
    | (simp only [id_eq])
    | intro _ _
    | intro _

theorem execMemClrCnt_good {pq fz ch s} (h_s : Good pq fz s) :
    GoodOut pq fz (execMemClrCnt ch s) := by
  unfold execMemClrCnt
  repeat' first
    | with_reducible assumption
    | with_reducible refine State.clearFlds_good ?_
    | with_reducible refine Good.done ?_
    | split
    | dsimp only
    | with_reducible refine Good.upd ?_ rfl
    | (simp only [id_eq])
    | intro _ _
    | intro _

theorem execMemTrainGrant_good {pq fz ch s} (h_s : Good pq fz s) :
    GoodOut pq fz (execMemTrainGrant ch s) := by
  unfold execMemTrainGrant
  repeat' first
    | with_reducible assumption
    | with_reducible refine onlyIf_good ?_ ?_
    | with_reducible refine State.wr_good ?_
    | with_reducible refine Good.done ?_
    | split
    | dsimp only
    | with_reducible refine Good.upd ?_ rfl
    | (simp only [id_eq])
    | intro _ _
    | intro _

theorem execMemInjArm_good {pq fz ch s} (h_s : Good pq fz s) :
    GoodOut pq fz (execMemInjArm ch s) := by
  unfold execMemInjArm
  repeat' first
    | with_reducible assumption
    | with_reducible refine State.violation_good ?_
    | with_reducible refine State.wr_good ?_
    | with_reducible refine Good.done ?_
    | split
    | dsimp only
    | with_reducible refine Good.upd ?_ rfl
    | (simp only [id_eq])
    | intro _ _
    | intro _

theorem execRetrainDue_good {pq fz ch temp s} (h_s : Good pq fz s) :
    GoodOut pq fz (execRetrainDue ch temp s) := by
  unfold execRetrainDue
  repeat' first
    | with_reducible assumption
    | with_reducible refine State.wrB_good ?_
    | with_reducible refine State.wr_good ?_
    | with_reducible refine State.makeDue_good ?_
    | with_reducible refine Good.done ?_
    | split
    | dsimp only
    | with_reducible refine Good.upd ?_ rfl
    | (simp only [id_eq])
    | intro _ _
    | intro _

theorem execCheckLineEvict_good {pq fz ch bad s} (h_s : Good pq fz s) :
    GoodOut pq fz (execCheckLineEvict ch bad s) := by
  unfold execCheckLineEvict
  repeat' first
    | with_reducible assumption
    | with_reducible refine State.evictLine_good ?_
    | with_reducible refine Good.done ?_
    | split
    | dsimp only
    | with_reducible refine Good.upd ?_ rfl
    | (simp only [id_eq])
    | intro _ _
    | intro _

theorem State.scrubLost_good {pq fz s w} (h_s : Good pq fz s) :
    Good pq fz (State.scrubLost s w) := by
  unfold State.scrubLost
  repeat' first
    | with_reducible assumption
    | with_reducible refine State.loseLine_good ?_
    | with_reducible refine State.dropLine_good ?_
    | with_reducible refine Good.done ?_
    | split
    | dsimp only
    | with_reducible refine Good.upd ?_ rfl
    | (simp only [id_eq])
    | intro _ _
    | intro _

theorem execRefreshDue_good {pq fz ch s} (h_s : Good pq fz s) :
    GoodOut pq fz (execRefreshDue ch s) := by
  unfold execRefreshDue
  repeat' first
    | with_reducible assumption
    | with_reducible refine State.modChan_good ?_
    | with_reducible refine Good.done ?_
    | split
    | dsimp only
    | with_reducible refine Good.upd ?_ rfl
    | (simp only [id_eq])
    | intro _ _
    | intro _

theorem execCorrectiveWrite_good {pq fz ch s} (h_s : Good pq fz s) :
    GoodOut pq fz (execCorrectiveWrite ch s) := by
  unfold execCorrectiveWrite
  repeat' first
    | with_reducible assumption
    | with_reducible refine State.modChan_good ?_
    | with_reducible refine State.memFirst_good ?_
    | with_reducible refine State.storeSec_good ?_
    | with_reducible refine State.cacheTouch_good ?_
    | with_reducible refine Good.done ?_
    | split
    | dsimp only
    | with_reducible refine Good.upd ?_ rfl
    | (simp only [id_eq])
    | intro _ _
    | intro _

theorem State.hitWord_good {pq fz s w flip} (h_s : Good pq fz s) :
    Good pq fz (State.hitWord s w flip) := by
  unfold State.hitWord
  repeat' first
    | with_reducible assumption
    | with_reducible refine Good.done ?_
    | split
    | dsimp only
    | with_reducible refine Good.upd ?_ rfl
    | (simp only [id_eq])
    | intro _ _
    | intro _

theorem execSramScrubWord_good {pq fz addr flip s} (h_s : Good pq fz s) :
    GoodOut pq fz (execSramScrubWord addr flip s) := by
  unfold execSramScrubWord
  repeat' first
    | with_reducible assumption
    | with_reducible refine onlyIf_good ?_ ?_
    | with_reducible refine State.hitWord_good ?_
    | with_reducible refine State.raiseSram_good ?_
    | with_reducible refine State.cnt_good ?_
    | with_reducible refine State.scrubLost_good ?_
    | with_reducible refine State.sramFirst_good ?_
    | with_reducible refine Good.done ?_
    | split
    | dsimp only
    | with_reducible refine Good.upd ?_ rfl
    | (simp only [id_eq])
    | intro _ _
    | intro _

theorem execMemRead_good {pq fz master addr len flips edc s} (h_s : Good pq fz s) :
    GoodOut pq fz (execMemRead master addr len flips edc s) := by
  unfold execMemRead
  repeat' first
    | with_reducible assumption
    | with_reducible refine onlyIf_good ?_ ?_
    | with_reducible refine State.each_good ?_ ?_
    | with_reducible refine State.hitSec_good ?_
    | with_reducible refine State.memRead_good (by assumption) ?_
    | with_reducible refine State.memRead_keeps ?_
    | with_reducible refine State.masterFails_good ?_
    | with_reducible refine Good.done ?_
    | split
    | dsimp only
    | with_reducible refine Good.upd ?_ rfl
    | (simp only [id_eq])
    | intro _ _
    | intro _

theorem execTrainGrantTimeout_good {pq fz ch s} (h_s : Good pq fz s) :
    GoodOut pq fz (execTrainGrantTimeout ch s) := by
  unfold execTrainGrantTimeout
  repeat' first
    | with_reducible assumption
    | with_reducible refine onlyIf_good ?_ ?_
    | with_reducible refine State.modChan_good ?_
    | with_reducible refine State.raiseMem_good ?_
    | with_reducible refine State.cnt_good ?_
    | with_reducible refine Good.done ?_
    | split
    | dsimp only
    | with_reducible refine Good.upd ?_ rfl
    | (simp only [id_eq])
    | intro _ _
    | intro _

theorem execScrubRead_good {pq fz ch flip s} (h_s : Good pq fz s) :
    GoodOut pq fz (execScrubRead ch flip s) := by
  unfold execScrubRead
  repeat' first
    | with_reducible assumption
    | with_reducible refine onlyIf_good ?_ ?_
    | with_reducible refine State.cacheTouch_good ?_
    | with_reducible refine State.hitSec_good ?_
    | with_reducible refine State.raiseMem_good ?_
    | with_reducible refine State.memFirst_good ?_
    | with_reducible refine State.cnt_good ?_
    | with_reducible refine State.storeSec_good ?_
    | with_reducible refine State.modChan_good ?_
    | with_reducible refine Good.done ?_
    | split
    | dsimp only
    | with_reducible refine Good.upd ?_ rfl
    | (simp only [id_eq])
    | intro _ _
    | intro _

end Sys2Proof.Machine
end

