-- ==== Sys2Proof/Laws/KeepRotation.lean ====
section
/-! SUPPORT. Every operation and command of Machine/Rotation.lean keeps what `Good` says of a state. -/
namespace Sys2Proof.Machine

theorem execHaltReqTaken_good {pq fz t s} (h_s : Good pq fz s) :
    GoodOut pq fz (execHaltReqTaken t s) := by
  unfold execHaltReqTaken
  repeat' first
    | with_reducible assumption
    | with_reducible refine onlyIf_good ?_ ?_
    | with_reducible refine State.raise_good ?_
    | with_reducible refine State.stopTile_good ?_
    | with_reducible refine State.checkJob_good ?_
    | with_reducible refine State.failPart_good ?_
    | with_reducible refine Good.done ?_
    | split
    | dsimp only
    | with_reducible refine Good.upd ?_ rfl
    | (simp only [id_eq])
    | intro _ _
    | intro _

theorem State.moveTransferred_good {pq fz s b crcOk} (h_s : Good pq fz s) :
    Good pq fz (State.moveTransferred s b crcOk) := by
  unfold State.moveTransferred
  repeat' first
    | with_reducible assumption
    | with_reducible refine onlyIf_good ?_ ?_
    | with_reducible refine State.modBrood_good ?_
    | with_reducible refine State.raiseBrood_good ?_
    | with_reducible refine State.takeOut_good ?_
    | with_reducible refine State.beginTest_good ?_
    | with_reducible refine State.kickJobs_good ?_
    | with_reducible refine Good.done ?_
    | split
    | dsimp only
    | with_reducible refine Good.upd ?_ rfl
    | (simp only [id_eq])
    | intro _ _
    | intro _

theorem State.spareFailed_good {pq fz s b sp code} (h_s : Good pq fz s) :
    Good pq fz (State.spareFailed s b sp code) := by
  unfold State.spareFailed
  repeat' first
    | with_reducible assumption
    | with_reducible refine State.modBrood_good ?_
    | with_reducible refine State.raiseBrood_good ?_
    | with_reducible refine State.kickJobs_good ?_
    | with_reducible refine State.reqFail_good ?_
    | with_reducible refine State.takeOutAs_good ?_
    | with_reducible refine Good.done ?_
    | split
    | dsimp only
    | with_reducible refine Good.upd ?_ rfl
    | (simp only [id_eq])
    | intro _ _
    | intro _

theorem State.slotTested_good {pq fz s p} (h_s : Good pq fz s) :
    Good pq fz (State.slotTested s p) := by
  unfold State.slotTested
  repeat' first
    | with_reducible assumption
    | with_reducible refine State.modSlot_good ?_
    | with_reducible refine Good.done ?_
    | split
    | dsimp only
    | with_reducible refine Good.upd ?_ rfl
    | (simp only [id_eq])
    | intro _ _
    | intro _

theorem execSpareMbistEnd_good {pq fz b memOk skew s} (h_s : Good pq fz s) :
    GoodOut pq fz (execSpareMbistEnd b memOk skew s) := by
  unfold execSpareMbistEnd
  repeat' first
    | with_reducible assumption
    | with_reducible refine onlyIf_good ?_ ?_
    | with_reducible refine State.spareFailed_good ?_
    | with_reducible refine State.lastTest_good ?_
    | with_reducible refine State.modSlot_good ?_
    | with_reducible refine State.wr_good ?_
    | with_reducible refine State.slotTested_good ?_
    | with_reducible refine State.modBrood_good ?_
    | with_reducible refine State.lateReqs_good ?_
    | with_reducible refine State.reqPass_good ?_
    | with_reducible refine Good.done ?_
    | split
    | dsimp only
    | with_reducible refine Good.upd ?_ rfl
    | (simp only [id_eq])
    | intro _ _
    | intro _

theorem execInplaceSliceEnd_good {pq fz b k ok s} (h_s : Good pq fz s) :
    GoodOut pq fz (execInplaceSliceEnd b k ok s) := by
  unfold execInplaceSliceEnd
  repeat' first
    | with_reducible assumption
    | with_reducible refine onlyIf_good ?_ ?_
    | with_reducible refine State.modSlot_good ?_
    | with_reducible refine State.takeOutAs_good ?_
    | with_reducible refine State.raise_good ?_
    | with_reducible refine State.lateReqs_good ?_
    | with_reducible refine State.reqPass_good ?_
    | with_reducible refine State.slotTested_good ?_
    | with_reducible refine State.kickJobs_good ?_
    | with_reducible refine State.settleArbs_good ?_
    | with_reducible refine Good.done ?_
    | split
    | dsimp only
    | with_reducible refine Good.upd ?_ rfl
    | (simp only [id_eq])
    | intro _ _
    | intro _

theorem State.inBrd_good {pq fz s b f} (h_s : Good pq fz s) (h_f : ∀ x0, Good pq fz x0 → Good pq fz (f x0)) :
    Good pq fz (State.inBrd s b f) := by
  unfold State.inBrd
  repeat' first
    | with_reducible assumption
    | refine h_f _ ?_
    | with_reducible refine State.violHole_good ?_
    | with_reducible refine Good.done ?_
    | split
    | dsimp only
    | with_reducible refine Good.upd ?_ rfl
    | (simp only [id_eq])
    | intro _ _
    | intro _

theorem State.modUnit_good {pq fz s row i f} (h_s : Good pq fz s) :
    Good pq fz (State.modUnit s row i f) := by
  unfold State.modUnit
  repeat' first
    | with_reducible assumption
    | with_reducible refine Good.done ?_
    | split
    | dsimp only
    | with_reducible refine Good.upd ?_ rfl
    | (simp only [id_eq])
    | intro _ _
    | intro _

theorem State.raiseUnit_good {pq fz s row i code} (h_s : Good pq fz s) :
    Good pq fz (State.raiseUnit s row i code) := by
  unfold State.raiseUnit
  repeat' first
    | with_reducible assumption
    | with_reducible refine State.raise_good ?_
    | with_reducible refine Good.done ?_
    | split
    | dsimp only
    | with_reducible refine Good.upd ?_ rfl
    | (simp only [id_eq])
    | intro _ _
    | intro _

theorem execSharedSliceEnd_good {pq fz row inst ok s} (h_s : Good pq fz s) :
    GoodOut pq fz (execSharedSliceEnd row inst ok s) := by
  unfold execSharedSliceEnd
  repeat' first
    | with_reducible assumption
    | with_reducible refine State.endReq_good ?_
    | with_reducible refine onlyIf_good ?_ ?_
    | with_reducible refine State.modUnit_good ?_
    | with_reducible refine State.raiseUnit_good ?_
    | with_reducible refine Good.done ?_
    | split
    | dsimp only
    | with_reducible refine Good.upd ?_ rfl
    | (simp only [id_eq])
    | intro _ _
    | intro _

theorem execTilHaltReq_good {pq fz t s} (h_s : Good pq fz s) :
    GoodOut pq fz (execTilHaltReq t s) := by
  unfold execTilHaltReq
  repeat' first
    | with_reducible assumption
    | with_reducible refine State.violHole_good ?_
    | with_reducible refine onlyIf_good ?_ ?_
    | with_reducible refine State.wr_good ?_
    | with_reducible refine Good.done ?_
    | split
    | dsimp only
    | with_reducible refine Good.upd ?_ rfl
    | (simp only [id_eq])
    | intro _ _
    | intro _

theorem execTilStart_good {pq fz t s} (h_s : Good pq fz s) :
    GoodOut pq fz (execTilStart t s) := by
  unfold execTilStart
  repeat' first
    | with_reducible assumption
    | with_reducible refine State.violHole_good ?_
    | with_reducible refine State.violation_good ?_
    | with_reducible refine State.wr_good ?_
    | with_reducible refine State.kickJob_good ?_
    | with_reducible refine Good.done ?_
    | split
    | dsimp only
    | with_reducible refine Good.upd ?_ rfl
    | (simp only [id_eq])
    | intro _ _
    | intro _

theorem execBrdRotGrant_good {pq fz b s} (h_s : Good pq fz s) :
    GoodOut pq fz (execBrdRotGrant b s) := by
  unfold execBrdRotGrant
  repeat' first
    | with_reducible assumption
    | with_reducible refine State.inBrd_good ?_ ?_
    | with_reducible refine State.wr_good ?_
    | with_reducible refine Good.done ?_
    | split
    | dsimp only
    | with_reducible refine Good.upd ?_ rfl
    | (simp only [id_eq])
    | intro _ _
    | intro _

theorem State.startMove_good {pq fz s b k sp forced} (h_s : Good pq fz s) :
    Good pq fz (State.startMove s b k sp forced) := by
  unfold State.startMove
  repeat' first
    | with_reducible assumption
    | with_reducible refine State.modBrood_good ?_
    | with_reducible refine Good.done ?_
    | split
    | dsimp only
    | with_reducible refine Good.upd ?_ rfl
    | (simp only [id_eq])
    | intro _ _
    | intro _

theorem execInplaceSliceStart_good {pq fz b k s} (h_s : Good pq fz s) :
    GoodOut pq fz (execInplaceSliceStart b k s) := by
  unfold execInplaceSliceStart
  repeat' first
    | with_reducible assumption
    | with_reducible refine onlyIf_good ?_ ?_
    | with_reducible refine State.modSlot_good ?_
    | with_reducible refine Good.done ?_
    | split
    | dsimp only
    | with_reducible refine Good.upd ?_ rfl
    | (simp only [id_eq])
    | intro _ _
    | intro _

theorem State.raiseAge_good {pq fz s b k} (h_s : Good pq fz s) :
    Good pq fz (State.raiseAge s b k) := by
  unfold State.raiseAge
  repeat' first
    | with_reducible assumption
    | with_reducible refine State.modSlot_good ?_
    | with_reducible refine State.raiseFor_good ?_
    | with_reducible refine Good.done ?_
    | split
    | dsimp only
    | with_reducible refine Good.upd ?_ rfl
    | (simp only [id_eq])
    | intro _ _
    | intro _

theorem execSlotAgeLfi_good {pq fz row inst s} (h_s : Good pq fz s) :
    GoodOut pq fz (execSlotAgeLfi row inst s) := by
  unfold execSlotAgeLfi
  repeat' first
    | with_reducible assumption
    | with_reducible refine State.lateReqs_good ?_
    | with_reducible refine onlyIf_good ?_ ?_
    | with_reducible refine State.raiseAge_good ?_
    | with_reducible refine State.modUnit_good ?_
    | with_reducible refine State.raiseUnit_good ?_
    | with_reducible refine Good.done ?_
    | split
    | dsimp only
    | with_reducible refine Good.upd ?_ rfl
    | (simp only [id_eq])
    | intro _ _
    | intro _

theorem execSharedSliceStart_good {pq fz row inst s} (h_s : Good pq fz s) :
    GoodOut pq fz (execSharedSliceStart row inst s) := by
  unfold execSharedSliceStart
  repeat' first
    | with_reducible assumption
    | with_reducible refine State.lateReqs_good ?_
    | with_reducible refine onlyIf_good ?_ ?_
    | with_reducible refine State.modUnit_good ?_
    | with_reducible refine State.raiseUnit_good ?_
    | with_reducible refine State.sysInc_good ?_
    | with_reducible refine State.endReq_good ?_
    | with_reducible refine Good.done ?_
    | split
    | dsimp only
    | with_reducible refine Good.upd ?_ rfl
    | (simp only [id_eq])
    | intro _ _
    | intro _

theorem State.hostAge_good {pq fz s b k} (h_s : Good pq fz s) :
    Good pq fz (State.hostAge s b k) := by
  unfold State.hostAge
  repeat' first
    | with_reducible assumption
    | with_reducible refine State.raiseAge_good ?_
    | with_reducible refine Good.done ?_
    | split
    | dsimp only
    | with_reducible refine Good.upd ?_ rfl
    | (simp only [id_eq])
    | intro _ _
    | intro _

theorem execBrdRotEnWrite_good {pq fz b en s} (h_s : Good pq fz s) :
    GoodOut pq fz (execBrdRotEnWrite b en s) := by
  unfold execBrdRotEnWrite
  repeat' first
    | with_reducible assumption
    | with_reducible refine State.inBrd_good ?_ ?_
    | with_reducible refine State.wrB_good ?_
    | with_reducible refine Good.done ?_
    | split
    | dsimp only
    | with_reducible refine Good.upd ?_ rfl
    | (simp only [id_eq])
    | intro _ _
    | intro _

theorem execSpareClearDone_good {pq fz b s} (h_s : Good pq fz s) :
    GoodOut pq fz (execSpareClearDone b s) := by
  unfold execSpareClearDone
  repeat' first
    | with_reducible assumption
    | with_reducible refine onlyIf_good ?_ ?_
    | with_reducible refine State.modBrood_good ?_
    | with_reducible refine State.beginTest_good ?_
    | with_reducible refine State.startTest_good ?_
    | with_reducible refine Good.done ?_
    | split
    | dsimp only
    | with_reducible refine Good.upd ?_ rfl
    | (simp only [id_eq])
    | intro _ _
    | intro _

theorem execMoveQuiesced_good {pq fz b s} (h_s : Good pq fz s) :
    GoodOut pq fz (execMoveQuiesced b s) := by
  unfold execMoveQuiesced
  repeat' first
    | with_reducible assumption
    | with_reducible refine onlyIf_good ?_ ?_
    | with_reducible refine State.modBrood_good ?_
    | with_reducible refine Good.done ?_
    | split
    | dsimp only
    | with_reducible refine Good.upd ?_ rfl
    | (simp only [id_eq])
    | intro _ _
    | intro _

theorem execRerunStart_good {pq fz b s} (h_s : Good pq fz s) :
    GoodOut pq fz (execRerunStart b s) := by
  unfold execRerunStart
  repeat' first
    | with_reducible assumption
    | with_reducible refine onlyIf_good ?_ ?_
    | with_reducible refine State.holdJob_good ?_
    | with_reducible refine State.each_good ?_ ?_
    | with_reducible refine State.rerunJob_good ?_
    | with_reducible refine State.hostAge_good ?_
    | with_reducible refine Good.done ?_
    | split
    | dsimp only
    | with_reducible refine Good.upd ?_ rfl
    | (simp only [id_eq])
    | intro _ _
    | intro _

theorem execSpareLbistEnd_good {pq fz b ok s} (h_s : Good pq fz s) :
    GoodOut pq fz (execSpareLbistEnd b ok s) := by
  unfold execSpareLbistEnd
  repeat' first
    | with_reducible assumption
    | with_reducible refine onlyIf_good ?_ ?_
    | with_reducible refine State.modBrood_good ?_
    | with_reducible refine State.spareFailed_good ?_
    | with_reducible refine State.lastTest_good ?_
    | with_reducible refine Good.done ?_
    | split
    | dsimp only
    | with_reducible refine Good.upd ?_ rfl
    | (simp only [id_eq])
    | intro _ _
    | intro _

theorem execRotationMoveStart_good {pq fz b s} (h_s : Good pq fz s) :
    GoodOut pq fz (execRotationMoveStart b s) := by
  unfold execRotationMoveStart
  repeat' first
    | with_reducible assumption
    | with_reducible refine onlyIf_good ?_ ?_
    | with_reducible refine State.startMove_good ?_
    | with_reducible refine Good.done ?_
    | split
    | dsimp only
    | with_reducible refine Good.upd ?_ rfl
    | (simp only [id_eq])
    | intro _ _
    | intro _

theorem execForcedMoveStart_good {pq fz b s} (h_s : Good pq fz s) :
    GoodOut pq fz (execForcedMoveStart b s) := by
  unfold execForcedMoveStart
  repeat' first
    | with_reducible assumption
    | with_reducible refine onlyIf_good ?_ ?_
    | with_reducible refine State.startMove_good ?_
    | with_reducible refine Good.done ?_
    | split
    | dsimp only
    | with_reducible refine Good.upd ?_ rfl
    | (simp only [id_eq])
    | intro _ _
    | intro _

theorem State.exchange_good {pq fz s b k sp} (h_s : Good pq fz s) :
    Good pq fz (State.exchange s b k sp) := by
  unfold State.exchange
  repeat' first
    | with_reducible assumption
    | with_reducible refine State.hostOn_good ?_
    | with_reducible refine State.modBrood_good ?_
    | with_reducible refine Good.done ?_
    | split
    | dsimp only
    | with_reducible refine Good.upd ?_ rfl
    | (simp only [id_eq])
    | intro _ _
    | intro _

theorem State.moveSwitched_good {pq fz s b} (h_s : Good pq fz s) :
    Good pq fz (State.moveSwitched s b) := by
  unfold State.moveSwitched
  repeat' first
    | with_reducible assumption
    | with_reducible refine onlyIf_good ?_ ?_
    | with_reducible refine State.modBrood_good ?_
    | with_reducible refine State.cnt_good ?_
    | with_reducible refine State.hostOn_good ?_
    | with_reducible refine State.exchange_good ?_
    | with_reducible refine State.trace_good ?_
    | with_reducible refine State.wr_good ?_
    | with_reducible refine State.startTest_good ?_
    | with_reducible refine State.setSpare_good ?_
    | with_reducible refine State.dropSpare_good ?_
    | with_reducible refine State.kickJobs_good ?_
    | with_reducible refine State.hostAge_good ?_
    | with_reducible refine Good.done ?_
    | split
    | dsimp only
    | with_reducible refine Good.upd ?_ rfl
    | (simp only [id_eq])
    | intro _ _
    | intro _

end Sys2Proof.Machine
end

