-- ==== Sys2Proof/Laws/KeepFrames.lean ====
section
/-! SUPPORT. Every operation and command of Machine/Frames.lean keeps what `Good` says of a state. -/
namespace Sys2Proof.Machine

theorem execOrderHoldExpiry_good {pq fz p s} (h_s : Good pq fz s) :
    GoodOut pq fz (execOrderHoldExpiry p s) := by
  unfold execOrderHoldExpiry
  repeat' first
    | with_reducible assumption
    | with_reducible refine onlyIf_good ?_ ?_
    | with_reducible refine State.kickJobs_good ?_
    | with_reducible refine State.settleArbs_good ?_
    | with_reducible refine State.withhold_good ?_
    | with_reducible refine Good.done ?_
    | split
    | dsimp only
    | with_reducible refine Good.upd ?_ rfl
    | (simp only [id_eq])
    | intro _ _
    | intro _

theorem execGatherExpiry_good {pq fz p s} (h_s : Good pq fz s) :
    GoodOut pq fz (execGatherExpiry p s) := by
  unfold execGatherExpiry
  repeat' first
    | with_reducible assumption
    | with_reducible refine onlyIf_good ?_ ?_
    | with_reducible refine State.trigger_good ?_
    | with_reducible refine Good.done ?_
    | split
    | dsimp only
    | with_reducible refine Good.upd ?_ rfl
    | (simp only [id_eq])
    | intro _ _
    | intro _

theorem execPublish_good {pq fz p s} (h_s : Good pq fz s) :
    GoodOut pq fz (execPublish p s) := by
  unfold execPublish
  repeat' first
    | with_reducible assumption
    | with_reducible refine onlyIf_good ?_ ?_
    | with_reducible refine State.kickJobs_good ?_
    | with_reducible refine State.settleArbs_good ?_
    | with_reducible refine State.withhold_good ?_
    | with_reducible refine State.publishFrame_good ?_
    | with_reducible refine Good.done ?_
    | split
    | dsimp only
    | with_reducible refine Good.upd ?_ rfl
    | (simp only [id_eq])
    | intro _ _
    | intro _

theorem State.rspFetch_good {pq fz s m k c src u v} {y_ t_} (e_ : (State.rspFetch s m k c src u v) = (y_, t_)) (h_s : Good pq fz s) :
    Good pq fz t_ := by
  unfold State.rspFetch at e_
  repeat' first
    | with_reducible assumption
    | (simp only [Prod.mk.injEq] at e_)
    | (obtain ⟨_, rfl⟩ := e_)
    | (obtain ⟨_, _, rfl⟩ := e_)
    | subst e_
    | split at e_
    | with_reducible refine State.busRead_good (by assumption) ?_
    | with_reducible refine State.busRead_keeps ?_
    | with_reducible refine Good.done ?_
    | split
    | dsimp only
    | with_reducible refine Good.upd ?_ rfl
    | (simp only [id_eq])
    | intro _ _
    | intro _

theorem State.rspFetch_keeps {pq fz s m k c src u v} (h_s : Good pq fz s) : Good pq fz (State.rspFetch s m k c src u v).2 :=
  State.rspFetch_good (y_ := (State.rspFetch s m k c src u v).1) (t_ := (State.rspFetch s m k c src u v).2) (Good.eta _) h_s

theorem State.rspPixel_good {pq fz s m k c src b i j} {y_ t_} (e_ : (State.rspPixel s m k c src b i j) = (y_, t_)) (h_s : Good pq fz s) :
    Good pq fz t_ := by
  unfold State.rspPixel at e_
  repeat' first
    | with_reducible assumption
    | (simp only [Prod.mk.injEq] at e_)
    | (obtain ⟨_, rfl⟩ := e_)
    | (obtain ⟨_, _, rfl⟩ := e_)
    | subst e_
    | split at e_
    | with_reducible refine State.rspFetch_good (by assumption) ?_
    | with_reducible refine State.rspFetch_keeps ?_
    | with_reducible refine Good.done ?_
    | split
    | dsimp only
    | with_reducible refine Good.upd ?_ rfl
    | (simp only [id_eq])
    | intro _ _
    | intro _

theorem State.rspPixel_keeps {pq fz s m k c src b i j} (h_s : Good pq fz s) : Good pq fz (State.rspPixel s m k c src b i j).2 :=
  State.rspPixel_good (y_ := (State.rspPixel s m k c src b i j).1) (t_ := (State.rspPixel s m k c src b i j).2) (Good.eta _) h_s

theorem State.rspWrite_good {pq fz s m a d} {y_ t_} (e_ : (State.rspWrite s m a d) = (y_, t_)) (h_s : Good pq fz s) :
    Good pq fz t_ := by
  unfold State.rspWrite at e_
  repeat' first
    | with_reducible assumption
    | (simp only [Prod.mk.injEq] at e_)
    | (obtain ⟨_, rfl⟩ := e_)
    | (obtain ⟨_, _, rfl⟩ := e_)
    | subst e_
    | split at e_
    | with_reducible refine State.busWrite_good (by assumption) ?_
    | with_reducible refine State.busWrite_keeps ?_
    | with_reducible refine Good.done ?_
    | split
    | dsimp only
    | with_reducible refine Good.upd ?_ rfl
    | (simp only [id_eq])
    | intro _ _
    | intro _

theorem State.rspWrite_keeps {pq fz s m a d} (h_s : Good pq fz s) : Good pq fz (State.rspWrite s m a d).2 :=
  State.rspWrite_good (y_ := (State.rspWrite s m a d).1) (t_ := (State.rspWrite s m a d).2) (Good.eta _) h_s

theorem State.rspPixels_good {pq fz m k c src b out fuel n s} {y_ t_} (e_ : (State.rspPixels m k c src b out fuel n s) = (y_, t_))
    (h_s : Good pq fz s) : Good pq fz t_ := by
  induction fuel generalizing n s y_ t_ with
  | zero => simp only [State.rspPixels, Prod.mk.injEq] at e_; obtain ⟨_, rfl⟩ := e_; exact h_s
  | succ f ih =>
    rw [State.rspPixels] at e_
    split at e_
    · rename_i hp; simp only [Prod.mk.injEq] at e_; obtain ⟨_, rfl⟩ := e_; exact State.rspPixel_good hp h_s
    · rename_i hp
      have h := State.rspPixel_good hp h_s
      split at e_
      · rename_i hw; simp only [Prod.mk.injEq] at e_; obtain ⟨_, rfl⟩ := e_; exact State.rspWrite_good hw h
      · rename_i hw; exact ih e_ (State.rspWrite_good hw h)

theorem State.rspPixels_keeps {pq fz m k c src b out a6 a7 a8} (h_a8 : Good pq fz a8) : Good pq fz (State.rspPixels m k c src b out a6 a7 a8).2 :=
  State.rspPixels_good (y_ := (State.rspPixels m k c src b out a6 a7 a8).1) (t_ := (State.rspPixels m k c src b out a6 a7 a8).2) (Good.eta _) h_a8

theorem State.rspCut_good {pq fz s bn k c count i n} {y_ t_} (e_ : (State.rspCut s bn k c count i n) = (y_, t_)) (h_s : Good pq fz s) :
    Good pq fz t_ := by
  unfold State.rspCut at e_
  repeat' first
    | with_reducible assumption
    | (simp only [Prod.mk.injEq] at e_)
    | (obtain ⟨_, rfl⟩ := e_)
    | (obtain ⟨_, _, rfl⟩ := e_)
    | subst e_
    | split at e_
    | with_reducible refine State.busRead_good (by assumption) ?_
    | with_reducible refine State.busRead_keeps ?_
    | with_reducible refine State.rspWrite_good (by assumption) ?_
    | with_reducible refine State.rspWrite_keeps ?_
    | with_reducible refine State.rspPixels_good (by assumption) ?_
    | with_reducible refine State.rspPixels_keeps ?_
    | with_reducible refine State.rspPixel_good (by assumption) ?_
    | with_reducible refine State.rspPixel_keeps ?_
    | with_reducible refine Good.done ?_
    | split
    | dsimp only
    | with_reducible refine Good.upd ?_ rfl
    | (simp only [id_eq])
    | intro _ _
    | intro _

theorem State.rspCut_keeps {pq fz s bn k c count i n} (h_s : Good pq fz s) : Good pq fz (State.rspCut s bn k c count i n).2 :=
  State.rspCut_good (y_ := (State.rspCut s bn k c count i n).1) (t_ := (State.rspCut s bn k c count i n).2) (Good.eta _) h_s

theorem execStageStart_good {pq fz p stage s} (h_s : Good pq fz s) :
    GoodOut pq fz (execStageStart p stage s) := by
  unfold execStageStart
  repeat' first
    | with_reducible assumption
    | with_reducible refine onlyIf_good ?_ ?_
    | with_reducible refine State.markFailed_good ?_
    | with_reducible refine State.takeSlots_good (by assumption) ?_
    | with_reducible refine State.kickJobs_good ?_
    | with_reducible refine State.settleArbs_good ?_
    | with_reducible refine State.withhold_good ?_
    | with_reducible refine State.makeJob_good ?_
    | with_reducible refine Good.done ?_
    | split
    | dsimp only
    | with_reducible refine Good.upd ?_ rfl
    | (simp only [id_eq])
    | intro _ _
    | intro _

theorem State.rspBox_good {pq fz s bn k c count i} {y_ t_} (e_ : (State.rspBox s bn k c count i) = (y_, t_)) (h_s : Good pq fz s) :
    Good pq fz t_ := by
  unfold State.rspBox at e_
  repeat' first
    | with_reducible assumption
    | (simp only [Prod.mk.injEq] at e_)
    | (obtain ⟨_, rfl⟩ := e_)
    | (obtain ⟨_, _, rfl⟩ := e_)
    | subst e_
    | split at e_
    | with_reducible refine State.rspWrite_good (by assumption) ?_
    | with_reducible refine State.rspWrite_keeps ?_
    | with_reducible refine State.busRead_good (by assumption) ?_
    | with_reducible refine State.busRead_keeps ?_
    | with_reducible refine State.modBrood_good ?_
    | with_reducible refine State.rspPixels_good (by assumption) ?_
    | with_reducible refine State.rspPixels_keeps ?_
    | with_reducible refine Good.done ?_
    | split
    | dsimp only
    | with_reducible refine Good.upd ?_ rfl
    | (simp only [id_eq])
    | intro _ _
    | intro _

theorem State.rspBox_keeps {pq fz s bn k c count i} (h_s : Good pq fz s) : Good pq fz (State.rspBox s bn k c count i).2 :=
  State.rspBox_good (y_ := (State.rspBox s bn k c count i).1) (t_ := (State.rspBox s bn k c count i).2) (Good.eta _) h_s

theorem State.rspBoxes_good {pq fz bn k c count cut l s} {y_ t_} (e_ : (State.rspBoxes bn k c count cut l s) = (y_, t_)) (h_s : Good pq fz s) :
    Good pq fz t_ := by
  induction l generalizing cut s y_ t_ with
  | nil => simp only [State.rspBoxes, Prod.mk.injEq] at e_; obtain ⟨_, rfl⟩ := e_; exact h_s
  | cons i r ih =>
    rw [State.rspBoxes.eq_def] at e_
    dsimp only at e_
    split at e_
    · exact State.rspCut_good e_ h_s
    · split at e_
      · rename_i hp; simp only [Prod.mk.injEq] at e_; obtain ⟨_, rfl⟩ := e_; exact State.rspBox_good hp h_s
      · rename_i hp; exact ih e_ (State.rspBox_good hp h_s)

theorem State.rspBoxes_keeps {pq fz bn k c count cut a5 a6} (h_a6 : Good pq fz a6) : Good pq fz (State.rspBoxes bn k c count cut a5 a6).2 :=
  State.rspBoxes_good (y_ := (State.rspBoxes bn k c count cut a5 a6).1) (t_ := (State.rspBoxes bn k c count cut a5 a6).2) (Good.eta _) h_a6

theorem State.rspPart_good {pq fz s bn k c p n cut} {y_ t_} (e_ : (State.rspPart s bn k c p n cut) = (y_, t_)) (h_s : Good pq fz s) :
    Good pq fz t_ := by
  unfold State.rspPart at e_
  repeat' first
    | with_reducible assumption
    | (simp only [Prod.mk.injEq] at e_)
    | (obtain ⟨_, rfl⟩ := e_)
    | (obtain ⟨_, _, rfl⟩ := e_)
    | subst e_
    | split at e_
    | with_reducible refine State.busRead_good (by assumption) ?_
    | with_reducible refine State.busRead_keeps ?_
    | with_reducible refine State.modBrood_good ?_
    | with_reducible refine State.rspBoxes_good (by assumption) ?_
    | with_reducible refine State.rspBoxes_keeps ?_
    | with_reducible refine Good.done ?_
    | split
    | dsimp only
    | with_reducible refine Good.upd ?_ rfl
    | (simp only [id_eq])
    | intro _ _
    | intro _

theorem State.rspPart_keeps {pq fz s bn k c p n cut} (h_s : Good pq fz s) : Good pq fz (State.rspPart s bn k c p n cut).2 :=
  State.rspPart_good (y_ := (State.rspPart s bn k c p n cut).1) (t_ := (State.rspPart s bn k c p n cut).2) (Good.eta _) h_s

theorem execResamplerPartEnd_good {pq fz b fault s} (h_s : Good pq fz s) :
    GoodOut pq fz (execResamplerPartEnd b fault s) := by
  unfold execResamplerPartEnd
  repeat' first
    | with_reducible assumption
    | with_reducible refine State.rspPart_good (by assumption) ?_
    | with_reducible refine State.rspPart_keeps ?_
    | with_reducible refine State.checkJob_good ?_
    | with_reducible refine State.modJob_good ?_
    | with_reducible refine State.raiseBrood_good ?_
    | with_reducible refine State.failPart_good ?_
    | with_reducible refine Good.done ?_
    | split
    | dsimp only
    | with_reducible refine Good.upd ?_ rfl
    | (simp only [id_eq])
    | intro _ _
    | intro _

theorem execStageWinMax_good {pq fz stage s} (h_s : Good pq fz s) :
    GoodOut pq fz (execStageWinMax stage s) := by
  unfold execStageWinMax
  repeat' first
    | with_reducible assumption
    | with_reducible refine onlyIf_good ?_ ?_
    | with_reducible refine State.modWin_good ?_
    | with_reducible refine State.raiseFor_good ?_
    | with_reducible refine State.kickJobs_good ?_
    | with_reducible refine State.settleArbs_good ?_
    | with_reducible refine State.killJob_good ?_
    | with_reducible refine Good.done ?_
    | split
    | dsimp only
    | with_reducible refine Good.upd ?_ rfl
    | (simp only [id_eq])
    | intro _ _
    | intro _

end Sys2Proof.Machine
end

