-- ==== Sys2Proof/Laws/KeepModels.lean ====
section
/-! SUPPORT. Every operation and command of Machine/Models.lean keeps what `Good` says of a state. -/
namespace Sys2Proof.Machine

theorem State.zeroGlobal_good {pq fz s o} (h_s : Good pq fz s) :
    Good pq fz (State.zeroGlobal s o) := by
  unfold State.zeroGlobal
  repeat' first
    | with_reducible assumption
    | with_reducible refine State.setGobj_good ?_
    | with_reducible refine Good.done ?_
    | split
    | dsimp only
    | with_reducible refine Good.upd ?_ rfl
    | (simp only [id_eq])
    | intro _ _
    | intro _

theorem State.loadObjects_good {pq fz s ms} (h_s : Good pq fz s) :
    Good pq fz (State.loadObjects s ms) := by
  unfold State.loadObjects
  repeat' first
    | with_reducible assumption
    | with_reducible refine State.each_good ?_ ?_
    | with_reducible refine State.zeroGlobal_good ?_
    | with_reducible refine State.setLobj_good ?_
    | with_reducible refine State.pipeObjs_good ?_
    | with_reducible refine Good.done ?_
    | split
    | dsimp only
    | with_reducible refine Good.upd ?_ rfl
    | (simp only [id_eq])
    | intro _ _
    | intro _

theorem State.writeSections_good {pq fz img m l s} {y_ t_} (e_ : (State.writeSections img m l s) = (y_, t_)) (h_s : Good pq fz s) :
    Good pq fz t_ := by
  induction l generalizing s y_ t_ with
  | nil => simp only [State.writeSections, Prod.mk.injEq] at e_; obtain ⟨_, rfl⟩ := e_; exact h_s
  | cons x r ih =>
    rw [State.writeSections.eq_def] at e_
    dsimp only at e_
    split at e_
    · exact ih e_ h_s
    · split at e_
      · exact ih e_ (Good.upd h_s rfl)
      · split at e_
        · rename_i hb; simp only [Prod.mk.injEq] at e_; obtain ⟨_, rfl⟩ := e_; exact State.busWriteAt_good hb h_s
        · rename_i hb; exact ih e_ (State.busWriteAt_good hb h_s)

theorem State.writeSections_keeps {pq fz img m a2 a3} (h_a3 : Good pq fz a3) : Good pq fz (State.writeSections img m a2 a3).2 :=
  State.writeSections_good (y_ := (State.writeSections img m a2 a3).1) (t_ := (State.writeSections img m a2 a3).2) (Good.eta _) h_a3

theorem State.writeModels_good {pq fz img l s} {y_ t_} (e_ : (State.writeModels img l s) = (y_, t_)) (h_s : Good pq fz s) :
    Good pq fz t_ := by
  induction l generalizing s y_ t_ with
  | nil => simp only [State.writeModels, Prod.mk.injEq] at e_; obtain ⟨_, rfl⟩ := e_; exact h_s
  | cons x r ih =>
    rw [State.writeModels.eq_def] at e_
    dsimp only at e_
    split at e_
    · rename_i hb; exact ih e_ (State.writeSections_good hb h_s)
    · exact State.writeSections_good e_ h_s

theorem State.writeModels_keeps {pq fz img a1 a2} (h_a2 : Good pq fz a2) : Good pq fz (State.writeModels img a1 a2).2 :=
  State.writeModels_good (y_ := (State.writeModels img a1 a2).1) (t_ := (State.writeModels img a1 a2).2) (Good.eta _) h_a2

theorem State.writeCopy_good {pq fz s img a stands} {y_ t_} (e_ : (State.writeCopy s img a stands) = (y_, t_)) (h_s : Good pq fz s) :
    Good pq fz t_ := by
  unfold State.writeCopy at e_
  repeat' first
    | with_reducible assumption
    | (simp only [Prod.mk.injEq] at e_)
    | (obtain ⟨_, rfl⟩ := e_)
    | (obtain ⟨_, _, rfl⟩ := e_)
    | subst e_
    | split at e_
    | with_reducible refine State.busWrite_good (by assumption) ?_
    | with_reducible refine State.busWrite_keeps ?_
    | with_reducible refine Good.done ?_
    | split
    | dsimp only
    | with_reducible refine Good.upd ?_ rfl
    | (simp only [id_eq])
    | intro _ _
    | intro _

theorem State.writeCopy_keeps {pq fz s img a stands} (h_s : Good pq fz s) : Good pq fz (State.writeCopy s img a stands).2 :=
  State.writeCopy_good (y_ := (State.writeCopy s img a stands).1) (t_ := (State.writeCopy s img a stands).2) (Good.eta _) h_s

theorem State.remapQm_good {pq fz s} (h_s : Good pq fz s) :
    Good pq fz (State.remapQm s) := by
  unfold State.remapQm
  repeat' first
    | with_reducible assumption
    | with_reducible refine State.each_good ?_ ?_
    | with_reducible refine State.modBrood_good ?_
    | with_reducible refine Good.done ?_
    | split
    | dsimp only
    | with_reducible refine Good.upd ?_ rfl
    | (simp only [id_eq])
    | intro _ _
    | intro _

theorem State.commitLoad_good {pq fz s l} (h_s : Good pq fz s) :
    Good pq fz (State.commitLoad s l) := by
  unfold State.commitLoad
  repeat' first
    | with_reducible assumption
    | with_reducible refine State.remapQm_good ?_
    | with_reducible refine State.loadObjects_good ?_
    | with_reducible refine Good.done ?_
    | split
    | dsimp only
    | with_reducible refine Good.upd ?_ rfl
    | (simp only [id_eq])
    | intro _ _
    | intro _

theorem State.applyImage_good {pq fz s b img pl copy digest meas} {y_ z_ t_} (e_ : (State.applyImage s b img pl copy digest meas) = (y_, z_, t_)) (h_s : Good pq fz s) :
    Good pq fz t_ := by
  unfold State.applyImage at e_
  have h : Good pq fz ({ s with sched.models := pl.kept } : State) := Good.upd h_s rfl
  generalize ({ s with sched.models := pl.kept } : State) = s1 at e_ h
  dsimp only at e_
  split at e_
  · rename_i hm
    simp only [Prod.mk.injEq] at e_; obtain ⟨_, _, rfl⟩ := e_
    exact Good.upd (State.writeModels_good hm h) rfl
  · rename_i hm
    have h := State.writeModels_good hm h
    split at e_
    · rename_i hc
      simp only [Prod.mk.injEq] at e_; obtain ⟨_, _, rfl⟩ := e_
      exact Good.upd (State.writeCopy_good hc h) rfl
    · rename_i hc
      have h := State.writeCopy_good hc h
      simp only [Prod.mk.injEq] at e_; obtain ⟨_, _, rfl⟩ := e_
      exact Good.ite (fun _ => State.commitLoad_good h) (fun _ => Good.upd h rfl)

theorem State.applyImage_keeps {pq fz s b img pl copy digest meas} (h_s : Good pq fz s) : Good pq fz (State.applyImage s b img pl copy digest meas).2.2 :=
  State.applyImage_good (y_ := (State.applyImage s b img pl copy digest meas).1) (z_ := (State.applyImage s b img pl copy digest meas).2.1) (t_ := (State.applyImage s b img pl copy digest meas).2.2) (Good.eta3 _) h_s

theorem State.loadImage_good {pq fz s img copy meas} {y_ z_ t_} (e_ : (State.loadImage s img copy meas) = (y_, z_, t_)) (h_s : Good pq fz s) :
    Good pq fz t_ := by
  unfold State.loadImage at e_
  repeat' first
    | with_reducible assumption
    | (simp only [Prod.mk.injEq] at e_)
    | (obtain ⟨_, rfl⟩ := e_)
    | (obtain ⟨_, _, rfl⟩ := e_)
    | subst e_
    | split at e_
    | with_reducible refine State.raise_good ?_
    | with_reducible refine State.applyImage_good (by assumption) ?_
    | with_reducible refine State.applyImage_keeps ?_
    | with_reducible refine Good.done ?_
    | split
    | dsimp only
    | with_reducible refine Good.upd ?_ rfl
    | (simp only [id_eq])
    | intro _ _
    | intro _

theorem State.loadImage_keeps {pq fz s img copy meas} (h_s : Good pq fz s) : Good pq fz (State.loadImage s img copy meas).2.2 :=
  State.loadImage_good (y_ := (State.loadImage s img copy meas).1) (z_ := (State.loadImage s img copy meas).2.1) (t_ := (State.loadImage s img copy meas).2.2) (Good.eta3 _) h_s

theorem State.switchModes_good {pq fz s x} (h_s : Good pq fz s) :
    Good pq fz (State.switchModes s x) := by
  unfold State.switchModes
  repeat' first
    | with_reducible assumption
    | with_reducible refine State.each_good ?_ ?_
    | with_reducible refine State.wrB_good ?_
    | with_reducible refine Good.done ?_
    | split
    | dsimp only
    | with_reducible refine Good.upd ?_ rfl
    | (simp only [id_eq])
    | intro _ _
    | intro _

theorem State.applySwitch_good {pq fz s st slot} (h_s : Good pq fz s) :
    Good pq fz (State.applySwitch s st slot) := by
  unfold State.applySwitch
  repeat' first
    | with_reducible assumption
    | with_reducible refine State.remapQm_good ?_
    | with_reducible refine State.switchModes_good ?_
    | with_reducible refine State.pipeObjs_good ?_
    | with_reducible refine Good.done ?_
    | split
    | dsimp only
    | with_reducible refine Good.upd ?_ rfl
    | (simp only [id_eq])
    | intro _ _
    | intro _

theorem State.finishLoad_good {pq fz s w sig} (h_s : Good pq fz s) :
    Good pq fz (State.finishLoad s w sig) := by
  unfold State.finishLoad
  repeat' first
    | with_reducible assumption
    | with_reducible refine State.verifyObject_good (by assumption) ?_
    | with_reducible refine State.verifyObject_keeps ?_
    | with_reducible refine State.busRead_good (by assumption) ?_
    | with_reducible refine State.busRead_keeps ?_
    | with_reducible refine State.loadImage_good (by assumption) ?_
    | with_reducible refine State.loadImage_keeps ?_
    | with_reducible refine State.endCmd_good ?_
    | with_reducible refine Good.done ?_
    | split
    | dsimp only
    | with_reducible refine Good.upd ?_ rfl
    | (simp only [id_eq])
    | intro _ _
    | intro _

theorem State.putPiece_good {pq fz s p} {y_ t_} (e_ : (State.putPiece s p) = (y_, t_)) (h_s : Good pq fz s) :
    Good pq fz t_ := by
  unfold State.putPiece at e_
  repeat' first
    | with_reducible assumption
    | (simp only [Prod.mk.injEq] at e_)
    | (obtain ⟨_, rfl⟩ := e_)
    | (obtain ⟨_, _, rfl⟩ := e_)
    | subst e_
    | split at e_
    | with_reducible refine State.busWriteAt_good (by assumption) ?_
    | with_reducible refine State.busWriteAt_keeps ?_
    | with_reducible refine Good.done ?_
    | split
    | dsimp only
    | with_reducible refine Good.upd ?_ rfl
    | (simp only [id_eq])
    | intro _ _
    | intro _

theorem State.putPiece_keeps {pq fz s p} (h_s : Good pq fz s) : Good pq fz (State.putPiece s p).2 :=
  State.putPiece_good (y_ := (State.putPiece s p).1) (t_ := (State.putPiece s p).2) (Good.eta _) h_s

theorem State.loadEnds_good {pq fz s code} (h_s : Good pq fz s) :
    Good pq fz (State.loadEnds s code) := by
  unfold State.loadEnds
  repeat' first
    | with_reducible assumption
    | with_reducible refine State.endCmd_good ?_
    | with_reducible refine Good.done ?_
    | split
    | dsimp only
    | with_reducible refine Good.upd ?_ rfl
    | (simp only [id_eq])
    | intro _ _
    | intro _

theorem State.pieceEnds_good {pq fz s code} (h_s : Good pq fz s) :
    Good pq fz (State.pieceEnds s code) := by
  unfold State.pieceEnds
  repeat' first
    | with_reducible assumption
    | with_reducible refine State.loadEnds_good ?_
    | with_reducible refine State.commitLoad_good ?_
    | with_reducible refine Good.done ?_
    | split
    | dsimp only
    | with_reducible refine Good.upd ?_ rfl
    | (simp only [id_eq])
    | intro _ _
    | intro _

theorem execSectionPieceWrite_good {pq fz s} (h_s : Good pq fz s) : GoodOut pq fz (execSectionPieceWrite s) := by
  unfold execSectionPieceWrite
  refine Good.done ?_
  generalize s.sched.pieces.find? s.pieceFits = o
  cases o with
  | none => exact h_s
  | some p => exact State.pieceEnds_good (State.putPiece_keeps (Good.upd h_s rfl))

theorem execSwitchApply_good {pq fz s} (h_s : Good pq fz s) :
    GoodOut pq fz (execSwitchApply s) := by
  unfold execSwitchApply
  repeat' first
    | with_reducible assumption
    | with_reducible refine State.endCmd_good ?_
    | with_reducible refine State.raise_good ?_
    | with_reducible refine State.applySwitch_good ?_
    | with_reducible refine Good.done ?_
    | split
    | dsimp only
    | with_reducible refine Good.upd ?_ rfl
    | (simp only [id_eq])
    | intro _ _
    | intro _

end Sys2Proof.Machine
end

