-- ==== Sys2Proof/Laws/KeepHostCmds.lean ====
section
/-! SUPPORT. Every operation and command of Machine/HostCmds.lean keeps what `Good` says of a state. -/
namespace Sys2Proof.Machine

theorem State.ctxSetPipes_good {pq fz s l} (h_s : Good pq fz s) :
    Good pq fz (State.ctxSetPipes s l) := by
  unfold State.ctxSetPipes
  repeat' first
    | with_reducible assumption
    | with_reducible refine State.each_good ?_ ?_
    | with_reducible refine State.modPipe_good ?_
    | with_reducible refine Good.done ?_
    | split
    | dsimp only
    | with_reducible refine Good.upd ?_ rfl
    | (simp only [id_eq])
    | intro _ _
    | intro _

theorem State.consumed_good {pq fz s} (h_s : Good pq fz s) :
    Good pq fz (State.consumed s) := by
  unfold State.consumed
  repeat' first
    | with_reducible assumption
    | with_reducible refine State.wr_good ?_
    | with_reducible refine State.msix_good ?_
    | with_reducible refine Good.done ?_
    | split
    | dsimp only
    | with_reducible refine Good.upd ?_ rfl
    | (simp only [id_eq])
    | intro _ _
    | intro _

theorem State.takeCmd_good {pq fz s mine f} (h_s : Good pq fz s) (h_f : ∀ x0 x1, Good pq fz x1 → Good pq fz (f x0 x1)) :
    Good pq fz (State.takeCmd s mine f) := by
  unfold State.takeCmd
  repeat' first
    | with_reducible assumption
    | refine h_f _ _ ?_
    | with_reducible refine State.busRead_good (by assumption) ?_
    | with_reducible refine State.busRead_keeps ?_
    | with_reducible refine State.cnt_good ?_
    | with_reducible refine State.consumed_good ?_
    | with_reducible refine State.trace_good ?_
    | with_reducible refine Good.done ?_
    | split
    | dsimp only
    | with_reducible refine Good.upd ?_ rfl
    | (simp only [id_eq])
    | intro _ _
    | intro _

theorem State.begin_good {pq fz s c} (h_s : Good pq fz s) :
    Good pq fz (State.begin s c) := by
  unfold State.begin
  repeat' first
    | with_reducible assumption
    | with_reducible refine Good.done ?_
    | split
    | dsimp only
    | with_reducible refine Good.upd ?_ rfl
    | (simp only [id_eq])
    | intro _ _
    | intro _

theorem State.opcode_good {pq fz s op sel ok f} (h_s : Good pq fz s) (h_f : ∀ x0 x1, Good pq fz x1 → Good pq fz (f x0 x1)) :
    Good pq fz (State.opcode s op sel ok f) := by
  unfold State.opcode
  repeat' first
    | with_reducible assumption
    | refine h_f _ _ ?_
    | with_reducible refine State.takeCmd_good ?_ ?_
    | with_reducible refine State.begin_good ?_
    | with_reducible refine State.refuseCmd_good ?_
    | with_reducible refine Good.done ?_
    | split
    | dsimp only
    | with_reducible refine Good.upd ?_ rfl
    | (simp only [id_eq])
    | intro _ _
    | intro _

theorem readMems_good {pq fz l s} {y_ t_} (e_ : (readMems l s) = (y_, t_)) (h_s : Good pq fz s) : Good pq fz t_ := by
  induction l generalizing s y_ t_ with
  | nil => simp only [readMems, Prod.mk.injEq] at e_; obtain ⟨_, rfl⟩ := e_; exact h_s
  | cons x r ih =>
    obtain ⟨type, target, a, n⟩ := x
    rw [readMems] at e_
    split at e_
    · rename_i hb
      have h := State.busRead_good hb h_s
      split at e_
      · rename_i hr; simp only [Prod.mk.injEq] at e_; obtain ⟨_, rfl⟩ := e_; exact ih hr h
      · exact ih e_ h
    · rename_i hb; simp only [Prod.mk.injEq] at e_; obtain ⟨_, rfl⟩ := e_; exact State.busRead_good hb h_s

theorem readMems_keeps {pq fz a0 a1} (h_a1 : Good pq fz a1) : Good pq fz (readMems a0 a1).2 :=
  readMems_good (y_ := (readMems a0 a1).1) (t_ := (readMems a0 a1).2) (Good.eta _) h_a1

theorem execSaveCmd_good {pq fz s} (h_s : Good pq fz s) :
    GoodOut pq fz (execSaveCmd s) := by
  unfold execSaveCmd
  repeat' first
    | with_reducible assumption
    | with_reducible refine State.opcode_good ?_ ?_
    | with_reducible refine State.refuseCmd_good ?_
    | with_reducible refine readMems_good (by assumption) ?_
    | with_reducible refine readMems_keeps ?_
    | with_reducible refine State.endCmd_good ?_
    | with_reducible refine State.busWrite_good (by assumption) ?_
    | with_reducible refine State.busWrite_keeps ?_
    | with_reducible refine Good.done ?_
    | split
    | dsimp only
    | with_reducible refine Good.upd ?_ rfl
    | (simp only [id_eq])
    | intro _ _
    | intro _

theorem State.submitEnds_good {pq fz s c status} (h_s : Good pq fz s) :
    Good pq fz (State.submitEnds s c status) := by
  unfold State.submitEnds
  repeat' first
    | with_reducible assumption
    | with_reducible refine State.cmdEntry_good ?_
    | with_reducible refine Good.done ?_
    | split
    | dsimp only
    | with_reducible refine Good.upd ?_ rfl
    | (simp only [id_eq])
    | intro _ _
    | intro _

theorem State.setHostPre_good {pq fz s n on} (h_s : Good pq fz s) :
    Good pq fz (State.setHostPre s n on) := by
  unfold State.setHostPre
  repeat' first
    | with_reducible assumption
    | with_reducible refine State.readN_good (by assumption) ?_
    | with_reducible refine State.readN_keeps ?_
    | with_reducible refine State.store_good ?_
    | with_reducible refine State.setDesc_good ?_
    | with_reducible refine Good.done ?_
    | split
    | dsimp only
    | with_reducible refine Good.upd ?_ rfl
    | (simp only [id_eq])
    | intro _ _
    | intro _

theorem State.stageCmd_good {pq fz s tag n} (h_s : Good pq fz s) :
    Good pq fz (State.stageCmd s tag n) := by
  unfold State.stageCmd
  repeat' first
    | with_reducible assumption
    | with_reducible refine Good.done ?_
    | split
    | dsimp only
    | with_reducible refine Good.upd ?_ rfl
    | (simp only [id_eq])
    | intro _ _
    | intro _

theorem execPipeCmd_good {pq fz s} (h_s : Good pq fz s) :
    GoodOut pq fz (execPipeCmd s) := by
  unfold execPipeCmd
  repeat' first
    | with_reducible assumption
    | with_reducible refine State.opcode_good ?_ ?_
    | with_reducible refine State.stageCmd_good ?_
    | with_reducible refine Good.done ?_
    | split
    | dsimp only
    | with_reducible refine Good.upd ?_ rfl
    | (simp only [id_eq])
    | intro _ _
    | intro _

theorem State.setRunning_good {pq fz s p on} (h_s : Good pq fz s) :
    Good pq fz (State.setRunning s p on) := by
  unfold State.setRunning
  repeat' first
    | with_reducible assumption
    | with_reducible refine State.checkLost_good ?_
    | with_reducible refine State.modPipe_good ?_
    | with_reducible refine Good.done ?_
    | split
    | dsimp only
    | with_reducible refine Good.upd ?_ rfl
    | (simp only [id_eq])
    | intro _ _
    | intro _

theorem execSelftestFullBist_good {pq fz s} (h_s : Good pq fz s) :
    GoodOut pq fz (execSelftestFullBist s) := by
  unfold execSelftestFullBist
  repeat' first
    | with_reducible assumption
    | with_reducible refine State.opcode_good ?_ ?_
    | with_reducible refine State.refuseCmd_good ?_
    | with_reducible refine State.stageCmd_good ?_
    | with_reducible refine Good.done ?_
    | split
    | dsimp only
    | with_reducible refine Good.upd ?_ rfl
    | (simp only [id_eq])
    | intro _ _
    | intro _

theorem State.setMemtrain_good {pq fz s on} (h_s : Good pq fz s) :
    Good pq fz (State.setMemtrain s on) := by
  unfold State.setMemtrain
  repeat' first
    | with_reducible assumption
    | with_reducible refine State.each_good ?_ ?_
    | with_reducible refine State.wrB_good ?_
    | with_reducible refine State.modChan_good ?_
    | with_reducible refine State.wr_good ?_
    | with_reducible refine Good.done ?_
    | split
    | dsimp only
    | with_reducible refine Good.upd ?_ rfl
    | (simp only [id_eq])
    | intro _ _
    | intro _

theorem State.ctxSetModes_good {pq fz s l} (h_s : Good pq fz s) :
    Good pq fz (State.ctxSetModes s l) := by
  unfold State.ctxSetModes
  repeat' first
    | with_reducible assumption
    | with_reducible refine State.setMemtrain_good ?_
    | with_reducible refine State.each_good ?_ ?_
    | with_reducible refine State.setHostPre_good ?_
    | with_reducible refine State.modPipe_good ?_
    | with_reducible refine State.applySwitch_good ?_
    | with_reducible refine Good.done ?_
    | split
    | dsimp only
    | with_reducible refine Good.upd ?_ rfl
    | (simp only [id_eq])
    | intro _ _
    | intro _

theorem State.ctxSetObjects_good {pq fz s l} (h_s : Good pq fz s) :
    Good pq fz (State.ctxSetObjects s l) := by
  unfold State.ctxSetObjects
  repeat' first
    | with_reducible assumption
    | with_reducible refine State.each_good ?_ ?_
    | with_reducible refine State.putObj_good ?_
    | with_reducible refine Good.done ?_
    | split
    | dsimp only
    | with_reducible refine Good.upd ?_ rfl
    | (simp only [id_eq])
    | intro _ _
    | intro _

theorem State.ctxStore_good {pq fz s a d} {y_ t_} (e_ : (State.ctxStore s a d) = (y_, t_)) (h_s : Good pq fz s) :
    Good pq fz t_ := by
  unfold State.ctxStore at e_
  repeat' first
    | with_reducible assumption
    | (simp only [Prod.mk.injEq] at e_)
    | (obtain ⟨_, rfl⟩ := e_)
    | (obtain ⟨_, _, rfl⟩ := e_)
    | subst e_
    | split at e_
    | with_reducible refine State.busWriteAt_good (by assumption) ?_
    | with_reducible refine State.busWriteAt_keeps ?_
    | with_reducible refine Good.done ?_
    | split
    | dsimp only
    | with_reducible refine Good.upd ?_ rfl
    | (simp only [id_eq])
    | intro _ _
    | intro _

theorem State.ctxStore_keeps {pq fz s a d} (h_s : Good pq fz s) : Good pq fz (State.ctxStore s a d).2 :=
  State.ctxStore_good (y_ := (State.ctxStore s a d).1) (t_ := (State.ctxStore s a d).2) (Good.eta _) h_s

theorem State.ctxApply_good {pq fz s x} {y_ t_} (e_ : (State.ctxApply s x) = (y_, t_)) (h_s : Good pq fz s) :
    Good pq fz t_ := by
  unfold State.ctxApply at e_
  repeat' first
    | with_reducible assumption
    | (simp only [Prod.mk.injEq] at e_)
    | (obtain ⟨_, rfl⟩ := e_)
    | (obtain ⟨_, _, rfl⟩ := e_)
    | subst e_
    | split at e_
    | with_reducible refine State.ctxSetModes_good ?_
    | with_reducible refine State.ctxSetPipes_good ?_
    | with_reducible refine State.ctxSetObjects_good ?_
    | with_reducible refine State.ctxStore_good (by assumption) ?_
    | with_reducible refine State.ctxStore_keeps ?_
    | with_reducible refine State.modStrm_good ?_
    | with_reducible refine Good.done ?_
    | split
    | dsimp only
    | with_reducible refine Good.upd ?_ rfl
    | (simp only [id_eq])
    | intro _ _
    | intro _

theorem State.ctxApply_keeps {pq fz s x} (h_s : Good pq fz s) : Good pq fz (State.ctxApply s x).2 :=
  State.ctxApply_good (y_ := (State.ctxApply s x).1) (t_ := (State.ctxApply s x).2) (Good.eta _) h_s

theorem State.ctxApplyAll_good {pq fz l s} {y_ t_} (e_ : (State.ctxApplyAll l s) = (y_, t_)) (h_s : Good pq fz s) :
    Good pq fz t_ := by
  induction l generalizing s y_ t_ with
  | nil => simp only [State.ctxApplyAll, Prod.mk.injEq] at e_; obtain ⟨_, rfl⟩ := e_; exact h_s
  | cons x r ih =>
    rw [State.ctxApplyAll.eq_def] at e_
    dsimp only at e_
    split at e_
    · rename_i hb; exact ih e_ (State.ctxApply_good hb h_s)
    · exact State.ctxApply_good e_ h_s

theorem State.ctxApplyAll_keeps {pq fz a0 a1} (h_a1 : Good pq fz a1) : Good pq fz (State.ctxApplyAll a0 a1).2 :=
  State.ctxApplyAll_good (y_ := (State.ctxApplyAll a0 a1).1) (t_ := (State.ctxApplyAll a0 a1).2) (Good.eta _) h_a1

theorem execRestoreCmd_good {pq fz s} (h_s : Good pq fz s) :
    GoodOut pq fz (execRestoreCmd s) := by
  unfold execRestoreCmd
  repeat' first
    | with_reducible assumption
    | with_reducible refine State.opcode_good ?_ ?_
    | with_reducible refine State.refuseCmd_good ?_
    | with_reducible refine State.busRead_good (by assumption) ?_
    | with_reducible refine State.busRead_keeps ?_
    | with_reducible refine State.ctxApplyAll_good (by assumption) ?_
    | with_reducible refine State.ctxApplyAll_keeps ?_
    | with_reducible refine State.endCmd_good ?_
    | with_reducible refine Good.done ?_
    | split
    | dsimp only
    | with_reducible refine Good.upd ?_ rfl
    | (simp only [id_eq])
    | intro _ _
    | intro _

theorem execSwitchCmd_good {pq fz s} (h_s : Good pq fz s) :
    GoodOut pq fz (execSwitchCmd s) := by
  unfold execSwitchCmd
  repeat' first
    | with_reducible assumption
    | with_reducible refine State.opcode_good ?_ ?_
    | with_reducible refine State.endCmd_good ?_
    | with_reducible refine State.raise_good ?_
    | with_reducible refine Good.done ?_
    | split
    | dsimp only
    | with_reducible refine Good.upd ?_ rfl
    | (simp only [id_eq])
    | intro _ _
    | intro _

theorem execReactCmd_good {pq fz s} (h_s : Good pq fz s) :
    GoodOut pq fz (execReactCmd s) := by
  unfold execReactCmd
  repeat' first
    | with_reducible assumption
    | with_reducible refine State.opcode_good ?_ ?_
    | with_reducible refine State.endCmd_good ?_
    | with_reducible refine State.takeReaction_good ?_
    | with_reducible refine State.refuseCmd_good ?_
    | with_reducible refine Good.done ?_
    | split
    | dsimp only
    | with_reducible refine Good.upd ?_ rfl
    | (simp only [id_eq])
    | intro _ _
    | intro _

theorem execPipeApply_good {pq fz s} (h_s : Good pq fz s) :
    GoodOut pq fz (execPipeApply s) := by
  unfold execPipeApply
  repeat' first
    | with_reducible assumption
    | with_reducible refine onlyIf_good ?_ ?_
    | with_reducible refine State.endCmd_good ?_
    | with_reducible refine State.setRunning_good ?_
    | with_reducible refine Good.done ?_
    | split
    | dsimp only
    | with_reducible refine Good.upd ?_ rfl
    | (simp only [id_eq])
    | intro _ _
    | intro _

theorem State.addReq_good {pq fz s c sel row unit f} (h_s : Good pq fz s) (h_f : ∀ x0, Good pq fz x0 → Good pq fz (f x0)) :
    Good pq fz (State.addReq s c sel row unit f) := by
  unfold State.addReq
  repeat' first
    | with_reducible assumption
    | refine h_f _ ?_
    | with_reducible refine State.refuseCmd_good ?_
    | with_reducible refine Good.done ?_
    | split
    | dsimp only
    | with_reducible refine Good.upd ?_ rfl
    | (simp only [id_eq])
    | intro _ _
    | intro _

theorem execIllegalCommand_good {pq fz s} (h_s : Good pq fz s) :
    GoodOut pq fz (execIllegalCommand s) := by
  unfold execIllegalCommand
  repeat' first
    | with_reducible assumption
    | with_reducible refine onlyIf_good ?_ ?_
    | with_reducible refine State.busRead_good (by assumption) ?_
    | with_reducible refine State.busRead_keeps ?_
    | with_reducible refine State.takeCmd_good ?_ ?_
    | with_reducible refine State.refuseCmd_good ?_
    | with_reducible refine State.begin_good ?_
    | with_reducible refine State.complete_good ?_
    | with_reducible refine State.consumed_good ?_
    | with_reducible refine Good.done ?_
    | split
    | dsimp only
    | with_reducible refine Good.upd ?_ rfl
    | (simp only [id_eq])
    | intro _ _
    | intro _

theorem execUnloadCmd_good {pq fz s} (h_s : Good pq fz s) :
    GoodOut pq fz (execUnloadCmd s) := by
  unfold execUnloadCmd
  repeat' first
    | with_reducible assumption
    | with_reducible refine State.opcode_good ?_ ?_
    | with_reducible refine State.endCmd_good ?_
    | with_reducible refine State.raise_good ?_
    | with_reducible refine Good.done ?_
    | split
    | dsimp only
    | with_reducible refine Good.upd ?_ rfl
    | (simp only [id_eq])
    | intro _ _
    | intro _

theorem State.submitOpen_good {pq fz s c x} (h_s : Good pq fz s) :
    Good pq fz (State.submitOpen s c x) := by
  unfold State.submitOpen
  repeat' first
    | with_reducible assumption
    | with_reducible refine State.openFrame_good ?_
    | with_reducible refine Good.done ?_
    | split
    | dsimp only
    | with_reducible refine Good.upd ?_ rfl
    | (simp only [id_eq])
    | intro _ _
    | intro _

theorem State.submitJob_good {pq fz s c g x} (h_s : Good pq fz s) :
    Good pq fz (State.submitJob s c g x) := by
  unfold State.submitJob
  repeat' first
    | with_reducible assumption
    | with_reducible refine State.complete_good ?_
    | with_reducible refine State.markFailed_good ?_
    | with_reducible refine State.makeJob_good ?_
    | with_reducible refine Good.done ?_
    | split
    | dsimp only
    | with_reducible refine Good.upd ?_ rfl
    | (simp only [id_eq])
    | intro _ _
    | intro _

theorem execSubmitCmd_good {pq fz s} (h_s : Good pq fz s) :
    GoodOut pq fz (execSubmitCmd s) := by
  unfold execSubmitCmd
  repeat' first
    | with_reducible assumption
    | with_reducible refine State.takeCmd_good ?_ ?_
    | with_reducible refine State.submitEnds_good ?_
    | with_reducible refine State.raise_good ?_
    | with_reducible refine State.submitOpen_good ?_
    | with_reducible refine State.takeSlots_good (by assumption) ?_
    | with_reducible refine State.submitJob_good ?_
    | with_reducible refine State.kickJobs_good ?_
    | with_reducible refine State.settleArbs_good ?_
    | with_reducible refine State.withhold_good ?_
    | with_reducible refine Good.done ?_
    | split
    | dsimp only
    | with_reducible refine Good.upd ?_ rfl
    | (simp only [id_eq])
    | intro _ _
    | intro _

theorem execSelftestSlicePass_good {pq fz s} (h_s : Good pq fz s) :
    GoodOut pq fz (execSelftestSlicePass s) := by
  unfold execSelftestSlicePass
  repeat' first
    | with_reducible assumption
    | with_reducible refine State.opcode_good ?_ ?_
    | with_reducible refine State.addReq_good ?_ ?_
    | with_reducible refine State.modUnit_good ?_
    | with_reducible refine Good.done ?_
    | split
    | dsimp only
    | with_reducible refine Good.upd ?_ rfl
    | (simp only [id_eq])
    | intro _ _
    | intro _

theorem execRecordCmd_good {pq fz s} (h_s : Good pq fz s) :
    GoodOut pq fz (execRecordCmd s) := by
  unfold execRecordCmd
  repeat' first
    | with_reducible assumption
    | with_reducible refine State.opcode_good ?_ ?_
    | with_reducible refine State.busRead_good (by assumption) ?_
    | with_reducible refine State.busRead_keeps ?_
    | with_reducible refine State.endCmd_good ?_
    | with_reducible refine State.raise_good ?_
    | with_reducible refine State.offer_good ?_
    | with_reducible refine State.stageCmd_good ?_
    | with_reducible refine State.refuseCmd_good ?_
    | with_reducible refine Good.done ?_
    | split
    | dsimp only
    | with_reducible refine Good.upd ?_ rfl
    | (simp only [id_eq])
    | intro _ _
    | intro _

theorem execTestWindowEnd_good {pq fz s} (h_s : Good pq fz s) :
    GoodOut pq fz (execTestWindowEnd s) := by
  unfold execTestWindowEnd
  repeat' first
    | with_reducible assumption
    | with_reducible refine onlyIf_good ?_ ?_
    | with_reducible refine State.endCmd_good ?_
    | with_reducible refine Good.done ?_
    | split
    | dsimp only
    | with_reducible refine Good.upd ?_ rfl
    | (simp only [id_eq])
    | intro _ _
    | intro _

theorem execLoadCmd_good {pq fz s} (h_s : Good pq fz s) :
    GoodOut pq fz (execLoadCmd s) := by
  unfold execLoadCmd
  repeat' first
    | with_reducible assumption
    | with_reducible refine State.opcode_good ?_ ?_
    | with_reducible refine State.stageCmd_good ?_
    | with_reducible refine Good.done ?_
    | split
    | dsimp only
    | with_reducible refine Good.upd ?_ rfl
    | (simp only [id_eq])
    | intro _ _
    | intro _

theorem execSelftestBrood_good {pq fz s} (h_s : Good pq fz s) :
    GoodOut pq fz (execSelftestBrood s) := by
  unfold execSelftestBrood
  repeat' first
    | with_reducible assumption
    | with_reducible refine State.opcode_good ?_ ?_
    | with_reducible refine State.addReq_good ?_ ?_
    | with_reducible refine Good.done ?_
    | split
    | dsimp only
    | with_reducible refine Good.upd ?_ rfl
    | (simp only [id_eq])
    | intro _ _
    | intro _

theorem execModeCmd_good {pq fz s} (h_s : Good pq fz s) :
    GoodOut pq fz (execModeCmd s) := by
  unfold execModeCmd
  repeat' first
    | with_reducible assumption
    | with_reducible refine State.opcode_good ?_ ?_
    | with_reducible refine State.stageCmd_good ?_
    | with_reducible refine Good.done ?_
    | split
    | dsimp only
    | with_reducible refine Good.upd ?_ rfl
    | (simp only [id_eq])
    | intro _ _
    | intro _

theorem State.applyMode_good {pq fz s c} (h_s : Good pq fz s) :
    Good pq fz (State.applyMode s c) := by
  unfold State.applyMode
  repeat' first
    | with_reducible assumption
    | with_reducible refine State.modPipe_good ?_
    | with_reducible refine State.setHostPre_good ?_
    | with_reducible refine State.setMemtrain_good ?_
    | with_reducible refine Good.done ?_
    | split
    | dsimp only
    | with_reducible refine Good.upd ?_ rfl
    | (simp only [id_eq])
    | intro _ _
    | intro _

theorem execModeApply_good {pq fz s} (h_s : Good pq fz s) :
    GoodOut pq fz (execModeApply s) := by
  unfold execModeApply
  repeat' first
    | with_reducible assumption
    | with_reducible refine onlyIf_good ?_ ?_
    | with_reducible refine State.endCmd_good ?_
    | with_reducible refine State.applyMode_good ?_
    | with_reducible refine Good.done ?_
    | split
    | dsimp only
    | with_reducible refine Good.upd ?_ rfl
    | (simp only [id_eq])
    | intro _ _
    | intro _

theorem execSelftestRetrain_good {pq fz s} (h_s : Good pq fz s) :
    GoodOut pq fz (execSelftestRetrain s) := by
  unfold execSelftestRetrain
  repeat' first
    | with_reducible assumption
    | with_reducible refine State.opcode_good ?_ ?_
    | with_reducible refine State.addReq_good ?_ ?_
    | with_reducible refine State.modChan_good ?_
    | with_reducible refine State.makeDue_good ?_
    | with_reducible refine Good.done ?_
    | split
    | dsimp only
    | with_reducible refine Good.upd ?_ rfl
    | (simp only [id_eq])
    | intro _ _
    | intro _

theorem execSelftestWindow_good {pq fz s} (h_s : Good pq fz s) :
    GoodOut pq fz (execSelftestWindow s) := by
  unfold execSelftestWindow
  repeat' first
    | with_reducible assumption
    | with_reducible refine State.opcode_good ?_ ?_
    | with_reducible refine State.refuseCmd_good ?_
    | with_reducible refine State.stageCmd_good ?_
    | with_reducible refine Good.done ?_
    | split
    | dsimp only
    | with_reducible refine Good.upd ?_ rfl
    | (simp only [id_eq])
    | intro _ _
    | intro _

theorem execNopCmd_good {pq fz s} (h_s : Good pq fz s) :
    GoodOut pq fz (execNopCmd s) := by
  unfold execNopCmd
  repeat' first
    | with_reducible assumption
    | with_reducible refine State.opcode_good ?_ ?_
    | with_reducible refine State.settleNops_good ?_
    | with_reducible refine Good.done ?_
    | split
    | dsimp only
    | with_reducible refine Good.upd ?_ rfl
    | (simp only [id_eq])
    | intro _ _
    | intro _

end Sys2Proof.Machine
end

