-- ==== Sys2Proof/Laws/KeepFirmware.lean ====
section
/-! SUPPORT. Every operation and command of Machine/Firmware.lean keeps what `Good` says of a state. -/
namespace Sys2Proof.Machine

theorem State.wdtRestart_good {pq fz s p} (h_s : Good pq fz s) :
    Good pq fz (State.wdtRestart s p) := by
  unfold State.wdtRestart
  repeat' first
    | with_reducible assumption
    | with_reducible refine Good.done ?_
    | split
    | dsimp only
    | with_reducible refine Good.upd ?_ rfl
    | (simp only [id_eq])
    | intro _ _
    | intro _

theorem State.dspRestart_good {pq fz s} (h_s : Good pq fz s) :
    Good pq fz (State.dspRestart s) := by
  unfold State.dspRestart
  repeat' first
    | with_reducible assumption
    | with_reducible refine State.each_good ?_ ?_
    | with_reducible refine State.wdtRestart_good ?_
    | with_reducible refine Good.done ?_
    | split
    | dsimp only
    | with_reducible refine Good.upd ?_ rfl
    | (simp only [id_eq])
    | intro _ _
    | intro _

theorem State.dspReset_good {pq fz s} (h_s : Good pq fz s) :
    Good pq fz (State.dspReset s) := by
  unfold State.dspReset
  repeat' first
    | with_reducible assumption
    | with_reducible refine State.dspRestart_good ?_
    | with_reducible refine State.wr_good ?_
    | with_reducible refine Good.done ?_
    | split
    | dsimp only
    | with_reducible refine Good.upd ?_ rfl
    | (simp only [id_eq])
    | intro _ _
    | intro _

theorem State.setStaged_good {pq fz s v} (h_s : Good pq fz s) :
    Good pq fz (State.setStaged s v) := by
  unfold State.setStaged
  repeat' first
    | with_reducible assumption
    | with_reducible refine State.wr_good ?_
    | with_reducible refine Good.done ?_
    | split
    | dsimp only
    | with_reducible refine Good.upd ?_ rfl
    | (simp only [id_eq])
    | intro _ _
    | intro _

theorem State.moltTo_good {pq fz s new reason} (h_s : Good pq fz s) :
    Good pq fz (State.moltTo s new reason) := by
  unfold State.moltTo
  repeat' first
    | with_reducible assumption
    | with_reducible refine State.wr_good ?_
    | with_reducible refine State.trace_good ?_
    | with_reducible refine Good.done ?_
    | split
    | dsimp only
    | with_reducible refine Good.upd ?_ rfl
    | (simp only [id_eq])
    | intro _ _
    | intro _

theorem State.moltEnds_good {pq fz s result reason} (h_s : Good pq fz s) :
    Good pq fz (State.moltEnds s result reason) := by
  unfold State.moltEnds
  repeat' first
    | with_reducible assumption
    | with_reducible refine State.setStaged_good ?_
    | with_reducible refine State.moltTo_good ?_
    | with_reducible refine State.wr_good ?_
    | with_reducible refine State.flushCompl_good ?_
    | with_reducible refine Good.done ?_
    | split
    | dsimp only
    | with_reducible refine Good.upd ?_ rfl
    | (simp only [id_eq])
    | intro _ _
    | intro _

theorem State.moltAbort_good {pq fz s reason} (h_s : Good pq fz s) :
    Good pq fz (State.moltAbort s reason) := by
  unfold State.moltAbort
  repeat' first
    | with_reducible assumption
    | with_reducible refine State.dspReset_good ?_
    | with_reducible refine State.raise_good ?_
    | with_reducible refine State.moltEnds_good ?_
    | with_reducible refine Good.done ?_
    | split
    | dsimp only
    | with_reducible refine Good.upd ?_ rfl
    | (simp only [id_eq])
    | intro _ _
    | intro _

theorem State.setActive_good {pq fz s v} (h_s : Good pq fz s) :
    Good pq fz (State.setActive s v) := by
  unfold State.setActive
  repeat' first
    | with_reducible assumption
    | with_reducible refine State.wr_good ?_
    | with_reducible refine Good.done ?_
    | split
    | dsimp only
    | with_reducible refine Good.upd ?_ rfl
    | (simp only [id_eq])
    | intro _ _
    | intro _

theorem State.moltCommit_good {pq fz s} (h_s : Good pq fz s) :
    Good pq fz (State.moltCommit s) := by
  unfold State.moltCommit
  repeat' first
    | with_reducible assumption
    | with_reducible refine State.busRead_good (by assumption) ?_
    | with_reducible refine State.busRead_keeps ?_
    | with_reducible refine State.trace_good ?_
    | with_reducible refine State.cnt_good ?_
    | with_reducible refine State.setActive_good ?_
    | with_reducible refine State.wr_good ?_
    | with_reducible refine State.raise_good ?_
    | with_reducible refine State.moltEnds_good ?_
    | with_reducible refine Good.done ?_
    | split
    | dsimp only
    | with_reducible refine Good.upd ?_ rfl
    | (simp only [id_eq])
    | intro _ _
    | intro _

theorem execFwMoltCommit_good {pq fz host s} (h_s : Good pq fz s) :
    GoodOut pq fz (execFwMoltCommit host s) := by
  unfold execFwMoltCommit
  repeat' first
    | with_reducible assumption
    | with_reducible refine onlyIf_good ?_ ?_
    | with_reducible refine State.violation_good ?_
    | with_reducible refine State.moltAbort_good ?_
    | with_reducible refine State.moltCommit_good ?_
    | with_reducible refine Good.done ?_
    | split
    | dsimp only
    | with_reducible refine Good.upd ?_ rfl
    | (simp only [id_eq])
    | intro _ _
    | intro _

theorem State.moltRecord_good {pq fz s} (h_s : Good pq fz s) : Good pq fz (State.moltRecord s) := by
  unfold State.moltRecord
  generalize hw : s.free = w
  obtain ⟨w, s1⟩ := w
  have h := State.free_good hw h_s
  dsimp only
  generalize hb : State.freeBs 4028 s1 = b
  obtain ⟨b, s2⟩ := b
  exact State.store_good (State.freeBs_good hb h)

theorem execFwClrCnt_good {pq fz s} (h_s : Good pq fz s) :
    GoodOut pq fz (execFwClrCnt s) := by
  unfold execFwClrCnt
  repeat' first
    | with_reducible assumption
    | with_reducible refine State.clearFlds_good ?_
    | with_reducible refine Good.done ?_
    | split
    | dsimp only
    | with_reducible refine Good.upd ?_ rfl
    | (simp only [id_eq])
    | intro _ _
    | intro _

theorem State.fwFault_good {pq fz s core cause} (h_s : Good pq fz s) :
    Good pq fz (State.fwFault s core cause) := by
  unfold State.fwFault
  repeat' first
    | with_reducible assumption
    | with_reducible refine State.wr_good ?_
    | with_reducible refine Good.done ?_
    | split
    | dsimp only
    | with_reducible refine Good.upd ?_ rfl
    | (simp only [id_eq])
    | intro _ _
    | intro _

theorem State.stopCore_good {pq fz s n cause} (h_s : Good pq fz s) :
    Good pq fz (State.stopCore s n cause) := by
  unfold State.stopCore
  repeat' first
    | with_reducible assumption
    | with_reducible refine State.fwFault_good ?_
    | with_reducible refine State.wr_good ?_
    | with_reducible refine Good.done ?_
    | split
    | dsimp only
    | with_reducible refine Good.upd ?_ rfl
    | (simp only [id_eq])
    | intro _ _
    | intro _

theorem State.dspExpire_good {pq fz s n early} (h_s : Good pq fz s) :
    Good pq fz (State.dspExpire s n early) := by
  unfold State.dspExpire
  repeat' first
    | with_reducible assumption
    | with_reducible refine State.cnt_good ?_
    | with_reducible refine State.wdtRestart_good ?_
    | with_reducible refine State.raise_good ?_
    | with_reducible refine State.stopCore_good ?_
    | with_reducible refine State.moltAbort_good ?_
    | with_reducible refine Good.done ?_
    | split
    | dsimp only
    | with_reducible refine Good.upd ?_ rfl
    | (simp only [id_eq])
    | intro _ _
    | intro _

theorem execFwWdtKick_good {pq fz host mask s} (h_s : Good pq fz s) :
    GoodOut pq fz (execFwWdtKick host mask s) := by
  unfold execFwWdtKick
  repeat' first
    | with_reducible assumption
    | with_reducible refine onlyIf_good ?_ ?_
    | with_reducible refine State.violation_good ?_
    | with_reducible refine State.each_good ?_ ?_
    | with_reducible refine State.dspExpire_good ?_
    | with_reducible refine State.wdtRestart_good ?_
    | with_reducible refine Good.done ?_
    | split
    | dsimp only
    | with_reducible refine Good.upd ?_ rfl
    | (simp only [id_eq])
    | intro _ _
    | intro _

theorem execFwMoltAbort_good {pq fz s} (h_s : Good pq fz s) :
    GoodOut pq fz (execFwMoltAbort s) := by
  unfold execFwMoltAbort
  repeat' first
    | with_reducible assumption
    | with_reducible refine State.moltAbort_good ?_
    | with_reducible refine Good.done ?_
    | split
    | dsimp only
    | with_reducible refine Good.upd ?_ rfl
    | (simp only [id_eq])
    | intro _ _
    | intro _

theorem State.moltRefuse_good {pq fz s result code} (h_s : Good pq fz s) :
    Good pq fz (State.moltRefuse s result code) := by
  unfold State.moltRefuse
  repeat' first
    | with_reducible assumption
    | with_reducible refine State.raise_good ?_
    | with_reducible refine State.wr_good ?_
    | with_reducible refine Good.done ?_
    | split
    | dsimp only
    | with_reducible refine Good.upd ?_ rfl
    | (simp only [id_eq])
    | intro _ _
    | intro _

theorem execFwMoltReq_good {pq fz s} (h_s : Good pq fz s) :
    GoodOut pq fz (execFwMoltReq s) := by
  unfold execFwMoltReq
  repeat' first
    | with_reducible assumption
    | with_reducible refine onlyIf_good ?_ ?_
    | with_reducible refine State.moltRefuse_good ?_
    | with_reducible refine State.moltTo_good ?_
    | with_reducible refine Good.done ?_
    | split
    | dsimp only
    | with_reducible refine Good.upd ?_ rfl
    | (simp only [id_eq])
    | intro _ _
    | intro _

theorem State.pwrExpire_good {pq fz s early} (h_s : Good pq fz s) :
    Good pq fz (State.pwrExpire s early) := by
  unfold State.pwrExpire
  repeat' first
    | with_reducible assumption
    | with_reducible refine State.cnt_good ?_
    | with_reducible refine State.wdtRestart_good ?_
    | with_reducible refine State.raise_good ?_
    | with_reducible refine State.wr_good ?_
    | with_reducible refine Good.done ?_
    | split
    | dsimp only
    | with_reducible refine Good.upd ?_ rfl
    | (simp only [id_eq])
    | intro _ _
    | intro _

theorem State.moltImage_good {pq fz s} (h_s : Good pq fz s) :
    Good pq fz (State.moltImage s) := by
  unfold State.moltImage
  repeat' first
    | with_reducible assumption
    | with_reducible refine State.raise_good ?_
    | with_reducible refine State.moltEnds_good ?_
    | with_reducible refine Good.done ?_
    | split
    | dsimp only
    | with_reducible refine Good.upd ?_ rfl
    | (simp only [id_eq])
    | intro _ _
    | intro _

theorem execMoltVerifyEnd_good {pq fz r1 s1 r2 s2 s} (h_s : Good pq fz s) :
    GoodOut pq fz (execMoltVerifyEnd r1 s1 r2 s2 s) := by
  unfold execMoltVerifyEnd
  repeat' first
    | with_reducible assumption
    | with_reducible refine onlyIf_good ?_ ?_
    | with_reducible refine State.verifyObject_good (by assumption) ?_
    | with_reducible refine State.verifyObject_keeps ?_
    | with_reducible refine State.moltTo_good ?_
    | with_reducible refine State.moltImage_good ?_
    | with_reducible refine Good.done ?_
    | split
    | dsimp only
    | with_reducible refine Good.upd ?_ rfl
    | (simp only [id_eq])
    | intro _ _
    | intro _

theorem execDispatchWdtExpiry_good {pq fz core s} (h_s : Good pq fz s) :
    GoodOut pq fz (execDispatchWdtExpiry core s) := by
  unfold execDispatchWdtExpiry
  repeat' first
    | with_reducible assumption
    | with_reducible refine onlyIf_good ?_ ?_
    | with_reducible refine State.dspExpire_good ?_
    | with_reducible refine Good.done ?_
    | split
    | dsimp only
    | with_reducible refine Good.upd ?_ rfl
    | (simp only [id_eq])
    | intro _ _
    | intro _

theorem State.secFails_good {pq fz s code} (h_s : Good pq fz s) :
    Good pq fz (State.secFails s code) := by
  unfold State.secFails
  repeat' first
    | with_reducible assumption
    | with_reducible refine State.wr_good ?_
    | with_reducible refine State.moltImage_good ?_
    | with_reducible refine State.each_good ?_ ?_
    | with_reducible refine State.endCmd_good ?_
    | with_reducible refine Good.done ?_
    | split
    | dsimp only
    | with_reducible refine Good.upd ?_ rfl
    | (simp only [id_eq])
    | intro _ _
    | intro _

theorem State.secExpire_good {pq fz s early} (h_s : Good pq fz s) :
    Good pq fz (State.secExpire s early) := by
  unfold State.secExpire
  repeat' first
    | with_reducible assumption
    | with_reducible refine State.cnt_good ?_
    | with_reducible refine State.wdtRestart_good ?_
    | with_reducible refine State.raise_good ?_
    | with_reducible refine State.secFails_good ?_
    | with_reducible refine State.wr_good ?_
    | with_reducible refine Good.done ?_
    | split
    | dsimp only
    | with_reducible refine Good.upd ?_ rfl
    | (simp only [id_eq])
    | intro _ _
    | intro _

theorem execPowerWdtExpiry_good {pq fz s} (h_s : Good pq fz s) :
    GoodOut pq fz (execPowerWdtExpiry s) := by
  unfold execPowerWdtExpiry
  repeat' first
    | with_reducible assumption
    | with_reducible refine onlyIf_good ?_ ?_
    | with_reducible refine State.pwrExpire_good ?_
    | with_reducible refine Good.done ?_
    | split
    | dsimp only
    | with_reducible refine Good.upd ?_ rfl
    | (simp only [id_eq])
    | intro _ _
    | intro _

theorem execInternalKickRegister_good {pq fz sec s} (h_s : Good pq fz s) :
    GoodOut pq fz (execInternalKickRegister sec s) := by
  unfold execInternalKickRegister
  repeat' first
    | with_reducible assumption
    | with_reducible refine State.wdtRestart_good ?_
    | with_reducible refine State.wr_good ?_
    | with_reducible refine onlyIf_good ?_ ?_
    | with_reducible refine State.secExpire_good ?_
    | with_reducible refine State.pwrExpire_good ?_
    | with_reducible refine Good.done ?_
    | split
    | dsimp only
    | with_reducible refine Good.upd ?_ rfl
    | (simp only [id_eq])
    | intro _ _
    | intro _

theorem execSecurityWdtExpiry_good {pq fz s} (h_s : Good pq fz s) :
    GoodOut pq fz (execSecurityWdtExpiry s) := by
  unfold execSecurityWdtExpiry
  repeat' first
    | with_reducible assumption
    | with_reducible refine onlyIf_good ?_ ?_
    | with_reducible refine State.secExpire_good ?_
    | with_reducible refine Good.done ?_
    | split
    | dsimp only
    | with_reducible refine Good.upd ?_ rfl
    | (simp only [id_eq])
    | intro _ _
    | intro _

theorem execDispatchCoreFault_good {pq fz core cause s} (h_s : Good pq fz s) :
    GoodOut pq fz (execDispatchCoreFault core cause s) := by
  unfold execDispatchCoreFault
  repeat' first
    | with_reducible assumption
    | with_reducible refine onlyIf_good ?_ ?_
    | with_reducible refine State.raise_good ?_
    | with_reducible refine State.stopCore_good ?_
    | with_reducible refine State.moltAbort_good ?_
    | with_reducible refine Good.done ?_
    | split
    | dsimp only
    | with_reducible refine Good.upd ?_ rfl
    | (simp only [id_eq])
    | intro _ _
    | intro _

theorem execMoltStagingEnd_good {pq fz s} (h_s : Good pq fz s) :
    GoodOut pq fz (execMoltStagingEnd s) := by
  unfold execMoltStagingEnd
  repeat' first
    | with_reducible assumption
    | with_reducible refine onlyIf_good ?_ ?_
    | with_reducible refine State.busRead_good (by assumption) ?_
    | with_reducible refine State.busRead_keeps ?_
    | with_reducible refine State.busWrite_good (by assumption) ?_
    | with_reducible refine State.busWrite_keeps ?_
    | with_reducible refine State.moltTo_good ?_
    | with_reducible refine State.setStaged_good ?_
    | with_reducible refine State.moltImage_good ?_
    | with_reducible refine Good.done ?_
    | split
    | dsimp only
    | with_reducible refine Good.upd ?_ rfl
    | (simp only [id_eq])
    | intro _ _
    | intro _

theorem execMoltHandoverStart_good {pq fz checkOk s} (h_s : Good pq fz s) :
    GoodOut pq fz (execMoltHandoverStart checkOk s) := by
  unfold execMoltHandoverStart
  repeat' first
    | with_reducible assumption
    | with_reducible refine onlyIf_good ?_ ?_
    | with_reducible refine State.dspReset_good ?_
    | with_reducible refine State.moltRecord_good ?_
    | with_reducible refine State.moltTo_good ?_
    | with_reducible refine State.moltAbort_good ?_
    | with_reducible refine Good.done ?_
    | split
    | dsimp only
    | with_reducible refine Good.upd ?_ rfl
    | (simp only [id_eq])
    | intro _ _
    | intro _

theorem execMoltReadyTimeout_good {pq fz s} (h_s : Good pq fz s) :
    GoodOut pq fz (execMoltReadyTimeout s) := by
  unfold execMoltReadyTimeout
  repeat' first
    | with_reducible assumption
    | with_reducible refine onlyIf_good ?_ ?_
    | with_reducible refine State.moltAbort_good ?_
    | with_reducible refine Good.done ?_
    | split
    | dsimp only
    | with_reducible refine Good.upd ?_ rfl
    | (simp only [id_eq])
    | intro _ _
    | intro _

end Sys2Proof.Machine
end

