-- ==== Sys2Proof/Laws/KeepPowerCmds.lean ====
section
/-! SUPPORT. Every operation and command of Machine/PowerCmds.lean keeps what `Good` says of a state. -/
namespace Sys2Proof.Machine

theorem State.showPower_good {pq fz s} (h_s : Good pq fz s) :
    Good pq fz (State.showPower s) := by
  unfold State.showPower
  repeat' first
    | with_reducible assumption
    | with_reducible refine State.wr_good ?_
    | with_reducible refine State.wrB_good ?_
    | with_reducible refine Good.done ?_
    | split
    | dsimp only
    | with_reducible refine Good.upd ?_ rfl
    | (simp only [id_eq])
    | intro _ _
    | intro _

theorem execPoweredHour_good {pq fz s} (h_s : Good pq fz s) :
    GoodOut pq fz (execPoweredHour s) := by
  unfold execPoweredHour
  repeat' first
    | with_reducible assumption
    | with_reducible refine onlyIf_good ?_ ?_
    | with_reducible refine State.prsRequest_good ?_
    | with_reducible refine Good.done ?_
    | split
    | dsimp only
    | with_reducible refine Good.upd ?_ rfl
    | (simp only [id_eq])
    | intro _ _
    | intro _

theorem execPwrClrCnt_good {pq fz s} (h_s : Good pq fz s) :
    GoodOut pq fz (execPwrClrCnt s) := by
  unfold execPwrClrCnt
  repeat' first
    | with_reducible assumption
    | with_reducible refine State.clearFlds_good ?_
    | with_reducible refine Good.done ?_
    | split
    | dsimp only
    | with_reducible refine Good.upd ?_ rfl
    | (simp only [id_eq])
    | intro _ _
    | intro _

theorem execPrsClrCnt_good {pq fz s} (h_s : Good pq fz s) :
    GoodOut pq fz (execPrsClrCnt s) := by
  unfold execPrsClrCnt
  repeat' first
    | with_reducible assumption
    | with_reducible refine State.clearFlds_good ?_
    | with_reducible refine Good.done ?_
    | split
    | dsimp only
    | with_reducible refine Good.upd ?_ rfl
    | (simp only [id_eq])
    | intro _ _
    | intro _

theorem execPersistentWrite_good {pq fz s} (h_s : Good pq fz s) :
    GoodOut pq fz (execPersistentWrite s) := by
  unfold execPersistentWrite
  repeat' first
    | with_reducible assumption
    | with_reducible refine State.prsDo_good ?_
    | with_reducible refine Good.done ?_
    | split
    | dsimp only
    | with_reducible refine Good.upd ?_ rfl
    | (simp only [id_eq])
    | intro _ _
    | intro _

theorem State.thermalShutdown_good {pq fz s} (h_s : Good pq fz s) :
    Good pq fz (State.thermalShutdown s) := by
  unfold State.thermalShutdown
  repeat' first
    | with_reducible assumption
    | with_reducible refine State.showPower_good ?_
    | with_reducible refine State.prsFlush_good ?_
    | with_reducible refine State.lifeUp_good ?_
    | with_reducible refine Good.done ?_
    | split
    | dsimp only
    | with_reducible refine Good.upd ?_ rfl
    | (simp only [id_eq])
    | intro _ _
    | intro _

theorem execLifetimeCounterFlush_good {pq fz idx s} (h_s : Good pq fz s) :
    GoodOut pq fz (execLifetimeCounterFlush idx s) := by
  unfold execLifetimeCounterFlush
  repeat' first
    | with_reducible assumption
    | with_reducible refine onlyIf_good ?_ ?_
    | with_reducible refine State.lifeWrite_good ?_
    | with_reducible refine Good.done ?_
    | split
    | dsimp only
    | with_reducible refine Good.upd ?_ rfl
    | (simp only [id_eq])
    | intro _ _
    | intro _

theorem execPowerBudgetTimer_good {pq fz watts s} (h_s : Good pq fz s) :
    GoodOut pq fz (execPowerBudgetTimer watts s) := by
  unfold execPowerBudgetTimer
  repeat' first
    | with_reducible assumption
    | with_reducible refine onlyIf_good ?_ ?_
    | with_reducible refine State.showPower_good ?_
    | with_reducible refine State.trace_good ?_
    | with_reducible refine State.raise_good ?_
    | with_reducible refine Good.done ?_
    | split
    | dsimp only
    | with_reducible refine Good.upd ?_ rfl
    | (simp only [id_eq])
    | intro _ _
    | intro _

theorem State.thermalLife_good {pq fz s hot} (h_s : Good pq fz s) :
    Good pq fz (State.thermalLife s hot) := by
  unfold State.thermalLife
  repeat' first
    | with_reducible assumption
    | with_reducible refine State.lifeUp_good ?_
    | with_reducible refine State.prsRequest_good ?_
    | with_reducible refine Good.done ?_
    | split
    | dsimp only
    | with_reducible refine Good.upd ?_ rfl
    | (simp only [id_eq])
    | intro _ _
    | intro _

theorem State.limitStart_good {pq fz s r unit code cnt} (h_s : Good pq fz s) :
    Good pq fz (State.limitStart s r unit code cnt) := by
  unfold State.limitStart
  repeat' first
    | with_reducible assumption
    | with_reducible refine State.showPower_good ?_
    | with_reducible refine State.cnt_good ?_
    | with_reducible refine State.trace_good ?_
    | with_reducible refine State.raise_good ?_
    | with_reducible refine State.moltAbort_good ?_
    | with_reducible refine Good.done ?_
    | split
    | dsimp only
    | with_reducible refine Good.upd ?_ rfl
    | (simp only [id_eq])
    | intro _ _
    | intro _

theorem State.limitCool_good {pq fz s r holds} (h_s : Good pq fz s) :
    Good pq fz (State.limitCool s r holds) := by
  unfold State.limitCool
  repeat' first
    | with_reducible assumption
    | with_reducible refine Good.done ?_
    | split
    | dsimp only
    | with_reducible refine Good.upd ?_ rfl
    | (simp only [id_eq])
    | intro _ _
    | intro _

theorem execSensorSample_good {pq fz temps s} (h_s : Good pq fz s) :
    GoodOut pq fz (execSensorSample temps s) := by
  unfold execSensorSample
  repeat' first
    | with_reducible assumption
    | with_reducible refine onlyIf_good ?_ ?_
    | with_reducible refine State.thermalLife_good ?_
    | with_reducible refine State.thermalShutdown_good ?_
    | with_reducible refine State.limitStart_good ?_
    | with_reducible refine State.limitCool_good ?_
    | with_reducible refine Good.done ?_
    | split
    | dsimp only
    | with_reducible refine Good.upd ?_ rfl
    | (simp only [id_eq])
    | intro _ _
    | intro _

theorem execLimitActionEnd_good {pq fz row s} (h_s : Good pq fz s) :
    GoodOut pq fz (execLimitActionEnd row s) := by
  unfold execLimitActionEnd
  repeat' first
    | with_reducible assumption
    | with_reducible refine onlyIf_good ?_ ?_
    | with_reducible refine State.showPower_good ?_
    | with_reducible refine State.trace_good ?_
    | with_reducible refine State.raise_good ?_
    | with_reducible refine Good.done ?_
    | split
    | dsimp only
    | with_reducible refine Good.upd ?_ rfl
    | (simp only [id_eq])
    | intro _ _
    | intro _

theorem execCoreCurrentLimit_good {pq fz amps s} (h_s : Good pq fz s) :
    GoodOut pq fz (execCoreCurrentLimit amps s) := by
  unfold execCoreCurrentLimit
  repeat' first
    | with_reducible assumption
    | with_reducible refine onlyIf_good ?_ ?_
    | with_reducible refine State.peak_good ?_
    | with_reducible refine State.wr_good ?_
    | with_reducible refine State.limitCool_good ?_
    | with_reducible refine State.limitStart_good ?_
    | with_reducible refine Good.done ?_
    | split
    | dsimp only
    | with_reducible refine Good.upd ?_ rfl
    | (simp only [id_eq])
    | intro _ _
    | intro _

theorem execCoreVoltageLimit_good {pq fz mv s} (h_s : Good pq fz s) :
    GoodOut pq fz (execCoreVoltageLimit mv s) := by
  unfold execCoreVoltageLimit
  repeat' first
    | with_reducible assumption
    | with_reducible refine onlyIf_good ?_ ?_
    | with_reducible refine State.wr_good ?_
    | with_reducible refine State.limitCool_good ?_
    | with_reducible refine State.limitStart_good ?_
    | with_reducible refine Good.done ?_
    | split
    | dsimp only
    | with_reducible refine Good.upd ?_ rfl
    | (simp only [id_eq])
    | intro _ _
    | intro _

theorem execAvsStep_good {pq fz up s} (h_s : Good pq fz s) :
    GoodOut pq fz (execAvsStep up s) := by
  unfold execAvsStep
  repeat' first
    | with_reducible assumption
    | with_reducible refine onlyIf_good ?_ ?_
    | with_reducible refine State.wr_good ?_
    | with_reducible refine Good.done ?_
    | split
    | dsimp only
    | with_reducible refine Good.upd ?_ rfl
    | (simp only [id_eq])
    | intro _ _
    | intro _

end Sys2Proof.Machine
end

