-- ==== Sys2Proof/Laws/KeepSecurity.lean ====
section
/-! SUPPORT. Every operation and command of Machine/Security.lean keeps what `Good` says of a state. -/
namespace Sys2Proof.Machine

theorem execIdReady_good {pq fz s} (h_s : Good pq fz s) :
    GoodOut pq fz (execIdReady s) := by
  unfold execIdReady
  repeat' first
    | with_reducible assumption
    | with_reducible refine onlyIf_good ?_ ?_
    | with_reducible refine State.wr_good ?_
    | with_reducible refine Good.done ?_
    | split
    | dsimp only
    | with_reducible refine Good.upd ?_ rfl
    | (simp only [id_eq])
    | intro _ _
    | intro _

theorem execSecClrCnt_good {pq fz s} (h_s : Good pq fz s) :
    GoodOut pq fz (execSecClrCnt s) := by
  unfold execSecClrCnt
  repeat' first
    | with_reducible assumption
    | with_reducible refine State.clearFlds_good ?_
    | with_reducible refine Good.done ?_
    | split
    | dsimp only
    | with_reducible refine Good.upd ?_ rfl
    | (simp only [id_eq])
    | intro _ _
    | intro _

theorem State.secBegin_good {pq fz s op} (h_s : Good pq fz s) :
    Good pq fz (State.secBegin s op) := by
  unfold State.secBegin
  repeat' first
    | with_reducible assumption
    | with_reducible refine State.wr_good ?_
    | with_reducible refine Good.done ?_
    | split
    | dsimp only
    | with_reducible refine Good.upd ?_ rfl
    | (simp only [id_eq])
    | intro _ _
    | intro _

theorem State.secStart_good {pq fz s op} (h_s : Good pq fz s) :
    Good pq fz (State.secStart s op) := by
  unfold State.secStart
  repeat' first
    | with_reducible assumption
    | with_reducible refine State.violation_good ?_
    | with_reducible refine State.secBegin_good ?_
    | with_reducible refine State.secEnds_good ?_
    | with_reducible refine State.each_good ?_ ?_
    | with_reducible refine State.free_good (by assumption) ?_
    | with_reducible refine State.free_keeps ?_
    | with_reducible refine State.wr_good ?_
    | with_reducible refine Good.done ?_
    | split
    | dsimp only
    | with_reducible refine Good.upd ?_ rfl
    | (simp only [id_eq])
    | intro _ _
    | intro _

theorem State.secOp_good {pq fz s op} (h_s : Good pq fz s) :
    Good pq fz (State.secOp s op) := by
  unfold State.secOp
  repeat' first
    | with_reducible assumption
    | with_reducible refine State.secStart_good ?_
    | with_reducible refine State.wr_good ?_
    | with_reducible refine Good.done ?_
    | split
    | dsimp only
    | with_reducible refine Good.upd ?_ rfl
    | (simp only [id_eq])
    | intro _ _
    | intro _

theorem execSecDebugUnlock_good {pq fz s} (h_s : Good pq fz s) :
    GoodOut pq fz (execSecDebugUnlock s) := by
  unfold execSecDebugUnlock
  repeat' first
    | with_reducible assumption
    | with_reducible refine State.secOp_good ?_
    | with_reducible refine Good.done ?_
    | split
    | dsimp only
    | with_reducible refine Good.upd ?_ rfl
    | (simp only [id_eq])
    | intro _ _
    | intro _

theorem execSecAttest_good {pq fz s} (h_s : Good pq fz s) :
    GoodOut pq fz (execSecAttest s) := by
  unfold execSecAttest
  repeat' first
    | with_reducible assumption
    | with_reducible refine State.secOp_good ?_
    | with_reducible refine Good.done ?_
    | split
    | dsimp only
    | with_reducible refine Good.upd ?_ rfl
    | (simp only [id_eq])
    | intro _ _
    | intro _

theorem execDebugChallengeExpiry_good {pq fz s} (h_s : Good pq fz s) :
    GoodOut pq fz (execDebugChallengeExpiry s) := by
  unfold execDebugChallengeExpiry
  repeat' first
    | with_reducible assumption
    | with_reducible refine onlyIf_good ?_ ?_
    | with_reducible refine Good.done ?_
    | split
    | dsimp only
    | with_reducible refine Good.upd ?_ rfl
    | (simp only [id_eq])
    | intro _ _
    | intro _

theorem execSecEnrol_good {pq fz s} (h_s : Good pq fz s) :
    GoodOut pq fz (execSecEnrol s) := by
  unfold execSecEnrol
  repeat' first
    | with_reducible assumption
    | with_reducible refine State.secOp_good ?_
    | with_reducible refine Good.done ?_
    | split
    | dsimp only
    | with_reducible refine Good.upd ?_ rfl
    | (simp only [id_eq])
    | intro _ _
    | intro _

theorem execSecDebugChallenge_good {pq fz s} (h_s : Good pq fz s) :
    GoodOut pq fz (execSecDebugChallenge s) := by
  unfold execSecDebugChallenge
  repeat' first
    | with_reducible assumption
    | with_reducible refine State.secOp_good ?_
    | with_reducible refine Good.done ?_
    | split
    | dsimp only
    | with_reducible refine Good.upd ?_ rfl
    | (simp only [id_eq])
    | intro _ _
    | intro _

theorem State.debugUnlock_good {pq fz s} (h_s : Good pq fz s) :
    Good pq fz (State.debugUnlock s) := by
  unfold State.debugUnlock
  repeat' first
    | with_reducible assumption
    | with_reducible refine State.raise_good ?_
    | with_reducible refine State.wr_good ?_
    | with_reducible refine Good.done ?_
    | split
    | dsimp only
    | with_reducible refine Good.upd ?_ rfl
    | (simp only [id_eq])
    | intro _ _
    | intro _

theorem State.finishUnlock_good {pq fz s sig} (h_s : Good pq fz s) :
    Good pq fz (State.finishUnlock s sig) := by
  unfold State.finishUnlock
  repeat' first
    | with_reducible assumption
    | with_reducible refine State.verifyFor_good (by assumption) ?_
    | with_reducible refine State.verifyFor_keeps ?_
    | with_reducible refine State.secEnds_good ?_
    | with_reducible refine State.debugUnlock_good ?_
    | with_reducible refine State.raise_good ?_
    | with_reducible refine Good.done ?_
    | split
    | dsimp only
    | with_reducible refine Good.upd ?_ rfl
    | (simp only [id_eq])
    | intro _ _
    | intro _

theorem State.finishEnrol_good {pq fz s sig} (h_s : Good pq fz s) : Good pq fz (State.finishEnrol s sig) := by
  unfold State.finishEnrol
  split
  rename_i code o t heq
  have h := State.verifyFor_good heq h_s
  dsimp only
  split
  · exact State.secEnds_good h
  · split
    · exact State.secEnds_good h
    · refine Good.ite (fun _ => State.raise_good (State.secEnds_good h)) (fun hc => ?_)
      have hl : t.fuses.ownerLock ≠ true := fun hl => hc (.inr hl)
      generalize hu : ({ t with fuses.ownerRoot := sha384 (objPayload o), fuses.ownerLock := true } : State) = u
      have hg : Good pq fz u := by
        subst hu
        obtain ⟨a, b, c, d⟩ := h
        refine ⟨a, b, ⟨c.1, c.2.1, c.2.2.1, c.2.2.2.1, c.2.2.2.2.1, c.2.2.2.2.2.1, c.2.2.2.2.2.2.1, c.2.2.2.2.2.2.2.1,
          fun hf => absurd (c.2.2.2.2.2.2.2.2 hf).1 hl⟩, d⟩
      generalize hb : State.freeBs 384 u = b
      obtain ⟨w, s2⟩ := b
      exact State.raise_good (State.secEnds_good (State.store_good (State.freeBs_good hb hg)))

theorem execObjectVerifyEnd_good {pq fz r1 s1 r2 s2 s} (h_s : Good pq fz s) :
    GoodOut pq fz (execObjectVerifyEnd r1 s1 r2 s2 s) := by
  unfold execObjectVerifyEnd
  repeat' first
    | with_reducible assumption
    | with_reducible refine onlyIf_good ?_ ?_
    | with_reducible refine State.finishEnrol_good ?_
    | with_reducible refine State.finishUnlock_good ?_
    | with_reducible refine State.finishLoad_good ?_
    | with_reducible refine Good.done ?_
    | split
    | dsimp only
    | with_reducible refine Good.upd ?_ rfl
    | (simp only [id_eq])
    | intro _ _
    | intro _

theorem execAttestReportDone_good {pq fz sig s} (h_s : Good pq fz s) :
    GoodOut pq fz (execAttestReportDone sig s) := by
  unfold execAttestReportDone
  repeat' first
    | with_reducible assumption
    | with_reducible refine onlyIf_good ?_ ?_
    | with_reducible refine State.busWriteAt_good (by assumption) ?_
    | with_reducible refine State.busWriteAt_keeps ?_
    | with_reducible refine State.secEnds_good ?_
    | with_reducible refine State.raiseEv_good ?_
    | with_reducible refine Good.done ?_
    | split
    | dsimp only
    | with_reducible refine Good.upd ?_ rfl
    | (simp only [id_eq])
    | intro _ _
    | intro _

theorem execIdRsaReady_good {pq fz s} (h_s : Good pq fz s) :
    GoodOut pq fz (execIdRsaReady s) := by
  unfold execIdRsaReady
  repeat' first
    | with_reducible assumption
    | with_reducible refine onlyIf_good ?_ ?_
    | with_reducible refine State.wr_good ?_
    | with_reducible refine Good.done ?_
    | split
    | dsimp only
    | with_reducible refine Good.upd ?_ rfl
    | (simp only [id_eq])
    | intro _ _
    | intro _

end Sys2Proof.Machine
end

