-- ==== Sys2Proof/Laws/KeepCocoon.lean ====
section
/-! SUPPORT. Every operation and command of Machine/Cocoon.lean keeps what `Good` says of a state. -/
namespace Sys2Proof.Machine

theorem execCocClrCnt_good {pq fz s} (h_s : Good pq fz s) :
    GoodOut pq fz (execCocClrCnt s) := by
  unfold execCocClrCnt
  repeat' first
    | with_reducible assumption
    | with_reducible refine State.clearFlds_good ?_
    | with_reducible refine Good.done ?_
    | split
    | dsimp only
    | with_reducible refine Good.upd ?_ rfl
    | (simp only [id_eq])
    | intro _ _
    | intro _

theorem State.cocExport_good {pq fz s} (h_s : Good pq fz s) :
    Good pq fz (State.cocExport s) := by
  unfold State.cocExport
  repeat' first
    | with_reducible assumption
    | with_reducible refine State.wr_good ?_
    | with_reducible refine Good.done ?_
    | split
    | dsimp only
    | with_reducible refine Good.upd ?_ rfl
    | (simp only [id_eq])
    | intro _ _
    | intro _

theorem execCocExport_good {pq fz s} (h_s : Good pq fz s) :
    GoodOut pq fz (execCocExport s) := by
  unfold execCocExport
  repeat' first
    | with_reducible assumption
    | with_reducible refine onlyIf_good ?_ ?_
    | with_reducible refine State.cocExport_good ?_
    | with_reducible refine Good.done ?_
    | split
    | dsimp only
    | with_reducible refine Good.upd ?_ rfl
    | (simp only [id_eq])
    | intro _ _
    | intro _

theorem State.updRefused_good {pq fz s} (h_s : Good pq fz s) :
    Good pq fz (State.updRefused s) := by
  unfold State.updRefused
  repeat' first
    | with_reducible assumption
    | with_reducible refine State.raise_good ?_
    | with_reducible refine State.wr_good ?_
    | with_reducible refine Good.done ?_
    | split
    | dsimp only
    | with_reducible refine Good.upd ?_ rfl
    | (simp only [id_eq])
    | intro _ _
    | intro _

theorem State.cocUpdStart_good {pq fz s} (h_s : Good pq fz s) :
    Good pq fz (State.cocUpdStart s) := by
  unfold State.cocUpdStart
  repeat' first
    | with_reducible assumption
    | with_reducible refine State.raise_good ?_
    | with_reducible refine State.updRefused_good ?_
    | with_reducible refine State.wr_good ?_
    | with_reducible refine Good.done ?_
    | split
    | dsimp only
    | with_reducible refine Good.upd ?_ rfl
    | (simp only [id_eq])
    | intro _ _
    | intro _

theorem execCocUpdStart_good {pq fz s} (h_s : Good pq fz s) :
    GoodOut pq fz (execCocUpdStart s) := by
  unfold execCocUpdStart
  repeat' first
    | with_reducible assumption
    | with_reducible refine onlyIf_good ?_ ?_
    | with_reducible refine State.cocUpdStart_good ?_
    | with_reducible refine Good.done ?_
    | split
    | dsimp only
    | with_reducible refine Good.upd ?_ rfl
    | (simp only [id_eq])
    | intro _ _
    | intro _

theorem State.modEpoch_good {pq fz s num f} (h_s : Good pq fz s) :
    Good pq fz (State.modEpoch s num f) := by
  unfold State.modEpoch
  repeat' first
    | with_reducible assumption
    | with_reducible refine Good.done ?_
    | split
    | dsimp only
    | with_reducible refine Good.upd ?_ rfl
    | (simp only [id_eq])
    | intro _ _
    | intro _

theorem State.cocFree_good {pq fz s} (h_s : Good pq fz s) :
    Good pq fz (State.cocFree s) := by
  unfold State.cocFree
  repeat' first
    | with_reducible assumption
    | with_reducible refine State.wr_good ?_
    | with_reducible refine Good.done ?_
    | split
    | dsimp only
    | with_reducible refine Good.upd ?_ rfl
    | (simp only [id_eq])
    | intro _ _
    | intro _

theorem execCocoonPowerFail_good {pq fz s} (h_s : Good pq fz s) :
    GoodOut pq fz (execCocoonPowerFail s) := by
  unfold execCocoonPowerFail
  repeat' first
    | with_reducible assumption
    | with_reducible refine onlyIf_good ?_ ?_
    | with_reducible refine State.wr_good ?_
    | with_reducible refine State.updRefused_good ?_
    | with_reducible refine State.raise_good ?_
    | with_reducible refine State.cocFree_good ?_
    | with_reducible refine Good.done ?_
    | split
    | dsimp only
    | with_reducible refine Good.upd ?_ rfl
    | (simp only [id_eq])
    | intro _ _
    | intro _

theorem State.closeEpoch_good {pq fz s} (h_s : Good pq fz s) :
    Good pq fz (State.closeEpoch s) := by
  unfold State.closeEpoch
  repeat' first
    | with_reducible assumption
    | with_reducible refine State.wr_good ?_
    | with_reducible refine State.cnt_good ?_
    | with_reducible refine Good.done ?_
    | split
    | dsimp only
    | with_reducible refine Good.upd ?_ rfl
    | (simp only [id_eq])
    | intro _ _
    | intro _

theorem State.chainAppend_good {pq fz s time r close} (h_s : Good pq fz s) :
    Good pq fz (State.chainAppend s time r close) := by
  unfold State.chainAppend
  split
  rename_i prev s1 hp
  have h : Good pq fz s1 := by
    split at hp
    · exact State.freeBs_good hp h_s
    · simp only [Prod.mk.injEq] at hp; obtain ⟨_, rfl⟩ := hp; exact h_s
  clear hp
  repeat' first
    | with_reducible assumption
    | with_reducible refine State.freeBs_good (by assumption) ?_
    | with_reducible refine State.freeBs_keeps ?_
    | with_reducible refine State.wr_good ?_
    | with_reducible refine State.closeEpoch_good ?_
    | with_reducible refine Good.done ?_
    | split
    | dsimp only
    | with_reducible refine Good.upd ?_ rfl
    | (simp only [id_eq])
    | intro _ _
    | intro _

theorem State.updApply_good {pq fz s num time} (h_s : Good pq fz s) :
    Good pq fz (State.updApply s num time) := by
  unfold State.updApply
  repeat' first
    | with_reducible assumption
    | with_reducible refine State.wr_good ?_
    | with_reducible refine State.chainAppend_good ?_
    | with_reducible refine State.raise_good ?_
    | with_reducible refine Good.done ?_
    | split
    | dsimp only
    | with_reducible refine Good.upd ?_ rfl
    | (simp only [id_eq])
    | intro _ _
    | intro _

theorem State.sealOut_good {pq fz s num time} (h_s : Good pq fz s) :
    Good pq fz (State.sealOut s num time) := by
  unfold State.sealOut
  repeat' first
    | with_reducible assumption
    | with_reducible refine State.wr_good ?_
    | with_reducible refine State.updApply_good ?_
    | with_reducible refine State.closeEpoch_good ?_
    | with_reducible refine Good.done ?_
    | split
    | dsimp only
    | with_reducible refine Good.upd ?_ rfl
    | (simp only [id_eq])
    | intro _ _
    | intro _

theorem execSealDone_good {pq fz ok time sig s} (h_s : Good pq fz s) :
    GoodOut pq fz (execSealDone ok time sig s) := by
  unfold execSealDone
  repeat' first
    | with_reducible assumption
    | with_reducible refine onlyIf_good ?_ ?_
    | with_reducible refine State.sealOut_good ?_
    | with_reducible refine State.modEpoch_good ?_
    | with_reducible refine State.raise_good ?_
    | with_reducible refine Good.done ?_
    | split
    | dsimp only
    | with_reducible refine Good.upd ?_ rfl
    | (simp only [id_eq])
    | intro _ _
    | intro _

theorem execUpdateChunkSend_good {pq fz s} (h_s : Good pq fz s) :
    GoodOut pq fz (execUpdateChunkSend s) := by
  unfold execUpdateChunkSend
  repeat' first
    | with_reducible assumption
    | with_reducible refine onlyIf_good ?_ ?_
    | with_reducible refine State.busRead_good (by assumption) ?_
    | with_reducible refine State.busRead_keeps ?_
    | with_reducible refine State.offer_good ?_
    | with_reducible refine State.updRefused_good ?_
    | with_reducible refine Good.done ?_
    | split
    | dsimp only
    | with_reducible refine Good.upd ?_ rfl
    | (simp only [id_eq])
    | intro _ _
    | intro _

theorem State.recordEnds_good {pq fz s status} (h_s : Good pq fz s) :
    Good pq fz (State.recordEnds s status) := by
  unfold State.recordEnds
  repeat' first
    | with_reducible assumption
    | with_reducible refine State.endCmd_good ?_
    | with_reducible refine Good.done ?_
    | split
    | dsimp only
    | with_reducible refine Good.upd ?_ rfl
    | (simp only [id_eq])
    | intro _ _
    | intro _

theorem State.takeRecord_good {pq fz s r} (h_s : Good pq fz s) :
    Good pq fz (State.takeRecord s r) := by
  unfold State.takeRecord
  repeat' first
    | with_reducible assumption
    | with_reducible refine State.recordEnds_good ?_
    | with_reducible refine State.raise_good ?_
    | with_reducible refine State.wr_good ?_
    | with_reducible refine State.cnt_good ?_
    | with_reducible refine State.cocFree_good ?_
    | with_reducible refine Good.done ?_
    | split
    | dsimp only
    | with_reducible refine Good.upd ?_ rfl
    | (simp only [id_eq])
    | intro _ _
    | intro _

theorem execMailboxRecord_good {pq fz s} (h_s : Good pq fz s) :
    GoodOut pq fz (execMailboxRecord s) := by
  unfold execMailboxRecord
  repeat' first
    | with_reducible assumption
    | with_reducible refine State.takeRecord_good ?_
    | with_reducible refine State.recordEnds_good ?_
    | with_reducible refine State.raise_good ?_
    | with_reducible refine Good.done ?_
    | split
    | dsimp only
    | with_reducible refine Good.upd ?_ rfl
    | (simp only [id_eq])
    | intro _ _
    | intro _

theorem State.recordOut_good {pq fz s time r rest} (h_s : Good pq fz s) :
    Good pq fz (State.recordOut s time r rest) := by
  unfold State.recordOut
  repeat' first
    | with_reducible assumption
    | with_reducible refine State.cocFree_good ?_
    | with_reducible refine State.chainAppend_good ?_
    | with_reducible refine Good.done ?_
    | split
    | dsimp only
    | with_reducible refine Good.upd ?_ rfl
    | (simp only [id_eq])
    | intro _ _
    | intro _

theorem State.eraseEpoch_good {pq fz s e} (h_s : Good pq fz s) :
    Good pq fz (State.eraseEpoch s e) := by
  unfold State.eraseEpoch
  repeat' first
    | with_reducible assumption
    | with_reducible refine State.raise_good ?_
    | with_reducible refine State.cnt_good ?_
    | with_reducible refine Good.done ?_
    | split
    | dsimp only
    | with_reducible refine Good.upd ?_ rfl
    | (simp only [id_eq])
    | intro _ _
    | intro _

theorem execChainAppend_good {pq fz time full s} (h_s : Good pq fz s) :
    GoodOut pq fz (execChainAppend time full s) := by
  unfold execChainAppend
  repeat' first
    | with_reducible assumption
    | with_reducible refine onlyIf_good ?_ ?_
    | with_reducible refine State.recordOut_good ?_
    | with_reducible refine State.eraseEpoch_good ?_
    | with_reducible refine Good.done ?_
    | split
    | dsimp only
    | with_reducible refine Good.upd ?_ rfl
    | (simp only [id_eq])
    | intro _ _
    | intro _

theorem execEpochTimer_good {pq fz s} (h_s : Good pq fz s) :
    GoodOut pq fz (execEpochTimer s) := by
  unfold execEpochTimer
  repeat' first
    | with_reducible assumption
    | with_reducible refine onlyIf_good ?_ ?_
    | with_reducible refine State.closeEpoch_good ?_
    | with_reducible refine Good.done ?_
    | split
    | dsimp only
    | with_reducible refine Good.upd ?_ rfl
    | (simp only [id_eq])
    | intro _ _
    | intro _

theorem execCocoonResume_good {pq fz powerLoss torn time s} (h_s : Good pq fz s) :
    GoodOut pq fz (execCocoonResume powerLoss torn time s) := by
  unfold execCocoonResume
  repeat' first
    | with_reducible assumption
    | with_reducible refine onlyIf_good ?_ ?_
    | with_reducible refine State.wr_good ?_
    | with_reducible refine State.chainAppend_good ?_
    | with_reducible refine State.closeEpoch_good ?_
    | with_reducible refine State.raise_good ?_
    | with_reducible refine Good.done ?_
    | split
    | dsimp only
    | with_reducible refine Good.upd ?_ rfl
    | (simp only [id_eq])
    | intro _ _
    | intro _

theorem execCocoonWdtExpiry_good {pq fz s} (h_s : Good pq fz s) :
    GoodOut pq fz (execCocoonWdtExpiry s) := by
  unfold execCocoonWdtExpiry
  repeat' first
    | with_reducible assumption
    | with_reducible refine onlyIf_good ?_ ?_
    | with_reducible refine State.raise_good ?_
    | with_reducible refine State.cnt_good ?_
    | with_reducible refine State.wr_good ?_
    | with_reducible refine Good.done ?_
    | split
    | dsimp only
    | with_reducible refine Good.upd ?_ rfl
    | (simp only [id_eq])
    | intro _ _
    | intro _

theorem execCocExportDone_good {pq fz s} (h_s : Good pq fz s) :
    GoodOut pq fz (execCocExportDone s) := by
  unfold execCocExportDone
  repeat' first
    | with_reducible assumption
    | with_reducible refine onlyIf_good ?_ ?_
    | with_reducible refine State.wr_good ?_
    | with_reducible refine State.busWrite_good (by assumption) ?_
    | with_reducible refine State.busWrite_keeps ?_
    | with_reducible refine Good.done ?_
    | split
    | dsimp only
    | with_reducible refine Good.upd ?_ rfl
    | (simp only [id_eq])
    | intro _ _
    | intro _

theorem execRecorderUpdateVerify_good {pq fz r1 s1 r2 s2 s} (h_s : Good pq fz s) :
    GoodOut pq fz (execRecorderUpdateVerify r1 s1 r2 s2 s) := by
  unfold execRecorderUpdateVerify
  repeat' first
    | with_reducible assumption
    | with_reducible refine onlyIf_good ?_ ?_
    | with_reducible refine State.updRefused_good ?_
    | with_reducible refine Good.done ?_
    | split
    | dsimp only
    | with_reducible refine Good.upd ?_ rfl
    | (simp only [id_eq])
    | intro _ _
    | intro _

end Sys2Proof.Machine
end

