-- ==== Sys2Proof/Laws/KeepStart.lean ====
section
/-! SUPPORT. Every operation and command of Machine/Start.lean keeps what `Good` says of a state. -/
namespace Sys2Proof.Machine

theorem State.dropCmds_good {pq fz s} (h_s : Good pq fz s) :
    Good pq fz (State.dropCmds s) := by
  unfold State.dropCmds
  repeat' first
    | with_reducible assumption
    | with_reducible refine State.each_good ?_ ?_
    | with_reducible refine State.endCmd_good ?_
    | with_reducible refine State.raise_good ?_
    | with_reducible refine Good.done ?_
    | split
    | dsimp only
    | with_reducible refine Good.upd ?_ rfl
    | (simp only [id_eq])
    | intro _ _
    | intro _

theorem State.quiesce_good {pq fz s} (h_s : Good pq fz s) :
    Good pq fz (State.quiesce s) := by
  unfold State.quiesce
  repeat' first
    | with_reducible assumption
    | with_reducible refine State.each_good ?_ ?_
    | with_reducible refine State.raise_good ?_
    | with_reducible refine State.killJob_good ?_
    | with_reducible refine State.withhold_good ?_
    | with_reducible refine Good.done ?_
    | split
    | dsimp only
    | with_reducible refine Good.upd ?_ rfl
    | (simp only [id_eq])
    | intro _ _
    | intro _

theorem State.chansTo_good {pq fz s n} (h_s : Good pq fz s) :
    Good pq fz (State.chansTo s n) := by
  unfold State.chansTo
  repeat' first
    | with_reducible assumption
    | with_reducible refine State.each_good ?_ ?_
    | with_reducible refine State.wr_good ?_
    | with_reducible refine Good.done ?_
    | split
    | dsimp only
    | with_reducible refine Good.upd ?_ rfl
    | (simp only [id_eq])
    | intro _ _
    | intro _

theorem State.memReady_good {pq fz s speed} (h_s : Good pq fz s) :
    Good pq fz (State.memReady s speed) := by
  unfold State.memReady
  repeat' first
    | with_reducible assumption
    | with_reducible refine State.each_good ?_ ?_
    | with_reducible refine State.modChan_good ?_
    | with_reducible refine State.wr_good ?_
    | with_reducible refine Good.done ?_
    | split
    | dsimp only
    | with_reducible refine Good.upd ?_ rfl
    | (simp only [id_eq])
    | intro _ _
    | intro _

theorem State.chansFail_good {pq fz s bad} (h_s : Good pq fz s) :
    Good pq fz (State.chansFail s bad) := by
  unfold State.chansFail
  repeat' first
    | with_reducible assumption
    | with_reducible refine State.each_good ?_ ?_
    | with_reducible refine State.raiseMem_good ?_
    | with_reducible refine State.modChan_good ?_
    | with_reducible refine State.wr_good ?_
    | with_reducible refine Good.done ?_
    | split
    | dsimp only
    | with_reducible refine Good.upd ?_ rfl
    | (simp only [id_eq])
    | intro _ _
    | intro _

theorem State.resumeReduced_good {pq fz s inp} (h_s : Good pq fz s) :
    Good pq fz (State.resumeReduced s inp) := by
  unfold State.resumeReduced
  repeat' first
    | with_reducible assumption
    | with_reducible refine State.memReady_good ?_
    | with_reducible refine State.setDev_good ?_
    | with_reducible refine State.chansFail_good ?_
    | with_reducible refine Good.done ?_
    | split
    | dsimp only
    | with_reducible refine Good.upd ?_ rfl
    | (simp only [id_eq])
    | intro _ _
    | intro _

theorem State.memResume_good {pq fz s inp} (h_s : Good pq fz s) :
    Good pq fz (State.memResume s inp) := by
  unfold State.memResume
  repeat' first
    | with_reducible assumption
    | with_reducible refine State.chansTo_good ?_
    | with_reducible refine State.memReady_good ?_
    | with_reducible refine State.resumeReduced_good ?_
    | with_reducible refine State.each_good ?_ ?_
    | with_reducible refine State.raiseMem_good ?_
    | with_reducible refine Good.done ?_
    | split
    | dsimp only
    | with_reducible refine Good.upd ?_ rfl
    | (simp only [id_eq])
    | intro _ _
    | intro _

theorem State.partialReset_good {pq fz s} (h_s : Good pq fz s) :
    Good pq fz (State.partialReset s) := by
  unfold State.partialReset
  repeat' first
    | with_reducible assumption
    | with_reducible refine State.each_good ?_ ?_
    | with_reducible refine State.clearRange_good ?_
    | with_reducible refine State.settleMode_good ?_
    | with_reducible refine Good.done ?_
    | split
    | dsimp only
    | with_reducible refine Good.upd ?_ rfl
    | (simp only [id_eq])
    | intro _ _
    | intro _

theorem State.badWord_good {pq fz s idx} (h_s : Good pq fz s) :
    Good pq fz (State.badWord s idx) := by
  unfold State.badWord
  repeat' first
    | with_reducible assumption
    | with_reducible refine State.raise_good ?_
    | with_reducible refine State.cnt_good ?_
    | with_reducible refine State.modPrs_good ?_
    | with_reducible refine Good.done ?_
    | split
    | dsimp only
    | with_reducible refine Good.upd ?_ rfl
    | (simp only [id_eq])
    | intro _ _
    | intro _

theorem State.corrWord_good {pq fz s idx} (h_s : Good pq fz s) :
    Good pq fz (State.corrWord s idx) := by
  unfold State.corrWord
  repeat' first
    | with_reducible assumption
    | with_reducible refine State.badWord_good ?_
    | with_reducible refine State.prsRequest_good ?_
    | with_reducible refine State.modPrs_good ?_
    | with_reducible refine Good.done ?_
    | split
    | dsimp only
    | with_reducible refine Good.upd ?_ rfl
    | (simp only [id_eq])
    | intro _ _
    | intro _

theorem State.readWords_good {pq fz s bad corr} (h_s : Good pq fz s) :
    Good pq fz (State.readWords s bad corr) := by
  unfold State.readWords
  repeat' first
    | with_reducible assumption
    | with_reducible refine State.each_good ?_ ?_
    | with_reducible refine State.badWord_good ?_
    | with_reducible refine State.corrWord_good ?_
    | with_reducible refine Good.done ?_
    | split
    | dsimp only
    | with_reducible refine Good.upd ?_ rfl
    | (simp only [id_eq])
    | intro _ _
    | intro _

theorem State.outBrood_good {pq fz s b} (h_s : Good pq fz s) :
    Good pq fz (State.outBrood s b) := by
  unfold State.outBrood
  repeat' first
    | with_reducible assumption
    | with_reducible refine State.each_good ?_ ?_
    | with_reducible refine State.wr_good ?_
    | with_reducible refine State.setSpare_good ?_
    | with_reducible refine Good.done ?_
    | split
    | dsimp only
    | with_reducible refine Good.upd ?_ rfl
    | (simp only [id_eq])
    | intro _ _
    | intro _

theorem State.excludeBrood_good {pq fz s b} (h_s : Good pq fz s) :
    Good pq fz (State.excludeBrood s b) := by
  unfold State.excludeBrood
  repeat' first
    | with_reducible assumption
    | with_reducible refine State.setReplace_good ?_
    | with_reducible refine State.raiseBrood_good ?_
    | with_reducible refine State.prsNow_good ?_
    | with_reducible refine Good.done ?_
    | split
    | dsimp only
    | with_reducible refine Good.upd ?_ rfl
    | (simp only [id_eq])
    | intro _ _
    | intro _

theorem State.mapOne_good {pq fz s set b} (h_s : Good pq fz s) :
    Good pq fz (State.mapOne s set b) := by
  unfold State.mapOne
  repeat' first
    | with_reducible assumption
    | with_reducible refine State.outBrood_good ?_
    | with_reducible refine State.mapBrood_good ?_
    | with_reducible refine State.excludeBrood_good ?_
    | with_reducible refine State.raiseBrood_good ?_
    | with_reducible refine Good.done ?_
    | split
    | dsimp only
    | with_reducible refine Good.upd ?_ rfl
    | (simp only [id_eq])
    | intro _ _
    | intro _

theorem State.mapAll_good {pq fz s set} (h_s : Good pq fz s) :
    Good pq fz (State.mapAll s set) := by
  unfold State.mapAll
  repeat' first
    | with_reducible assumption
    | with_reducible refine State.each_good ?_ ?_
    | with_reducible refine State.mapOne_good ?_
    | with_reducible refine Good.done ?_
    | split
    | dsimp only
    | with_reducible refine Good.upd ?_ rfl
    | (simp only [id_eq])
    | intro _ _
    | intro _

theorem State.skewPassed_good {pq fz s} (h_s : Good pq fz s) :
    Good pq fz (State.skewPassed s) := by
  unfold State.skewPassed
  repeat' first
    | with_reducible assumption
    | with_reducible refine State.each_good ?_ ?_
    | with_reducible refine State.modSlot_good ?_
    | with_reducible refine Good.done ?_
    | split
    | dsimp only
    | with_reducible refine Good.upd ?_ rfl
    | (simp only [id_eq])
    | intro _ _
    | intro _

theorem State.programSlots_good {pq fz s} (h_s : Good pq fz s) :
    Good pq fz (State.programSlots s) := by
  unfold State.programSlots
  repeat' first
    | with_reducible assumption
    | with_reducible refine State.each_good ?_ ?_
    | with_reducible refine State.modSlot_good ?_
    | with_reducible refine Good.done ?_
    | split
    | dsimp only
    | with_reducible refine Good.upd ?_ rfl
    | (simp only [id_eq])
    | intro _ _
    | intro _

theorem State.slotFails_good {pq fz s code p} (h_s : Good pq fz s) :
    Good pq fz (State.slotFails s code p) := by
  unfold State.slotFails
  repeat' first
    | with_reducible assumption
    | with_reducible refine State.prsNow_good ?_
    | with_reducible refine State.lastTest_good ?_
    | with_reducible refine State.setSlotState_good ?_
    | with_reducible refine State.lifeUp_good ?_
    | with_reducible refine State.raiseBrood_good ?_
    | with_reducible refine State.modSlot_good ?_
    | with_reducible refine Good.done ?_
    | split
    | dsimp only
    | with_reducible refine Good.upd ?_ rfl
    | (simp only [id_eq])
    | intro _ _
    | intro _

theorem State.restoreAll_good {pq fz s} (h_s : Good pq fz s) :
    Good pq fz (State.restoreAll s) := by
  unfold State.restoreAll
  repeat' first
    | with_reducible assumption
    | with_reducible refine State.each_good ?_ ?_
    | with_reducible refine State.restore_good ?_
    | with_reducible refine Good.done ?_
    | split
    | dsimp only
    | with_reducible refine Good.upd ?_ rfl
    | (simp only [id_eq])
    | intro _ _
    | intro _

theorem State.chip0_good {pq fz s} (h_s : Good pq fz s) :
    Good pq fz (State.chip0 s) := by
  unfold State.chip0
  repeat' first
    | with_reducible assumption
    | with_reducible refine State.wr_good ?_
    | with_reducible refine Good.done ?_
    | split
    | dsimp only
    | with_reducible refine Good.upd ?_ rfl
    | (simp only [id_eq])
    | intro _ _
    | intro _

theorem State.bindFailed_good {pq fz s} (h_s : Good pq fz s) :
    Good pq fz (State.bindFailed s) := by
  unfold State.bindFailed
  repeat' first
    | with_reducible assumption
    | with_reducible refine Good.done ?_
    | split
    | dsimp only
    | with_reducible refine Good.upd ?_ rfl
    | (simp only [id_eq])
    | intro _ _
    | intro _

theorem State.rearmAll_good {pq fz s} (h_s : Good pq fz s) :
    Good pq fz (State.rearmAll s) := by
  unfold State.rearmAll
  repeat' first
    | with_reducible assumption
    | with_reducible refine State.bindFailed_good ?_
    | with_reducible refine State.each_good ?_ ?_
    | with_reducible refine State.pipeObjs_good ?_
    | with_reducible refine Good.done ?_
    | split
    | dsimp only
    | with_reducible refine Good.upd ?_ rfl
    | (simp only [id_eq])
    | intro _ _
    | intro _

theorem State.partialRun_good {pq fz s inp} (h_s : Good pq fz s) :
    Good pq fz (State.partialRun s inp) := by
  unfold State.partialRun
  repeat' first
    | with_reducible assumption
    | with_reducible refine State.memResume_good ?_
    | with_reducible refine State.partialReset_good ?_
    | with_reducible refine State.each_good ?_ ?_
    | with_reducible refine State.readSlots_good ?_
    | with_reducible refine State.readWords_good ?_
    | with_reducible refine State.mapAll_good ?_
    | with_reducible refine State.skewPassed_good ?_
    | with_reducible refine State.programSlots_good ?_
    | with_reducible refine State.slotFails_good ?_
    | with_reducible refine State.restoreAll_good ?_
    | with_reducible refine State.chip0_good ?_
    | with_reducible refine State.rearmAll_good ?_
    | with_reducible refine State.dspReset_good ?_
    | with_reducible refine State.checkLost_good ?_
    | with_reducible refine State.setDev_good ?_
    | with_reducible refine Good.done ?_
    | split
    | dsimp only
    | with_reducible refine Good.upd ?_ rfl
    | (simp only [id_eq])
    | intro _ _
    | intro _

theorem execPartialRestart_good {pq fz inp s} (h_s : Good pq fz s) :
    GoodOut pq fz (execPartialRestart inp s) := by
  unfold execPartialRestart
  repeat' first
    | with_reducible assumption
    | with_reducible refine onlyIf_good ?_ ?_
    | with_reducible refine State.lifeFlush_good ?_
    | with_reducible refine State.lifeUp_good ?_
    | with_reducible refine State.moltAbort_good ?_
    | with_reducible refine State.raise_good ?_
    | with_reducible refine State.setDev_good ?_
    | with_reducible refine State.writeBack_good ?_
    | with_reducible refine State.dropCmds_good ?_
    | with_reducible refine State.quiesce_good ?_
    | with_reducible refine State.callRestart_good ?_
    | with_reducible refine State.raiseMem_good ?_
    | with_reducible refine State.partialRun_good ?_
    | with_reducible refine Good.done ?_
    | split
    | dsimp only
    | with_reducible refine Good.upd ?_ rfl
    | (simp only [id_eq])
    | intro _ _
    | intro _

theorem State.startFails_good {pq fz s step code} (h_s : Good pq fz s) :
    Good pq fz (State.startFails s step code) := by
  unfold State.startFails
  repeat' first
    | with_reducible assumption
    | with_reducible refine State.raise_good ?_
    | with_reducible refine State.wr_good ?_
    | with_reducible refine State.setDev_good ?_
    | with_reducible refine Good.done ?_
    | split
    | dsimp only
    | with_reducible refine Good.upd ?_ rfl
    | (simp only [id_eq])
    | intro _ _
    | intro _

theorem State.placeRing_good {pq fz s e} (h_s : Good pq fz s) :
    Good pq fz (State.placeRing s e) := by
  unfold State.placeRing
  repeat' first
    | with_reducible assumption
    | with_reducible refine State.wr_good ?_
    | with_reducible refine Good.done ?_
    | split
    | dsimp only
    | with_reducible refine Good.upd ?_ rfl
    | (simp only [id_eq])
    | intro _ _
    | intro _

theorem State.splitRead_good {pq fz s} (h_s : Good pq fz s) :
    Good pq fz (State.splitRead s) := by
  unfold State.splitRead
  repeat' first
    | with_reducible assumption
    | with_reducible refine State.raise_good ?_
    | with_reducible refine Good.done ?_
    | split
    | dsimp only
    | with_reducible refine Good.upd ?_ rfl
    | (simp only [id_eq])
    | intro _ _
    | intro _

theorem State.setting_good {pq fz s e} (h_s : Good pq fz s) :
    Good pq fz (State.setting s e) := by
  unfold State.setting
  repeat' first
    | with_reducible assumption
    | with_reducible refine State.prsNow_good ?_
    | with_reducible refine Good.done ?_
    | split
    | dsimp only
    | with_reducible refine Good.upd ?_ rfl
    | (simp only [id_eq])
    | intro _ _
    | intro _

theorem State.configure_good {pq fz s inp} (h_s : Good pq fz s) :
    Good pq fz (State.configure s inp) := by
  unfold State.configure
  repeat' first
    | with_reducible assumption
    | with_reducible refine State.startFails_good ?_
    | with_reducible refine State.each_good ?_ ?_
    | with_reducible refine State.placeRing_good ?_
    | with_reducible refine State.wrB_good ?_
    | with_reducible refine State.splitRead_good ?_
    | with_reducible refine State.setting_good ?_
    | with_reducible refine Good.done ?_
    | split
    | dsimp only
    | with_reducible refine Good.upd ?_ rfl
    | (simp only [id_eq])
    | intro _ _
    | intro _

theorem State.clearEntries_good {pq fz s} (h_s : Good pq fz s) :
    Good pq fz (State.clearEntries s) := by
  unfold State.clearEntries
  repeat' first
    | with_reducible assumption
    | with_reducible refine State.each_good ?_ ?_
    | with_reducible refine State.clearRange_good ?_
    | with_reducible refine Good.done ?_
    | split
    | dsimp only
    | with_reducible refine Good.upd ?_ rfl
    | (simp only [id_eq])
    | intro _ _
    | intro _

theorem State.raiseCounter_good {pq fz s idx v unit} (h_s : Good pq fz s) :
    Good pq fz (State.raiseCounter s idx v unit) := by
  unfold State.raiseCounter
  repeat' first
    | with_reducible assumption
    | with_reducible refine State.prsNow_good ?_
    | with_reducible refine State.raise_good ?_
    | with_reducible refine Good.done ?_
    | split
    | dsimp only
    | with_reducible refine Good.upd ?_ rfl
    | (simp only [id_eq])
    | intro _ _
    | intro _

theorem State.initialGrants_good {pq fz s} (h_s : Good pq fz s) :
    Good pq fz (State.initialGrants s) := by
  unfold State.initialGrants
  repeat' first
    | with_reducible assumption
    | with_reducible refine State.each_good ?_ ?_
    | with_reducible refine State.wr_good ?_
    | with_reducible refine State.raiseMem_good ?_
    | with_reducible refine State.cnt_good ?_
    | with_reducible refine Good.done ?_
    | split
    | dsimp only
    | with_reducible refine Good.upd ?_ rfl
    | (simp only [id_eq])
    | intro _ _
    | intro _

theorem State.raiseCounters_good {pq fz s l} (h_s : Good pq fz s) :
    Good pq fz (State.raiseCounters s l) := by
  unfold State.raiseCounters
  repeat' first
    | with_reducible assumption
    | with_reducible refine State.each_good ?_ ?_
    | with_reducible refine State.raiseCounter_good ?_
    | with_reducible refine Good.done ?_
    | split
    | dsimp only
    | with_reducible refine Good.upd ?_ rfl
    | (simp only [id_eq])
    | intro _ _
    | intro _

theorem State.start12_good {pq fz s inp powerOn kept} (h_s : Good pq fz s) :
    Good pq fz (State.start12 s inp powerOn kept) := by
  unfold State.start12
  repeat' first
    | with_reducible assumption
    | with_reducible refine State.raiseCounters_good ?_
    | with_reducible refine State.lifeUp_good ?_
    | with_reducible refine State.wr_good ?_
    | with_reducible refine State.setDev_good ?_
    | with_reducible refine Good.done ?_
    | split
    | dsimp only
    | with_reducible refine Good.upd ?_ rfl
    | (simp only [id_eq])
    | intro _ _
    | intro _

theorem State.startStep_good {pq fz s n f} (h_s : Good pq fz s) (h_f : ∀ x0, Good pq fz x0 → Good pq fz (f x0)) :
    Good pq fz (State.startStep s n f) := by
  unfold State.startStep
  repeat' first
    | with_reducible assumption
    | refine h_f _ ?_
    | with_reducible refine Good.done ?_
    | split
    | dsimp only
    | with_reducible refine Good.upd ?_ rfl
    | (simp only [id_eq])
    | intro _ _
    | intro _

theorem State.start1_good {pq fz s inp} (h_s : Good pq fz s) :
    Good pq fz (State.start1 s inp) := by
  unfold State.start1
  repeat' first
    | with_reducible assumption
    | with_reducible refine State.readWords_good ?_
    | with_reducible refine State.cnt_good ?_
    | with_reducible refine State.testMissed_good ?_
    | with_reducible refine Good.done ?_
    | split
    | dsimp only
    | with_reducible refine Good.upd ?_ rfl
    | (simp only [id_eq])
    | intro _ _
    | intro _

theorem State.tryCopy1_good {pq fz s inp type slot code check} {y_ t_} (e_ : (State.tryCopy1 s inp type slot code check) = (y_, t_)) (h_s : Good pq fz s) :
    Good pq fz t_ := by
  unfold State.tryCopy1 at e_
  repeat' first
    | with_reducible assumption
    | (simp only [Prod.mk.injEq] at e_)
    | (obtain ⟨_, rfl⟩ := e_)
    | (obtain ⟨_, _, rfl⟩ := e_)
    | subst e_
    | split at e_
    | with_reducible refine State.countVerify_good ?_
    | with_reducible refine State.wr_good ?_
    | with_reducible refine Good.done ?_
    | split
    | dsimp only
    | with_reducible refine Good.upd ?_ rfl
    | (simp only [id_eq])
    | intro _ _
    | intro _

theorem State.tryCopy1_keeps {pq fz s inp type slot code check} (h_s : Good pq fz s) : Good pq fz (State.tryCopy1 s inp type slot code check).2 :=
  State.tryCopy1_good (y_ := (State.tryCopy1 s inp type slot code check).1) (t_ := (State.tryCopy1 s inp type slot code check).2) (Good.eta _) h_s

theorem State.tryObj_good {pq fz s inp type slot check} {y_ t_} (e_ : (State.tryObj s inp type slot check) = (y_, t_)) (h_s : Good pq fz s) :
    Good pq fz t_ := by
  unfold State.tryObj at e_
  repeat' first
    | with_reducible assumption
    | (simp only [Prod.mk.injEq] at e_)
    | (obtain ⟨_, rfl⟩ := e_)
    | (obtain ⟨_, _, rfl⟩ := e_)
    | subst e_
    | split at e_
    | with_reducible refine State.countVerify_good ?_
    | with_reducible refine State.tryCopy1_good (by assumption) ?_
    | with_reducible refine State.tryCopy1_keeps ?_
    | with_reducible refine State.raise_good ?_
    | with_reducible refine Good.done ?_
    | split
    | dsimp only
    | with_reducible refine Good.upd ?_ rfl
    | (simp only [id_eq])
    | intro _ _
    | intro _

theorem State.tryObj_keeps {pq fz s inp type slot check} (h_s : Good pq fz s) : Good pq fz (State.tryObj s inp type slot check).2 :=
  State.tryObj_good (y_ := (State.tryObj s inp type slot check).1) (t_ := (State.tryObj s inp type slot check).2) (Good.eta _) h_s

theorem State.needObj_good {pq fz s inp step type f} (h_s : Good pq fz s) (h_f : ∀ x0 x1, Good pq fz x1 → Good pq fz (f x0 x1)) :
    Good pq fz (State.needObj s inp step type f) := by
  unfold State.needObj
  repeat' first
    | with_reducible assumption
    | refine h_f _ _ ?_
    | with_reducible refine State.tryObj_good (by assumption) ?_
    | with_reducible refine State.tryObj_keeps ?_
    | with_reducible refine State.startFails_good ?_
    | with_reducible refine Good.done ?_
    | split
    | dsimp only
    | with_reducible refine Good.upd ?_ rfl
    | (simp only [id_eq])
    | intro _ _
    | intro _

theorem State.carapaceStarts_good {pq fz s} (h_s : Good pq fz s) :
    Good pq fz (State.carapaceStarts s) := by
  unfold State.carapaceStarts
  repeat' first
    | with_reducible assumption
    | with_reducible refine State.buildTable_good ?_
    | with_reducible refine State.wrB_good ?_
    | with_reducible refine Good.done ?_
    | split
    | dsimp only
    | with_reducible refine Good.upd ?_ rfl
    | (simp only [id_eq])
    | intro _ _
    | intro _

theorem State.start6_good {pq fz s inp} (h_s : Good pq fz s) :
    Good pq fz (State.start6 s inp) := by
  unfold State.start6
  repeat' first
    | with_reducible assumption
    | with_reducible refine State.needObj_good ?_ ?_
    | with_reducible refine State.wdtRestart_good ?_
    | with_reducible refine State.wr_good ?_
    | with_reducible refine State.carapaceStarts_good ?_
    | with_reducible refine Good.done ?_
    | split
    | dsimp only
    | with_reducible refine Good.upd ?_ rfl
    | (simp only [id_eq])
    | intro _ _
    | intro _

theorem State.memFails_good {pq fz s bad} (h_s : Good pq fz s) :
    Good pq fz (State.memFails s bad) := by
  unfold State.memFails
  repeat' first
    | with_reducible assumption
    | with_reducible refine State.startFails_good ?_
    | with_reducible refine State.chansFail_good ?_
    | with_reducible refine Good.done ?_
    | split
    | dsimp only
    | with_reducible refine Good.upd ?_ rfl
    | (simp only [id_eq])
    | intro _ _
    | intro _

theorem State.trainAll_good {pq fz s inp} (h_s : Good pq fz s) :
    Good pq fz (State.trainAll s inp) := by
  unfold State.trainAll
  repeat' first
    | with_reducible assumption
    | with_reducible refine State.chansTo_good ?_
    | with_reducible refine State.memReady_good ?_
    | with_reducible refine State.each_good ?_ ?_
    | with_reducible refine State.raiseMem_good ?_
    | with_reducible refine State.memFails_good ?_
    | with_reducible refine Good.done ?_
    | split
    | dsimp only
    | with_reducible refine Good.upd ?_ rfl
    | (simp only [id_eq])
    | intro _ _
    | intro _

theorem State.start7_good {pq fz s inp powerOn old} (h_s : Good pq fz s) :
    Good pq fz (State.start7 s inp powerOn old) := by
  unfold State.start7
  repeat' first
    | with_reducible assumption
    | with_reducible refine State.memFails_good ?_
    | with_reducible refine State.trainAll_good ?_
    | with_reducible refine State.initialGrants_good ?_
    | with_reducible refine State.memReady_good ?_
    | with_reducible refine Good.done ?_
    | split
    | dsimp only
    | with_reducible refine Good.upd ?_ rfl
    | (simp only [id_eq])
    | intro _ _
    | intro _

theorem State.testSlots_good {pq fz s lbist mbist skew} (h_s : Good pq fz s) :
    Good pq fz (State.testSlots s lbist mbist skew) := by
  unfold State.testSlots
  repeat' first
    | with_reducible assumption
    | with_reducible refine State.each_good ?_ ?_
    | with_reducible refine State.slotFails_good ?_
    | with_reducible refine State.skewPassed_good ?_
    | with_reducible refine State.programSlots_good ?_
    | with_reducible refine State.slotTested_good ?_
    | with_reducible refine Good.done ?_
    | split
    | dsimp only
    | with_reducible refine Good.upd ?_ rfl
    | (simp only [id_eq])
    | intro _ _
    | intro _

theorem State.start8_good {pq fz s inp} (h_s : Good pq fz s) :
    Good pq fz (State.start8 s inp) := by
  unfold State.start8
  repeat' first
    | with_reducible assumption
    | with_reducible refine State.each_good ?_ ?_
    | with_reducible refine State.readSlots_good ?_
    | with_reducible refine State.mapAll_good ?_
    | with_reducible refine State.testSlots_good ?_
    | with_reducible refine Good.done ?_
    | split
    | dsimp only
    | with_reducible refine Good.upd ?_ rfl
    | (simp only [id_eq])
    | intro _ _
    | intro _

theorem State.start9_good {pq fz s inp} (h_s : Good pq fz s) :
    Good pq fz (State.start9 s inp) := by
  unfold State.start9
  repeat' first
    | with_reducible assumption
    | with_reducible refine State.needObj_good ?_ ?_
    | with_reducible refine State.startFails_good ?_
    | with_reducible refine State.dspReset_good ?_
    | with_reducible refine State.wr_good ?_
    | with_reducible refine State.setActive_good ?_
    | with_reducible refine Good.done ?_
    | split
    | dsimp only
    | with_reducible refine Good.upd ?_ rfl
    | (simp only [id_eq])
    | intro _ _
    | intro _

theorem State.remapStart_good {pq fz s} (h_s : Good pq fz s) :
    Good pq fz (State.remapStart s) := by
  unfold State.remapStart
  repeat' first
    | with_reducible assumption
    | with_reducible refine State.each_good ?_ ?_
    | with_reducible refine State.mapBrood_good ?_
    | with_reducible refine State.excludeBrood_good ?_
    | with_reducible refine Good.done ?_
    | split
    | dsimp only
    | with_reducible refine Good.upd ?_ rfl
    | (simp only [id_eq])
    | intro _ _
    | intro _

theorem State.startLoadImage_good {pq fz s slot img c copy} (h_s : Good pq fz s) :
    Good pq fz (State.startLoadImage s slot img c copy) := by
  unfold State.startLoadImage
  repeat' first
    | with_reducible assumption
    | with_reducible refine State.loadImage_good (by assumption) ?_
    | with_reducible refine State.loadImage_keeps ?_
    | with_reducible refine State.raise_good ?_
    | with_reducible refine Good.done ?_
    | split
    | dsimp only
    | with_reducible refine Good.upd ?_ rfl
    | (simp only [id_eq])
    | intro _ _
    | intro _

theorem State.keptModel_good {pq fz s e} (h_s : Good pq fz s) :
    Good pq fz (State.keptModel s e) := by
  unfold State.keptModel
  repeat' first
    | with_reducible assumption
    | with_reducible refine State.raise_good ?_
    | with_reducible refine State.busRead_good (by assumption) ?_
    | with_reducible refine State.busRead_keeps ?_
    | with_reducible refine State.startLoadImage_good ?_
    | with_reducible refine State.countVerify_good ?_
    | with_reducible refine Good.done ?_
    | split
    | dsimp only
    | with_reducible refine Good.upd ?_ rfl
    | (simp only [id_eq])
    | intro _ _
    | intro _

theorem State.startModel_good {pq fz s inp e} (h_s : Good pq fz s) :
    Good pq fz (State.startModel s inp e) := by
  unfold State.startModel
  repeat' first
    | with_reducible assumption
    | with_reducible refine State.tryObj_good (by assumption) ?_
    | with_reducible refine State.tryObj_keeps ?_
    | with_reducible refine State.startLoadImage_good ?_
    | with_reducible refine State.raise_good ?_
    | with_reducible refine Good.done ?_
    | split
    | dsimp only
    | with_reducible refine Good.upd ?_ rfl
    | (simp only [id_eq])
    | intro _ _
    | intro _

theorem State.start10_good {pq fz s inp kept} (h_s : Good pq fz s) :
    Good pq fz (State.start10 s inp kept) := by
  unfold State.start10
  repeat' first
    | with_reducible assumption
    | with_reducible refine State.bindFailed_good ?_
    | with_reducible refine State.remapStart_good ?_
    | with_reducible refine State.each_good ?_ ?_
    | with_reducible refine State.keptModel_good ?_
    | with_reducible refine State.startModel_good ?_
    | with_reducible refine Good.done ?_
    | split
    | dsimp only
    | with_reducible refine Good.upd ?_ rfl
    | (simp only [id_eq])
    | intro _ _
    | intro _

theorem State.ioSetup_good {pq fz s} (h_s : Good pq fz s) :
    Good pq fz (State.ioSetup s) := by
  unfold State.ioSetup
  repeat' first
    | with_reducible assumption
    | with_reducible refine State.chip0_good ?_
    | with_reducible refine State.wrB_good ?_
    | with_reducible refine State.each_good ?_ ?_
    | with_reducible refine State.settleMode_good ?_
    | with_reducible refine State.wr_good ?_
    | with_reducible refine Good.done ?_
    | split
    | dsimp only
    | with_reducible refine Good.upd ?_ rfl
    | (simp only [id_eq])
    | intro _ _
    | intro _

theorem State.runSensor_good {pq fz nack s l} (h_s : Good pq fz s) : Good pq fz (State.runSensor nack s l) := by
  induction l generalizing s with
  | nil => exact h_s
  | cons e r ih =>
    rw [State.runSensor.eq_def]
    exact Good.ite (fun _ => ih h_s) (fun _ => Good.ite (fun _ => State.raise_good h_s) (fun _ => ih (Good.upd h_s rfl)))

theorem State.cfgSwitch_good {pq fz s e} (h_s : Good pq fz s) :
    Good pq fz (State.cfgSwitch s e) := by
  unfold State.cfgSwitch
  repeat' first
    | with_reducible assumption
    | with_reducible refine State.raise_good ?_
    | with_reducible refine Good.done ?_
    | split
    | dsimp only
    | with_reducible refine Good.upd ?_ rfl
    | (simp only [id_eq])
    | intro _ _
    | intro _

theorem State.startListed_good {pq fz s e} (h_s : Good pq fz s) :
    Good pq fz (State.startListed s e) := by
  unfold State.startListed
  repeat' first
    | with_reducible assumption
    | with_reducible refine State.modPipe_good ?_
    | with_reducible refine State.setRunning_good ?_
    | with_reducible refine Good.done ?_
    | split
    | dsimp only
    | with_reducible refine Good.upd ?_ rfl
    | (simp only [id_eq])
    | intro _ _
    | intro _

theorem State.start11_good {pq fz s inp powerOn} (h_s : Good pq fz s) :
    Good pq fz (State.start11 s inp powerOn) := by
  unfold State.start11
  repeat' first
    | with_reducible assumption
    | with_reducible refine State.each_good ?_ ?_
    | with_reducible refine State.store_good ?_
    | with_reducible refine State.ioSetup_good ?_
    | with_reducible refine State.installTables_good ?_
    | with_reducible refine State.clearEntries_good ?_
    | with_reducible refine State.runSensor_good ?_
    | with_reducible refine State.cfgSwitch_good ?_
    | with_reducible refine State.startListed_good ?_
    | with_reducible refine Good.done ?_
    | split
    | dsimp only
    | with_reducible refine Good.upd ?_ rfl
    | (simp only [id_eq])
    | intro _ _
    | intro _

theorem State.startAll_good {pq fz s inp powerOn old} (h_s : Good pq fz s) : Good pq fz (State.startAll s inp powerOn old) := by
  unfold State.startAll
  have h1 := State.startStep_good (n := 1) h_s (fun s h => State.start1_good (inp := inp) h)
  have h2 := State.startStep_good (n := 2) (f := fun s => if (startDir inp).isSome then s else s.startFails 2 0xC030) h1 (fun s h => by
    split
    · exact h
    · exact State.startFails_good h)
  have h3 := State.startStep_good (n := 3) (f := id) h2 (fun s h => h)
  have h4 := State.startStep_good (n := 4) h3 (fun s h => State.needObj_good (inp := inp) (step := 4) (type := 4)
    (f := fun _ s => (s.wr F.FW_STATUS_SEC_RUN 1).wdtRestart 4) h (fun _ s h => State.wdtRestart_good (State.wr_good h)))
  have h5 := State.startStep_good (n := 5) h4 (fun s h => State.needObj_good (inp := inp) (step := 5) (type := 1)
    (f := fun _ s => s.configure inp) h (fun _ s h => State.configure_good h))
  have h6 := State.startStep_good (n := 6) h5 (fun s h => State.start6_good (inp := inp) h)
  have h7 := State.startStep_good (n := 7) h6 (fun s h => State.start7_good (inp := inp) (powerOn := powerOn) (old := old) h)
  have h8 := State.startStep_good (n := 8) h7 (fun s h => State.start8_good (inp := inp) h)
  have h9 := State.startStep_good (n := 9) h8 (fun s h => State.start9_good (inp := inp) h)
  have h10 := State.startStep_good (n := 10) h9 (fun s h => State.start10_good (inp := inp) (kept := old.isSome) h)
  have h11 := State.startStep_good (n := 11) h10 (fun s h => State.start11_good (inp := inp) (powerOn := powerOn) h)
  exact State.startStep_good (n := 12) h11 (fun s h => State.start12_good (inp := inp) (powerOn := powerOn) (kept := old.isSome) h)

theorem execStartSequence_good {pq fz inp s} (h_s : Good pq fz s) :
    GoodOut pq fz (execStartSequence inp s) := by
  unfold execStartSequence
  repeat' first
    | with_reducible assumption
    | with_reducible refine onlyIf_good ?_ ?_
    | with_reducible refine State.startAll_good ?_
    | with_reducible refine Good.done ?_
    | split
    | dsimp only
    | with_reducible refine Good.upd ?_ rfl
    | (simp only [id_eq])
    | intro _ _
    | intro _

theorem State.fullReset_good {pq fz s lost} (h_s : Good pq fz s) : Good pq fz (State.fullReset s lost) := by
  unfold State.fullReset
  refine State.wrB_good (State.wrB_good ⟨?_, h_s.2⟩)
  cases lost
  · exact Memory.wf_filter _ h_s.1
  · rfl

theorem State.offState_good {pq fz s} (h_s : Good pq fz s) : Good pq fz (State.offState s) := ⟨rfl, h_s.2⟩

theorem execRstNAssert_good {pq fz s} (h_s : Good pq fz s) :
    GoodOut pq fz (execRstNAssert s) := by
  unfold execRstNAssert
  repeat' first
    | with_reducible assumption
    | with_reducible refine State.offState_good ?_
    | with_reducible refine Good.done ?_
    | split
    | dsimp only
    | with_reducible refine Good.upd ?_ rfl
    | (simp only [id_eq])
    | intro _ _
    | intro _

theorem execChipExportReceive_good {pq fz port data s} (h_s : Good pq fz s) :
    GoodOut pq fz (execChipExportReceive port data s) := by
  unfold execChipExportReceive
  repeat' first
    | with_reducible assumption
    | with_reducible refine onlyIf_good ?_ ?_
    | with_reducible refine State.store_good ?_
    | with_reducible refine Good.done ?_
    | split
    | dsimp only
    | with_reducible refine Good.upd ?_ rfl
    | (simp only [id_eq])
    | intro _ _
    | intro _

theorem State.unitTested_good {pq fz s bad row i} (h_s : Good pq fz s) :
    Good pq fz (State.unitTested s bad row i) := by
  unfold State.unitTested
  repeat' first
    | with_reducible assumption
    | with_reducible refine State.modUnit_good ?_
    | with_reducible refine State.raiseUnit_good ?_
    | with_reducible refine Good.done ?_
    | split
    | dsimp only
    | with_reducible refine Good.upd ?_ rfl
    | (simp only [id_eq])
    | intro _ _
    | intro _

theorem execPowerLoss_good {pq fz s} (h_s : Good pq fz s) :
    GoodOut pq fz (execPowerLoss s) := by
  unfold execPowerLoss
  repeat' first
    | with_reducible assumption
    | with_reducible refine State.offState_good ?_
    | with_reducible refine Good.done ?_
    | split
    | dsimp only
    | with_reducible refine Good.upd ?_ rfl
    | (simp only [id_eq])
    | intro _ _
    | intro _

theorem execPowerGood_good {pq fz s} (h_s : Good pq fz s) :
    GoodOut pq fz (execPowerGood s) := by
  unfold execPowerGood
  repeat' first
    | with_reducible assumption
    | with_reducible refine onlyIf_good ?_ ?_
    | with_reducible refine State.wr_good ?_
    | with_reducible refine Good.done ?_
    | split
    | dsimp only
    | with_reducible refine Good.upd ?_ rfl
    | (simp only [id_eq])
    | intro _ _
    | intro _

theorem State.latchOff_good {pq fz s} (h_s : Good pq fz s) :
    Good pq fz (State.latchOff s) := by
  unfold State.latchOff
  repeat' first
    | with_reducible assumption
    | with_reducible refine State.prsFlush_good ?_
    | with_reducible refine State.lifeUp_good ?_
    | with_reducible refine State.raise_good ?_
    | with_reducible refine State.setDev_good ?_
    | with_reducible refine Good.done ?_
    | split
    | dsimp only
    | with_reducible refine Good.upd ?_ rfl
    | (simp only [id_eq])
    | intro _ _
    | intro _

theorem execFullRestart_good {pq fz inp s} (h_s : Good pq fz s) :
    GoodOut pq fz (execFullRestart inp s) := by
  unfold execFullRestart
  repeat' first
    | with_reducible assumption
    | with_reducible refine onlyIf_good ?_ ?_
    | with_reducible refine State.writeBack_good ?_
    | with_reducible refine State.lifeFlush_good ?_
    | with_reducible refine State.lifeUp_good ?_
    | with_reducible refine State.fullReset_good ?_
    | with_reducible refine State.chansTo_good ?_
    | with_reducible refine State.each_good ?_ ?_
    | with_reducible refine State.raise_good ?_
    | with_reducible refine State.latchOff_good ?_
    | with_reducible refine State.setDev_good ?_
    | with_reducible refine State.raiseMem_good ?_
    | with_reducible refine State.startAll_good ?_
    | with_reducible refine Good.done ?_
    | split
    | dsimp only
    | with_reducible refine Good.upd ?_ rfl
    | (simp only [id_eq])
    | intro _ _
    | intro _

theorem execFullBistEnd_good {pq fz lbist mbist skew units s} (h_s : Good pq fz s) :
    GoodOut pq fz (execFullBistEnd lbist mbist skew units s) := by
  unfold execFullBistEnd
  repeat' first
    | with_reducible assumption
    | with_reducible refine onlyIf_good ?_ ?_
    | with_reducible refine State.testSlots_good ?_
    | with_reducible refine State.each_good ?_ ?_
    | with_reducible refine State.unitTested_good ?_
    | with_reducible refine State.clearRange_good ?_
    | with_reducible refine State.rearmAll_good ?_
    | with_reducible refine State.restoreAll_good ?_
    | with_reducible refine State.mapAll_good ?_
    | with_reducible refine State.endCmd_good ?_
    | with_reducible refine Good.done ?_
    | split
    | dsimp only
    | with_reducible refine Good.upd ?_ rfl
    | (simp only [id_eq])
    | intro _ _
    | intro _

end Sys2Proof.Machine
end

