-- ==== Sys2Proof/Laws/KeepRegWrite.lean ====
section
/-! SUPPORT. Every operation and command of Machine/RegWrite.lean keeps what `Good` says of a state. -/
namespace Sys2Proof.Machine

theorem State.fwHole_good {pq fz s} (h_s : Good pq fz s) :
    Good pq fz (State.fwHole s) := by
  unfold State.fwHole
  repeat' first
    | with_reducible assumption
    | with_reducible refine State.raise_good ?_
    | with_reducible refine Good.done ?_
    | split
    | dsimp only
    | with_reducible refine Good.upd ?_ rfl
    | (simp only [id_eq])
    | intro _ _
    | intro _

theorem State.writeFld_good {pq fz s i v f} (h_s : Good pq fz s) :
    Good pq fz (State.writeFld s i v f) := by
  unfold State.writeFld
  repeat' first
    | with_reducible assumption
    | with_reducible refine State.wr_good ?_
    | with_reducible refine State.prsRequest_good ?_
    | with_reducible refine Good.done ?_
    | split
    | dsimp only
    | with_reducible refine Good.upd ?_ rfl
    | (simp only [id_eq])
    | intro _ _
    | intro _

theorem State.after_good {pq fz s f} (h_s : Good pq fz s) (h_f : ∀ x0, Good pq fz x0 → GoodOut pq fz (f x0)) :
    Good pq fz (State.after s f) := by
  unfold State.after
  split
  · rename_i heq; have := h_f s h_s; rw [heq] at this; exact this
  · exact h_s

theorem State.actHigh_good {pq fz s o v} (h_s : Good pq fz s) :
    Good pq fz (State.actHigh s o v) := by
  unfold State.actHigh
  dsimp only
  repeat' first
    | with_reducible exact h_s
    | with_reducible refine Good.ite (fun _ => ?_) (fun _ => ?_)
    | with_reducible refine State.after_good ?_ (fun _ h => ?_)
    | with_reducible refine execHifClrCnt_good ?_
    | with_reducible refine execHifAttachDetach_good ?_
    | with_reducible refine execHifAttachStart_good ?_
    | with_reducible refine execFwClrCnt_good ?_
    | with_reducible refine execFwWdtKick_good ?_
    | with_reducible refine execFwMoltAbort_good ?_
    | with_reducible refine execFwMoltReq_good ?_
    | with_reducible refine execFwMoltCommit_good ?_
    | with_reducible refine execSafClrCnt_good ?_
    | with_reducible refine execFclClrCnt_good ?_
    | with_reducible refine execSecClrCnt_good ?_
    | with_reducible refine State.secStart_good ?_
    | with_reducible refine execCocClrCnt_good ?_
    | with_reducible refine execCocExport_good ?_
    | with_reducible refine execCocUpdStart_good ?_
    | with_reducible refine execPwrClrCnt_good ?_
    | with_reducible refine execPrsClrCnt_good ?_
    | with_reducible exact h

theorem State.portOff_good {pq fz s p} (h_s : Good pq fz s) :
    Good pq fz (State.portOff s p) := by
  unfold State.portOff
  repeat' first
    | with_reducible assumption
    | with_reducible refine State.wr_good ?_
    | with_reducible refine State.setLink_good ?_
    | with_reducible refine State.failMulti_good ?_
    | with_reducible refine State.loseCross_good ?_
    | with_reducible refine State.modPort_good ?_
    | with_reducible refine Good.done ?_
    | split
    | dsimp only
    | with_reducible refine Good.upd ?_ rfl
    | (simp only [id_eq])
    | intro _ _
    | intro _

theorem State.actLow_good {pq fz s o i v} (h_s : Good pq fz s) :
    Good pq fz (State.actLow s o i v) := by
  unfold State.actLow
  dsimp only
  repeat' first
    | with_reducible exact h_s
    | with_reducible refine Good.ite (fun _ => ?_) (fun _ => ?_)
    | with_reducible refine State.after_good ?_ (fun _ h => ?_)
    | with_reducible refine execTilHaltReq_good ?_
    | with_reducible refine execTilStart_good ?_
    | with_reducible refine execBrdRotGrant_good ?_
    | with_reducible refine execArrClrCnt_good ?_
    | with_reducible refine execNocClrCnt_good ?_
    | with_reducible refine execSynClrCnt_good ?_
    | with_reducible refine State.portOff_good ?_
    | with_reducible refine execChlRetrain_good ?_
    | with_reducible refine execIntClrCnt_good ?_
    | with_reducible refine execIntDescUpd_good ?_
    | with_reducible refine State.settleMode_good ?_
    | with_reducible refine execJxsClrCnt_good ?_
    | with_reducible refine execWrpClrCnt_good ?_
    | with_reducible refine execWrpCfgUpd_good ?_
    | with_reducible refine execMemClrCnt_good ?_
    | with_reducible refine execMemTrainGrant_good ?_
    | with_reducible refine execMemInjArm_good ?_
    | with_reducible exact h

theorem State.writeReg_good {pq fz s host off v} (h_s : Good pq fz s) : Good pq fz (State.writeReg s host off v) := by
  unfold State.writeReg
  refine Good.ite (fun _ => Good.ite (fun _ => State.violHole_good h_s) (fun _ => State.fwHole_good h_s)) (fun _ => ?_)
  split
  · exact State.holdAccess_good h_s
  · refine Good.ite (fun _ => State.violation_good h_s) (fun _ => ?_)
    split
    · exact Good.ite (fun _ => h_s) (fun _ => State.violation_good h_s)
    · rename_i r i _
      have h := State.actHigh_good (o := r.off) (v := v) (State.actLow_good (o := r.off) (i := i) (v := v)
        (State.each_good (l := r.flds) (f := fun s f => s.writeFld i v f) h_s (fun s f h => State.writeFld_good h)))
      exact Good.ite (fun _ => State.violation_good h) (fun _ => h)

theorem State.writeDb_good {pq fz s o v} (h_s : Good pq fz s) :
    Good pq fz (State.writeDb s o v) := by
  unfold State.writeDb
  repeat' first
    | with_reducible assumption
    | with_reducible refine State.after_good ?_ ?_
    | with_reducible refine execDbCmd_good ?_
    | with_reducible refine execDbCpl_good ?_
    | with_reducible refine execDbEvt_good ?_
    | with_reducible refine execDbLog_good ?_
    | with_reducible refine execDbTrc_good ?_
    | with_reducible refine execDbHb_good ?_
    | with_reducible refine execDbTensor_good ?_
    | with_reducible refine State.violHole_good ?_
    | with_reducible refine Good.done ?_
    | split
    | dsimp only
    | with_reducible refine Good.upd ?_ rfl
    | (simp only [id_eq])
    | intro _ _
    | intro _

theorem State.writeMsix_good {pq fz s k v} (h_s : Good pq fz s) :
    Good pq fz (State.writeMsix s k v) := by
  unfold State.writeMsix
  repeat' first
    | with_reducible assumption
    | with_reducible refine State.sendPend_good ?_
    | with_reducible refine Good.done ?_
    | split
    | dsimp only
    | with_reducible refine Good.upd ?_ rfl
    | (simp only [id_eq])
    | intro _ _
    | intro _

theorem State.writeBar0_good {pq fz s a v} (h_s : Good pq fz s) :
    Good pq fz (State.writeBar0 s a v) := by
  unfold State.writeBar0
  repeat' first
    | with_reducible assumption
    | with_reducible refine State.writeReg_good ?_
    | with_reducible refine State.writeDb_good ?_
    | with_reducible refine State.writeMsix_good ?_
    | with_reducible refine State.violation_good ?_
    | with_reducible refine State.violHole_good ?_
    | with_reducible refine Good.done ?_
    | split
    | dsimp only
    | with_reducible refine Good.upd ?_ rfl
    | (simp only [id_eq])
    | intro _ _
    | intro _

theorem State.write32_good {pq fz s host a v} (h_s : Good pq fz s) :
    Good pq fz (State.write32 s host a v) := by
  unfold State.write32
  repeat' first
    | with_reducible assumption
    | with_reducible refine State.writeBar0_good ?_
    | with_reducible refine State.cfgWrite_good ?_
    | with_reducible refine State.writeReg_good ?_
    | with_reducible refine State.violHole_good ?_
    | with_reducible refine State.fwHole_good ?_
    | with_reducible refine Good.done ?_
    | split
    | dsimp only
    | with_reducible refine Good.upd ?_ rfl
    | (simp only [id_eq])
    | intro _ _
    | intro _

theorem State.writeSub_good {pq fz s host a} (h_s : Good pq fz s) :
    Good pq fz (State.writeSub s host a) := by
  unfold State.writeSub
  repeat' first
    | with_reducible assumption
    | with_reducible refine State.violHole_good ?_
    | with_reducible refine State.cnt_good ?_
    | with_reducible refine Good.done ?_
    | split
    | dsimp only
    | with_reducible refine Good.upd ?_ rfl
    | (simp only [id_eq])
    | intro _ _
    | intro _

theorem execRegWrite_good {pq fz host addr size data s} (h_s : Good pq fz s) :
    GoodOut pq fz (execRegWrite host addr size data s) := by
  unfold execRegWrite
  repeat' first
    | with_reducible assumption
    | with_reducible refine onlyIf_good ?_ ?_
    | with_reducible refine State.write32_good ?_
    | with_reducible refine State.writeSub_good ?_
    | with_reducible refine Good.done ?_
    | split
    | dsimp only
    | with_reducible refine Good.upd ?_ rfl
    | (simp only [id_eq])
    | intro _ _
    | intro _

theorem State.perform_good {pq fz s a} (h_s : Good pq fz s) :
    Good pq fz (State.perform s a) := by
  unfold State.perform
  repeat' first
    | with_reducible assumption
    | with_reducible refine State.hostRead_good ?_
    | with_reducible refine State.hostWrite_good ?_
    | with_reducible refine State.writeReg_good ?_
    | with_reducible refine Good.done ?_
    | split
    | dsimp only
    | with_reducible refine Good.upd ?_ rfl
    | (simp only [id_eq])
    | intro _ _
    | intro _

theorem State.releaseHeld_good {pq fz s b} (h_s : Good pq fz s) :
    Good pq fz (State.releaseHeld s b) := by
  unfold State.releaseHeld
  repeat' first
    | with_reducible assumption
    | with_reducible refine State.each_good ?_ ?_
    | with_reducible refine State.modBrood_good ?_
    | with_reducible refine State.perform_good ?_
    | with_reducible refine Good.done ?_
    | split
    | dsimp only
    | with_reducible refine Good.upd ?_ rfl
    | (simp only [id_eq])
    | intro _ _
    | intro _

theorem execMoveTransferEnd_good {pq fz b crcOk s} (h_s : Good pq fz s) :
    GoodOut pq fz (execMoveTransferEnd b crcOk s) := by
  unfold execMoveTransferEnd
  repeat' first
    | with_reducible assumption
    | with_reducible refine State.releaseHeld_good ?_
    | with_reducible refine State.moveTransferred_good ?_
    | with_reducible refine Good.done ?_
    | split
    | dsimp only
    | with_reducible refine Good.upd ?_ rfl
    | (simp only [id_eq])
    | intro _ _
    | intro _

theorem execMoveSwitchEnd_good {pq fz b s} (h_s : Good pq fz s) :
    GoodOut pq fz (execMoveSwitchEnd b s) := by
  unfold execMoveSwitchEnd
  repeat' first
    | with_reducible assumption
    | with_reducible refine State.releaseHeld_good ?_
    | with_reducible refine State.moveSwitched_good ?_
    | with_reducible refine Good.done ?_
    | split
    | dsimp only
    | with_reducible refine Good.upd ?_ rfl
    | (simp only [id_eq])
    | intro _ _
    | intro _

end Sys2Proof.Machine
end

