-- ==== Sys2Proof/Laws/KeepTileScalar.lean ====
section
/-! SUPPORT. Every operation and command of Machine/TileScalar.lean keeps what `Good` says of a state. -/
namespace Sys2Proof.Machine

theorem State.alu_good {pq fz s t gd ga gb f} (h_s : Good pq fz s) :
    Good pq fz (State.alu s t gd ga gb f) := by
  unfold State.alu
  repeat' first
    | with_reducible assumption
    | with_reducible refine State.issue_good ?_ ?_
    | with_reducible refine State.advance_good ?_
    | with_reducible refine State.setG_good ?_
    | with_reducible refine Good.done ?_
    | split
    | dsimp only
    | with_reducible refine Good.upd ?_ rfl
    | (simp only [id_eq])
    | intro _ _
    | intro _

theorem execMulh_good {pq fz t gd ga gb s} (h_s : Good pq fz s) :
    GoodOut pq fz (execMulh t gd ga gb s) := by
  unfold execMulh
  repeat' first
    | with_reducible assumption
    | with_reducible refine State.alu_good ?_
    | with_reducible refine Good.done ?_
    | split
    | dsimp only
    | with_reducible refine Good.upd ?_ rfl
    | (simp only [id_eq])
    | intro _ _
    | intro _

theorem State.aluImm_good {pq fz s t gd ga imm f} (h_s : Good pq fz s) :
    Good pq fz (State.aluImm s t gd ga imm f) := by
  unfold State.aluImm
  repeat' first
    | with_reducible assumption
    | with_reducible refine State.issue_good ?_ ?_
    | with_reducible refine State.advance_good ?_
    | with_reducible refine State.setG_good ?_
    | with_reducible refine Good.done ?_
    | split
    | dsimp only
    | with_reducible refine Good.upd ?_ rfl
    | (simp only [id_eq])
    | intro _ _
    | intro _

theorem execSrli_good {pq fz t gd ga imm s} (h_s : Good pq fz s) :
    GoodOut pq fz (execSrli t gd ga imm s) := by
  unfold execSrli
  repeat' first
    | with_reducible assumption
    | with_reducible refine State.aluImm_good ?_
    | with_reducible refine Good.done ?_
    | split
    | dsimp only
    | with_reducible refine Good.upd ?_ rfl
    | (simp only [id_eq])
    | intro _ _
    | intro _

theorem execIllegalInstruction_good {pq fz t word s} (h_s : Good pq fz s) :
    GoodOut pq fz (execIllegalInstruction t word s) := by
  unfold execIllegalInstruction
  repeat' first
    | with_reducible assumption
    | with_reducible refine State.issue_good ?_ ?_
    | with_reducible refine State.trapAt_good ?_
    | with_reducible refine Good.done ?_
    | split
    | dsimp only
    | with_reducible refine Good.upd ?_ rfl
    | (simp only [id_eq])
    | intro _ _
    | intro _

theorem State.storeG_good {pq fz s t gs ga imm n} (h_s : Good pq fz s) :
    Good pq fz (State.storeG s t gs ga imm n) := by
  unfold State.storeG
  repeat' first
    | with_reducible assumption
    | with_reducible refine State.issue_good ?_ ?_
    | with_reducible refine State.tileStore_good (by assumption) ?_
    | with_reducible refine State.tileStore_keeps ?_
    | with_reducible refine State.advance_good ?_
    | with_reducible refine State.trapAt_good ?_
    | with_reducible refine Good.done ?_
    | split
    | dsimp only
    | with_reducible refine Good.upd ?_ rfl
    | (simp only [id_eq])
    | intro _ _
    | intro _

theorem execSw_good {pq fz t gs ga imm s} (h_s : Good pq fz s) :
    GoodOut pq fz (execSw t gs ga imm s) := by
  unfold execSw
  repeat' first
    | with_reducible assumption
    | with_reducible refine State.storeG_good ?_
    | with_reducible refine Good.done ?_
    | split
    | dsimp only
    | with_reducible refine Good.upd ?_ rfl
    | (simp only [id_eq])
    | intro _ _
    | intro _

theorem execRdlc_good {pq fz t gd lc s} (h_s : Good pq fz s) :
    GoodOut pq fz (execRdlc t gd lc s) := by
  unfold execRdlc
  repeat' first
    | with_reducible assumption
    | with_reducible refine State.issue_good ?_ ?_
    | with_reducible refine State.trapAt_good ?_
    | with_reducible refine State.advance_good ?_
    | with_reducible refine State.setG_good ?_
    | with_reducible refine Good.done ?_
    | split
    | dsimp only
    | with_reducible refine Good.upd ?_ rfl
    | (simp only [id_eq])
    | intro _ _
    | intro _

theorem execOrR_good {pq fz t gd ga gb s} (h_s : Good pq fz s) :
    GoodOut pq fz (execOrR t gd ga gb s) := by
  unfold execOrR
  repeat' first
    | with_reducible assumption
    | with_reducible refine State.alu_good ?_
    | with_reducible refine Good.done ?_
    | split
    | dsimp only
    | with_reducible refine Good.upd ?_ rfl
    | (simp only [id_eq])
    | intro _ _
    | intro _

theorem execSub_good {pq fz t gd ga gb s} (h_s : Good pq fz s) :
    GoodOut pq fz (execSub t gd ga gb s) := by
  unfold execSub
  repeat' first
    | with_reducible assumption
    | with_reducible refine State.alu_good ?_
    | with_reducible refine Good.done ?_
    | split
    | dsimp only
    | with_reducible refine Good.upd ?_ rfl
    | (simp only [id_eq])
    | intro _ _
    | intro _

theorem execSltu_good {pq fz t gd ga gb s} (h_s : Good pq fz s) :
    GoodOut pq fz (execSltu t gd ga gb s) := by
  unfold execSltu
  repeat' first
    | with_reducible assumption
    | with_reducible refine State.alu_good ?_
    | with_reducible refine Good.done ?_
    | split
    | dsimp only
    | with_reducible refine Good.upd ?_ rfl
    | (simp only [id_eq])
    | intro _ _
    | intro _

theorem execMul_good {pq fz t gd ga gb s} (h_s : Good pq fz s) :
    GoodOut pq fz (execMul t gd ga gb s) := by
  unfold execMul
  repeat' first
    | with_reducible assumption
    | with_reducible refine State.alu_good ?_
    | with_reducible refine Good.done ?_
    | split
    | dsimp only
    | with_reducible refine Good.upd ?_ rfl
    | (simp only [id_eq])
    | intro _ _
    | intro _

theorem execLui_good {pq fz t gd imm s} (h_s : Good pq fz s) :
    GoodOut pq fz (execLui t gd imm s) := by
  unfold execLui
  repeat' first
    | with_reducible assumption
    | with_reducible refine State.issue_good ?_ ?_
    | with_reducible refine State.advance_good ?_
    | with_reducible refine State.setG_good ?_
    | with_reducible refine Good.done ?_
    | split
    | dsimp only
    | with_reducible refine Good.upd ?_ rfl
    | (simp only [id_eq])
    | intro _ _
    | intro _

theorem execSb_good {pq fz t gs ga imm s} (h_s : Good pq fz s) :
    GoodOut pq fz (execSb t gs ga imm s) := by
  unfold execSb
  repeat' first
    | with_reducible assumption
    | with_reducible refine State.storeG_good ?_
    | with_reducible refine Good.done ?_
    | split
    | dsimp only
    | with_reducible refine Good.upd ?_ rfl
    | (simp only [id_eq])
    | intro _ _
    | intro _

theorem State.startLoop_good {pq fz s t lc trips body} (h_s : Good pq fz s) :
    Good pq fz (State.startLoop s t lc trips body) := by
  unfold State.startLoop
  repeat' first
    | with_reducible assumption
    | with_reducible refine State.trapAt_good ?_
    | with_reducible refine State.goOn_good ?_
    | with_reducible refine State.modTile_good ?_
    | with_reducible refine Good.done ?_
    | split
    | dsimp only
    | with_reducible refine Good.upd ?_ rfl
    | (simp only [id_eq])
    | intro _ _
    | intro _

theorem execLoop_good {pq fz t lc gb body s} (h_s : Good pq fz s) :
    GoodOut pq fz (execLoop t lc gb body s) := by
  unfold execLoop
  repeat' first
    | with_reducible assumption
    | with_reducible refine State.issueC_good ?_ ?_
    | with_reducible refine State.trapAt_good ?_
    | with_reducible refine State.startLoop_good ?_
    | with_reducible refine Good.done ?_
    | split
    | dsimp only
    | with_reducible refine Good.upd ?_ rfl
    | (simp only [id_eq])
    | intro _ _
    | intro _

theorem execJalr_good {pq fz t gd ga imm s} (h_s : Good pq fz s) :
    GoodOut pq fz (execJalr t gd ga imm s) := by
  unfold execJalr
  repeat' first
    | with_reducible assumption
    | with_reducible refine State.issueC_good ?_ ?_
    | with_reducible refine State.jump_good ?_ ?_
    | with_reducible refine State.setG_good ?_
    | with_reducible refine Good.done ?_
    | split
    | dsimp only
    | with_reducible refine Good.upd ?_ rfl
    | (simp only [id_eq])
    | intro _ _
    | intro _

theorem execAndi_good {pq fz t gd ga imm s} (h_s : Good pq fz s) :
    GoodOut pq fz (execAndi t gd ga imm s) := by
  unfold execAndi
  repeat' first
    | with_reducible assumption
    | with_reducible refine State.aluImm_good ?_
    | with_reducible refine Good.done ?_
    | split
    | dsimp only
    | with_reducible refine Good.upd ?_ rfl
    | (simp only [id_eq])
    | intro _ _
    | intro _

theorem State.loadG_good {pq fz s t gd ga imm n f} (h_s : Good pq fz s) :
    Good pq fz (State.loadG s t gd ga imm n f) := by
  unfold State.loadG
  repeat' first
    | with_reducible assumption
    | with_reducible refine State.issue_good ?_ ?_
    | with_reducible refine State.tileLoad_good (by assumption) ?_
    | with_reducible refine State.tileLoad_keeps ?_
    | with_reducible refine State.advance_good ?_
    | with_reducible refine State.setG_good ?_
    | with_reducible refine State.trapAt_good ?_
    | with_reducible refine Good.done ?_
    | split
    | dsimp only
    | with_reducible refine Good.upd ?_ rfl
    | (simp only [id_eq])
    | intro _ _
    | intro _

theorem execLbu_good {pq fz t gd ga imm s} (h_s : Good pq fz s) :
    GoodOut pq fz (execLbu t gd ga imm s) := by
  unfold execLbu
  repeat' first
    | with_reducible assumption
    | with_reducible refine State.loadG_good ?_
    | with_reducible refine Good.done ?_
    | split
    | dsimp only
    | with_reducible refine Good.upd ?_ rfl
    | (simp only [id_eq])
    | intro _ _
    | intro _

theorem execSrai_good {pq fz t gd ga imm s} (h_s : Good pq fz s) :
    GoodOut pq fz (execSrai t gd ga imm s) := by
  unfold execSrai
  repeat' first
    | with_reducible assumption
    | with_reducible refine State.aluImm_good ?_
    | with_reducible refine Good.done ?_
    | split
    | dsimp only
    | with_reducible refine Good.upd ?_ rfl
    | (simp only [id_eq])
    | intro _ _
    | intro _

theorem State.branch_good {pq fz s t ga gb off c} (h_s : Good pq fz s) :
    Good pq fz (State.branch s t ga gb off c) := by
  unfold State.branch
  repeat' first
    | with_reducible assumption
    | with_reducible refine State.issueC_good ?_ ?_
    | with_reducible refine State.jump_good ?_ ?_
    | with_reducible refine State.advance_good ?_
    | with_reducible refine Good.done ?_
    | split
    | dsimp only
    | with_reducible refine Good.upd ?_ rfl
    | (simp only [id_eq])
    | intro _ _
    | intro _

theorem execBne_good {pq fz t ga gb off s} (h_s : Good pq fz s) :
    GoodOut pq fz (execBne t ga gb off s) := by
  unfold execBne
  repeat' first
    | with_reducible assumption
    | with_reducible refine State.branch_good ?_
    | with_reducible refine Good.done ?_
    | split
    | dsimp only
    | with_reducible refine Good.upd ?_ rfl
    | (simp only [id_eq])
    | intro _ _
    | intro _

theorem execLw_good {pq fz t gd ga imm s} (h_s : Good pq fz s) :
    GoodOut pq fz (execLw t gd ga imm s) := by
  unfold execLw
  repeat' first
    | with_reducible assumption
    | with_reducible refine State.loadG_good ?_
    | with_reducible refine Good.done ?_
    | split
    | dsimp only
    | with_reducible refine Good.upd ?_ rfl
    | (simp only [id_eq])
    | intro _ _
    | intro _

theorem execBge_good {pq fz t ga gb off s} (h_s : Good pq fz s) :
    GoodOut pq fz (execBge t ga gb off s) := by
  unfold execBge
  repeat' first
    | with_reducible assumption
    | with_reducible refine State.branch_good ?_
    | with_reducible refine Good.done ?_
    | split
    | dsimp only
    | with_reducible refine Good.upd ?_ rfl
    | (simp only [id_eq])
    | intro _ _
    | intro _

theorem execXori_good {pq fz t gd ga imm s} (h_s : Good pq fz s) :
    GoodOut pq fz (execXori t gd ga imm s) := by
  unfold execXori
  repeat' first
    | with_reducible assumption
    | with_reducible refine State.aluImm_good ?_
    | with_reducible refine Good.done ?_
    | split
    | dsimp only
    | with_reducible refine Good.upd ?_ rfl
    | (simp only [id_eq])
    | intro _ _
    | intro _

theorem execSlli_good {pq fz t gd ga imm s} (h_s : Good pq fz s) :
    GoodOut pq fz (execSlli t gd ga imm s) := by
  unfold execSlli
  repeat' first
    | with_reducible assumption
    | with_reducible refine State.aluImm_good ?_
    | with_reducible refine Good.done ?_
    | split
    | dsimp only
    | with_reducible refine Good.upd ?_ rfl
    | (simp only [id_eq])
    | intro _ _
    | intro _

theorem execSll_good {pq fz t gd ga gb s} (h_s : Good pq fz s) :
    GoodOut pq fz (execSll t gd ga gb s) := by
  unfold execSll
  repeat' first
    | with_reducible assumption
    | with_reducible refine State.alu_good ?_
    | with_reducible refine Good.done ?_
    | split
    | dsimp only
    | with_reducible refine Good.upd ?_ rfl
    | (simp only [id_eq])
    | intro _ _
    | intro _

theorem execSrl_good {pq fz t gd ga gb s} (h_s : Good pq fz s) :
    GoodOut pq fz (execSrl t gd ga gb s) := by
  unfold execSrl
  repeat' first
    | with_reducible assumption
    | with_reducible refine State.alu_good ?_
    | with_reducible refine Good.done ?_
    | split
    | dsimp only
    | with_reducible refine Good.upd ?_ rfl
    | (simp only [id_eq])
    | intro _ _
    | intro _

theorem execJal_good {pq fz t gd off s} (h_s : Good pq fz s) :
    GoodOut pq fz (execJal t gd off s) := by
  unfold execJal
  repeat' first
    | with_reducible assumption
    | with_reducible refine State.issueC_good ?_ ?_
    | with_reducible refine State.jump_good ?_ ?_
    | with_reducible refine State.setG_good ?_
    | with_reducible refine Good.done ?_
    | split
    | dsimp only
    | with_reducible refine Good.upd ?_ rfl
    | (simp only [id_eq])
    | intro _ _
    | intro _

theorem execBlt_good {pq fz t ga gb off s} (h_s : Good pq fz s) :
    GoodOut pq fz (execBlt t ga gb off s) := by
  unfold execBlt
  repeat' first
    | with_reducible assumption
    | with_reducible refine State.branch_good ?_
    | with_reducible refine Good.done ?_
    | split
    | dsimp only
    | with_reducible refine Good.upd ?_ rfl
    | (simp only [id_eq])
    | intro _ _
    | intro _

theorem execSh_good {pq fz t gs ga imm s} (h_s : Good pq fz s) :
    GoodOut pq fz (execSh t gs ga imm s) := by
  unfold execSh
  repeat' first
    | with_reducible assumption
    | with_reducible refine State.storeG_good ?_
    | with_reducible refine Good.done ?_
    | split
    | dsimp only
    | with_reducible refine Good.upd ?_ rfl
    | (simp only [id_eq])
    | intro _ _
    | intro _

theorem execAdd_good {pq fz t gd ga gb s} (h_s : Good pq fz s) :
    GoodOut pq fz (execAdd t gd ga gb s) := by
  unfold execAdd
  repeat' first
    | with_reducible assumption
    | with_reducible refine State.alu_good ?_
    | with_reducible refine Good.done ?_
    | split
    | dsimp only
    | with_reducible refine Good.upd ?_ rfl
    | (simp only [id_eq])
    | intro _ _
    | intro _

theorem execAndR_good {pq fz t gd ga gb s} (h_s : Good pq fz s) :
    GoodOut pq fz (execAndR t gd ga gb s) := by
  unfold execAndR
  repeat' first
    | with_reducible assumption
    | with_reducible refine State.alu_good ?_
    | with_reducible refine Good.done ?_
    | split
    | dsimp only
    | with_reducible refine Good.upd ?_ rfl
    | (simp only [id_eq])
    | intro _ _
    | intro _

theorem execXor_good {pq fz t gd ga gb s} (h_s : Good pq fz s) :
    GoodOut pq fz (execXor t gd ga gb s) := by
  unfold execXor
  repeat' first
    | with_reducible assumption
    | with_reducible refine State.alu_good ?_
    | with_reducible refine Good.done ?_
    | split
    | dsimp only
    | with_reducible refine Good.upd ?_ rfl
    | (simp only [id_eq])
    | intro _ _
    | intro _

theorem execSra_good {pq fz t gd ga gb s} (h_s : Good pq fz s) :
    GoodOut pq fz (execSra t gd ga gb s) := by
  unfold execSra
  repeat' first
    | with_reducible assumption
    | with_reducible refine State.alu_good ?_
    | with_reducible refine Good.done ?_
    | split
    | dsimp only
    | with_reducible refine Good.upd ?_ rfl
    | (simp only [id_eq])
    | intro _ _
    | intro _

theorem execSlt_good {pq fz t gd ga gb s} (h_s : Good pq fz s) :
    GoodOut pq fz (execSlt t gd ga gb s) := by
  unfold execSlt
  repeat' first
    | with_reducible assumption
    | with_reducible refine State.alu_good ?_
    | with_reducible refine Good.done ?_
    | split
    | dsimp only
    | with_reducible refine Good.upd ?_ rfl
    | (simp only [id_eq])
    | intro _ _
    | intro _

theorem execMin_good {pq fz t gd ga gb s} (h_s : Good pq fz s) :
    GoodOut pq fz (execMin t gd ga gb s) := by
  unfold execMin
  repeat' first
    | with_reducible assumption
    | with_reducible refine State.alu_good ?_
    | with_reducible refine Good.done ?_
    | split
    | dsimp only
    | with_reducible refine Good.upd ?_ rfl
    | (simp only [id_eq])
    | intro _ _
    | intro _

theorem execMax_good {pq fz t gd ga gb s} (h_s : Good pq fz s) :
    GoodOut pq fz (execMax t gd ga gb s) := by
  unfold execMax
  repeat' first
    | with_reducible assumption
    | with_reducible refine State.alu_good ?_
    | with_reducible refine Good.done ?_
    | split
    | dsimp only
    | with_reducible refine Good.upd ?_ rfl
    | (simp only [id_eq])
    | intro _ _
    | intro _

theorem execMulhu_good {pq fz t gd ga gb s} (h_s : Good pq fz s) :
    GoodOut pq fz (execMulhu t gd ga gb s) := by
  unfold execMulhu
  repeat' first
    | with_reducible assumption
    | with_reducible refine State.alu_good ?_
    | with_reducible refine Good.done ?_
    | split
    | dsimp only
    | with_reducible refine Good.upd ?_ rfl
    | (simp only [id_eq])
    | intro _ _
    | intro _

theorem execAddi_good {pq fz t gd ga imm s} (h_s : Good pq fz s) :
    GoodOut pq fz (execAddi t gd ga imm s) := by
  unfold execAddi
  repeat' first
    | with_reducible assumption
    | with_reducible refine State.aluImm_good ?_
    | with_reducible refine Good.done ?_
    | split
    | dsimp only
    | with_reducible refine Good.upd ?_ rfl
    | (simp only [id_eq])
    | intro _ _
    | intro _

theorem execOri_good {pq fz t gd ga imm s} (h_s : Good pq fz s) :
    GoodOut pq fz (execOri t gd ga imm s) := by
  unfold execOri
  repeat' first
    | with_reducible assumption
    | with_reducible refine State.aluImm_good ?_
    | with_reducible refine Good.done ?_
    | split
    | dsimp only
    | with_reducible refine Good.upd ?_ rfl
    | (simp only [id_eq])
    | intro _ _
    | intro _

theorem execSlti_good {pq fz t gd ga imm s} (h_s : Good pq fz s) :
    GoodOut pq fz (execSlti t gd ga imm s) := by
  unfold execSlti
  repeat' first
    | with_reducible assumption
    | with_reducible refine State.aluImm_good ?_
    | with_reducible refine Good.done ?_
    | split
    | dsimp only
    | with_reducible refine Good.upd ?_ rfl
    | (simp only [id_eq])
    | intro _ _
    | intro _

theorem execLh_good {pq fz t gd ga imm s} (h_s : Good pq fz s) :
    GoodOut pq fz (execLh t gd ga imm s) := by
  unfold execLh
  repeat' first
    | with_reducible assumption
    | with_reducible refine State.loadG_good ?_
    | with_reducible refine Good.done ?_
    | split
    | dsimp only
    | with_reducible refine Good.upd ?_ rfl
    | (simp only [id_eq])
    | intro _ _
    | intro _

theorem execLhu_good {pq fz t gd ga imm s} (h_s : Good pq fz s) :
    GoodOut pq fz (execLhu t gd ga imm s) := by
  unfold execLhu
  repeat' first
    | with_reducible assumption
    | with_reducible refine State.loadG_good ?_
    | with_reducible refine Good.done ?_
    | split
    | dsimp only
    | with_reducible refine Good.upd ?_ rfl
    | (simp only [id_eq])
    | intro _ _
    | intro _

theorem execLb_good {pq fz t gd ga imm s} (h_s : Good pq fz s) :
    GoodOut pq fz (execLb t gd ga imm s) := by
  unfold execLb
  repeat' first
    | with_reducible assumption
    | with_reducible refine State.loadG_good ?_
    | with_reducible refine Good.done ?_
    | split
    | dsimp only
    | with_reducible refine Good.upd ?_ rfl
    | (simp only [id_eq])
    | intro _ _
    | intro _

theorem execBeq_good {pq fz t ga gb off s} (h_s : Good pq fz s) :
    GoodOut pq fz (execBeq t ga gb off s) := by
  unfold execBeq
  repeat' first
    | with_reducible assumption
    | with_reducible refine State.branch_good ?_
    | with_reducible refine Good.done ?_
    | split
    | dsimp only
    | with_reducible refine Good.upd ?_ rfl
    | (simp only [id_eq])
    | intro _ _
    | intro _

theorem execBltu_good {pq fz t ga gb off s} (h_s : Good pq fz s) :
    GoodOut pq fz (execBltu t ga gb off s) := by
  unfold execBltu
  repeat' first
    | with_reducible assumption
    | with_reducible refine State.branch_good ?_
    | with_reducible refine Good.done ?_
    | split
    | dsimp only
    | with_reducible refine Good.upd ?_ rfl
    | (simp only [id_eq])
    | intro _ _
    | intro _

theorem execBgeu_good {pq fz t ga gb off s} (h_s : Good pq fz s) :
    GoodOut pq fz (execBgeu t ga gb off s) := by
  unfold execBgeu
  repeat' first
    | with_reducible assumption
    | with_reducible refine State.branch_good ?_
    | with_reducible refine Good.done ?_
    | split
    | dsimp only
    | with_reducible refine Good.upd ?_ rfl
    | (simp only [id_eq])
    | intro _ _
    | intro _

theorem execLoopi_good {pq fz t lc count body s} (h_s : Good pq fz s) :
    GoodOut pq fz (execLoopi t lc count body s) := by
  unfold execLoopi
  repeat' first
    | with_reducible assumption
    | with_reducible refine State.issueC_good ?_ ?_
    | with_reducible refine State.trapAt_good ?_
    | with_reducible refine State.startLoop_good ?_
    | with_reducible refine Good.done ?_
    | split
    | dsimp only
    | with_reducible refine Good.upd ?_ rfl
    | (simp only [id_eq])
    | intro _ _
    | intro _

theorem execCsrr_good {pq fz t gd csr s} (h_s : Good pq fz s) :
    GoodOut pq fz (execCsrr t gd csr s) := by
  unfold execCsrr
  repeat' first
    | with_reducible assumption
    | with_reducible refine State.issue_good ?_ ?_
    | with_reducible refine State.trapAt_good ?_
    | with_reducible refine State.modTile_good ?_
    | with_reducible refine State.advance_good ?_
    | with_reducible refine State.setG_good ?_
    | with_reducible refine Good.done ?_
    | split
    | dsimp only
    | with_reducible refine Good.upd ?_ rfl
    | (simp only [id_eq])
    | intro _ _
    | intro _

theorem execTrap_good {pq fz t code s} (h_s : Good pq fz s) :
    GoodOut pq fz (execTrap t code s) := by
  unfold execTrap
  repeat' first
    | with_reducible assumption
    | with_reducible refine State.issueC_good ?_ ?_
    | with_reducible refine State.trapAt_good ?_
    | with_reducible refine Good.done ?_
    | split
    | dsimp only
    | with_reducible refine Good.upd ?_ rfl
    | (simp only [id_eq])
    | intro _ _
    | intro _

theorem execEndProg_good {pq fz t s} (h_s : Good pq fz s) :
    GoodOut pq fz (execEndProg t s) := by
  unfold execEndProg
  repeat' first
    | with_reducible assumption
    | with_reducible refine State.issueC_good ?_ ?_
    | with_reducible refine State.modTile_good ?_
    | with_reducible refine Good.done ?_
    | split
    | dsimp only
    | with_reducible refine Good.upd ?_ rfl
    | (simp only [id_eq])
    | intro _ _
    | intro _

end Sys2Proof.Machine
end

