-- ==== Sys2Proof/Laws/KeepTileVector.lean ====
section
/-! SUPPORT. Every operation and command of Machine/TileVector.lean keeps what `Good` says of a state. -/
namespace Sys2Proof.Machine

theorem State.vec1_good {pq fz s t vd va f} (h_s : Good pq fz s) :
    Good pq fz (State.vec1 s t vd va f) := by
  unfold State.vec1
  repeat' first
    | with_reducible assumption
    | with_reducible refine State.issue_good ?_ ?_
    | with_reducible refine State.advance_good ?_
    | with_reducible refine State.setV_good ?_
    | with_reducible refine State.trapAt_good ?_
    | with_reducible refine Good.done ?_
    | split
    | dsimp only
    | with_reducible refine Good.upd ?_ rfl
    | (simp only [id_eq])
    | intro _ _
    | intro _

theorem State.vec3_good {pq fz s t vd va vb vc f} (h_s : Good pq fz s) :
    Good pq fz (State.vec3 s t vd va vb vc f) := by
  unfold State.vec3
  repeat' first
    | with_reducible assumption
    | with_reducible refine State.issue_good ?_ ?_
    | with_reducible refine State.advance_good ?_
    | with_reducible refine State.setV_good ?_
    | with_reducible refine Good.done ?_
    | split
    | dsimp only
    | with_reducible refine Good.upd ?_ rfl
    | (simp only [id_eq])
    | intro _ _
    | intro _

theorem State.vec2_good {pq fz s t vd va vb f} (h_s : Good pq fz s) :
    Good pq fz (State.vec2 s t vd va vb f) := by
  unfold State.vec2
  repeat' first
    | with_reducible assumption
    | with_reducible refine State.issue_good ?_ ?_
    | with_reducible refine State.advance_good ?_
    | with_reducible refine State.setV_good ?_
    | with_reducible refine Good.done ?_
    | split
    | dsimp only
    | with_reducible refine Good.upd ?_ rfl
    | (simp only [id_eq])
    | intro _ _
    | intro _

theorem execVfsub_good {pq fz t vd va vb s} (h_s : Good pq fz s) :
    GoodOut pq fz (execVfsub t vd va vb s) := by
  unfold execVfsub
  repeat' first
    | with_reducible assumption
    | with_reducible refine State.vec2_good ?_
    | with_reducible refine Good.done ?_
    | split
    | dsimp only
    | with_reducible refine Good.upd ?_ rfl
    | (simp only [id_eq])
    | intro _ _
    | intro _

theorem execVst_good {pq fz t vd ew gb off s} (h_s : Good pq fz s) :
    GoodOut pq fz (execVst t vd ew gb off s) := by
  unfold execVst
  repeat' first
    | with_reducible assumption
    | with_reducible refine State.issue_good ?_ ?_
    | with_reducible refine State.trapAt_good ?_
    | with_reducible refine State.tileStore_good (by assumption) ?_
    | with_reducible refine State.tileStore_keeps ?_
    | with_reducible refine State.advance_good ?_
    | with_reducible refine Good.done ?_
    | split
    | dsimp only
    | with_reducible refine Good.upd ?_ rfl
    | (simp only [id_eq])
    | intro _ _
    | intro _

theorem execVbcst_good {pq fz t vd ga s} (h_s : Good pq fz s) :
    GoodOut pq fz (execVbcst t vd ga s) := by
  unfold execVbcst
  repeat' first
    | with_reducible assumption
    | with_reducible refine State.issue_good ?_ ?_
    | with_reducible refine State.advance_good ?_
    | with_reducible refine State.setV_good ?_
    | with_reducible refine Good.done ?_
    | split
    | dsimp only
    | with_reducible refine Good.upd ?_ rfl
    | (simp only [id_eq])
    | intro _ _
    | intro _

theorem execVfadd_good {pq fz t vd va vb s} (h_s : Good pq fz s) :
    GoodOut pq fz (execVfadd t vd va vb s) := by
  unfold execVfadd
  repeat' first
    | with_reducible assumption
    | with_reducible refine State.vec2_good ?_
    | with_reducible refine Good.done ?_
    | split
    | dsimp only
    | with_reducible refine Good.upd ?_ rfl
    | (simp only [id_eq])
    | intro _ _
    | intro _

theorem execVrng_good {pq fz t vd va ga gb fn s} (h_s : Good pq fz s) :
    GoodOut pq fz (execVrng t vd va ga gb fn s) := by
  unfold execVrng
  repeat' first
    | with_reducible assumption
    | with_reducible refine State.issue_good ?_ ?_
    | with_reducible refine State.trapAt_good ?_
    | with_reducible refine State.advance_good ?_
    | with_reducible refine State.setV_good ?_
    | with_reducible refine Good.done ?_
    | split
    | dsimp only
    | with_reducible refine Good.upd ?_ rfl
    | (simp only [id_eq])
    | intro _ _
    | intro _

theorem execVmax_good {pq fz t vd va vb s} (h_s : Good pq fz s) :
    GoodOut pq fz (execVmax t vd va vb s) := by
  unfold execVmax
  repeat' first
    | with_reducible assumption
    | with_reducible refine State.vec2_good ?_
    | with_reducible refine Good.done ?_
    | split
    | dsimp only
    | with_reducible refine Good.upd ?_ rfl
    | (simp only [id_eq])
    | intro _ _
    | intro _

theorem execVidx_good {pq fz t vd ga s} (h_s : Good pq fz s) :
    GoodOut pq fz (execVidx t vd ga s) := by
  unfold execVidx
  repeat' first
    | with_reducible assumption
    | with_reducible refine State.issue_good ?_ ?_
    | with_reducible refine State.advance_good ?_
    | with_reducible refine State.setV_good ?_
    | with_reducible refine Good.done ?_
    | split
    | dsimp only
    | with_reducible refine Good.upd ?_ rfl
    | (simp only [id_eq])
    | intro _ _
    | intro _

theorem execVlut_good {pq fz t vd va fn s} (h_s : Good pq fz s) :
    GoodOut pq fz (execVlut t vd va fn s) := by
  unfold execVlut
  repeat' first
    | with_reducible assumption
    | with_reducible refine State.issue_good ?_ ?_
    | with_reducible refine State.trapAt_good ?_
    | with_reducible refine State.advance_good ?_
    | with_reducible refine State.setV_good ?_
    | with_reducible refine Good.done ?_
    | split
    | dsimp only
    | with_reducible refine Good.upd ?_ rfl
    | (simp only [id_eq])
    | intro _ _
    | intro _

theorem execVred_good {pq fz t vd va fn s} (h_s : Good pq fz s) :
    GoodOut pq fz (execVred t vd va fn s) := by
  unfold execVred
  repeat' first
    | with_reducible assumption
    | with_reducible refine State.vec1_good ?_
    | with_reducible refine Good.done ?_
    | split
    | dsimp only
    | with_reducible refine Good.upd ?_ rfl
    | (simp only [id_eq])
    | intro _ _
    | intro _

theorem execVfmul_good {pq fz t vd va vb s} (h_s : Good pq fz s) :
    GoodOut pq fz (execVfmul t vd va vb s) := by
  unfold execVfmul
  repeat' first
    | with_reducible assumption
    | with_reducible refine State.vec2_good ?_
    | with_reducible refine Good.done ?_
    | split
    | dsimp only
    | with_reducible refine Good.upd ?_ rfl
    | (simp only [id_eq])
    | intro _ _
    | intro _

theorem execVxor_good {pq fz t vd va vb s} (h_s : Good pq fz s) :
    GoodOut pq fz (execVxor t vd va vb s) := by
  unfold execVxor
  repeat' first
    | with_reducible assumption
    | with_reducible refine State.vec2_good ?_
    | with_reducible refine Good.done ?_
    | split
    | dsimp only
    | with_reducible refine Good.upd ?_ rfl
    | (simp only [id_eq])
    | intro _ _
    | intro _

theorem execVgth_good {pq fz t vd va ga s} (h_s : Good pq fz s) : GoodOut pq fz (execVgth t vd va ga s) := by
  unfold execVgth
  refine Good.done (State.issue_good h_s (fun s t h => ?_))
  dsimp only
  split
  · exact State.trapAt_good h
  · split
    · exact State.trapAt_good h
    · generalize hr : List.foldl _ (true, ([] : List Nat), s) _ = r
      have h2 : Good pq fz r.2.2 := by
        subst hr
        refine Good.fold3 h (fun y z s b h => ?_)
        dsimp only
        split
        · rename_i hl; exact State.tileLoad_good hl h
        · rename_i hl; exact State.tileLoad_good hl h
      split
      · exact State.advance_good (State.setV_good h2)
      · exact State.trapAt_good h2

theorem execVfmin_good {pq fz t vd va vb s} (h_s : Good pq fz s) :
    GoodOut pq fz (execVfmin t vd va vb s) := by
  unfold execVfmin
  repeat' first
    | with_reducible assumption
    | with_reducible refine State.vec2_good ?_
    | with_reducible refine Good.done ?_
    | split
    | dsimp only
    | with_reducible refine Good.upd ?_ rfl
    | (simp only [id_eq])
    | intro _ _
    | intro _

theorem execVclt_good {pq fz t vd va vb s} (h_s : Good pq fz s) :
    GoodOut pq fz (execVclt t vd va vb s) := by
  unfold execVclt
  repeat' first
    | with_reducible assumption
    | with_reducible refine State.vec2_good ?_
    | with_reducible refine Good.done ?_
    | split
    | dsimp only
    | with_reducible refine Good.upd ?_ rfl
    | (simp only [id_eq])
    | intro _ _
    | intro _

theorem execVceq_good {pq fz t vd va vb s} (h_s : Good pq fz s) :
    GoodOut pq fz (execVceq t vd va vb s) := by
  unfold execVceq
  repeat' first
    | with_reducible assumption
    | with_reducible refine State.vec2_good ?_
    | with_reducible refine Good.done ?_
    | split
    | dsimp only
    | with_reducible refine Good.upd ?_ rfl
    | (simp only [id_eq])
    | intro _ _
    | intro _

theorem execVsll_good {pq fz t vd va vb s} (h_s : Good pq fz s) :
    GoodOut pq fz (execVsll t vd va vb s) := by
  unfold execVsll
  repeat' first
    | with_reducible assumption
    | with_reducible refine State.vec2_good ?_
    | with_reducible refine Good.done ?_
    | split
    | dsimp only
    | with_reducible refine Good.upd ?_ rfl
    | (simp only [id_eq])
    | intro _ _
    | intro _

theorem execVmul_good {pq fz t vd va vb s} (h_s : Good pq fz s) :
    GoodOut pq fz (execVmul t vd va vb s) := by
  unfold execVmul
  repeat' first
    | with_reducible assumption
    | with_reducible refine State.vec2_good ?_
    | with_reducible refine Good.done ?_
    | split
    | dsimp only
    | with_reducible refine Good.upd ?_ rfl
    | (simp only [id_eq])
    | intro _ _
    | intro _

theorem execVfmax_good {pq fz t vd va vb s} (h_s : Good pq fz s) :
    GoodOut pq fz (execVfmax t vd va vb s) := by
  unfold execVfmax
  repeat' first
    | with_reducible assumption
    | with_reducible refine State.vec2_good ?_
    | with_reducible refine Good.done ?_
    | split
    | dsimp only
    | with_reducible refine Good.upd ?_ rfl
    | (simp only [id_eq])
    | intro _ _
    | intro _

theorem execVperm_good {pq fz t vd va vb s} (h_s : Good pq fz s) :
    GoodOut pq fz (execVperm t vd va vb s) := by
  unfold execVperm
  repeat' first
    | with_reducible assumption
    | with_reducible refine State.issue_good ?_ ?_
    | with_reducible refine State.advance_good ?_
    | with_reducible refine State.setV_good ?_
    | with_reducible refine Good.done ?_
    | split
    | dsimp only
    | with_reducible refine Good.upd ?_ rfl
    | (simp only [id_eq])
    | intro _ _
    | intro _

theorem execVtld_good {pq fz t tab gb off s} (h_s : Good pq fz s) :
    GoodOut pq fz (execVtld t tab gb off s) := by
  unfold execVtld
  repeat' first
    | with_reducible assumption
    | with_reducible refine State.issue_good ?_ ?_
    | with_reducible refine State.trapAt_good ?_
    | with_reducible refine State.tileLoad_good (by assumption) ?_
    | with_reducible refine State.tileLoad_keeps ?_
    | with_reducible refine State.advance_good ?_
    | with_reducible refine State.modTile_good ?_
    | with_reducible refine Good.done ?_
    | split
    | dsimp only
    | with_reducible refine Good.upd ?_ rfl
    | (simp only [id_eq])
    | intro _ _
    | intro _

theorem execVor_good {pq fz t vd va vb s} (h_s : Good pq fz s) :
    GoodOut pq fz (execVor t vd va vb s) := by
  unfold execVor
  repeat' first
    | with_reducible assumption
    | with_reducible refine State.vec2_good ?_
    | with_reducible refine Good.done ?_
    | split
    | dsimp only
    | with_reducible refine Good.upd ?_ rfl
    | (simp only [id_eq])
    | intro _ _
    | intro _

theorem execVmin_good {pq fz t vd va vb s} (h_s : Good pq fz s) :
    GoodOut pq fz (execVmin t vd va vb s) := by
  unfold execVmin
  repeat' first
    | with_reducible assumption
    | with_reducible refine State.vec2_good ?_
    | with_reducible refine Good.done ?_
    | split
    | dsimp only
    | with_reducible refine Good.upd ?_ rfl
    | (simp only [id_eq])
    | intro _ _
    | intro _

theorem execVadd_good {pq fz t vd va vb s} (h_s : Good pq fz s) :
    GoodOut pq fz (execVadd t vd va vb s) := by
  unfold execVadd
  repeat' first
    | with_reducible assumption
    | with_reducible refine State.vec2_good ?_
    | with_reducible refine Good.done ?_
    | split
    | dsimp only
    | with_reducible refine Good.upd ?_ rfl
    | (simp only [id_eq])
    | intro _ _
    | intro _

theorem execVsub_good {pq fz t vd va vb s} (h_s : Good pq fz s) :
    GoodOut pq fz (execVsub t vd va vb s) := by
  unfold execVsub
  repeat' first
    | with_reducible assumption
    | with_reducible refine State.vec2_good ?_
    | with_reducible refine Good.done ?_
    | split
    | dsimp only
    | with_reducible refine Good.upd ?_ rfl
    | (simp only [id_eq])
    | intro _ _
    | intro _

theorem execVand_good {pq fz t vd va vb s} (h_s : Good pq fz s) :
    GoodOut pq fz (execVand t vd va vb s) := by
  unfold execVand
  repeat' first
    | with_reducible assumption
    | with_reducible refine State.vec2_good ?_
    | with_reducible refine Good.done ?_
    | split
    | dsimp only
    | with_reducible refine Good.upd ?_ rfl
    | (simp only [id_eq])
    | intro _ _
    | intro _

theorem execVsrl_good {pq fz t vd va vb s} (h_s : Good pq fz s) :
    GoodOut pq fz (execVsrl t vd va vb s) := by
  unfold execVsrl
  repeat' first
    | with_reducible assumption
    | with_reducible refine State.vec2_good ?_
    | with_reducible refine Good.done ?_
    | split
    | dsimp only
    | with_reducible refine Good.upd ?_ rfl
    | (simp only [id_eq])
    | intro _ _
    | intro _

theorem execVsra_good {pq fz t vd va vb s} (h_s : Good pq fz s) :
    GoodOut pq fz (execVsra t vd va vb s) := by
  unfold execVsra
  repeat' first
    | with_reducible assumption
    | with_reducible refine State.vec2_good ?_
    | with_reducible refine Good.done ?_
    | split
    | dsimp only
    | with_reducible refine Good.upd ?_ rfl
    | (simp only [id_eq])
    | intro _ _
    | intro _

theorem execVsel_good {pq fz t vd va vb vc s} (h_s : Good pq fz s) :
    GoodOut pq fz (execVsel t vd va vb vc s) := by
  unfold execVsel
  repeat' first
    | with_reducible assumption
    | with_reducible refine State.vec3_good ?_
    | with_reducible refine Good.done ?_
    | split
    | dsimp only
    | with_reducible refine Good.upd ?_ rfl
    | (simp only [id_eq])
    | intro _ _
    | intro _

theorem execVfma_good {pq fz t vd va vb vc s} (h_s : Good pq fz s) :
    GoodOut pq fz (execVfma t vd va vb vc s) := by
  unfold execVfma
  repeat' first
    | with_reducible assumption
    | with_reducible refine State.vec3_good ?_
    | with_reducible refine Good.done ?_
    | split
    | dsimp only
    | with_reducible refine Good.upd ?_ rfl
    | (simp only [id_eq])
    | intro _ _
    | intro _

theorem execVfclt_good {pq fz t vd va vb s} (h_s : Good pq fz s) :
    GoodOut pq fz (execVfclt t vd va vb s) := by
  unfold execVfclt
  repeat' first
    | with_reducible assumption
    | with_reducible refine State.vec2_good ?_
    | with_reducible refine Good.done ?_
    | split
    | dsimp only
    | with_reducible refine Good.upd ?_ rfl
    | (simp only [id_eq])
    | intro _ _
    | intro _

theorem execVcvt_good {pq fz t vd va fn s} (h_s : Good pq fz s) :
    GoodOut pq fz (execVcvt t vd va fn s) := by
  unfold execVcvt
  repeat' first
    | with_reducible assumption
    | with_reducible refine State.vec1_good ?_
    | with_reducible refine Good.done ?_
    | split
    | dsimp only
    | with_reducible refine Good.upd ?_ rfl
    | (simp only [id_eq])
    | intro _ _
    | intro _

theorem execVsfu_good {pq fz t vd va fn s} (h_s : Good pq fz s) :
    GoodOut pq fz (execVsfu t vd va fn s) := by
  unfold execVsfu
  repeat' first
    | with_reducible assumption
    | with_reducible refine State.vec1_good ?_
    | with_reducible refine Good.done ?_
    | split
    | dsimp only
    | with_reducible refine Good.upd ?_ rfl
    | (simp only [id_eq])
    | intro _ _
    | intro _

theorem execVmovs_good {pq fz t gd va lane s} (h_s : Good pq fz s) :
    GoodOut pq fz (execVmovs t gd va lane s) := by
  unfold execVmovs
  repeat' first
    | with_reducible assumption
    | with_reducible refine State.issue_good ?_ ?_
    | with_reducible refine State.trapAt_good ?_
    | with_reducible refine State.advance_good ?_
    | with_reducible refine State.setG_good ?_
    | with_reducible refine Good.done ?_
    | split
    | dsimp only
    | with_reducible refine Good.upd ?_ rfl
    | (simp only [id_eq])
    | intro _ _
    | intro _

theorem execVld_good {pq fz t vd ew gb sx off s} (h_s : Good pq fz s) :
    GoodOut pq fz (execVld t vd ew gb sx off s) := by
  unfold execVld
  repeat' first
    | with_reducible assumption
    | with_reducible refine State.issue_good ?_ ?_
    | with_reducible refine State.trapAt_good ?_
    | with_reducible refine State.tileLoad_good (by assumption) ?_
    | with_reducible refine State.tileLoad_keeps ?_
    | with_reducible refine State.advance_good ?_
    | with_reducible refine State.setV_good ?_
    | with_reducible refine Good.done ?_
    | split
    | dsimp only
    | with_reducible refine Good.upd ?_ rfl
    | (simp only [id_eq])
    | intro _ _
    | intro _

end Sys2Proof.Machine
end

