-- ==== Sys2Proof/Laws/KeepDispatch.lean ====
section
/-! SUPPORT. Every operation and command of Machine/Dispatch.lean keeps what `Good` says of a state. -/
namespace Sys2Proof.Machine

theorem exec_good {pq fz i s} (h_s : Good pq fz s) :
    GoodOut pq fz (exec i s) := by
  unfold exec
  repeat' first
    | with_reducible assumption
    | with_reducible refine execPowerGood_good ?_
    | with_reducible refine execStartSequence_good ?_
    | with_reducible refine execRstNAssert_good ?_
    | with_reducible refine execPowerLoss_good ?_
    | with_reducible refine execPartialRestart_good ?_
    | with_reducible refine execFullRestart_good ?_
    | with_reducible refine execRegWrite_good ?_
    | with_reducible refine execHoleAccess_good ?_
    | with_reducible refine execCsiFrameStart_good ?_
    | with_reducible refine execCsiLongPacket_good ?_
    | with_reducible refine execCsiEmbeddedData_good ?_
    | with_reducible refine execCsiHeaderError_good ?_
    | with_reducible refine execCsiUnclaimedPacket_good ?_
    | with_reducible refine execPatternInjectEnd_good ?_
    | with_reducible refine execCsiFrameEnd_good ?_
    | with_reducible refine execFrameTimerExpiry_good ?_
    | with_reducible refine execEthFrameReceive_good ?_
    | with_reducible refine execLidarTestPacketEnd_good ?_
    | with_reducible refine execEthLinkChange_good ?_
    | with_reducible refine execPtpSyncReceive_good ?_
    | with_reducible refine execPtpHoldover_good ?_
    | with_reducible refine execJxsDecodeStart_good ?_
    | with_reducible refine execJxsDecodeEnd_good ?_
    | with_reducible refine execJxsBudgetExpiry_good ?_
    | with_reducible refine execJxsEngineReady_good ?_
    | with_reducible refine execJxsBufferError_good ?_
    | with_reducible refine execJxsEncodeStart_good ?_
    | with_reducible refine execJxsEncodeEnd_good ?_
    | with_reducible refine execJxsEncodeBudgetExpiry_good ?_
    | with_reducible refine execJxsModeWrite_good ?_
    | with_reducible refine execJxsClrCnt_good ?_
    | with_reducible refine execIntDescUpd_good ?_
    | with_reducible refine execDescUpdateApply_good ?_
    | with_reducible refine execIntClrCnt_good ?_
    | with_reducible refine execWarpAssign_good ?_
    | with_reducible refine execWarpComplete_good ?_
    | with_reducible refine execWarpTimeout_good ?_
    | with_reducible refine execWarpWaitTimeout_good ?_
    | with_reducible refine execWarpCoordMismatch_good ?_
    | with_reducible refine execWarpBufferError_good ?_
    | with_reducible refine execWrpCfgUpd_good ?_
    | with_reducible refine execWarpCfgApply_good ?_
    | with_reducible refine execWrpClrCnt_good ?_
    | with_reducible refine execGatherExpiry_good ?_
    | with_reducible refine execSyncIoRelease_good ?_
    | with_reducible refine execSyncIoSample_good ?_
    | with_reducible refine execSyncIoTimeout_good ?_
    | with_reducible refine execBarrierSeqReceive_good ?_
    | with_reducible refine execStageStart_good ?_
    | with_reducible refine execResamplerPartEnd_good ?_
    | with_reducible refine execPartFinish_good ?_
    | with_reducible refine execStageWinMax_good ?_
    | with_reducible refine execPublish_good ?_
    | with_reducible refine execOrderHoldExpiry_good ?_
    | with_reducible refine execMgmtExportSend_good ?_
    | with_reducible refine execChipExportReceive_good ?_
    | with_reducible refine execArrayOpStart_good ?_
    | with_reducible refine execVectorAccumulate_good ?_
    | with_reducible refine execResidueCompare_good ?_
    | with_reducible refine execSpareClearDone_good ?_
    | with_reducible refine execRerunStart_good ?_
    | with_reducible refine execDrainEnd_good ?_
    | with_reducible refine execDmaDescComplete_good ?_
    | with_reducible refine execMsgSend_good ?_
    | with_reducible refine execMsgArrive_good ?_
    | with_reducible refine execMsgAck_good ?_
    | with_reducible refine execMsgNack_good ?_
    | with_reducible refine execMsgReject_good ?_
    | with_reducible refine execMsgAckTimeout_good ?_
    | with_reducible refine execSyncOpApply_good ?_
    | with_reducible refine execSyncOpResponse_good ?_
    | with_reducible refine execSyncWaitRetry_good ?_
    | with_reducible refine execSyncOpTimeout_good ?_
    | with_reducible refine execRouterBufferError_good ?_
    | with_reducible refine execNocClrCnt_good ?_
    | with_reducible refine execSynClrCnt_good ?_
    | with_reducible refine execChlTrainStart_good ?_
    | with_reducible refine execChlLockEnd_good ?_
    | with_reducible refine execChlIdentityReceive_good ?_
    | with_reducible refine execChlAuthMessage_good ?_
    | with_reducible refine execChlTimeAlign_good ?_
    | with_reducible refine execChlTrainTimeout_good ?_
    | with_reducible refine execChlBlockReceive_good ?_
    | with_reducible refine execChlLaneFault_good ?_
    | with_reducible refine execChlRetrainEnd_good ?_
    | with_reducible refine execChlRetryTimer_good ?_
    | with_reducible refine execTimebaseCompare_good ?_
    | with_reducible refine execChlRetrain_good ?_
    | with_reducible refine execSpareLbistEnd_good ?_
    | with_reducible refine execSpareMbistEnd_good ?_
    | with_reducible refine execRotationMoveStart_good ?_
    | with_reducible refine execForcedMoveStart_good ?_
    | with_reducible refine execMoveQuiesced_good ?_
    | with_reducible refine execMoveTransferEnd_good ?_
    | with_reducible refine execMoveSwitchEnd_good ?_
    | with_reducible refine execSlotAgeLfi_good ?_
    | with_reducible refine execInplaceSliceStart_good ?_
    | with_reducible refine execInplaceSliceEnd_good ?_
    | with_reducible refine execSharedSliceStart_good ?_
    | with_reducible refine execSharedSliceEnd_good ?_
    | with_reducible refine execTilStart_good ?_
    | with_reducible refine execTilHaltReq_good ?_
    | with_reducible refine execHaltReqTaken_good ?_
    | with_reducible refine execBrdRotGrant_good ?_
    | with_reducible refine execBrdRotEnWrite_good ?_
    | with_reducible refine execArrClrCnt_good ?_
    | with_reducible refine execAdd_good ?_
    | with_reducible refine execSub_good ?_
    | with_reducible refine execAndR_good ?_
    | with_reducible refine execOrR_good ?_
    | with_reducible refine execXor_good ?_
    | with_reducible refine execSll_good ?_
    | with_reducible refine execSrl_good ?_
    | with_reducible refine execSra_good ?_
    | with_reducible refine execSlt_good ?_
    | with_reducible refine execSltu_good ?_
    | with_reducible refine execMin_good ?_
    | with_reducible refine execMax_good ?_
    | with_reducible refine execMul_good ?_
    | with_reducible refine execMulh_good ?_
    | with_reducible refine execMulhu_good ?_
    | with_reducible refine execAddi_good ?_
    | with_reducible refine execAndi_good ?_
    | with_reducible refine execOri_good ?_
    | with_reducible refine execXori_good ?_
    | with_reducible refine execSlli_good ?_
    | with_reducible refine execSrli_good ?_
    | with_reducible refine execSrai_good ?_
    | with_reducible refine execSlti_good ?_
    | with_reducible refine execLui_good ?_
    | with_reducible refine execLw_good ?_
    | with_reducible refine execLh_good ?_
    | with_reducible refine execLhu_good ?_
    | with_reducible refine execLb_good ?_
    | with_reducible refine execLbu_good ?_
    | with_reducible refine execSw_good ?_
    | with_reducible refine execSh_good ?_
    | with_reducible refine execSb_good ?_
    | with_reducible refine execBeq_good ?_
    | with_reducible refine execBne_good ?_
    | with_reducible refine execBlt_good ?_
    | with_reducible refine execBge_good ?_
    | with_reducible refine execBltu_good ?_
    | with_reducible refine execBgeu_good ?_
    | with_reducible refine execJal_good ?_
    | with_reducible refine execJalr_good ?_
    | with_reducible refine execLoop_good ?_
    | with_reducible refine execLoopi_good ?_
    | with_reducible refine execRdlc_good ?_
    | with_reducible refine execCsrr_good ?_
    | with_reducible refine execTrap_good ?_
    | with_reducible refine execEndProg_good ?_
    | with_reducible refine execVadd_good ?_
    | with_reducible refine execVsub_good ?_
    | with_reducible refine execVmul_good ?_
    | with_reducible refine execVand_good ?_
    | with_reducible refine execVor_good ?_
    | with_reducible refine execVxor_good ?_
    | with_reducible refine execVsll_good ?_
    | with_reducible refine execVsrl_good ?_
    | with_reducible refine execVsra_good ?_
    | with_reducible refine execVmin_good ?_
    | with_reducible refine execVmax_good ?_
    | with_reducible refine execVclt_good ?_
    | with_reducible refine execVceq_good ?_
    | with_reducible refine execVsel_good ?_
    | with_reducible refine execVfadd_good ?_
    | with_reducible refine execVfsub_good ?_
    | with_reducible refine execVfmul_good ?_
    | with_reducible refine execVfma_good ?_
    | with_reducible refine execVfmin_good ?_
    | with_reducible refine execVfmax_good ?_
    | with_reducible refine execVfclt_good ?_
    | with_reducible refine execVcvt_good ?_
    | with_reducible refine execVsfu_good ?_
    | with_reducible refine execVlut_good ?_
    | with_reducible refine execVtld_good ?_
    | with_reducible refine execVred_good ?_
    | with_reducible refine execVperm_good ?_
    | with_reducible refine execVbcst_good ?_
    | with_reducible refine execVidx_good ?_
    | with_reducible refine execVmovs_good ?_
    | with_reducible refine execVrng_good ?_
    | with_reducible refine execVgth_good ?_
    | with_reducible refine execVld_good ?_
    | with_reducible refine execVst_good ?_
    | with_reducible refine execWld_good ?_
    | with_reducible refine execAstr_good ?_
    | with_reducible refine execAdrn_good ?_
    | with_reducible refine execAfence_good ?_
    | with_reducible refine execDma_good ?_
    | with_reducible refine execMsg_good ?_
    | with_reducible refine execMfence_good ?_
    | with_reducible refine execSadd_good ?_
    | with_reducible refine execSaddi_good ?_
    | with_reducible refine execSwait_good ?_
    | with_reducible refine execSarv_good ?_
    | with_reducible refine execSbwait_good ?_
    | with_reducible refine execSrd_good ?_
    | with_reducible refine execSrst_good ?_
    | with_reducible refine execMemRead_good ?_
    | with_reducible refine execMemWriteCommit_good ?_
    | with_reducible refine execCorrectiveWrite_good ?_
    | with_reducible refine execCheckLineEvict_good ?_
    | with_reducible refine execRefreshDue_good ?_
    | with_reducible refine execRetrainDue_good ?_
    | with_reducible refine execRetrainWindow_good ?_
    | with_reducible refine execTrainGrantTimeout_good ?_
    | with_reducible refine execMemTrainGrant_good ?_
    | with_reducible refine execScrubRead_good ?_
    | with_reducible refine execSramScrubWord_good ?_
    | with_reducible refine execMemInjArm_good ?_
    | with_reducible refine execMemClrCnt_good ?_
    | with_reducible refine execHostBar2Read_good ?_
    | with_reducible refine execHostBar2Write_good ?_
    | with_reducible refine execHostBar4Read_good ?_
    | with_reducible refine execHostBar4Write_good ?_
    | with_reducible refine execTlpErrorReceive_good ?_
    | with_reducible refine execPcieLinkUp_good ?_
    | with_reducible refine execPcieLinkLoss_good ?_
    | with_reducible refine execPerstNAssert_good ?_
    | with_reducible refine execFunctionLevelReset_good ?_
    | with_reducible refine execHotReset_good ?_
    | with_reducible refine execD3hotEntry_good ?_
    | with_reducible refine execDbCmd_good ?_
    | with_reducible refine execDbCpl_good ?_
    | with_reducible refine execDbEvt_good ?_
    | with_reducible refine execDbLog_good ?_
    | with_reducible refine execDbTrc_good ?_
    | with_reducible refine execDbHb_good ?_
    | with_reducible refine execDbTensor_good ?_
    | with_reducible refine execHifAttachStart_good ?_
    | with_reducible refine execHifAttachDetach_good ?_
    | with_reducible refine execHifStateRead_good ?_
    | with_reducible refine execHeartbeatTimeout_good ?_
    | with_reducible refine execHifClrCnt_good ?_
    | with_reducible refine execSubmitCmd_good ?_
    | with_reducible refine execLoadCmd_good ?_
    | with_reducible refine execSectionPieceWrite_good ?_
    | with_reducible refine execUnloadCmd_good ?_
    | with_reducible refine execSwitchCmd_good ?_
    | with_reducible refine execSwitchApply_good ?_
    | with_reducible refine execPipeCmd_good ?_
    | with_reducible refine execPipeApply_good ?_
    | with_reducible refine execModeCmd_good ?_
    | with_reducible refine execModeApply_good ?_
    | with_reducible refine execReactCmd_good ?_
    | with_reducible refine execDecideTimeout_good ?_
    | with_reducible refine execSaveCmd_good ?_
    | with_reducible refine execRestoreCmd_good ?_
    | with_reducible refine execSelftestBrood_good ?_
    | with_reducible refine execSelftestRetrain_good ?_
    | with_reducible refine execSelftestSlicePass_good ?_
    | with_reducible refine execSelftestFullBist_good ?_
    | with_reducible refine execFullBistEnd_good ?_
    | with_reducible refine execSelftestWindow_good ?_
    | with_reducible refine execTestWindowEnd_good ?_
    | with_reducible refine execRecordCmd_good ?_
    | with_reducible refine execNopCmd_good ?_
    | with_reducible refine execIllegalCommand_good ?_
    | with_reducible refine execFwWdtKick_good ?_
    | with_reducible refine execDispatchWdtExpiry_good ?_
    | with_reducible refine execSecurityWdtExpiry_good ?_
    | with_reducible refine execPowerWdtExpiry_good ?_
    | with_reducible refine execDispatchCoreFault_good ?_
    | with_reducible refine execSensorSample_good ?_
    | with_reducible refine execLimitActionEnd_good ?_
    | with_reducible refine execCoreCurrentLimit_good ?_
    | with_reducible refine execCoreVoltageLimit_good ?_
    | with_reducible refine execAvsStep_good ?_
    | with_reducible refine execPowerBudgetTimer_good ?_
    | with_reducible refine execLogEntryWrite_good ?_
    | with_reducible refine execEventEntryWrite_good ?_
    | with_reducible refine execTraceEntryWrite_good ?_
    | with_reducible refine execFwMoltReq_good ?_
    | with_reducible refine execMoltStagingEnd_good ?_
    | with_reducible refine execMoltVerifyEnd_good ?_
    | with_reducible refine execMoltHandoverStart_good ?_
    | with_reducible refine execFwMoltCommit_good ?_
    | with_reducible refine execFwMoltAbort_good ?_
    | with_reducible refine execMoltReadyTimeout_good ?_
    | with_reducible refine execFwClrCnt_good ?_
    | with_reducible refine execErrorLineLatch_good ?_
    | with_reducible refine execErrorLineRailFault_good ?_
    | with_reducible refine execCollectorReaction_good ?_
    | with_reducible refine execStopAliveDelayExpiry_good ?_
    | with_reducible refine execAliveToggle_good ?_
    | with_reducible refine execLockstepMismatch_good ?_
    | with_reducible refine execComparatorTest_good ?_
    | with_reducible refine execLinePathTest_good ?_
    | with_reducible refine execCarapaceSramScrub_good ?_
    | with_reducible refine execCarapaceWdtExpiry_good ?_
    | with_reducible refine execClockMonitorCheck_good ?_
    | with_reducible refine execDebugAction_good ?_
    | with_reducible refine execMgmtDatagramSend_good ?_
    | with_reducible refine execMgmtFrameReceive_good ?_
    | with_reducible refine execMgmtLinkChange_good ?_
    | with_reducible refine execSmbusReadStatus_good ?_
    | with_reducible refine execSmbusReadLines_good ?_
    | with_reducible refine execSmbusReadTlog_good ?_
    | with_reducible refine execSmbusOtherCommand_good ?_
    | with_reducible refine execSafClrCnt_good ?_
    | with_reducible refine execFclClrCnt_good ?_
    | with_reducible refine execSecAttest_good ?_
    | with_reducible refine execAttestReportDone_good ?_
    | with_reducible refine execSecEnrol_good ?_
    | with_reducible refine execSecDebugChallenge_good ?_
    | with_reducible refine execSecDebugUnlock_good ?_
    | with_reducible refine execDebugChallengeExpiry_good ?_
    | with_reducible refine execObjectVerifyEnd_good ?_
    | with_reducible refine execIdRsaReady_good ?_
    | with_reducible refine execIdReady_good ?_
    | with_reducible refine execSecClrCnt_good ?_
    | with_reducible refine execMailboxRecord_good ?_
    | with_reducible refine execChainAppend_good ?_
    | with_reducible refine execEpochTimer_good ?_
    | with_reducible refine execSealDone_good ?_
    | with_reducible refine execCocoonResume_good ?_
    | with_reducible refine execCocoonWdtExpiry_good ?_
    | with_reducible refine execCocoonPowerFail_good ?_
    | with_reducible refine execCocExport_good ?_
    | with_reducible refine execCocExportDone_good ?_
    | with_reducible refine execCocUpdStart_good ?_
    | with_reducible refine execUpdateChunkSend_good ?_
    | with_reducible refine execCocClrCnt_good ?_
    | with_reducible refine execPersistentWrite_good ?_
    | with_reducible refine execLifetimeCounterFlush_good ?_
    | with_reducible refine execPoweredHour_good ?_
    | with_reducible refine execPwrClrCnt_good ?_
    | with_reducible refine execPrsClrCnt_good ?_
    | with_reducible refine execIllegalInstruction_good ?_
    | with_reducible refine execFeederCycle_good ?_
    | with_reducible refine execCarapaceWdtKick_good ?_
    | with_reducible refine execInternalKickRegister_good ?_
    | with_reducible refine execGptpEventTransmit_good ?_
    | with_reducible refine execRecorderUpdateVerify_good ?_
    | with_reducible refine Good.done ?_
    | split
    | dsimp only
    | with_reducible refine Good.upd ?_ rfl
    | (simp only [id_eq])
    | intro _ _
    | intro _

end Sys2Proof.Machine
end

