-- ==== Sys2Proof/Laws/KeepTick.lean ====
section
/-! SUPPORT. Every operation and command of Machine/Tick.lean keeps what `Good` says of a state. -/
namespace Sys2Proof.Machine

theorem tickOnce_good {pq fz s} (h_s : Good pq fz s) : Good pq fz (tickOnce s) :=
  ⟨h_s.1, h_s.2.1, h_s.2.2.1, Nat.mod_lt _ (by decide)⟩

end Sys2Proof.Machine
end

