-- ==== Sys2Proof/Laws/Skew.lean ====
section
/-! SUPPORT. The skew self-check (R112, R113): sound cells leave exactly the values that the patterns call for. -/
namespace Sys2Proof.Machine

/-- Where no fault adds anything, every accumulator value of both patterns is the expected one. -/
theorem skew_exact (slot : Nat) (second : Bool) (m c : Fin 32) : skewGot [] slot second m c = skewExpected second m c := by
  have h : ∀ (second : Bool) (m c : Fin 32), colSum 0 ((List.range 32).map (fun r => (skewVec m r, skewWeight second r c))) =
      skewExpected second m c := by decide +kernel
  exact h second m c

/-- With no fault no slot fails the self-check. -/
theorem skewFails_nil : skewFails [] = [] := rfl

end Sys2Proof.Machine
end

