-- ==== Sys2Proof/Laws/Tile.lean ====
section
/-! SUPPORT. What the issue of a tile instruction, the write of a register and the advance of the PC do. -/
namespace Sys2Proof.Machine

/-- A readable instruction of a running tile runs on the state as it is. -/
theorem State.issue_of_runs {s : State} {t : BitVec 11} {f : State → Nat → State} (h : s.runs t.toNat) :
    s.issue t f = f s t.toNat := by
  simp [State.issue, h.1, State.sramRead, h.2, State.each]

theorem State.issueC_of_runs {s : State} {t : BitVec 11} {f : State → Nat → State} (h : s.runs t.toNat)
    (e : (s.tile t.toNat).atLoopEnd = false) : s.issueC t f = f s t.toNat := by
  simp [State.issueC, State.issue_of_runs h, e]

/-- Where another instruction can follow, the advance moves the PC and the loops on and nothing else. -/
theorem State.advance_of_follows {s : State} {t : Nat} (h : s.follows t) : s.advance t = s.setTile t (s.moved t) := by
  simp only [State.follows, State.nextPc] at h
  simp only [State.advance, State.goOn, State.modTile, State.moved, State.nextPc]
  split
  · rename_i n; exact absurd h (Nat.not_le_of_gt n)
  · rfl

/-- A write of what tile `t` owns is in the sense of `TileOnly`. -/
theorem tileOnly_setTile (s : State) (t : Nat) (x : TileState) : TileOnly s (s.setTile t x) t :=
  ⟨rfl, fun _ h => State.tile_setTile_ne s h⟩

theorem TileOnly.trans {s u w : State} {t : Nat} (a : TileOnly s u t) (b : TileOnly u w t) : TileOnly s w t := by
  refine ⟨?_, fun k h => (b.2 k h).trans (a.2 k h)⟩
  rw [b.1, a.1]

theorem TileOnly.refl (s : State) (t : Nat) : TileOnly s s t := ⟨rfl, fun _ _ => rfl⟩

theorem TileOnly.setTile {s u : State} {t : Nat} (a : TileOnly s u t) (x : TileState) : TileOnly s (u.setTile t x) t :=
  a.trans (tileOnly_setTile u t x)

theorem tileOnly_setG (s : State) (t r v : Nat) : TileOnly s (s.setG t r v) t := by
  unfold State.setG
  split
  · exact TileOnly.refl s t
  · exact tileOnly_setTile s t _

/-- A register write changes the g registers of its tile and nothing else that the tile owns. -/
theorem State.setG_tile (s : State) (t r v : Nat) : (s.setG t r v).tile t = { s.tile t with g := ((s.setG t r v).tile t).g } := by
  unfold State.setG
  split
  · rfl
  · simp

theorem State.g_setG_same (s : State) (t r v : Nat) : (s.setG t r v).g t r = if r = 0 then 0 else v % 2 ^ 32 := by
  unfold State.g State.setG
  split
  · rfl
  · simp

theorem State.g_setG_ne (s : State) {t r v q : Nat} (h : q ≠ r) : (s.setG t r v).g t q = s.g t q := by
  unfold State.g State.setG
  split
  · rfl
  · split
    · rfl
    · simp [FMap.get_set_ne _ _ _ _ h]

theorem State.moved_congr {s u : State} {t : Nat} (hl : (u.tile t).loops = (s.tile t).loops) (hc : (u.tile t).lc = (s.tile t).lc)
    (hp : (u.tile t).pc = (s.tile t).pc) : u.nextPc t = s.nextPc t := by
  simp [State.nextPc, hl, hc, hp]

/-- A register write followed by the next instruction. -/
theorem wroteG_setG {s : State} {t r v : Nat} (h : s.follows t) : WroteG s ((s.setG t r v).advance t) t r (BitVec.ofNat 32 v) := by
  have e := s.setG_tile t r v
  have n : (s.setG t r v).nextPc t = s.nextPc t := State.moved_congr (by rw [e]) (by rw [e]) (by rw [e])
  have f : (s.setG t r v).follows t := by unfold State.follows; rw [n]; exact h
  have m : (s.setG t r v).moved t = { s.moved t with g := ((s.setG t r v).tile t).g } := by
    simp only [State.moved, n]
    rw [e]
  have g : ∀ q, ((s.setG t r v).advance t).g t q = (s.setG t r v).g t q := by
    intro q
    rw [State.advance_of_follows f, m]
    simp [State.g]
  refine ⟨?_, ?_, ?_, ?_⟩
  · rw [State.advance_of_follows f]; exact (tileOnly_setG s t r v).setTile _
  · rw [State.advance_of_follows f, m]; simp
  · rw [g, State.g_setG_same]; simp
  · intro q hq; rw [g, State.g_setG_ne s hq]

/-! Vector registers. -/

/-- The lanes that a write of a list leaves: the list's values in the register's lanes, the others as they were. -/
theorem lanes_foldl (r : Nat) (l : List Nat) (n : Nat) (m : FMap (BitVec 32)) (k : Nat) :
    FMap.get 0#32 ((l.zipIdx n).foldl (fun m e => FMap.set 0#32 m (64 * r + e.2) (BitVec.ofNat 32 e.1)) m) k =
      if 64 * r + n ≤ k ∧ k < 64 * r + n + l.length then BitVec.ofNat 32 (l.getD (k - (64 * r + n)) 0) else FMap.get 0#32 m k := by
  induction l generalizing n m with
  | nil => rw [List.zipIdx_nil, List.foldl_nil, if_neg (by simp)]
  | cons a l ih =>
    rw [List.zipIdx_cons, List.foldl_cons, ih]
    simp only [List.length_cons]
    by_cases h : k = 64 * r + n
    · subst h
      rw [if_neg (by omega), if_pos (by omega)]
      simp
    · by_cases h1 : 64 * r + (n + 1) ≤ k ∧ k < 64 * r + (n + 1) + l.length
      · rw [if_pos h1, if_pos (by omega), show k - (64 * r + n) = k - (64 * r + (n + 1)) + 1 by omega, List.getD_cons_succ]
      · rw [if_neg h1, if_neg (by omega), FMap.get_set_ne _ _ _ _ h]

theorem State.setV_tile (s : State) (t r : Nat) (l : List Nat) :
    (s.setV t r l).tile t = { s.tile t with v := ((s.setV t r l).tile t).v } := by
  simp [State.setV]

theorem State.lane_setV (s : State) {t r : Nat} {l : List Nat} (h : l.length = 64) {q i : Nat} (hi : i < 64) :
    (s.setV t r l).lane t q i = if q = r then l.getD i 0 % 2 ^ 32 else s.lane t q i := by
  simp only [State.lane, State.setV, State.tile_modTile_same]
  rw [lanes_foldl]
  by_cases e : q = r
  · subst e
    rw [if_pos (by omega), if_pos rfl, BitVec.toNat_ofNat]
    congr 2
    omega
  · rw [if_neg (by omega), if_neg e]

/-- A vector register write followed by the next instruction. -/
theorem wroteV_setV {s : State} {t r : Nat} {l : List Nat} (h : s.follows t) (hl : l.length = 64) :
    WroteV s ((s.setV t r l).advance t) t r (fun i => l.getD i 0 % 2 ^ 32) := by
  have e := s.setV_tile t r l
  have n : (s.setV t r l).nextPc t = s.nextPc t := State.moved_congr (by rw [e]) (by rw [e]) (by rw [e])
  have f : (s.setV t r l).follows t := by unfold State.follows; rw [n]; exact h
  have m : (s.setV t r l).moved t = { s.moved t with v := ((s.setV t r l).tile t).v } := by
    simp only [State.moved, n]
    rw [e]
  have g : ∀ q i, ((s.setV t r l).advance t).lane t q i = (s.setV t r l).lane t q i := by
    intro q i
    rw [State.advance_of_follows f, m]
    simp [State.lane]
  refine ⟨?_, ?_, ?_, ?_⟩
  · rw [State.advance_of_follows f]; exact (tileOnly_setTile s t _).setTile _
  · rw [State.advance_of_follows f, m]; simp
  · intro i hi; rw [g, s.lane_setV hl hi, if_pos rfl]
  · intro q i hq hi; rw [g, s.lane_setV hl hi, if_neg hq]

end Sys2Proof.Machine
end

