-- ==== Sys2Proof/Laws/Updates.lean ====
section
/-! SUPPORT. What the named updates of streams, pipelines, jobs, ports, watchdogs and engines leave as it was, and what they make of their own entry. -/
namespace Sys2Proof.Machine

@[simp] theorem State.modStrm_tick (s : State) (n : Nat) (f : Stream → Stream) : (s.modStrm n f).tick = s.tick := rfl
@[simp] theorem State.modStrm_fuses (s : State) (n : Nat) (f : Stream → Stream) : (s.modStrm n f).fuses = s.fuses := rfl
@[simp] theorem State.modStrm_cfg (s : State) (n : Nat) (f : Stream → Stream) : (s.modStrm n f).cfg = s.cfg := rfl
@[simp] theorem State.modStrm_dev (s : State) (n : Nat) (f : Stream → Stream) : (s.modStrm n f).dev = s.dev := rfl
@[simp] theorem State.modStrm_regs (s : State) (n : Nat) (f : Stream → Stream) : (s.modStrm n f).regs = s.regs := rfl
@[simp] theorem State.modStrm_mem (s : State) (n : Nat) (f : Stream → Stream) : (s.modStrm n f).mem = s.mem := rfl
@[simp] theorem State.modStrm_chans (s : State) (n : Nat) (f : Stream → Stream) : (s.modStrm n f).chans = s.chans := rfl
@[simp] theorem State.modStrm_swarm (s : State) (n : Nat) (f : Stream → Stream) : (s.modStrm n f).swarm = s.swarm := rfl
@[simp] theorem State.modStrm_mesh (s : State) (n : Nat) (f : Stream → Stream) : (s.modStrm n f).mesh = s.mesh := rfl
@[simp] theorem State.modStrm_sched (s : State) (n : Nat) (f : Stream → Stream) : (s.modStrm n f).sched = s.sched := rfl
@[simp] theorem State.modStrm_host (s : State) (n : Nat) (f : Stream → Stream) : (s.modStrm n f).host = s.host := rfl
@[simp] theorem State.modStrm_modes (s : State) (n : Nat) (f : Stream → Stream) : (s.modStrm n f).modes = s.modes := rfl
@[simp] theorem State.modStrm_fw (s : State) (n : Nat) (f : Stream → Stream) : (s.modStrm n f).fw = s.fw := rfl
@[simp] theorem State.modStrm_cara (s : State) (n : Nat) (f : Stream → Stream) : (s.modStrm n f).cara = s.cara := rfl
@[simp] theorem State.modStrm_chk (s : State) (n : Nat) (f : Stream → Stream) : (s.modStrm n f).chk = s.chk := rfl
@[simp] theorem State.modStrm_sec (s : State) (n : Nat) (f : Stream → Stream) : (s.modStrm n f).sec = s.sec := rfl
@[simp] theorem State.modStrm_coc (s : State) (n : Nat) (f : Stream → Stream) : (s.modStrm n f).coc = s.coc := rfl
@[simp] theorem State.modStrm_pwr (s : State) (n : Nat) (f : Stream → Stream) : (s.modStrm n f).pwr = s.pwr := rfl
@[simp] theorem State.modStrm_prs (s : State) (n : Nat) (f : Stream → Stream) : (s.modStrm n f).prs = s.prs := rfl
@[simp] theorem State.modStrm_freeCtr (s : State) (n : Nat) (f : Stream → Stream) : (s.modStrm n f).freeCtr = s.freeCtr := rfl
@[simp] theorem State.modStrm_pending (s : State) (n : Nat) (f : Stream → Stream) : (s.modStrm n f).pending = s.pending := rfl
@[simp] theorem State.modStrm_rd (s : State) (n : Nat) (f : Stream → Stream) (F : Fld) (j : Nat) : (s.modStrm n f).rd F j = s.rd F j := rfl
@[simp] theorem State.modStrm_tile (s : State) (n : Nat) (f : Stream → Stream) (k : Nat) : (s.modStrm n f).tile k = s.tile k := rfl
@[simp] theorem State.modStrm_brood (s : State) (n : Nat) (f : Stream → Stream) (k : Nat) : (s.modStrm n f).brood k = s.brood k := rfl
@[simp] theorem State.modStrm_slot (s : State) (n : Nat) (f : Stream → Stream) (k : Nat) : (s.modStrm n f).slot k = s.slot k := rfl
@[simp] theorem State.modStrm_chan (s : State) (n : Nat) (f : Stream → Stream) (k : Nat) : (s.modStrm n f).chan k = s.chan k := rfl
@[simp] theorem State.modStrm_peek (s : State) (n : Nat) (f : Stream → Stream) (k : Nat) : (s.modStrm n f).peek k = s.peek k := rfl
@[simp] theorem State.modStrm_port (s : State) (n : Nat) (f : Stream → Stream) (k : Nat) : (s.modStrm n f).port k = s.port k := rfl
@[simp] theorem State.modStrm_win (s : State) (n : Nat) (f : Stream → Stream) (k : Nat) : (s.modStrm n f).win k = s.win k := rfl
@[simp] theorem State.modStrm_unit (s : State) (n : Nat) (f : Stream → Stream) (k v : Nat) : (s.modStrm n f).unit k v = s.unit k v := rfl
@[simp] theorem State.modStrm_warp (s : State) (n : Nat) (f : Stream → Stream) (k : Nat) : (s.modStrm n f).warp k = s.warp k := rfl
@[simp] theorem State.modStrm_jxs (s : State) (n : Nat) (f : Stream → Stream) (k : Nat) : (s.modStrm n f).jxs k = s.jxs k := rfl
@[simp] theorem State.modStrm_prsWord (s : State) (n : Nat) (f : Stream → Stream) (k : Nat) : (s.modStrm n f).prsWord k = s.prsWord k := rfl

@[simp] theorem State.modPipe_tick (s : State) (p : Nat) (f : Pipeline → Pipeline) : (s.modPipe p f).tick = s.tick := rfl
@[simp] theorem State.modPipe_fuses (s : State) (p : Nat) (f : Pipeline → Pipeline) : (s.modPipe p f).fuses = s.fuses := rfl
@[simp] theorem State.modPipe_cfg (s : State) (p : Nat) (f : Pipeline → Pipeline) : (s.modPipe p f).cfg = s.cfg := rfl
@[simp] theorem State.modPipe_dev (s : State) (p : Nat) (f : Pipeline → Pipeline) : (s.modPipe p f).dev = s.dev := rfl
@[simp] theorem State.modPipe_regs (s : State) (p : Nat) (f : Pipeline → Pipeline) : (s.modPipe p f).regs = s.regs := rfl
@[simp] theorem State.modPipe_mem (s : State) (p : Nat) (f : Pipeline → Pipeline) : (s.modPipe p f).mem = s.mem := rfl
@[simp] theorem State.modPipe_chans (s : State) (p : Nat) (f : Pipeline → Pipeline) : (s.modPipe p f).chans = s.chans := rfl
@[simp] theorem State.modPipe_swarm (s : State) (p : Nat) (f : Pipeline → Pipeline) : (s.modPipe p f).swarm = s.swarm := rfl
@[simp] theorem State.modPipe_mesh (s : State) (p : Nat) (f : Pipeline → Pipeline) : (s.modPipe p f).mesh = s.mesh := rfl
@[simp] theorem State.modPipe_intake (s : State) (p : Nat) (f : Pipeline → Pipeline) : (s.modPipe p f).intake = s.intake := rfl
@[simp] theorem State.modPipe_host (s : State) (p : Nat) (f : Pipeline → Pipeline) : (s.modPipe p f).host = s.host := rfl
@[simp] theorem State.modPipe_modes (s : State) (p : Nat) (f : Pipeline → Pipeline) : (s.modPipe p f).modes = s.modes := rfl
@[simp] theorem State.modPipe_fw (s : State) (p : Nat) (f : Pipeline → Pipeline) : (s.modPipe p f).fw = s.fw := rfl
@[simp] theorem State.modPipe_cara (s : State) (p : Nat) (f : Pipeline → Pipeline) : (s.modPipe p f).cara = s.cara := rfl
@[simp] theorem State.modPipe_chk (s : State) (p : Nat) (f : Pipeline → Pipeline) : (s.modPipe p f).chk = s.chk := rfl
@[simp] theorem State.modPipe_sec (s : State) (p : Nat) (f : Pipeline → Pipeline) : (s.modPipe p f).sec = s.sec := rfl
@[simp] theorem State.modPipe_coc (s : State) (p : Nat) (f : Pipeline → Pipeline) : (s.modPipe p f).coc = s.coc := rfl
@[simp] theorem State.modPipe_pwr (s : State) (p : Nat) (f : Pipeline → Pipeline) : (s.modPipe p f).pwr = s.pwr := rfl
@[simp] theorem State.modPipe_prs (s : State) (p : Nat) (f : Pipeline → Pipeline) : (s.modPipe p f).prs = s.prs := rfl
@[simp] theorem State.modPipe_freeCtr (s : State) (p : Nat) (f : Pipeline → Pipeline) : (s.modPipe p f).freeCtr = s.freeCtr := rfl
@[simp] theorem State.modPipe_pending (s : State) (p : Nat) (f : Pipeline → Pipeline) : (s.modPipe p f).pending = s.pending := rfl
@[simp] theorem State.modPipe_rd (s : State) (p : Nat) (f : Pipeline → Pipeline) (F : Fld) (j : Nat) : (s.modPipe p f).rd F j = s.rd F j := rfl
@[simp] theorem State.modPipe_tile (s : State) (p : Nat) (f : Pipeline → Pipeline) (k : Nat) : (s.modPipe p f).tile k = s.tile k := rfl
@[simp] theorem State.modPipe_brood (s : State) (p : Nat) (f : Pipeline → Pipeline) (k : Nat) : (s.modPipe p f).brood k = s.brood k := rfl
@[simp] theorem State.modPipe_slot (s : State) (p : Nat) (f : Pipeline → Pipeline) (k : Nat) : (s.modPipe p f).slot k = s.slot k := rfl
@[simp] theorem State.modPipe_chan (s : State) (p : Nat) (f : Pipeline → Pipeline) (k : Nat) : (s.modPipe p f).chan k = s.chan k := rfl
@[simp] theorem State.modPipe_peek (s : State) (p : Nat) (f : Pipeline → Pipeline) (k : Nat) : (s.modPipe p f).peek k = s.peek k := rfl
@[simp] theorem State.modPipe_port (s : State) (p : Nat) (f : Pipeline → Pipeline) (k : Nat) : (s.modPipe p f).port k = s.port k := rfl
@[simp] theorem State.modPipe_strm (s : State) (p : Nat) (f : Pipeline → Pipeline) (k : Nat) : (s.modPipe p f).strm k = s.strm k := rfl
@[simp] theorem State.modPipe_win (s : State) (p : Nat) (f : Pipeline → Pipeline) (k : Nat) : (s.modPipe p f).win k = s.win k := rfl
@[simp] theorem State.modPipe_unit (s : State) (p : Nat) (f : Pipeline → Pipeline) (k v : Nat) : (s.modPipe p f).unit k v = s.unit k v := rfl
@[simp] theorem State.modPipe_warp (s : State) (p : Nat) (f : Pipeline → Pipeline) (k : Nat) : (s.modPipe p f).warp k = s.warp k := rfl
@[simp] theorem State.modPipe_jxs (s : State) (p : Nat) (f : Pipeline → Pipeline) (k : Nat) : (s.modPipe p f).jxs k = s.jxs k := rfl
@[simp] theorem State.modPipe_prsWord (s : State) (p : Nat) (f : Pipeline → Pipeline) (k : Nat) : (s.modPipe p f).prsWord k = s.prsWord k := rfl

@[simp] theorem State.modFrame_tick (s : State) (p n : Nat) (g : Frame → Frame) : (s.modFrame p n g).tick = s.tick := rfl
@[simp] theorem State.modFrame_fuses (s : State) (p n : Nat) (g : Frame → Frame) : (s.modFrame p n g).fuses = s.fuses := rfl
@[simp] theorem State.modFrame_cfg (s : State) (p n : Nat) (g : Frame → Frame) : (s.modFrame p n g).cfg = s.cfg := rfl
@[simp] theorem State.modFrame_dev (s : State) (p n : Nat) (g : Frame → Frame) : (s.modFrame p n g).dev = s.dev := rfl
@[simp] theorem State.modFrame_regs (s : State) (p n : Nat) (g : Frame → Frame) : (s.modFrame p n g).regs = s.regs := rfl
@[simp] theorem State.modFrame_mem (s : State) (p n : Nat) (g : Frame → Frame) : (s.modFrame p n g).mem = s.mem := rfl
@[simp] theorem State.modFrame_chans (s : State) (p n : Nat) (g : Frame → Frame) : (s.modFrame p n g).chans = s.chans := rfl
@[simp] theorem State.modFrame_swarm (s : State) (p n : Nat) (g : Frame → Frame) : (s.modFrame p n g).swarm = s.swarm := rfl
@[simp] theorem State.modFrame_mesh (s : State) (p n : Nat) (g : Frame → Frame) : (s.modFrame p n g).mesh = s.mesh := rfl
@[simp] theorem State.modFrame_intake (s : State) (p n : Nat) (g : Frame → Frame) : (s.modFrame p n g).intake = s.intake := rfl
@[simp] theorem State.modFrame_host (s : State) (p n : Nat) (g : Frame → Frame) : (s.modFrame p n g).host = s.host := rfl
@[simp] theorem State.modFrame_modes (s : State) (p n : Nat) (g : Frame → Frame) : (s.modFrame p n g).modes = s.modes := rfl
@[simp] theorem State.modFrame_fw (s : State) (p n : Nat) (g : Frame → Frame) : (s.modFrame p n g).fw = s.fw := rfl
@[simp] theorem State.modFrame_cara (s : State) (p n : Nat) (g : Frame → Frame) : (s.modFrame p n g).cara = s.cara := rfl
@[simp] theorem State.modFrame_chk (s : State) (p n : Nat) (g : Frame → Frame) : (s.modFrame p n g).chk = s.chk := rfl
@[simp] theorem State.modFrame_sec (s : State) (p n : Nat) (g : Frame → Frame) : (s.modFrame p n g).sec = s.sec := rfl
@[simp] theorem State.modFrame_coc (s : State) (p n : Nat) (g : Frame → Frame) : (s.modFrame p n g).coc = s.coc := rfl
@[simp] theorem State.modFrame_pwr (s : State) (p n : Nat) (g : Frame → Frame) : (s.modFrame p n g).pwr = s.pwr := rfl
@[simp] theorem State.modFrame_prs (s : State) (p n : Nat) (g : Frame → Frame) : (s.modFrame p n g).prs = s.prs := rfl
@[simp] theorem State.modFrame_freeCtr (s : State) (p n : Nat) (g : Frame → Frame) : (s.modFrame p n g).freeCtr = s.freeCtr := rfl
@[simp] theorem State.modFrame_pending (s : State) (p n : Nat) (g : Frame → Frame) : (s.modFrame p n g).pending = s.pending := rfl
@[simp] theorem State.modFrame_rd (s : State) (p n : Nat) (g : Frame → Frame) (F : Fld) (j : Nat) : (s.modFrame p n g).rd F j = s.rd F j := rfl
@[simp] theorem State.modFrame_tile (s : State) (p n : Nat) (g : Frame → Frame) (k : Nat) : (s.modFrame p n g).tile k = s.tile k := rfl
@[simp] theorem State.modFrame_brood (s : State) (p n : Nat) (g : Frame → Frame) (k : Nat) : (s.modFrame p n g).brood k = s.brood k := rfl
@[simp] theorem State.modFrame_slot (s : State) (p n : Nat) (g : Frame → Frame) (k : Nat) : (s.modFrame p n g).slot k = s.slot k := rfl
@[simp] theorem State.modFrame_chan (s : State) (p n : Nat) (g : Frame → Frame) (k : Nat) : (s.modFrame p n g).chan k = s.chan k := rfl
@[simp] theorem State.modFrame_peek (s : State) (p n : Nat) (g : Frame → Frame) (k : Nat) : (s.modFrame p n g).peek k = s.peek k := rfl
@[simp] theorem State.modFrame_port (s : State) (p n : Nat) (g : Frame → Frame) (k : Nat) : (s.modFrame p n g).port k = s.port k := rfl
@[simp] theorem State.modFrame_strm (s : State) (p n : Nat) (g : Frame → Frame) (k : Nat) : (s.modFrame p n g).strm k = s.strm k := rfl
@[simp] theorem State.modFrame_win (s : State) (p n : Nat) (g : Frame → Frame) (k : Nat) : (s.modFrame p n g).win k = s.win k := rfl
@[simp] theorem State.modFrame_unit (s : State) (p n : Nat) (g : Frame → Frame) (k v : Nat) : (s.modFrame p n g).unit k v = s.unit k v := rfl
@[simp] theorem State.modFrame_warp (s : State) (p n : Nat) (g : Frame → Frame) (k : Nat) : (s.modFrame p n g).warp k = s.warp k := rfl
@[simp] theorem State.modFrame_jxs (s : State) (p n : Nat) (g : Frame → Frame) (k : Nat) : (s.modFrame p n g).jxs k = s.jxs k := rfl
@[simp] theorem State.modFrame_prsWord (s : State) (p n : Nat) (g : Frame → Frame) (k : Nat) : (s.modFrame p n g).prsWord k = s.prsWord k := rfl

@[simp] theorem State.modJob_tick (s : State) (i : Nat) (f : Job → Job) : (s.modJob i f).tick = s.tick := rfl
@[simp] theorem State.modJob_fuses (s : State) (i : Nat) (f : Job → Job) : (s.modJob i f).fuses = s.fuses := rfl
@[simp] theorem State.modJob_cfg (s : State) (i : Nat) (f : Job → Job) : (s.modJob i f).cfg = s.cfg := rfl
@[simp] theorem State.modJob_dev (s : State) (i : Nat) (f : Job → Job) : (s.modJob i f).dev = s.dev := rfl
@[simp] theorem State.modJob_regs (s : State) (i : Nat) (f : Job → Job) : (s.modJob i f).regs = s.regs := rfl
@[simp] theorem State.modJob_mem (s : State) (i : Nat) (f : Job → Job) : (s.modJob i f).mem = s.mem := rfl
@[simp] theorem State.modJob_chans (s : State) (i : Nat) (f : Job → Job) : (s.modJob i f).chans = s.chans := rfl
@[simp] theorem State.modJob_swarm (s : State) (i : Nat) (f : Job → Job) : (s.modJob i f).swarm = s.swarm := rfl
@[simp] theorem State.modJob_mesh (s : State) (i : Nat) (f : Job → Job) : (s.modJob i f).mesh = s.mesh := rfl
@[simp] theorem State.modJob_intake (s : State) (i : Nat) (f : Job → Job) : (s.modJob i f).intake = s.intake := rfl
@[simp] theorem State.modJob_host (s : State) (i : Nat) (f : Job → Job) : (s.modJob i f).host = s.host := rfl
@[simp] theorem State.modJob_modes (s : State) (i : Nat) (f : Job → Job) : (s.modJob i f).modes = s.modes := rfl
@[simp] theorem State.modJob_fw (s : State) (i : Nat) (f : Job → Job) : (s.modJob i f).fw = s.fw := rfl
@[simp] theorem State.modJob_cara (s : State) (i : Nat) (f : Job → Job) : (s.modJob i f).cara = s.cara := rfl
@[simp] theorem State.modJob_chk (s : State) (i : Nat) (f : Job → Job) : (s.modJob i f).chk = s.chk := rfl
@[simp] theorem State.modJob_sec (s : State) (i : Nat) (f : Job → Job) : (s.modJob i f).sec = s.sec := rfl
@[simp] theorem State.modJob_coc (s : State) (i : Nat) (f : Job → Job) : (s.modJob i f).coc = s.coc := rfl
@[simp] theorem State.modJob_pwr (s : State) (i : Nat) (f : Job → Job) : (s.modJob i f).pwr = s.pwr := rfl
@[simp] theorem State.modJob_prs (s : State) (i : Nat) (f : Job → Job) : (s.modJob i f).prs = s.prs := rfl
@[simp] theorem State.modJob_freeCtr (s : State) (i : Nat) (f : Job → Job) : (s.modJob i f).freeCtr = s.freeCtr := rfl
@[simp] theorem State.modJob_pending (s : State) (i : Nat) (f : Job → Job) : (s.modJob i f).pending = s.pending := rfl
@[simp] theorem State.modJob_rd (s : State) (i : Nat) (f : Job → Job) (F : Fld) (j : Nat) : (s.modJob i f).rd F j = s.rd F j := rfl
@[simp] theorem State.modJob_tile (s : State) (i : Nat) (f : Job → Job) (k : Nat) : (s.modJob i f).tile k = s.tile k := rfl
@[simp] theorem State.modJob_brood (s : State) (i : Nat) (f : Job → Job) (k : Nat) : (s.modJob i f).brood k = s.brood k := rfl
@[simp] theorem State.modJob_slot (s : State) (i : Nat) (f : Job → Job) (k : Nat) : (s.modJob i f).slot k = s.slot k := rfl
@[simp] theorem State.modJob_chan (s : State) (i : Nat) (f : Job → Job) (k : Nat) : (s.modJob i f).chan k = s.chan k := rfl
@[simp] theorem State.modJob_peek (s : State) (i : Nat) (f : Job → Job) (k : Nat) : (s.modJob i f).peek k = s.peek k := rfl
@[simp] theorem State.modJob_port (s : State) (i : Nat) (f : Job → Job) (k : Nat) : (s.modJob i f).port k = s.port k := rfl
@[simp] theorem State.modJob_strm (s : State) (i : Nat) (f : Job → Job) (k : Nat) : (s.modJob i f).strm k = s.strm k := rfl
@[simp] theorem State.modJob_win (s : State) (i : Nat) (f : Job → Job) (k : Nat) : (s.modJob i f).win k = s.win k := rfl
@[simp] theorem State.modJob_unit (s : State) (i : Nat) (f : Job → Job) (k v : Nat) : (s.modJob i f).unit k v = s.unit k v := rfl
@[simp] theorem State.modJob_warp (s : State) (i : Nat) (f : Job → Job) (k : Nat) : (s.modJob i f).warp k = s.warp k := rfl
@[simp] theorem State.modJob_jxs (s : State) (i : Nat) (f : Job → Job) (k : Nat) : (s.modJob i f).jxs k = s.jxs k := rfl
@[simp] theorem State.modJob_prsWord (s : State) (i : Nat) (f : Job → Job) (k : Nat) : (s.modJob i f).prsWord k = s.prsWord k := rfl

@[simp] theorem State.modPort_tick (s : State) (p : Nat) (f : Port → Port) : (s.modPort p f).tick = s.tick := rfl
@[simp] theorem State.modPort_fuses (s : State) (p : Nat) (f : Port → Port) : (s.modPort p f).fuses = s.fuses := rfl
@[simp] theorem State.modPort_cfg (s : State) (p : Nat) (f : Port → Port) : (s.modPort p f).cfg = s.cfg := rfl
@[simp] theorem State.modPort_dev (s : State) (p : Nat) (f : Port → Port) : (s.modPort p f).dev = s.dev := rfl
@[simp] theorem State.modPort_regs (s : State) (p : Nat) (f : Port → Port) : (s.modPort p f).regs = s.regs := rfl
@[simp] theorem State.modPort_mem (s : State) (p : Nat) (f : Port → Port) : (s.modPort p f).mem = s.mem := rfl
@[simp] theorem State.modPort_chans (s : State) (p : Nat) (f : Port → Port) : (s.modPort p f).chans = s.chans := rfl
@[simp] theorem State.modPort_swarm (s : State) (p : Nat) (f : Port → Port) : (s.modPort p f).swarm = s.swarm := rfl
@[simp] theorem State.modPort_sched (s : State) (p : Nat) (f : Port → Port) : (s.modPort p f).sched = s.sched := rfl
@[simp] theorem State.modPort_intake (s : State) (p : Nat) (f : Port → Port) : (s.modPort p f).intake = s.intake := rfl
@[simp] theorem State.modPort_host (s : State) (p : Nat) (f : Port → Port) : (s.modPort p f).host = s.host := rfl
@[simp] theorem State.modPort_modes (s : State) (p : Nat) (f : Port → Port) : (s.modPort p f).modes = s.modes := rfl
@[simp] theorem State.modPort_fw (s : State) (p : Nat) (f : Port → Port) : (s.modPort p f).fw = s.fw := rfl
@[simp] theorem State.modPort_cara (s : State) (p : Nat) (f : Port → Port) : (s.modPort p f).cara = s.cara := rfl
@[simp] theorem State.modPort_chk (s : State) (p : Nat) (f : Port → Port) : (s.modPort p f).chk = s.chk := rfl
@[simp] theorem State.modPort_sec (s : State) (p : Nat) (f : Port → Port) : (s.modPort p f).sec = s.sec := rfl
@[simp] theorem State.modPort_coc (s : State) (p : Nat) (f : Port → Port) : (s.modPort p f).coc = s.coc := rfl
@[simp] theorem State.modPort_pwr (s : State) (p : Nat) (f : Port → Port) : (s.modPort p f).pwr = s.pwr := rfl
@[simp] theorem State.modPort_prs (s : State) (p : Nat) (f : Port → Port) : (s.modPort p f).prs = s.prs := rfl
@[simp] theorem State.modPort_freeCtr (s : State) (p : Nat) (f : Port → Port) : (s.modPort p f).freeCtr = s.freeCtr := rfl
@[simp] theorem State.modPort_pending (s : State) (p : Nat) (f : Port → Port) : (s.modPort p f).pending = s.pending := rfl
@[simp] theorem State.modPort_rd (s : State) (p : Nat) (f : Port → Port) (F : Fld) (j : Nat) : (s.modPort p f).rd F j = s.rd F j := rfl
@[simp] theorem State.modPort_tile (s : State) (p : Nat) (f : Port → Port) (k : Nat) : (s.modPort p f).tile k = s.tile k := rfl
@[simp] theorem State.modPort_brood (s : State) (p : Nat) (f : Port → Port) (k : Nat) : (s.modPort p f).brood k = s.brood k := rfl
@[simp] theorem State.modPort_slot (s : State) (p : Nat) (f : Port → Port) (k : Nat) : (s.modPort p f).slot k = s.slot k := rfl
@[simp] theorem State.modPort_chan (s : State) (p : Nat) (f : Port → Port) (k : Nat) : (s.modPort p f).chan k = s.chan k := rfl
@[simp] theorem State.modPort_peek (s : State) (p : Nat) (f : Port → Port) (k : Nat) : (s.modPort p f).peek k = s.peek k := rfl
@[simp] theorem State.modPort_strm (s : State) (p : Nat) (f : Port → Port) (k : Nat) : (s.modPort p f).strm k = s.strm k := rfl
@[simp] theorem State.modPort_win (s : State) (p : Nat) (f : Port → Port) (k : Nat) : (s.modPort p f).win k = s.win k := rfl
@[simp] theorem State.modPort_unit (s : State) (p : Nat) (f : Port → Port) (k v : Nat) : (s.modPort p f).unit k v = s.unit k v := rfl
@[simp] theorem State.modPort_warp (s : State) (p : Nat) (f : Port → Port) (k : Nat) : (s.modPort p f).warp k = s.warp k := rfl
@[simp] theorem State.modPort_jxs (s : State) (p : Nat) (f : Port → Port) (k : Nat) : (s.modPort p f).jxs k = s.jxs k := rfl
@[simp] theorem State.modPort_prsWord (s : State) (p : Nat) (f : Port → Port) (k : Nat) : (s.modPort p f).prsWord k = s.prsWord k := rfl

@[simp] theorem State.modWin_tick (s : State) (n : Nat) (f : Win → Win) : (s.modWin n f).tick = s.tick := rfl
@[simp] theorem State.modWin_fuses (s : State) (n : Nat) (f : Win → Win) : (s.modWin n f).fuses = s.fuses := rfl
@[simp] theorem State.modWin_cfg (s : State) (n : Nat) (f : Win → Win) : (s.modWin n f).cfg = s.cfg := rfl
@[simp] theorem State.modWin_dev (s : State) (n : Nat) (f : Win → Win) : (s.modWin n f).dev = s.dev := rfl
@[simp] theorem State.modWin_regs (s : State) (n : Nat) (f : Win → Win) : (s.modWin n f).regs = s.regs := rfl
@[simp] theorem State.modWin_mem (s : State) (n : Nat) (f : Win → Win) : (s.modWin n f).mem = s.mem := rfl
@[simp] theorem State.modWin_chans (s : State) (n : Nat) (f : Win → Win) : (s.modWin n f).chans = s.chans := rfl
@[simp] theorem State.modWin_swarm (s : State) (n : Nat) (f : Win → Win) : (s.modWin n f).swarm = s.swarm := rfl
@[simp] theorem State.modWin_mesh (s : State) (n : Nat) (f : Win → Win) : (s.modWin n f).mesh = s.mesh := rfl
@[simp] theorem State.modWin_sched (s : State) (n : Nat) (f : Win → Win) : (s.modWin n f).sched = s.sched := rfl
@[simp] theorem State.modWin_intake (s : State) (n : Nat) (f : Win → Win) : (s.modWin n f).intake = s.intake := rfl
@[simp] theorem State.modWin_host (s : State) (n : Nat) (f : Win → Win) : (s.modWin n f).host = s.host := rfl
@[simp] theorem State.modWin_modes (s : State) (n : Nat) (f : Win → Win) : (s.modWin n f).modes = s.modes := rfl
@[simp] theorem State.modWin_fw (s : State) (n : Nat) (f : Win → Win) : (s.modWin n f).fw = s.fw := rfl
@[simp] theorem State.modWin_chk (s : State) (n : Nat) (f : Win → Win) : (s.modWin n f).chk = s.chk := rfl
@[simp] theorem State.modWin_sec (s : State) (n : Nat) (f : Win → Win) : (s.modWin n f).sec = s.sec := rfl
@[simp] theorem State.modWin_coc (s : State) (n : Nat) (f : Win → Win) : (s.modWin n f).coc = s.coc := rfl
@[simp] theorem State.modWin_pwr (s : State) (n : Nat) (f : Win → Win) : (s.modWin n f).pwr = s.pwr := rfl
@[simp] theorem State.modWin_prs (s : State) (n : Nat) (f : Win → Win) : (s.modWin n f).prs = s.prs := rfl
@[simp] theorem State.modWin_freeCtr (s : State) (n : Nat) (f : Win → Win) : (s.modWin n f).freeCtr = s.freeCtr := rfl
@[simp] theorem State.modWin_pending (s : State) (n : Nat) (f : Win → Win) : (s.modWin n f).pending = s.pending := rfl
@[simp] theorem State.modWin_rd (s : State) (n : Nat) (f : Win → Win) (F : Fld) (j : Nat) : (s.modWin n f).rd F j = s.rd F j := rfl
@[simp] theorem State.modWin_tile (s : State) (n : Nat) (f : Win → Win) (k : Nat) : (s.modWin n f).tile k = s.tile k := rfl
@[simp] theorem State.modWin_brood (s : State) (n : Nat) (f : Win → Win) (k : Nat) : (s.modWin n f).brood k = s.brood k := rfl
@[simp] theorem State.modWin_slot (s : State) (n : Nat) (f : Win → Win) (k : Nat) : (s.modWin n f).slot k = s.slot k := rfl
@[simp] theorem State.modWin_chan (s : State) (n : Nat) (f : Win → Win) (k : Nat) : (s.modWin n f).chan k = s.chan k := rfl
@[simp] theorem State.modWin_peek (s : State) (n : Nat) (f : Win → Win) (k : Nat) : (s.modWin n f).peek k = s.peek k := rfl
@[simp] theorem State.modWin_port (s : State) (n : Nat) (f : Win → Win) (k : Nat) : (s.modWin n f).port k = s.port k := rfl
@[simp] theorem State.modWin_strm (s : State) (n : Nat) (f : Win → Win) (k : Nat) : (s.modWin n f).strm k = s.strm k := rfl
@[simp] theorem State.modWin_unit (s : State) (n : Nat) (f : Win → Win) (k v : Nat) : (s.modWin n f).unit k v = s.unit k v := rfl
@[simp] theorem State.modWin_warp (s : State) (n : Nat) (f : Win → Win) (k : Nat) : (s.modWin n f).warp k = s.warp k := rfl
@[simp] theorem State.modWin_jxs (s : State) (n : Nat) (f : Win → Win) (k : Nat) : (s.modWin n f).jxs k = s.jxs k := rfl
@[simp] theorem State.modWin_prsWord (s : State) (n : Nat) (f : Win → Win) (k : Nat) : (s.modWin n f).prsWord k = s.prsWord k := rfl

@[simp] theorem State.modUnit_tick (s : State) (row u : Nat) (f : Unit → Unit) : (s.modUnit row u f).tick = s.tick := rfl
@[simp] theorem State.modUnit_fuses (s : State) (row u : Nat) (f : Unit → Unit) : (s.modUnit row u f).fuses = s.fuses := rfl
@[simp] theorem State.modUnit_cfg (s : State) (row u : Nat) (f : Unit → Unit) : (s.modUnit row u f).cfg = s.cfg := rfl
@[simp] theorem State.modUnit_dev (s : State) (row u : Nat) (f : Unit → Unit) : (s.modUnit row u f).dev = s.dev := rfl
@[simp] theorem State.modUnit_regs (s : State) (row u : Nat) (f : Unit → Unit) : (s.modUnit row u f).regs = s.regs := rfl
@[simp] theorem State.modUnit_mem (s : State) (row u : Nat) (f : Unit → Unit) : (s.modUnit row u f).mem = s.mem := rfl
@[simp] theorem State.modUnit_chans (s : State) (row u : Nat) (f : Unit → Unit) : (s.modUnit row u f).chans = s.chans := rfl
@[simp] theorem State.modUnit_swarm (s : State) (row u : Nat) (f : Unit → Unit) : (s.modUnit row u f).swarm = s.swarm := rfl
@[simp] theorem State.modUnit_mesh (s : State) (row u : Nat) (f : Unit → Unit) : (s.modUnit row u f).mesh = s.mesh := rfl
@[simp] theorem State.modUnit_sched (s : State) (row u : Nat) (f : Unit → Unit) : (s.modUnit row u f).sched = s.sched := rfl
@[simp] theorem State.modUnit_intake (s : State) (row u : Nat) (f : Unit → Unit) : (s.modUnit row u f).intake = s.intake := rfl
@[simp] theorem State.modUnit_host (s : State) (row u : Nat) (f : Unit → Unit) : (s.modUnit row u f).host = s.host := rfl
@[simp] theorem State.modUnit_modes (s : State) (row u : Nat) (f : Unit → Unit) : (s.modUnit row u f).modes = s.modes := rfl
@[simp] theorem State.modUnit_fw (s : State) (row u : Nat) (f : Unit → Unit) : (s.modUnit row u f).fw = s.fw := rfl
@[simp] theorem State.modUnit_cara (s : State) (row u : Nat) (f : Unit → Unit) : (s.modUnit row u f).cara = s.cara := rfl
@[simp] theorem State.modUnit_sec (s : State) (row u : Nat) (f : Unit → Unit) : (s.modUnit row u f).sec = s.sec := rfl
@[simp] theorem State.modUnit_coc (s : State) (row u : Nat) (f : Unit → Unit) : (s.modUnit row u f).coc = s.coc := rfl
@[simp] theorem State.modUnit_pwr (s : State) (row u : Nat) (f : Unit → Unit) : (s.modUnit row u f).pwr = s.pwr := rfl
@[simp] theorem State.modUnit_prs (s : State) (row u : Nat) (f : Unit → Unit) : (s.modUnit row u f).prs = s.prs := rfl
@[simp] theorem State.modUnit_freeCtr (s : State) (row u : Nat) (f : Unit → Unit) : (s.modUnit row u f).freeCtr = s.freeCtr := rfl
@[simp] theorem State.modUnit_pending (s : State) (row u : Nat) (f : Unit → Unit) : (s.modUnit row u f).pending = s.pending := rfl
@[simp] theorem State.modUnit_rd (s : State) (row u : Nat) (f : Unit → Unit) (F : Fld) (j : Nat) : (s.modUnit row u f).rd F j = s.rd F j := rfl
@[simp] theorem State.modUnit_tile (s : State) (row u : Nat) (f : Unit → Unit) (k : Nat) : (s.modUnit row u f).tile k = s.tile k := rfl
@[simp] theorem State.modUnit_brood (s : State) (row u : Nat) (f : Unit → Unit) (k : Nat) : (s.modUnit row u f).brood k = s.brood k := rfl
@[simp] theorem State.modUnit_slot (s : State) (row u : Nat) (f : Unit → Unit) (k : Nat) : (s.modUnit row u f).slot k = s.slot k := rfl
@[simp] theorem State.modUnit_chan (s : State) (row u : Nat) (f : Unit → Unit) (k : Nat) : (s.modUnit row u f).chan k = s.chan k := rfl
@[simp] theorem State.modUnit_peek (s : State) (row u : Nat) (f : Unit → Unit) (k : Nat) : (s.modUnit row u f).peek k = s.peek k := rfl
@[simp] theorem State.modUnit_port (s : State) (row u : Nat) (f : Unit → Unit) (k : Nat) : (s.modUnit row u f).port k = s.port k := rfl
@[simp] theorem State.modUnit_strm (s : State) (row u : Nat) (f : Unit → Unit) (k : Nat) : (s.modUnit row u f).strm k = s.strm k := rfl
@[simp] theorem State.modUnit_win (s : State) (row u : Nat) (f : Unit → Unit) (k : Nat) : (s.modUnit row u f).win k = s.win k := rfl
@[simp] theorem State.modUnit_warp (s : State) (row u : Nat) (f : Unit → Unit) (k : Nat) : (s.modUnit row u f).warp k = s.warp k := rfl
@[simp] theorem State.modUnit_jxs (s : State) (row u : Nat) (f : Unit → Unit) (k : Nat) : (s.modUnit row u f).jxs k = s.jxs k := rfl
@[simp] theorem State.modUnit_prsWord (s : State) (row u : Nat) (f : Unit → Unit) (k : Nat) : (s.modUnit row u f).prsWord k = s.prsWord k := rfl

@[simp] theorem State.modWarp_tick (s : State) (e : Nat) (f : WarpEngine → WarpEngine) : (s.modWarp e f).tick = s.tick := rfl
@[simp] theorem State.modWarp_fuses (s : State) (e : Nat) (f : WarpEngine → WarpEngine) : (s.modWarp e f).fuses = s.fuses := rfl
@[simp] theorem State.modWarp_cfg (s : State) (e : Nat) (f : WarpEngine → WarpEngine) : (s.modWarp e f).cfg = s.cfg := rfl
@[simp] theorem State.modWarp_dev (s : State) (e : Nat) (f : WarpEngine → WarpEngine) : (s.modWarp e f).dev = s.dev := rfl
@[simp] theorem State.modWarp_regs (s : State) (e : Nat) (f : WarpEngine → WarpEngine) : (s.modWarp e f).regs = s.regs := rfl
@[simp] theorem State.modWarp_mem (s : State) (e : Nat) (f : WarpEngine → WarpEngine) : (s.modWarp e f).mem = s.mem := rfl
@[simp] theorem State.modWarp_chans (s : State) (e : Nat) (f : WarpEngine → WarpEngine) : (s.modWarp e f).chans = s.chans := rfl
@[simp] theorem State.modWarp_swarm (s : State) (e : Nat) (f : WarpEngine → WarpEngine) : (s.modWarp e f).swarm = s.swarm := rfl
@[simp] theorem State.modWarp_mesh (s : State) (e : Nat) (f : WarpEngine → WarpEngine) : (s.modWarp e f).mesh = s.mesh := rfl
@[simp] theorem State.modWarp_sched (s : State) (e : Nat) (f : WarpEngine → WarpEngine) : (s.modWarp e f).sched = s.sched := rfl
@[simp] theorem State.modWarp_host (s : State) (e : Nat) (f : WarpEngine → WarpEngine) : (s.modWarp e f).host = s.host := rfl
@[simp] theorem State.modWarp_modes (s : State) (e : Nat) (f : WarpEngine → WarpEngine) : (s.modWarp e f).modes = s.modes := rfl
@[simp] theorem State.modWarp_fw (s : State) (e : Nat) (f : WarpEngine → WarpEngine) : (s.modWarp e f).fw = s.fw := rfl
@[simp] theorem State.modWarp_cara (s : State) (e : Nat) (f : WarpEngine → WarpEngine) : (s.modWarp e f).cara = s.cara := rfl
@[simp] theorem State.modWarp_chk (s : State) (e : Nat) (f : WarpEngine → WarpEngine) : (s.modWarp e f).chk = s.chk := rfl
@[simp] theorem State.modWarp_sec (s : State) (e : Nat) (f : WarpEngine → WarpEngine) : (s.modWarp e f).sec = s.sec := rfl
@[simp] theorem State.modWarp_coc (s : State) (e : Nat) (f : WarpEngine → WarpEngine) : (s.modWarp e f).coc = s.coc := rfl
@[simp] theorem State.modWarp_pwr (s : State) (e : Nat) (f : WarpEngine → WarpEngine) : (s.modWarp e f).pwr = s.pwr := rfl
@[simp] theorem State.modWarp_prs (s : State) (e : Nat) (f : WarpEngine → WarpEngine) : (s.modWarp e f).prs = s.prs := rfl
@[simp] theorem State.modWarp_freeCtr (s : State) (e : Nat) (f : WarpEngine → WarpEngine) : (s.modWarp e f).freeCtr = s.freeCtr := rfl
@[simp] theorem State.modWarp_pending (s : State) (e : Nat) (f : WarpEngine → WarpEngine) : (s.modWarp e f).pending = s.pending := rfl
@[simp] theorem State.modWarp_rd (s : State) (e : Nat) (f : WarpEngine → WarpEngine) (F : Fld) (j : Nat) : (s.modWarp e f).rd F j = s.rd F j := rfl
@[simp] theorem State.modWarp_tile (s : State) (e : Nat) (f : WarpEngine → WarpEngine) (k : Nat) : (s.modWarp e f).tile k = s.tile k := rfl
@[simp] theorem State.modWarp_brood (s : State) (e : Nat) (f : WarpEngine → WarpEngine) (k : Nat) : (s.modWarp e f).brood k = s.brood k := rfl
@[simp] theorem State.modWarp_slot (s : State) (e : Nat) (f : WarpEngine → WarpEngine) (k : Nat) : (s.modWarp e f).slot k = s.slot k := rfl
@[simp] theorem State.modWarp_chan (s : State) (e : Nat) (f : WarpEngine → WarpEngine) (k : Nat) : (s.modWarp e f).chan k = s.chan k := rfl
@[simp] theorem State.modWarp_peek (s : State) (e : Nat) (f : WarpEngine → WarpEngine) (k : Nat) : (s.modWarp e f).peek k = s.peek k := rfl
@[simp] theorem State.modWarp_port (s : State) (e : Nat) (f : WarpEngine → WarpEngine) (k : Nat) : (s.modWarp e f).port k = s.port k := rfl
@[simp] theorem State.modWarp_strm (s : State) (e : Nat) (f : WarpEngine → WarpEngine) (k : Nat) : (s.modWarp e f).strm k = s.strm k := rfl
@[simp] theorem State.modWarp_win (s : State) (e : Nat) (f : WarpEngine → WarpEngine) (k : Nat) : (s.modWarp e f).win k = s.win k := rfl
@[simp] theorem State.modWarp_unit (s : State) (e : Nat) (f : WarpEngine → WarpEngine) (k v : Nat) : (s.modWarp e f).unit k v = s.unit k v := rfl
@[simp] theorem State.modWarp_jxs (s : State) (e : Nat) (f : WarpEngine → WarpEngine) (k : Nat) : (s.modWarp e f).jxs k = s.jxs k := rfl
@[simp] theorem State.modWarp_prsWord (s : State) (e : Nat) (f : WarpEngine → WarpEngine) (k : Nat) : (s.modWarp e f).prsWord k = s.prsWord k := rfl

@[simp] theorem State.modJxs_tick (s : State) (e : Nat) (f : JxsEngine → JxsEngine) : (s.modJxs e f).tick = s.tick := rfl
@[simp] theorem State.modJxs_fuses (s : State) (e : Nat) (f : JxsEngine → JxsEngine) : (s.modJxs e f).fuses = s.fuses := rfl
@[simp] theorem State.modJxs_cfg (s : State) (e : Nat) (f : JxsEngine → JxsEngine) : (s.modJxs e f).cfg = s.cfg := rfl
@[simp] theorem State.modJxs_dev (s : State) (e : Nat) (f : JxsEngine → JxsEngine) : (s.modJxs e f).dev = s.dev := rfl
@[simp] theorem State.modJxs_regs (s : State) (e : Nat) (f : JxsEngine → JxsEngine) : (s.modJxs e f).regs = s.regs := rfl
@[simp] theorem State.modJxs_mem (s : State) (e : Nat) (f : JxsEngine → JxsEngine) : (s.modJxs e f).mem = s.mem := rfl
@[simp] theorem State.modJxs_chans (s : State) (e : Nat) (f : JxsEngine → JxsEngine) : (s.modJxs e f).chans = s.chans := rfl
@[simp] theorem State.modJxs_swarm (s : State) (e : Nat) (f : JxsEngine → JxsEngine) : (s.modJxs e f).swarm = s.swarm := rfl
@[simp] theorem State.modJxs_mesh (s : State) (e : Nat) (f : JxsEngine → JxsEngine) : (s.modJxs e f).mesh = s.mesh := rfl
@[simp] theorem State.modJxs_sched (s : State) (e : Nat) (f : JxsEngine → JxsEngine) : (s.modJxs e f).sched = s.sched := rfl
@[simp] theorem State.modJxs_host (s : State) (e : Nat) (f : JxsEngine → JxsEngine) : (s.modJxs e f).host = s.host := rfl
@[simp] theorem State.modJxs_modes (s : State) (e : Nat) (f : JxsEngine → JxsEngine) : (s.modJxs e f).modes = s.modes := rfl
@[simp] theorem State.modJxs_fw (s : State) (e : Nat) (f : JxsEngine → JxsEngine) : (s.modJxs e f).fw = s.fw := rfl
@[simp] theorem State.modJxs_cara (s : State) (e : Nat) (f : JxsEngine → JxsEngine) : (s.modJxs e f).cara = s.cara := rfl
@[simp] theorem State.modJxs_chk (s : State) (e : Nat) (f : JxsEngine → JxsEngine) : (s.modJxs e f).chk = s.chk := rfl
@[simp] theorem State.modJxs_sec (s : State) (e : Nat) (f : JxsEngine → JxsEngine) : (s.modJxs e f).sec = s.sec := rfl
@[simp] theorem State.modJxs_coc (s : State) (e : Nat) (f : JxsEngine → JxsEngine) : (s.modJxs e f).coc = s.coc := rfl
@[simp] theorem State.modJxs_pwr (s : State) (e : Nat) (f : JxsEngine → JxsEngine) : (s.modJxs e f).pwr = s.pwr := rfl
@[simp] theorem State.modJxs_prs (s : State) (e : Nat) (f : JxsEngine → JxsEngine) : (s.modJxs e f).prs = s.prs := rfl
@[simp] theorem State.modJxs_freeCtr (s : State) (e : Nat) (f : JxsEngine → JxsEngine) : (s.modJxs e f).freeCtr = s.freeCtr := rfl
@[simp] theorem State.modJxs_pending (s : State) (e : Nat) (f : JxsEngine → JxsEngine) : (s.modJxs e f).pending = s.pending := rfl
@[simp] theorem State.modJxs_rd (s : State) (e : Nat) (f : JxsEngine → JxsEngine) (F : Fld) (j : Nat) : (s.modJxs e f).rd F j = s.rd F j := rfl
@[simp] theorem State.modJxs_tile (s : State) (e : Nat) (f : JxsEngine → JxsEngine) (k : Nat) : (s.modJxs e f).tile k = s.tile k := rfl
@[simp] theorem State.modJxs_brood (s : State) (e : Nat) (f : JxsEngine → JxsEngine) (k : Nat) : (s.modJxs e f).brood k = s.brood k := rfl
@[simp] theorem State.modJxs_slot (s : State) (e : Nat) (f : JxsEngine → JxsEngine) (k : Nat) : (s.modJxs e f).slot k = s.slot k := rfl
@[simp] theorem State.modJxs_chan (s : State) (e : Nat) (f : JxsEngine → JxsEngine) (k : Nat) : (s.modJxs e f).chan k = s.chan k := rfl
@[simp] theorem State.modJxs_peek (s : State) (e : Nat) (f : JxsEngine → JxsEngine) (k : Nat) : (s.modJxs e f).peek k = s.peek k := rfl
@[simp] theorem State.modJxs_port (s : State) (e : Nat) (f : JxsEngine → JxsEngine) (k : Nat) : (s.modJxs e f).port k = s.port k := rfl
@[simp] theorem State.modJxs_strm (s : State) (e : Nat) (f : JxsEngine → JxsEngine) (k : Nat) : (s.modJxs e f).strm k = s.strm k := rfl
@[simp] theorem State.modJxs_win (s : State) (e : Nat) (f : JxsEngine → JxsEngine) (k : Nat) : (s.modJxs e f).win k = s.win k := rfl
@[simp] theorem State.modJxs_unit (s : State) (e : Nat) (f : JxsEngine → JxsEngine) (k v : Nat) : (s.modJxs e f).unit k v = s.unit k v := rfl
@[simp] theorem State.modJxs_warp (s : State) (e : Nat) (f : JxsEngine → JxsEngine) (k : Nat) : (s.modJxs e f).warp k = s.warp k := rfl
@[simp] theorem State.modJxs_prsWord (s : State) (e : Nat) (f : JxsEngine → JxsEngine) (k : Nat) : (s.modJxs e f).prsWord k = s.prsWord k := rfl

@[simp] theorem State.modPrs_tick (s : State) (n : Nat) (f : PWord → PWord) : (s.modPrs n f).tick = s.tick := rfl
@[simp] theorem State.modPrs_fuses (s : State) (n : Nat) (f : PWord → PWord) : (s.modPrs n f).fuses = s.fuses := rfl
@[simp] theorem State.modPrs_cfg (s : State) (n : Nat) (f : PWord → PWord) : (s.modPrs n f).cfg = s.cfg := rfl
@[simp] theorem State.modPrs_dev (s : State) (n : Nat) (f : PWord → PWord) : (s.modPrs n f).dev = s.dev := rfl
@[simp] theorem State.modPrs_regs (s : State) (n : Nat) (f : PWord → PWord) : (s.modPrs n f).regs = s.regs := rfl
@[simp] theorem State.modPrs_mem (s : State) (n : Nat) (f : PWord → PWord) : (s.modPrs n f).mem = s.mem := rfl
@[simp] theorem State.modPrs_chans (s : State) (n : Nat) (f : PWord → PWord) : (s.modPrs n f).chans = s.chans := rfl
@[simp] theorem State.modPrs_swarm (s : State) (n : Nat) (f : PWord → PWord) : (s.modPrs n f).swarm = s.swarm := rfl
@[simp] theorem State.modPrs_mesh (s : State) (n : Nat) (f : PWord → PWord) : (s.modPrs n f).mesh = s.mesh := rfl
@[simp] theorem State.modPrs_sched (s : State) (n : Nat) (f : PWord → PWord) : (s.modPrs n f).sched = s.sched := rfl
@[simp] theorem State.modPrs_intake (s : State) (n : Nat) (f : PWord → PWord) : (s.modPrs n f).intake = s.intake := rfl
@[simp] theorem State.modPrs_host (s : State) (n : Nat) (f : PWord → PWord) : (s.modPrs n f).host = s.host := rfl
@[simp] theorem State.modPrs_modes (s : State) (n : Nat) (f : PWord → PWord) : (s.modPrs n f).modes = s.modes := rfl
@[simp] theorem State.modPrs_fw (s : State) (n : Nat) (f : PWord → PWord) : (s.modPrs n f).fw = s.fw := rfl
@[simp] theorem State.modPrs_cara (s : State) (n : Nat) (f : PWord → PWord) : (s.modPrs n f).cara = s.cara := rfl
@[simp] theorem State.modPrs_chk (s : State) (n : Nat) (f : PWord → PWord) : (s.modPrs n f).chk = s.chk := rfl
@[simp] theorem State.modPrs_sec (s : State) (n : Nat) (f : PWord → PWord) : (s.modPrs n f).sec = s.sec := rfl
@[simp] theorem State.modPrs_coc (s : State) (n : Nat) (f : PWord → PWord) : (s.modPrs n f).coc = s.coc := rfl
@[simp] theorem State.modPrs_pwr (s : State) (n : Nat) (f : PWord → PWord) : (s.modPrs n f).pwr = s.pwr := rfl
@[simp] theorem State.modPrs_freeCtr (s : State) (n : Nat) (f : PWord → PWord) : (s.modPrs n f).freeCtr = s.freeCtr := rfl
@[simp] theorem State.modPrs_pending (s : State) (n : Nat) (f : PWord → PWord) : (s.modPrs n f).pending = s.pending := rfl
@[simp] theorem State.modPrs_rd (s : State) (n : Nat) (f : PWord → PWord) (F : Fld) (j : Nat) : (s.modPrs n f).rd F j = s.rd F j := rfl
@[simp] theorem State.modPrs_tile (s : State) (n : Nat) (f : PWord → PWord) (k : Nat) : (s.modPrs n f).tile k = s.tile k := rfl
@[simp] theorem State.modPrs_brood (s : State) (n : Nat) (f : PWord → PWord) (k : Nat) : (s.modPrs n f).brood k = s.brood k := rfl
@[simp] theorem State.modPrs_slot (s : State) (n : Nat) (f : PWord → PWord) (k : Nat) : (s.modPrs n f).slot k = s.slot k := rfl
@[simp] theorem State.modPrs_chan (s : State) (n : Nat) (f : PWord → PWord) (k : Nat) : (s.modPrs n f).chan k = s.chan k := rfl
@[simp] theorem State.modPrs_peek (s : State) (n : Nat) (f : PWord → PWord) (k : Nat) : (s.modPrs n f).peek k = s.peek k := rfl
@[simp] theorem State.modPrs_port (s : State) (n : Nat) (f : PWord → PWord) (k : Nat) : (s.modPrs n f).port k = s.port k := rfl
@[simp] theorem State.modPrs_strm (s : State) (n : Nat) (f : PWord → PWord) (k : Nat) : (s.modPrs n f).strm k = s.strm k := rfl
@[simp] theorem State.modPrs_win (s : State) (n : Nat) (f : PWord → PWord) (k : Nat) : (s.modPrs n f).win k = s.win k := rfl
@[simp] theorem State.modPrs_unit (s : State) (n : Nat) (f : PWord → PWord) (k v : Nat) : (s.modPrs n f).unit k v = s.unit k v := rfl
@[simp] theorem State.modPrs_warp (s : State) (n : Nat) (f : PWord → PWord) (k : Nat) : (s.modPrs n f).warp k = s.warp k := rfl
@[simp] theorem State.modPrs_jxs (s : State) (n : Nat) (f : PWord → PWord) (k : Nat) : (s.modPrs n f).jxs k = s.jxs k := rfl

/-! Reading back. -/

@[simp] theorem State.strm_modStrm_same (s : State) (n : Nat) (f : Stream → Stream) : (s.modStrm n f).strm n = f (s.strm n) :=
  FMap.get_set_same _ _ _ _

theorem State.strm_modStrm_ne (s : State) {n k : Nat} {f : Stream → Stream} (h : k ≠ n) : (s.modStrm n f).strm k = s.strm k :=
  FMap.get_set_ne _ _ _ _ h

@[simp] theorem State.port_modPort_same (s : State) (p : Nat) (f : Port → Port) : (s.modPort p f).port p = f (s.port p) :=
  FMap.get_set_same _ _ _ _

theorem State.port_modPort_ne (s : State) {p k : Nat} {f : Port → Port} (h : k ≠ p) : (s.modPort p f).port k = s.port k :=
  FMap.get_set_ne _ _ _ _ h

@[simp] theorem State.win_modWin_same (s : State) (n : Nat) (f : Win → Win) : (s.modWin n f).win n = f (s.win n) :=
  FMap.get_set_same _ _ _ _

theorem State.win_modWin_ne (s : State) {n k : Nat} {f : Win → Win} (h : k ≠ n) : (s.modWin n f).win k = s.win k :=
  FMap.get_set_ne _ _ _ _ h

@[simp] theorem State.warp_modWarp_same (s : State) (e : Nat) (f : WarpEngine → WarpEngine) : (s.modWarp e f).warp e = f (s.warp e) :=
  FMap.get_set_same _ _ _ _

theorem State.warp_modWarp_ne (s : State) {e k : Nat} {f : WarpEngine → WarpEngine} (h : k ≠ e) : (s.modWarp e f).warp k = s.warp k :=
  FMap.get_set_ne _ _ _ _ h

@[simp] theorem State.jxs_modJxs_same (s : State) (e : Nat) (f : JxsEngine → JxsEngine) : (s.modJxs e f).jxs e = f (s.jxs e) :=
  FMap.get_set_same _ _ _ _

theorem State.jxs_modJxs_ne (s : State) {e k : Nat} {f : JxsEngine → JxsEngine} (h : k ≠ e) : (s.modJxs e f).jxs k = s.jxs k :=
  FMap.get_set_ne _ _ _ _ h

@[simp] theorem State.prsWord_modPrs_same (s : State) (n : Nat) (f : PWord → PWord) : (s.modPrs n f).prsWord n = f (s.prsWord n) :=
  FMap.get_set_same _ _ _ _

theorem State.prsWord_modPrs_ne (s : State) {n k : Nat} {f : PWord → PWord} (h : k ≠ n) : (s.modPrs n f).prsWord k = s.prsWord k :=
  FMap.get_set_ne _ _ _ _ h

@[simp] theorem State.unit_modUnit_same (s : State) (row u : Nat) (f : Unit → Unit) : (s.modUnit row u f).unit row u = f (s.unit row u) :=
  FMap.get_set_same _ _ _ _

end Sys2Proof.Machine
end

