-- ==== Sys2Proof/WellFormed.lean ====
section
/-! DEFINITION. Which terms of `Instr` are commands that the outside can send. The widths of the operands say most of it; what is left are
sizes of an access (R7, R393), stream, row, sensor and counter numbers (R299, R433, R517, R577, R598), link widths and speeds (R393), and the lengths of
signatures and digests (R213, R525, R527). `exec` is total and does not depend on it. -/
namespace Sys2Proof

/-- The operands of a command are within the ranges that their rules give. -/
def Instr.wellFormed (i : Instr) : Bool :=
  match i with
  | .powerGood => true
  | .startSequence _ => true
  | .rstNAssert => true
  | .powerLoss => true
  | .partialRestart _ => true
  | .fullRestart _ => true
  | .regWrite _ _ size _ => decide (size = 1#4) || decide (size = 2#4) || decide (size = 4#4) || decide (size = 8#4)
  | .holeAccess _ _ => true
  | .csiFrameStart _ _ _ => true
  | .csiLongPacket _ _ _ _ _ => true
  | .csiEmbeddedData _ _ _ _ => true
  | .csiHeaderError _ _ _ _ => true
  | .csiUnclaimedPacket _ _ _ => true
  | .patternInjectEnd _ => true
  | .csiFrameEnd _ _ => true
  | .frameTimerExpiry n => decide (n.toNat < 48)
  | .ethFrameReceive _ _ _ => true
  | .lidarTestPacketEnd n => decide (n.toNat < 48)
  | .ethLinkChange _ _ => true
  | .ptpSyncReceive _ _ => true
  | .ptpHoldover => true
  | .jxsDecodeStart _ => true
  | .jxsDecodeEnd _ _ _ _ _ => true
  | .jxsBudgetExpiry _ => true
  | .jxsEngineReady _ => true
  | .jxsBufferError _ => true
  | .jxsEncodeStart _ => true
  | .jxsEncodeEnd _ _ _ => true
  | .jxsEncodeBudgetExpiry _ => true
  | .jxsModeWrite _ _ => true
  | .jxsClrCnt _ => true
  | .intDescUpd _ => true
  | .descUpdateApply => true
  | .intClrCnt => true
  | .warpAssign => true
  | .warpComplete _ _ _ _ => true
  | .warpTimeout _ => true
  | .warpWaitTimeout n => decide (n.toNat < 48)
  | .warpCoordMismatch _ => true
  | .warpBufferError _ => true
  | .wrpCfgUpd _ => true
  | .warpCfgApply => true
  | .wrpClrCnt _ => true
  | .gatherExpiry _ => true
  | .syncIoRelease => true
  | .syncIoSample _ => true
  | .syncIoTimeout => true
  | .barrierSeqReceive _ _ => true
  | .stageStart _ _ => true
  | .resamplerPartEnd _ _ => true
  | .partFinish _ => true
  | .stageWinMax _ => true
  | .publish _ => true
  | .orderHoldExpiry _ => true
  | .mgmtExportSend => true
  | .chipExportReceive _ _ => true
  | .arrayOpStart _ => true
  | .vectorAccumulate _ _ _ => true
  | .residueCompare _ _ => true
  | .spareClearDone _ => true
  | .rerunStart _ => true
  | .drainEnd _ _ => true
  | .dmaDescComplete _ => true
  | .msgSend _ => true
  | .msgArrive _ _ _ _ => true
  | .msgAck _ _ => true
  | .msgNack _ _ => true
  | .msgReject _ _ => true
  | .msgAckTimeout _ _ => true
  | .syncOpApply _ _ => true
  | .syncOpResponse _ => true
  | .syncWaitRetry _ => true
  | .syncOpTimeout _ => true
  | .routerBufferError _ _ _ _ => true
  | .nocClrCnt => true
  | .synClrCnt => true
  | .chlTrainStart _ => true
  | .chlLockEnd _ _ => true
  | .chlIdentityReceive _ _ _ _ _ _ digest => decide (digest = []) || decide (digest.length = 48)
  | .chlAuthMessage _ _ => true
  | .chlTimeAlign _ _ _ => true
  | .chlTrainTimeout _ => true
  | .chlBlockReceive _ _ _ => true
  | .chlLaneFault _ _ => true
  | .chlRetrainEnd _ => true
  | .chlRetryTimer _ => true
  | .timebaseCompare _ _ => true
  | .chlRetrain _ => true
  | .spareLbistEnd _ _ => true
  | .spareMbistEnd _ _ _ => true
  | .rotationMoveStart _ => true
  | .forcedMoveStart _ => true
  | .moveQuiesced _ => true
  | .moveTransferEnd _ _ => true
  | .moveSwitchEnd _ => true
  | .slotAgeLfi row _ => decide (row.toNat ≤ 8) || decide (row.toNat = 15)
  | .inplaceSliceStart _ _ => true
  | .inplaceSliceEnd _ _ _ => true
  | .sharedSliceStart row _ => decide (row.toNat ≤ 8)
  | .sharedSliceEnd row _ _ => decide (row.toNat ≤ 8)
  | .tilStart _ => true
  | .tilHaltReq _ => true
  | .haltReqTaken _ => true
  | .brdRotGrant _ => true
  | .brdRotEnWrite _ _ => true
  | .arrClrCnt _ => true
  | .add _ _ _ _ => true
  | .sub _ _ _ _ => true
  | .andR _ _ _ _ => true
  | .orR _ _ _ _ => true
  | .xor _ _ _ _ => true
  | .sll _ _ _ _ => true
  | .srl _ _ _ _ => true
  | .sra _ _ _ _ => true
  | .slt _ _ _ _ => true
  | .sltu _ _ _ _ => true
  | .min _ _ _ _ => true
  | .max _ _ _ _ => true
  | .mul _ _ _ _ => true
  | .mulh _ _ _ _ => true
  | .mulhu _ _ _ _ => true
  | .addi _ _ _ _ => true
  | .andi _ _ _ _ => true
  | .ori _ _ _ _ => true
  | .xori _ _ _ _ => true
  | .slli _ _ _ _ => true
  | .srli _ _ _ _ => true
  | .srai _ _ _ _ => true
  | .slti _ _ _ _ => true
  | .lui _ _ _ => true
  | .lw _ _ _ _ => true
  | .lh _ _ _ _ => true
  | .lhu _ _ _ _ => true
  | .lb _ _ _ _ => true
  | .lbu _ _ _ _ => true
  | .sw _ _ _ _ => true
  | .sh _ _ _ _ => true
  | .sb _ _ _ _ => true
  | .beq _ _ _ _ => true
  | .bne _ _ _ _ => true
  | .blt _ _ _ _ => true
  | .bge _ _ _ _ => true
  | .bltu _ _ _ _ => true
  | .bgeu _ _ _ _ => true
  | .jal _ _ _ => true
  | .jalr _ _ _ _ => true
  | .loop _ _ _ _ => true
  | .loopi _ _ _ _ => true
  | .rdlc _ _ _ => true
  | .csrr _ _ _ => true
  | .trap _ _ => true
  | .endProg _ => true
  | .vadd _ _ _ _ => true
  | .vsub _ _ _ _ => true
  | .vmul _ _ _ _ => true
  | .vand _ _ _ _ => true
  | .vor _ _ _ _ => true
  | .vxor _ _ _ _ => true
  | .vsll _ _ _ _ => true
  | .vsrl _ _ _ _ => true
  | .vsra _ _ _ _ => true
  | .vmin _ _ _ _ => true
  | .vmax _ _ _ _ => true
  | .vclt _ _ _ _ => true
  | .vceq _ _ _ _ => true
  | .vsel _ _ _ _ _ => true
  | .vfadd _ _ _ _ => true
  | .vfsub _ _ _ _ => true
  | .vfmul _ _ _ _ => true
  | .vfma _ _ _ _ _ => true
  | .vfmin _ _ _ _ => true
  | .vfmax _ _ _ _ => true
  | .vfclt _ _ _ _ => true
  | .vcvt _ _ _ _ => true
  | .vsfu _ _ _ _ => true
  | .vlut _ _ _ _ => true
  | .vtld _ _ _ _ => true
  | .vred _ _ _ _ => true
  | .vperm _ _ _ _ => true
  | .vbcst _ _ _ => true
  | .vidx _ _ _ => true
  | .vmovs _ _ _ _ => true
  | .vrng _ _ _ _ _ _ => true
  | .vgth _ _ _ _ => true
  | .vld _ _ _ _ _ _ => true
  | .vst _ _ _ _ _ => true
  | .wld _ _ _ _ _ => true
  | .astr _ _ _ _ _ => true
  | .adrn _ _ _ _ _ => true
  | .afence _ => true
  | .dma _ _ => true
  | .msg _ _ _ _ _ => true
  | .mfence _ => true
  | .sadd _ _ _ => true
  | .saddi _ _ _ => true
  | .swait _ _ _ => true
  | .sarv _ _ _ => true
  | .sbwait _ _ _ => true
  | .srd _ _ _ => true
  | .srst _ _ => true
  | .memRead _ _ len _ _ => decide (0 < len.toNat)
  | .memWriteCommit _ _ data _ => decide (0 < data.length)
  | .correctiveWrite _ => true
  | .checkLineEvict _ _ => true
  | .refreshDue _ => true
  | .retrainDue _ _ => true
  | .retrainWindow _ _ => true
  | .trainGrantTimeout _ => true
  | .memTrainGrant _ => true
  | .scrubRead _ _ => true
  | .sramScrubWord _ _ => true
  | .memInjArm _ => true
  | .memClrCnt _ => true
  | .hostBar2Read _ len => decide (0 < len.toNat) && decide (len.toNat ≤ 4096)
  | .hostBar2Write _ data => decide (0 < data.length) && decide (data.length ≤ 512)
  | .hostBar4Read _ len => decide (0 < len.toNat) && decide (len.toNat ≤ 4096)
  | .hostBar4Write _ data => decide (0 < data.length) && decide (data.length ≤ 512)
  | .tlpErrorReceive _ => true
  | .pcieLinkUp width speed => (decide (width = 1#5) || decide (width = 2#5) || decide (width = 4#5) || decide (width = 8#5)) && decide (0 < speed.toNat) && decide (speed.toNat ≤ 4)
  | .pcieLinkLoss => true
  | .perstNAssert => true
  | .functionLevelReset => true
  | .hotReset => true
  | .d3hotEntry => true
  | .dbCmd _ => true
  | .dbCpl _ => true
  | .dbEvt _ => true
  | .dbLog _ => true
  | .dbTrc _ => true
  | .dbHb _ => true
  | .dbTensor n _ => decide (n.toNat < 48)
  | .hifAttachStart => true
  | .hifAttachDetach => true
  | .hifStateRead => true
  | .heartbeatTimeout => true
  | .hifClrCnt => true
  | .submitCmd => true
  | .loadCmd => true
  | .sectionPieceWrite => true
  | .unloadCmd => true
  | .switchCmd => true
  | .switchApply => true
  | .pipeCmd => true
  | .pipeApply => true
  | .modeCmd => true
  | .modeApply => true
  | .reactCmd => true
  | .decideTimeout => true
  | .saveCmd => true
  | .restoreCmd => true
  | .selftestBrood => true
  | .selftestRetrain => true
  | .selftestSlicePass => true
  | .selftestFullBist => true
  | .fullBistEnd _ _ _ _ => true
  | .selftestWindow => true
  | .testWindowEnd => true
  | .recordCmd => true
  | .nopCmd => true
  | .illegalCommand => true
  | .fwWdtKick _ _ => true
  | .dispatchWdtExpiry _ => true
  | .securityWdtExpiry => true
  | .powerWdtExpiry => true
  | .dispatchCoreFault _ cause => decide (cause.toNat ≤ 2)
  | .sensorSample temps => decide (temps.length = 64)
  | .limitActionEnd row => decide (row.toNat ≤ 5)
  | .coreCurrentLimit _ => true
  | .coreVoltageLimit _ => true
  | .avsStep _ => true
  | .powerBudgetTimer _ => true
  | .logEntryWrite => true
  | .eventEntryWrite => true
  | .traceEntryWrite => true
  | .fwMoltReq => true
  | .moltStagingEnd => true
  | .moltVerifyEnd _ _ _ _ => true
  | .moltHandoverStart _ => true
  | .fwMoltCommit _ => true
  | .fwMoltAbort => true
  | .moltReadyTimeout => true
  | .fwClrCnt => true
  | .errorLineLatch => true
  | .errorLineRailFault _ => true
  | .collectorReaction => true
  | .stopAliveDelayExpiry => true
  | .aliveToggle => true
  | .lockstepMismatch => true
  | .comparatorTest _ => true
  | .linePathTest _ => true
  | .carapaceSramScrub errs => decide (errs.toNat ≤ 2)
  | .carapaceWdtExpiry => true
  | .clockMonitorCheck _ => true
  | .debugAction _ => true
  | .mgmtDatagramSend => true
  | .mgmtFrameReceive _ => true
  | .mgmtLinkChange _ => true
  | .smbusReadStatus => true
  | .smbusReadLines => true
  | .smbusReadTlog => true
  | .smbusOtherCommand _ => true
  | .safClrCnt => true
  | .fclClrCnt => true
  | .secAttest => true
  | .attestReportDone sig => decide (sig.length = 16608)
  | .secEnrol => true
  | .secDebugChallenge => true
  | .secDebugUnlock => true
  | .debugChallengeExpiry => true
  | .objectVerifyEnd _ _ _ _ => true
  | .idRsaReady => true
  | .idReady => true
  | .secClrCnt => true
  | .mailboxRecord => true
  | .chainAppend _ _ => true
  | .epochTimer => true
  | .sealDone ok _ sig => !ok || decide (sig.length = 16608)
  | .cocoonResume _ _ _ => true
  | .cocoonWdtExpiry => true
  | .cocoonPowerFail => true
  | .cocExport => true
  | .cocExportDone => true
  | .cocUpdStart => true
  | .updateChunkSend => true
  | .cocClrCnt => true
  | .persistentWrite => true
  | .lifetimeCounterFlush idx => decide (idx.toNat ≤ 9)
  | .poweredHour => true
  | .pwrClrCnt => true
  | .prsClrCnt => true
  | .illegalInstruction _ _ => true
  | .feederCycle _ => true
  | .carapaceWdtKick => true
  | .internalKickRegister _ => true
  | .gptpEventTransmit => true
  | .recorderUpdateVerify _ _ _ _ => true

end Sys2Proof
end

