-- ==== Sys2Proof/Tests/Slice0.lean ====
section
/-! SUPPORT. Tests: ill-formed terms, words of the tile instruction set, values that the spec states, single commands, and for every statement
with premises a named theorem that gives a state and operands that meet them. -/
set_option Elab.async false
namespace Sys2Proof.Tests
open Sys2Proof.Machine

/-! States and operands for the tests. -/

def tk (n : Nat) (g : List (Nat × Nat)) (v : List (Nat × Nat)) (pc : Nat := 0) : TileState :=
  { run := 1, pc := pc, g := g.map (fun x => (x.1, BitVec.ofNat 32 x.2)), v := v.map (fun x => (x.1, BitVec.ofNat 32 x.2)) }
def rdy : State := { State.reset with dev := { State.reset.dev with step := 12, phase := 0, rstLow := false, power := true }, tick := 500000000 }
def up : State := ((((rdy.wr F.HIF_STATE_DEV 1).wr F.HIF_STATE_HOST 2).wr F.FW_STATUS_CORE_RUN 15).wr F.FW_STATUS_SEC_RUN 1).wr F.FW_STATUS_PWR_RUN 1
def withT (t : Nat) (x : TileState) (s : State := up) : State := s.setTile t x
def stg (n : Nat) : Stage := { num := n, entry := 0x40, broods := [{ brood := 0, tmask := 3 }], winMin := 10, winMax := 1000000, budget := 100, outBytes := 128, plan := [{ obj := 20 }, { obj := 21, barrier := true }], slot := 0 }
def mdl : Model := { slot := 0, stages := [stg 3, stg 4] }
def pip : Pipeline := { desc := { num := 1, stages := [3, 4], gather := 100, period := 1000, cam := 5, slot := 0 }, running := true, frameNum := 7, free := [0, 1], boundaryAt := 5 }
def sch (s : State) : State := { s with sched := { s.sched with models := [mdl], binds := [{ stage := 3, slot := 0, base := 0x100000, scratch := 0x200000 }, { stage := 4, slot := 0, base := 0x110000, scratch := 0x210000 }], pipes := [pip] } }
def jb (s : State) : State := ({ sch s with sched.jobs := [{ id := 1, stage := 3, parts := [{ unit := 5 }, { unit := 6 }], slot := 0 }] }).modTile 5 (fun x => { x with job := { x.job with active := true, job := 1, stage := 3 } })

/-! Ill-formed terms (WellFormed.lean): one for each check. -/

theorem test_illFormed_regWrite : (Instr.regWrite true 0 3 0).wellFormed = false := by decide +kernel
theorem test_illFormed_frameTimerExpiry : (Instr.frameTimerExpiry 48).wellFormed = false := by decide +kernel
theorem test_illFormed_lidarTestPacketEnd : (Instr.lidarTestPacketEnd 63).wellFormed = false := by decide +kernel
theorem test_illFormed_warpWaitTimeout : (Instr.warpWaitTimeout 48).wellFormed = false := by decide +kernel
theorem test_illFormed_chlIdentityReceive : (Instr.chlIdentityReceive 0 1 2 64 32 ⟨0, 0⟩ [0]).wellFormed = false := by decide +kernel
theorem test_illFormed_slotAgeLfi : (Instr.slotAgeLfi 9 0).wellFormed = false := by decide +kernel
theorem test_illFormed_sharedSliceStart : (Instr.sharedSliceStart 9 0).wellFormed = false := by decide +kernel
theorem test_illFormed_sharedSliceEnd : (Instr.sharedSliceEnd 9 0 true).wellFormed = false := by decide +kernel
theorem test_illFormed_memRead : (Instr.memRead 0 0 0 [] []).wellFormed = false := by decide +kernel
theorem test_illFormed_memWriteCommit : (Instr.memWriteCommit 0 0 [] []).wellFormed = false := by decide +kernel
theorem test_illFormed_hostBar2Read : (Instr.hostBar2Read ⟨0, []⟩ 4097).wellFormed = false := by decide +kernel
theorem test_illFormed_hostBar2Write : (Instr.hostBar2Write ⟨0, []⟩ []).wellFormed = false := by decide +kernel
theorem test_illFormed_hostBar4Read : (Instr.hostBar4Read 0 0).wellFormed = false := by decide +kernel
theorem test_illFormed_hostBar4Write : (Instr.hostBar4Write 0 []).wellFormed = false := by decide +kernel
theorem test_illFormed_pcieLinkUp_width : (Instr.pcieLinkUp 3 1).wellFormed = false := by decide +kernel
theorem test_illFormed_pcieLinkUp_speed : (Instr.pcieLinkUp 8 5).wellFormed = false := by decide +kernel
theorem test_illFormed_dbTensor : (Instr.dbTensor 48 0).wellFormed = false := by decide +kernel
theorem test_illFormed_dispatchCoreFault : (Instr.dispatchCoreFault 0 3).wellFormed = false := by decide +kernel
theorem test_illFormed_sensorSample : (Instr.sensorSample []).wellFormed = false := by decide +kernel
theorem test_illFormed_limitActionEnd : (Instr.limitActionEnd 6).wellFormed = false := by decide +kernel
theorem test_illFormed_carapaceSramScrub : (Instr.carapaceSramScrub 3).wellFormed = false := by decide +kernel
theorem test_illFormed_attestReportDone : (Instr.attestReportDone []).wellFormed = false := by decide +kernel
theorem test_illFormed_sealDone : (Instr.sealDone true 0 []).wellFormed = false := by decide +kernel
theorem test_illFormed_lifetimeCounterFlush : (Instr.lifetimeCounterFlush 10).wellFormed = false := by decide +kernel

/-! Words of the tile instruction set, written out from the formats of R145 and the codes of R148. -/

/-- ADD g3, g5, g7: format R. -/
theorem test_decode_add : decodeTile 9 0b0000001_00011_00101_00111_0000000000#32 = some (.add 9 3 5 7) := by decide +kernel
/-- ADDI g3, g5, -1: format I. -/
theorem test_decode_addi : decodeTile 9 0b0010000_00011_00101_111111111111111#32 = some (.addi 9 3 5 0x7fff) := by decide +kernel
/-- SW g3, g5, 8: format S. -/
theorem test_decode_sw : decodeTile 9 0b0100101_00011_00101_000000000001000#32 = some (.sw 9 3 5 8) := by decide +kernel
/-- JAL g1, 2: format J. -/
theorem test_decode_jal : decodeTile 9 0b0110110_00001_00000000000000000010#32 = some (.jal 9 1 2) := by decide +kernel
/-- LOOPI lc1, 20 times, body of 3: format LI. -/
theorem test_decode_loopi : decodeTile 9 0b0111001_01_00000010100_000000000011#32 = some (.loopi 9 1 20 3) := by decide +kernel
/-- VSEL v1, v2, v3, v4: format V. -/
theorem test_decode_vsel : decodeTile 9 0b1001101_0001_0010_0011_0100_000000000#32 = some (.vsel 9 1 2 3 4) := by decide +kernel
/-- VLD v1 of halfwords at g6 + 2 × 32, sign-extended: format VM. -/
theorem test_decode_vld : decodeTile 9 0b1100000_0001_01_00110_1_0000000000010#32 = some (.vld 9 1 1 6 true 2) := by decide +kernel
/-- VRNG v1, v2, g3, g4, word 2: format VS. -/
theorem test_decode_vrng : decodeTile 9 0b1011110_0001_0010_00011_00100_0000010#32 = some (.vrng 9 1 2 3 4 2) := by decide +kernel
/-- SADDI g2, 5: a synchronisation instruction. -/
theorem test_decode_saddi : decodeTile 9 0b1110101_00010_0000000000_0000000101#32 = some (.saddi 9 2 5) := by decide +kernel
/-- A scalar register operation whose ctl is not 0 is illegal (R147). -/
theorem test_decode_ctl : decodeTile 9 0b0000001_00011_00101_00111_0000000001#32 = none := by decide +kernel
/-- Opcode 0 is no instruction (R148). -/
theorem test_decode_zero : decodeTile 9 0#32 = none := by decide +kernel
/-- The opcode table gives its rows no bits. -/
theorem test_decodeTableWord : decodeTableWord 32 0 = none := by decide +kernel

/-! Values that the spec states. -/

/-- R190: the check values over the nine bytes "123456789". -/
theorem test_crc16 : crc16 ((List.range 9).map (fun i => BitVec.ofNat 8 (0x31 + i))) = 0x29B1 := by decide +kernel
theorem test_crc32c : crc32c ((List.range 9).map (fun i => BitVec.ofNat 8 (0x31 + i))) = 0xE3069283 := by decide +kernel
/-- FIPS 180-4: the digest of no bytes begins 38B060A7. -/
theorem test_sha384 : (sha384 []).take 4 = [0x38#8, 0xB0#8, 0x60#8, 0xA7#8] := by decide +kernel
/-- R292: the reference vector of the counter generator, words 2 and 0. -/
theorem test_rng : rngWord 0x100000002 3 4 2 = 0x791E93B6 ∧ rngWord 0x100000002 3 4 0 = 0x7FE1AA0C := by decide +kernel
/-- R276, the example: five BF16 elements share exponent -5 and carry 32,000, 96, 3, 0 and 0. -/
theorem test_sharedExponent :
    convertChunk ([0x447A, 0x4040, 0x3DCD, 0xBC40, 0x3080].map (decElem 10)) = (-5, [32000, 96, 3, 0, 0]) := by decide +kernel
/-- R276, the example: the chunk result is 0x447A_C600. -/
theorem test_chunkResult : (accCol true 0 false 0 (32099 * 16384) (-5 - 14)).1 = 0x447AC600 := by decide +kernel

/-! Single commands. -/

/-- The tile and the PC that a command leaves. -/
def after (c : Instr) (s : State) : State :=
  match exec c s with
  | .next u => u
  | _ => s

/-- R148: ADD wraps, and the PC moves on by 4. -/
theorem test_add_wraps :
    let u := after (.add 5 3 1 2) (withT 5 (tk 0 [(1, 0xffffffff), (2, 2)] []))
    u.g 5 3 = 1 ∧ (u.tile 5).pc = 4 := by decide +kernel
/-- R141: g0 discards writes. -/
theorem test_g0 : (after (.add 5 0 1 2) (withT 5 (tk 0 [(1, 7), (2, 2)] []))).g 5 0 = 0 := by decide +kernel
/-- R148: the source is read before the destination is written. -/
theorem test_sub_in_place : (after (.sub 5 1 1 1) (withT 5 (tk 0 [(1, 7)] []))).g 5 1 = 0 := by decide +kernel
/-- R148: a taken branch goes to the address of the branch plus 4 × off. -/
theorem test_beq_back : ((after (.beq 5 1 1 0x7fff) (withT 5 (tk 0 [(1, 7)] [] (pc := 8)))).tile 5).pc = 4 := by decide +kernel
/-- R1, R47: with no command waiting, a step is one tick. -/
theorem test_tick :
    (match step State.reset with
     | .next u => u.tick
     | _ => 0) = 1 := by decide +kernel
/-- R85: the reset value of ROT_EN is 1. -/
theorem test_reset_rotEn : State.reset.rd F.BRD_CTRL_ROT_EN 0 = 1 := by decide +kernel
/-- R393: after link-up, HIF_LINK shows the width. -/
theorem test_pcieLinkUp : (after (.pcieLinkUp 4 4) rdy).rd F.HIF_LINK_WIDTH = 4 := by decide +kernel

/-- The premise of StepKeepsSound holds of the state after reset. -/
theorem wit_StepKeepsSound : State.reset.sound := ⟨by decide +kernel, by decide +kernel⟩
/-- The premises of StepRunsFrontCommand. -/
theorem wit_StepRunsFrontCommand :
    { State.reset with pending := [Instr.powerGood] }.pending = Instr.powerGood :: [] ∧ State.reset.pending = [] := by decide +kernel

/-! The premises that Safety.lean names, from what can be evaluated. -/

theorem runs_of {s : State} {t : Nat}
    (h : (s.canIssue t && s.sramErrs (tileAddr t (0x20000 + (s.tile t).pc)) 4 == []) = true) : s.runs t := by
  simpa [State.runs] using h

theorem follows_of {s : State} {t : Nat} (h : s.nextPc t ≤ 0x3FFC) : s.follows t := h

theorem takes_of {s : State} {c : Cmd}
    (h : (s.cmdReady && !s.tagBad c.tag &&
      (s.busRead (mDsp 0) (s.ringSlot 0 (s.rd F.HIF_RING_CONS_CONS 0)) 64).1 == .ok &&
      cmdAt (s.busRead (mDsp 0) (s.ringSlot 0 (s.rd F.HIF_RING_CONS_CONS 0)) 64).2.1 == c) = true) : s.takes c := by
  simp only [Bool.and_eq_true, beq_iff_eq, Bool.not_eq_true'] at h
  obtain ⟨⟨⟨h1, h2⟩, h3⟩, h4⟩ := h
  exact ⟨h1, h2, _, _, Prod.ext h3 rfl, h4⟩

theorem ringReady_of {s : State} {r n : Nat}
    (h : s.rd F.HIF_RING_CFG_ESIZE r = n ∧ s.rd F.HIF_RING_BASE_BASE r * 4096 + s.ringN r * (16 * n) ≤ gddrEnd ∧
      (∀ ch, ch < 8 → s.rd F.MEM_INJ_ARM ch = 0) ∧ s.handover = false ∧ ∀ e ∈ s.mem.sram, e.1 < chkBase) : s.ringReady r n := h

theorem cacheClean_of {s : State} (h : ∀ e ∈ s.mem.sram, e.1 < chkBase) : s.cacheClean := h

theorem mayLose_of {s : State} {n : Nat}
    (h : n < 48 ∧ (s.strm n).desc.en = true ∧ (s.strm n).state ≠ 3 ∧ s.rd F.INT_LOSS_CONSEC n + 1 < (s.strm n).desc.limit ∧
      (∀ e ∈ s.mem.sram, e.1 % 8 = 0) ∧ ∀ x ∈ s.sched.pipes, x.running = false) : s.mayLose n := h

theorem except_ok {ε σ : Type} {x : Except ε Machine.Unit × σ}
    (h : (match x.1 with | .ok a => decide (a = {}) | .error _ => false) = true) : x = (.ok {}, x.2) := by
  obtain ⟨e, y⟩ := x
  cases e with
  | error e => simp at h
  | ok a => simp at h; rw [h]

theorem except_error {σ : Type} {n : Nat} {x : Except Nat Machine.Unit × σ}
    (h : (match x.1 with | .error a => decide (a = n) | .ok _ => false) = true) : x = (.error n, x.2) := by
  obtain ⟨e, y⟩ := x
  cases e with
  | error e => simp at h; rw [h]
  | ok a => simp at h

theorem exists_snd {α β : Type} [DecidableEq α] {a : α} {x : Option (α × β)}
    (h : (match x with | some p => decide (p.1 = a) | none => false) = true) : ∃ e, x = some (a, e) := by
  cases x with
  | none => simp at h
  | some p => simp at h; exact ⟨p.2, by rw [← h]⟩

theorem all_below {a m : Nat} {p : Nat → Prop} (h : ∀ n, n < m → a ≤ n → p n) : ∀ n, a ≤ n → n < m → p n :=
  fun n x y => h n y x

theorem lost_of (l : FMap MemChan) (ch : Nat) (h : ∀ x ∈ l, x.2.lost = []) : (FMap.get {} l ch).lost = [] := by
  induction l with
  | nil => rfl
  | cons x r ih =>
    obtain ⟨j, v⟩ := x
    unfold FMap.get
    split
    · exact h (j, v) (by simp)
    · exact ih fun y hy => h y (by simp [hy])

theorem clean_of {s : State} (h : s.mem.chk = [] ∧ ∀ x ∈ s.chans, x.2.lost = []) : s.clean :=
  ⟨fun sec => by simp [State.secDiff, h.1, FMap.get], fun ch => lost_of s.chans ch h.2⟩

theorem answers_of {s : State}
    (h : (s.rd F.HIF_RING_CFG_ESIZE 1 = 4 ∧ s.rd F.HIF_RING_BASE_BASE 1 * 4096 + s.ringN 1 * (16 * 4) ≤ gddrEnd ∧
      (∀ ch, ch < 8 → s.rd F.MEM_INJ_ARM ch = 0) ∧ s.handover = false ∧ ∀ e ∈ s.mem.sram, e.1 < chkBase) ∧ readyNops s.host.waiting = []) : s.answers := h

/-! Premises of the statements. -/

namespace W10
def A : State := withT 5 (tk 5 [(1,7),(2,0xfffffff0),(3,33)] [])
def w10 (i : Nat) : State := ([A] : List State).getD i up

theorem wit_ScalarOperations :
    ((w10 0).runs (5#11).toNat) ∧
    ((w10 0).follows (5#11).toNat) :=
  ⟨runs_of (by decide +kernel), follows_of (by decide +kernel)⟩

end W10

namespace W11
def A : State := withT 5 (tk 5 [(1,7),(2,0xfffffff0),(3,33),(4,0x100),(5,0x200)] [] 0x10)
def A2 : State := (withT 5 (tk 5 [(1,7),(2,0xfffffff0),(3,33),(4,0x102),(5,0x200)] [] 0x10)).store 0 (tileAddr 5 0x100) (natLe 4 0x8899aabb)
def A3 : State := (withT 5 {(tk 5 [(1,7),(2,0xfffffff0),(3,33),(4,0x102),(5,0x200)] [] 0x10) with loops := [{lc := 1, first := 8, last := 0x10, trips := 3}]}).store 0 (tileAddr 5 0x100) (natLe 4 0x8899aabb)
def w11 (i : Nat) : State := ([A2] : List State).getD i up
def w11a (i : Nat) : State := ([A2] : List State).getD i up
def w11b (i : Nat) : State := ([A, jb A, jb A3, A3, {A with swarm.tiles := (withT 5 (tk 5 [(1,7),(2,7),(5,0xffffffff)] [] 0x3ff8)).swarm.tiles}] : List State).getD i up
def A4 : State := withT 5 {(tk 5 [(1,7),(2,0xfffffff0)] [] 0x10) with loops := [{lc := 1, first := 8, last := 0x3f00, trips := 3}]}
def w11c (i : Nat) : State := ([A, A4, jb A, jb A4] : List State).getD i up
def w11d (i : Nat) : State := ([A, jb A, {A with tick := 0x1234567800}] : List State).getD i up
def w11e (i : Nat) : State := ([A, jb A] : List State).getD i up
def v1 : Job := { id := 1, stage := 3, parts := [{ unit := 5 }, { unit := 6 }] }
def v2 : PartRun := { unit := 5 }

theorem wit_LoadsReadLocalMemory :
    ((BitVec.ofNat 32 ((w11 0).g (5#11).toNat (0#5).toNat) + BitVec.signExtend 32 258#15).toNat % 2 = 0 ∧ localDev (5#11).toNat (BitVec.ofNat 32 ((w11 0).g (5#11).toNat (0#5).toNat) + BitVec.signExtend 32 258#15).toNat 2 false = some 17592187355394 ∧ (w11 0).sramErrs 17592187355394 2 = []) ∧
    ((w11 0).runs (5#11).toNat) ∧
    ((w11 0).follows (5#11).toNat) ∧
    ((BitVec.ofNat 32 ((w11 0).g (5#11).toNat (0#5).toNat) + BitVec.signExtend 32 258#15).toNat % 1 = 0 ∧ localDev (5#11).toNat (BitVec.ofNat 32 ((w11 0).g (5#11).toNat (0#5).toNat) + BitVec.signExtend 32 258#15).toNat 1 false = some 17592187355394 ∧ (w11 0).sramErrs 17592187355394 1 = []) ∧
    ((BitVec.ofNat 32 ((w11 0).g (5#11).toNat (0#5).toNat) + BitVec.signExtend 32 260#15).toNat % 4 = 0 ∧ localDev (5#11).toNat (BitVec.ofNat 32 ((w11 0).g (5#11).toNat (0#5).toNat) + BitVec.signExtend 32 260#15).toNat 4 false = some 17592187355396 ∧ (w11 0).sramErrs 17592187355396 4 = []) :=
  ⟨by decide +kernel, runs_of (by decide +kernel), follows_of (by decide +kernel), by decide +kernel, by decide +kernel⟩

theorem wit_StoresWriteLocalMemory :
    ((BitVec.ofNat 32 ((w11a 0).g (5#11).toNat (0#5).toNat) + BitVec.signExtend 32 258#15).toNat % 2 = 0 ∧ localDev (5#11).toNat (BitVec.ofNat 32 ((w11a 0).g (5#11).toNat (0#5).toNat) + BitVec.signExtend 32 258#15).toNat 2 true = some 17592187355394 ∧ (w11a 0).sramErrs 17592187355394 2 = []) ∧
    ((w11a 0).runs (5#11).toNat) ∧
    ((w11a 0).follows (5#11).toNat) ∧
    ((BitVec.ofNat 32 ((w11a 0).g (5#11).toNat (0#5).toNat) + BitVec.signExtend 32 258#15).toNat % 1 = 0 ∧ localDev (5#11).toNat (BitVec.ofNat 32 ((w11a 0).g (5#11).toNat (0#5).toNat) + BitVec.signExtend 32 258#15).toNat 1 true = some 17592187355394 ∧ (w11a 0).sramErrs 17592187355394 1 = []) ∧
    ((BitVec.ofNat 32 ((w11a 0).g (5#11).toNat (0#5).toNat) + BitVec.signExtend 32 260#15).toNat % 4 = 0 ∧ localDev (5#11).toNat (BitVec.ofNat 32 ((w11a 0).g (5#11).toNat (0#5).toNat) + BitVec.signExtend 32 260#15).toNat 4 true = some 17592187355396 ∧ (w11a 0).sramErrs 17592187355396 4 = []) :=
  ⟨by decide +kernel, runs_of (by decide +kernel), follows_of (by decide +kernel), by decide +kernel, by decide +kernel⟩

theorem wit_BranchesAndJumps :
    (((w11b 0).tile (5#11).toNat).atLoopEnd = false ∧ BitVec.ofNat 32 ((w11b 0).g (5#11).toNat (0#5).toNat) = BitVec.ofNat 32 ((w11b 0).g (5#11).toNat (0#5).toNat) ∧ (0 ≤ ↑((w11b 0).tile (5#11).toNat).pc + 4 * (0#15).toInt ∧ ↑((w11b 0).tile (5#11).toNat).pc + 4 * (0#15).toInt ≤ 16380 ∧ (↑((w11b 0).tile (5#11).toNat).pc + 4 * (0#15).toInt) % 4 = 0)) ∧
    ((w11b 0).runs (5#11).toNat) ∧
    ((¬BitVec.ofNat 32 ((w11b 0).g (5#11).toNat (0#5).toNat) ≠ BitVec.ofNat 32 ((w11b 0).g (5#11).toNat (0#5).toNat))) ∧
    ((w11b 0).follows (5#11).toNat) ∧
    ((¬(BitVec.ofNat 32 ((w11b 0).g (5#11).toNat (0#5).toNat)).toInt < (BitVec.ofNat 32 ((w11b 0).g (5#11).toNat (0#5).toNat)).toInt)) ∧
    ((BitVec.ofNat 32 ((w11b 0).g (5#11).toNat (0#5).toNat)).toInt ≤ (BitVec.ofNat 32 ((w11b 0).g (5#11).toNat (0#5).toNat)).toInt) ∧
    ((¬(BitVec.ofNat 32 ((w11b 0).g (5#11).toNat (0#5).toNat)).toNat < (BitVec.ofNat 32 ((w11b 0).g (5#11).toNat (0#5).toNat)).toNat)) ∧
    ((BitVec.ofNat 32 ((w11b 0).g (5#11).toNat (0#5).toNat)).toNat ≤ (BitVec.ofNat 32 ((w11b 0).g (5#11).toNat (0#5).toNat)).toNat) ∧
    ((0 ≤ ↑((w11b 0).tile (5#11).toNat).pc + 4 * (0#20).toInt ∧ ↑((w11b 0).tile (5#11).toNat).pc + 4 * (0#20).toInt ≤ 16380 ∧ (↑((w11b 0).tile (5#11).toNat).pc + 4 * (0#20).toInt) % 4 = 0)) ∧
    ((0 ≤ ↑(BitVec.ofNat 32 ((w11b 0).g (5#11).toNat (0#5).toNat) + BitVec.signExtend 32 0#15).toNat ∧ ↑(BitVec.ofNat 32 ((w11b 0).g (5#11).toNat (0#5).toNat) + BitVec.signExtend 32 0#15).toNat ≤ 16380 ∧ ↑(BitVec.ofNat 32 ((w11b 0).g (5#11).toNat (0#5).toNat) + BitVec.signExtend 32 0#15).toNat % 4 = 0)) ∧
    ((¬(0 ≤ ↑((w11b 0).tile (5#11).toNat).pc + 4 * (32764#20).toInt ∧ ↑((w11b 0).tile (5#11).toNat).pc + 4 * (32764#20).toInt ≤ 16380 ∧ (↑((w11b 0).tile (5#11).toNat).pc + 4 * (32764#20).toInt) % 4 = 0)) ∧ (w11b 0).haltsAlone (5#11).toNat = true) ∧
    ((¬(0 ≤ ↑(BitVec.ofNat 32 ((w11b 0).g (5#11).toNat (0#5).toNat) + BitVec.signExtend 32 1#15).toNat ∧ ↑(BitVec.ofNat 32 ((w11b 0).g (5#11).toNat (0#5).toNat) + BitVec.signExtend 32 1#15).toNat ≤ 16380 ∧ ↑(BitVec.ofNat 32 ((w11b 0).g (5#11).toNat (0#5).toNat) + BitVec.signExtend 32 1#15).toNat % 4 = 0))) ∧
    ((¬BitVec.ofNat 32 ((w11b 0).g (5#11).toNat (0#5).toNat) = BitVec.ofNat 32 ((w11b 0).g (5#11).toNat (1#5).toNat))) ∧
    (BitVec.ofNat 32 ((w11b 0).g (5#11).toNat (0#5).toNat) ≠ BitVec.ofNat 32 ((w11b 0).g (5#11).toNat (1#5).toNat)) ∧
    ((BitVec.ofNat 32 ((w11b 0).g (5#11).toNat (0#5).toNat)).toInt < (BitVec.ofNat 32 ((w11b 0).g (5#11).toNat (1#5).toNat)).toInt) ∧
    ((¬(BitVec.ofNat 32 ((w11b 0).g (5#11).toNat (1#5).toNat)).toInt ≤ (BitVec.ofNat 32 ((w11b 0).g (5#11).toNat (0#5).toNat)).toInt)) ∧
    ((BitVec.ofNat 32 ((w11b 0).g (5#11).toNat (0#5).toNat)).toNat < (BitVec.ofNat 32 ((w11b 0).g (5#11).toNat (1#5).toNat)).toNat) ∧
    ((¬(BitVec.ofNat 32 ((w11b 0).g (5#11).toNat (1#5).toNat)).toNat ≤ (BitVec.ofNat 32 ((w11b 0).g (5#11).toNat (0#5).toNat)).toNat)) ∧
    (((w11b 2).tile (5#11).toNat).atLoopEnd = true ∧ (w11b 2).haltsAlone (5#11).toNat = true ∧ Instr.beq 5#11 0#5 0#5 0#15 ∈ [Instr.beq 5#11 0#5 0#5 0#15, Instr.bne 5#11 0#5 0#5 0#15, Instr.blt 5#11 0#5 0#5 0#15, Instr.bge 5#11 0#5 0#5 0#15, Instr.bltu 5#11 0#5 0#5 0#15, Instr.bgeu 5#11 0#5 0#5 0#15, Instr.jal 5#11 0#5 0#20, Instr.jalr 5#11 0#5 0#5 0#15]) ∧
    ((w11b 2).runs (5#11).toNat) ∧
    (((w11b 4).tile (5#11).toNat).atLoopEnd = false ∧ BitVec.ofNat 32 ((w11b 4).g (5#11).toNat (0#5).toNat) = BitVec.ofNat 32 ((w11b 4).g (5#11).toNat (0#5).toNat) ∧ (¬(0 ≤ ↑((w11b 4).tile (5#11).toNat).pc + 4 * (5#15).toInt ∧ ↑((w11b 4).tile (5#11).toNat).pc + 4 * (5#15).toInt ≤ 16380 ∧ (↑((w11b 4).tile (5#11).toNat).pc + 4 * (5#15).toInt) % 4 = 0)) ∧ (w11b 4).haltsAlone (5#11).toNat = true) ∧
    ((w11b 4).runs (5#11).toNat) ∧
    ((BitVec.ofNat 32 ((w11b 4).g (5#11).toNat (0#5).toNat)).toInt ≤ (BitVec.ofNat 32 ((w11b 4).g (5#11).toNat (0#5).toNat)).toInt) ∧
    ((BitVec.ofNat 32 ((w11b 4).g (5#11).toNat (0#5).toNat)).toNat ≤ (BitVec.ofNat 32 ((w11b 4).g (5#11).toNat (0#5).toNat)).toNat) ∧
    (BitVec.ofNat 32 ((w11b 4).g (5#11).toNat (0#5).toNat) ≠ BitVec.ofNat 32 ((w11b 4).g (5#11).toNat (1#5).toNat)) ∧
    ((BitVec.ofNat 32 ((w11b 4).g (5#11).toNat (0#5).toNat)).toInt < (BitVec.ofNat 32 ((w11b 4).g (5#11).toNat (1#5).toNat)).toInt) ∧
    ((BitVec.ofNat 32 ((w11b 4).g (5#11).toNat (0#5).toNat)).toNat < (BitVec.ofNat 32 ((w11b 4).g (5#11).toNat (1#5).toNat)).toNat) :=
  ⟨by decide +kernel, runs_of (by decide +kernel), by decide +kernel, follows_of (by decide +kernel), by decide +kernel, by decide +kernel, by decide +kernel, by decide +kernel, by decide +kernel, by decide +kernel, by decide +kernel, by decide +kernel, by decide +kernel, by decide +kernel, by decide +kernel, by decide +kernel, by decide +kernel, by decide +kernel, by decide +kernel, runs_of (by decide +kernel), by decide +kernel, runs_of (by decide +kernel), by decide +kernel, by decide +kernel, by decide +kernel, by decide +kernel, by decide +kernel⟩

theorem wit_HardwareLoopsStart :
    (((w11c 0).tile (5#11).toNat).atLoopEnd = false ∧ (0#2 = 3#2 ∨ 0#12 = 0#12) ∧ (w11c 0).haltsAlone (5#11).toNat = true) ∧
    ((w11c 0).runs (5#11).toNat) ∧
    (0#11 = 0#11) ∧
    (0#2 ≠ 3#2 ∧ 1#12 ≠ 0#12 ∧ ((∀ l ∈ ((w11c 0).tile (5#11).toNat).loops, l.lc ≠ (0#2).toNat ∧ ((w11c 0).tile (5#11).toNat).pc + 4 * (1#12).toNat ≤ l.last) ∧ ((w11c 0).tile (5#11).toNat).pc + 4 * (1#12).toNat ≤ 16380) ∧ (w11c 0).g (5#11).toNat (0#5).toNat = 0 ∧ (∀ l ∈ ((w11c 0).tile (5#11).toNat).loops, l.last ≠ ((w11c 0).tile (5#11).toNat).pc + 4 * (1#12).toNat) ∧ ((w11c 0).tile (5#11).toNat).pc + 4 * (1#12).toNat + 4 ≤ 16380) ∧
    (1#11 ≠ 0#11) ∧
    (0 < (1#11).toNat) ∧
    (0 < (w11c 0).g (5#11).toNat (1#5).toNat) ∧
    (((w11c 1).tile (5#11).toNat).atLoopEnd = false ∧ 4080#12 ≠ 0#12 ∧ (¬((∀ l ∈ ((w11c 1).tile (5#11).toNat).loops, l.lc ≠ (0#2).toNat ∧ ((w11c 1).tile (5#11).toNat).pc + 4 * (4080#12).toNat ≤ l.last) ∧ ((w11c 1).tile (5#11).toNat).pc + 4 * (4080#12).toNat ≤ 16380)) ∧ (w11c 1).haltsAlone (5#11).toNat = true) ∧
    ((w11c 1).runs (5#11).toNat) :=
  ⟨by decide +kernel, runs_of (by decide +kernel), by decide +kernel, by decide +kernel, by decide +kernel, by decide +kernel, by decide +kernel, by decide +kernel, runs_of (by decide +kernel)⟩

theorem wit_ControlRegisterAndEnd :
    ((0#15).toNat ≤ 2) ∧
    ((w11d 0).runs (5#11).toNat) ∧
    ((w11d 0).follows (5#11).toNat) ∧
    ((0#15).toNat = 0) ∧
    (((w11d 0).tile (5#11).toNat).atLoopEnd = false) ∧
    ((w11d 0).haltsAlone (5#11).toNat = true ∧ (0#15).toNat < 128) ∧
    ((1#15).toNat = 1) ∧
    ((5#15).toNat = 5) ∧
    (2 < (5#15).toNat) ∧
    ((2#15).toNat = 2) ∧
    ((3#15).toNat = 3) ∧
    ((4#15).toNat = 4) ∧
    ((6#15).toNat = 6) ∧
    ((7#15).toNat = 7) ∧
    (7 < (8#15).toNat) :=
  ⟨by decide +kernel, runs_of (by decide +kernel), follows_of (by decide +kernel), by decide +kernel, by decide +kernel, by decide +kernel, by decide +kernel, by decide +kernel, by decide +kernel, by decide +kernel, by decide +kernel, by decide +kernel, by decide +kernel, by decide +kernel, by decide +kernel⟩

theorem wit_ScalarFaultsHaltTheTile :
    ((w11e 0).haltsAlone (5#11).toNat = true) ∧
    ((w11e 0).runs (5#11).toNat) ∧
    (1#32 ≠ 0#32 ∧ legalWord (1#32).toNat = false) ∧
    ((BitVec.ofNat 32 ((w11e 0).g (5#11).toNat (0#5).toNat) + BitVec.signExtend 32 1#15).toNat % 4 ≠ 0) ∧
    ((BitVec.ofNat 32 ((w11e 0).g (5#11).toNat (0#5).toNat) + BitVec.signExtend 32 1#15).toNat % 2 ≠ 0) ∧
    ((BitVec.ofNat 32 ((w11e 0).g (5#11).toNat (2#5).toNat) + BitVec.signExtend 32 0#15).toNat % 4 = 0 ∧ localDev (5#11).toNat (BitVec.ofNat 32 ((w11e 0).g (5#11).toNat (2#5).toNat) + BitVec.signExtend 32 0#15).toNat 4 false = none) ∧
    ((BitVec.ofNat 32 ((w11e 0).g (5#11).toNat (2#5).toNat) + BitVec.signExtend 32 0#15).toNat % 2 = 0 ∧ localDev (5#11).toNat (BitVec.ofNat 32 ((w11e 0).g (5#11).toNat (2#5).toNat) + BitVec.signExtend 32 0#15).toNat 2 false = none) ∧
    ((BitVec.ofNat 32 ((w11e 0).g (5#11).toNat (2#5).toNat) + BitVec.signExtend 32 0#15).toNat % 1 = 0 ∧ localDev (5#11).toNat (BitVec.ofNat 32 ((w11e 0).g (5#11).toNat (2#5).toNat) + BitVec.signExtend 32 0#15).toNat 1 false = none) ∧
    (localDev (5#11).toNat (BitVec.ofNat 32 ((w11e 0).g (5#11).toNat (2#5).toNat) + BitVec.signExtend 32 0#15).toNat 4 true = none) ∧
    (localDev (5#11).toNat (BitVec.ofNat 32 ((w11e 0).g (5#11).toNat (2#5).toNat) + BitVec.signExtend 32 0#15).toNat 2 true = none) ∧
    (localDev (5#11).toNat (BitVec.ofNat 32 ((w11e 0).g (5#11).toNat (2#5).toNat) + BitVec.signExtend 32 0#15).toNat 1 true = none) ∧
    ((w11e 1).haltsAlone (5#11).toNat = true ∧ legalWord (0#32).toNat = false ∧ (w11e 1).jobOf (5#11).toNat = some v1 ∧ v1.part? (5#11).toNat = some v2) ∧
    ((w11e 1).runs (5#11).toNat) :=
  ⟨by decide +kernel, runs_of (by decide +kernel), by decide +kernel, by decide +kernel, by decide +kernel, by decide +kernel, by decide +kernel, by decide +kernel, by decide +kernel, by decide +kernel, by decide +kernel, by decide +kernel, runs_of (by decide +kernel)⟩

end W11

namespace W12
def fl : List Nat := [0x3f800000, 0xc0490fdb, 0x7fc00001, 0x7f800000, 0, 0x80000000, 1, 0x7f7fffff, 0x40000000]
def vv : List (Nat × Nat) := (List.range 64).flatMap (fun i => [(64 * 2 + i, fl.getD (i % 9) 0), (64 * 3 + i, fl.getD (i / 9) 0), (64 + i, 4 * i)])
def A : State :=
  withT 5 { (tk 5 [(1, 7), (2, 0xfffffff0), (3, 0x100), (4, 0x104), (5, 0x200), (6, 0xfe00), (7, 0x18000)] vv 0x10) with tabOk := [(2, true)] }

theorem wit_VectorIntegerOperations :
    A.runs 5 ∧ A.follows 5 ∧ (A.haltsAlone 5 = true ∧ (vred 0 ((List.range 64).map (A.lane 5 2))).isSome = true ∧ (3#7).toNat < 4 ∧
      (63#7).toNat < 64 ∧ 5 < (6#9).toNat ∧ 3 < (4#7).toNat ∧ 63 < (64#7).toNat) :=
  ⟨runs_of (by decide +kernel), follows_of (by decide +kernel), by decide +kernel⟩

theorem wit_VectorFloatingOperations :
    A.runs 5 ∧ A.follows 5 ∧ (A.haltsAlone 5 = true ∧ FMap.get false (A.tile 5).tabOk 2 = true ∧ FMap.get false (A.tile 5).tabOk 3 = false ∧
      13 < (14#9).toNat) ∧
    (fIsNan (fFma 0x7f800000 0 0) = true ∧ fIsNan (fAdd 0x7f800000 0xff800000) = true ∧ fIsNan (fSub 0x7f800000 0x7f800000) = true ∧
      fIsNan (fMul 0 0x7f800000) = true ∧ fIsNan 0x7fc00001 = true ∧ fIsNan 0x3f800000 = false) :=
  ⟨runs_of (by decide +kernel), follows_of (by decide +kernel), by decide +kernel, by decide +kernel⟩

/-- The address of a vector transfer with no offset. -/
def va (gb : Nat) : Nat := (BitVec.ofNat 32 (A.g 5 gb) + ((0#13).signExtend 32 <<< 5)).toNat

theorem wit_VectorMemoryTransfers :
    A.runs 5 ∧ A.follows 5 ∧
    (A.haltsAlone 5 = true ∧ va 3 % 32 = 0 ∧ localDev 5 (va 3) 256 false = some (tileAddr 5 0x100) ∧ localDev 5 (va 3) 256 true = some (tileAddr 5 0x100) ∧
      A.sramErrs (tileAddr 5 0x100) 1024 = [] ∧ va 3 + 1024 ≤ 0x10000) ∧
    (va 4 % 32 ≠ 0 ∧ va 7 % 32 = 0 ∧ localDev 5 (va 7) 256 true = none ∧ va 6 % 32 = 0 ∧ 0x10000 < va 6 + 1024) ∧
    (∀ i, i < 64 → (A.g 5 3 + 4 * A.lane 5 1 i) % 2 ^ 32 % 4 = 0 ∧ (A.g 5 3 + 4 * A.lane 5 1 i) % 2 ^ 32 + 4 ≤ 0x10000 ∧
      A.sramErrs (tileAddr 5 ((A.g 5 3 + 4 * A.lane 5 1 i) % 2 ^ 32)) 4 = []) ∧
    (∃ i, i < 64 ∧ (A.g 5 1 + 4 * A.lane 5 1 i) % 2 ^ 32 % 4 ≠ 0) :=
  ⟨runs_of (by decide +kernel), follows_of (by decide +kernel), by decide +kernel, by decide +kernel, by decide +kernel,
    ⟨1, by decide +kernel⟩⟩

end W12

namespace W13
def q8 : List ArrOp := List.replicate 8 {kind := 1}
def A : State := withT 5 (tk 5 [(1,7),(2,0xfffffff0),(3,0x100)] [])
def A8 : State := withT 5 {(tk 5 [(1,7),(2,0xfffffff0),(3,0x100)] []) with q := q8}
def A9 : State := A.wr F.BRD_STATUS_MODE 1 (tileBrood 5)
def w13 (i : Nat) : State := ([jb A, jb A9, A, A, A8, A9, A, A9] : List State).getD i up
def descD : List Byte := natLe 8 (0x10000000000 * 0 + 0x100) ++ natLe 8 0x1000 ++ natLe 2 1 ++ natLe 1 0 ++ natLe 1 0 ++ natLe 4 32 ++ natLe 4 0 ++ natLe 4 0
def D0 : State := withT 5 (tk 5 [(1,7),(2,0x200),(3,0x100),(4,5*65536+0x400),(6,0x80000003),(7,6*65536+0x400)] [])
def D1 : State := D0.store 0 (tileAddr 5 0x200) descD
def D2 : State := D1.modTile 5 (fun x => {x with dma := List.replicate 4 {}, msgs := List.replicate 4 {}})
def D3 : State := D1.modTile 9 (fun x => {x with dma := [{src := 0x100, dst := 0x1000, rows := 1, rowBytes := 32}]})
def E1 : State := sch (withT 5 {(tk 5 [(1,0x40),(4,5*65536+0x400),(6,0x80000003),(7,6*65536+0x400),(8,9*65536)] []) with job := {active := true, job := 1, stage := 3}})
def E2 : State := {E1 with sched.jobs := [{id := 1, stage := 3, parts := [{unit := 5}], slot := 0}]}
def E3 : State := D1.modTile 5 (fun x => {x with job := {single := true}})
def w13a (i : Nat) : State := ([jb D0, jb D1, jb D1, jb D1, D3, D2, D0, D1, D2, D1, D2, D1, D2, E2, E2, E2, E3, E3, E3] : List State).getD i up
def S0 : State := (sch (withT 5 {(tk 5 [(1,7),(2,20),(3,21),(4,0x80000003),(6,9)] []) with job := {stage := 3}})).setTile 6 {}
def S1 : State := S0.modTile 5 (fun x => {x with obj := [(3,8)]})
def w13b (i : Nat) : State := ([jb S0, jb S1, jb S0, jb S1, S0, S0, S1] : List State).getD i up
def v1 : DmaDesc := { src := 0x0000000000000100#64, dst := 0x0000000000001000#64, rows := 1, rowBytes := 32 }
def v2 : SyncPlanEntry := { obj := 20 }
def v3 : SyncPlanEntry := { obj := 21, barrier := true }

theorem wit_ArrayInstructionsQueue :
    (((5#10).toNat % 4 ≠ 0 ∨ (5#10).toNat / 16 % 32 = 7 ∨ 20 ≤ (5#10).toNat / 16 % 32) ∧ ((w13 0).tile (5#11).toNat).q.length < 8 ∧ (w13 0).haltsAlone (5#11).toNat = true) ∧
    ((w13 0).runs (5#11).toNat) ∧
    ((¬(5 < (5#10).toNat / 64 % 8 ∨ (5#10).toNat % 32 = 7 ∨ 20 ≤ (5#10).toNat % 32)) ∧ (w13 0).notLead (5#11).toNat = false) ∧
    ((w13 0).follows (5#11).toNat) ∧
    ((¬(5#10).toNat / 32 % 8 ≠ 0)) ∧
    (((w13 0).tile (5#11).toNat).arrIdle = true) ∧
    ((5 < (39#10).toNat / 64 % 8 ∨ (39#10).toNat % 32 = 7 ∨ 20 ≤ (39#10).toNat % 32)) ∧
    ((39#10).toNat / 32 % 8 ≠ 0) ∧
    ((w13 1).notLead (5#11).toNat = true ∧ ((w13 1).tile (5#11).toNat).q.length < 8 ∧ (w13 1).haltsAlone (5#11).toNat = true) ∧
    ((w13 1).runs (5#11).toNat) ∧
    ((¬((32#10).toNat % 4 ≠ 0 ∨ (32#10).toNat / 16 % 32 = 7 ∨ 20 ≤ (32#10).toNat / 16 % 32)) ∧ (w13 2).notLead (5#11).toNat = false ∧ ((w13 2).tile (5#11).toNat).q.length < 8) ∧
    ((w13 2).runs (5#11).toNat) ∧
    ((w13 2).follows (5#11).toNat) ∧
    (((w13 4).tile (5#11).toNat).q.length = 8) ∧
    ((w13 4).runs (5#11).toNat) ∧
    ((w13 4).notLead (5#11).toNat = false ∧ ((w13 4).tile (5#11).toNat).arrIdle = false) ∧
    ((¬((16#10).toNat % 4 ≠ 0 ∨ (16#10).toNat / 16 % 32 = 7 ∨ 20 ≤ (16#10).toNat / 16 % 32)) ∧ (w13 7).notLead (5#11).toNat = true ∧ ((w13 7).tile (5#11).toNat).q.length < 8 ∧ (w13 7).haltsAlone (5#11).toNat = true) ∧
    ((w13 7).runs (5#11).toNat) :=
  ⟨by decide +kernel, runs_of (by decide +kernel), by decide +kernel, follows_of (by decide +kernel), by decide +kernel, by decide +kernel, by decide +kernel, by decide +kernel, by decide +kernel, runs_of (by decide +kernel), by decide +kernel, runs_of (by decide +kernel), follows_of (by decide +kernel), by decide +kernel, runs_of (by decide +kernel), by decide +kernel, by decide +kernel, runs_of (by decide +kernel)⟩

theorem wit_DmaAndMessageIssue :
    ((w13a 0).g (5#11).toNat (5#5).toNat % 32 = 0 ∧ (w13a 0).g (5#11).toNat (5#5).toNat + 32 ≤ 65536 ∧ (w13a 0).sramErrs (tileAddr (5#11).toNat ((w13a 0).g (5#11).toNat (5#5).toNat)) 32 = [] ∧ dmaParse (5#11).toNat ((w13a 0).tile (5#11).toNat).pc ((w13a 0).peekN (tileAddr (5#11).toNat ((w13a 0).g (5#11).toNat (5#5).toNat)) 32) = none ∧ (w13a 0).haltsAlone (5#11).toNat = true ∧ ((w13a 0).tile (5#11).toNat).dma.length < 4) ∧
    ((w13a 0).runs (5#11).toNat) ∧
    (((w13a 0).g (5#11).toNat (5#5).toNat % 32 = 0 ∧ (w13a 0).g (5#11).toNat (5#5).toNat + 32 * ((5#10).toNat % 32 + 1) ≤ 65536 ∧ (w13a 0).g (5#11).toNat (5#5).toNat / 2 ^ 30 < ((w13a 0).tile (5#11).toNat).job.chips ∧ (w13a 0).g (5#11).toNat (5#5).toNat / 2 ^ 27 % 8 = 0 ∧ (w13a 0).g (5#11).toNat (5#5).toNat % 2 ^ 16 % 32 = 0 ∧ (w13a 0).g (5#11).toNat (5#5).toNat % 2 ^ 16 + 32 * ((5#10).toNat % 32 + 1) ≤ 65536 ∧ (objRef ((w13a 0).g (5#11).toNat (5#5).toNat)).isSome = true) ∧ ((w13a 0).g (5#11).toNat (5#5).toNat / 2 ^ 16 % 2 ^ 11 ∈ (w13a 0).tileSet (5#11).toNat ∧ ((w13a 0).g (5#11).toNat (5#5).toNat / 2 ^ 30 = ((w13a 0).tile (5#11).toNat).job.chip ∨ ((w13a 0).tile (5#11).toNat).job.single = false)) ∧ ((w13a 0).tile (5#11).toNat).msgs.length < 4) ∧
    ((w13a 0).follows (5#11).toNat) ∧
    (((w13a 0).tile (5#11).toNat).msgs = []) ∧
    ((¬((w13a 0).g (5#11).toNat (5#5).toNat % 32 = 0 ∧ (w13a 0).g (5#11).toNat (5#5).toNat + 32 * ((5#10).toNat % 32 + 1) ≤ 65536 ∧ (w13a 0).g (5#11).toNat (1#5).toNat / 2 ^ 30 < ((w13a 0).tile (5#11).toNat).job.chips ∧ (w13a 0).g (5#11).toNat (1#5).toNat / 2 ^ 27 % 8 = 0 ∧ (w13a 0).g (5#11).toNat (1#5).toNat % 2 ^ 16 % 32 = 0 ∧ (w13a 0).g (5#11).toNat (1#5).toNat % 2 ^ 16 + 32 * ((5#10).toNat % 32 + 1) ≤ 65536 ∧ (objRef ((w13a 0).g (5#11).toNat (5#5).toNat)).isSome = true))) ∧
    (((w13a 0).g (5#11).toNat (1#5).toNat % 32 ≠ 0 ∨ 65536 < (w13a 0).g (5#11).toNat (1#5).toNat + 32)) ∧
    (((w13a 2).g (5#11).toNat (5#5).toNat % 32 = 0 ∧ (w13a 2).g (5#11).toNat (5#5).toNat + 32 * ((5#10).toNat % 32 + 1) ≤ 65536 ∧ (w13a 2).g (5#11).toNat (4#5).toNat / 2 ^ 30 < ((w13a 2).tile (5#11).toNat).job.chips ∧ (w13a 2).g (5#11).toNat (4#5).toNat / 2 ^ 27 % 8 = 0 ∧ (w13a 2).g (5#11).toNat (4#5).toNat % 2 ^ 16 % 32 = 0 ∧ (w13a 2).g (5#11).toNat (4#5).toNat % 2 ^ 16 + 32 * ((5#10).toNat % 32 + 1) ≤ 65536 ∧ (objRef ((w13a 2).g (5#11).toNat (5#5).toNat)).isSome = true) ∧ (¬((w13a 2).g (5#11).toNat (4#5).toNat / 2 ^ 16 % 2 ^ 11 ∈ (w13a 2).tileSet (5#11).toNat ∧ ((w13a 2).g (5#11).toNat (4#5).toNat / 2 ^ 30 = ((w13a 2).tile (5#11).toNat).job.chip ∨ ((w13a 2).tile (5#11).toNat).job.single = false))) ∧ ((w13a 2).tile (5#11).toNat).msgs.length < 4) ∧
    ((w13a 2).runs (5#11).toNat) ∧
    ((w13a 2).follows (5#11).toNat) ∧
    ((w13a 4).g (5#11).toNat (2#5).toNat % 32 = 0 ∧ (w13a 4).g (5#11).toNat (2#5).toNat + 32 ≤ 65536 ∧ (w13a 4).sramErrs (tileAddr (5#11).toNat ((w13a 4).g (5#11).toNat (2#5).toNat)) 32 = [] ∧ dmaParse (5#11).toNat ((w13a 4).tile (5#11).toNat).pc ((w13a 4).peekN (tileAddr (5#11).toNat ((w13a 4).g (5#11).toNat (2#5).toNat)) 32) = some v1 ∧ ((w13a 4).tile (5#11).toNat).dma.length < 4) ∧
    ((w13a 4).runs (5#11).toNat) ∧
    ((w13a 4).follows (5#11).toNat) ∧
    (((w13a 5).tile (5#11).toNat).dma.length = 4) ∧
    ((w13a 5).runs (5#11).toNat) ∧
    (((w13a 5).tile (5#11).toNat).msgs.length = 4) ∧
    (((w13a 5).tile (5#11).toNat).msgs ≠ []) :=
  ⟨by decide +kernel, runs_of (by decide +kernel), by decide +kernel, follows_of (by decide +kernel), by decide +kernel, by decide +kernel, by decide +kernel, by decide +kernel, runs_of (by decide +kernel), follows_of (by decide +kernel), by decide +kernel, runs_of (by decide +kernel), follows_of (by decide +kernel), by decide +kernel, runs_of (by decide +kernel), by decide +kernel, by decide +kernel⟩

theorem wit_SynchronisationInstructions :
    ((w13b 0).haltsAlone (5#11).toNat = true) ∧
    ((w13b 0).runs (5#11).toNat) ∧
    (objRef ((w13b 0).g (5#11).toNat (5#5).toNat) = none ∨ ∃ k, objRef ((w13b 0).g (5#11).toNat (5#5).toNat) = some (ObjRef.glob k) ∧ ∀ (e : SyncPlanEntry), (w13b 0).planGlob (5#11).toNat k = some e → e.barrier = true) ∧
    (objRef ((w13b 0).g (5#11).toNat (5#5).toNat) = some (ObjRef.glob 0)) ∧
    (objRef ((w13b 0).g (5#11).toNat (2#5).toNat) = some (ObjRef.glob 20) ∧ (w13b 0).planGlob (5#11).toNat 20 = some v2 ∧ v2.barrier = false) ∧
    ((w13b 0).follows (5#11).toNat) ∧
    ((∀ (b : Bool), some false = some b → v2.barrier = b)) ∧
    ((∀ (b : Bool), none = some b → v2.barrier = b)) ∧
    (objRef ((w13b 2).g (5#11).toNat (3#5).toNat) = some (ObjRef.glob 21) ∧ (w13b 2).planGlob (5#11).toNat 21 = some v3 ∧ (∀ (b : Bool), some true = some b → v3.barrier = b)) ∧
    ((w13b 2).runs (5#11).toNat) ∧
    (objRef ((w13b 2).g (5#11).toNat (4#5).toNat) = some (ObjRef.loc 3)) ∧
    ((w13b 2).follows (5#11).toNat) ∧
    ((w13b 2).g (5#11).toNat (5#5).toNat ≤ ((w13b 2).lobj (5#11).toNat 3).toNat) ∧
    ((w13b 2).haltsAlone (5#11).toNat = true) ∧
    (((w13b 2).lobj (5#11).toNat 3).toNat < (w13b 2).g (5#11).toNat (3#5).toNat) :=
  ⟨by decide +kernel, runs_of (by decide +kernel), by first | exact Or.inl (by decide +kernel) | exact Or.inr ⟨_, rfl, by intro e h; cases h⟩, by decide +kernel, by decide +kernel, follows_of (by decide +kernel), by decide +kernel, by decide +kernel, by decide +kernel, runs_of (by decide +kernel), by decide +kernel, follows_of (by decide +kernel), by decide +kernel, by decide +kernel, by decide +kernel⟩

end W13

namespace W14
def tq (o : ArrOp) (f : TileState → TileState := id) (s : State := up) : State := withT 5 (f {(tk 5 [] []) with q := [o], job := {active := true, single := true, stage := 3}}) s
def wl (a ctl : Nat) : ArrOp := {kind := 0, a := BitVec.ofNat 32 a, b := 0x2#32, c := 0x1#32, ctl := BitVec.ofNat 10 ctl, pc := 4}
def st (a b c ctl : Nat) : ArrOp := {kind := 1, a := BitVec.ofNat 32 a, b := BitVec.ofNat 32 b, c := BitVec.ofNat 32 c, ctl := BitVec.ofNat 10 ctl, pc := 4, ord := 1}
def dr (a b c : Nat) : ArrOp := {kind := 2, a := BitVec.ofNat 32 a, b := BitVec.ofNat 32 b, c := BitVec.ofNat 32 c, ctl := 0#10, pc := 4, ord := 1}
def bk8 (x : TileState) : TileState := {x with bank0 := {fmt := 1, loaded := true}}
def bkQ (x : TileState) : TileState := {x with bank0 := {fmt := 1, loaded := true, dist := true}}
def desc1 : List Byte := natLe 1 1 ++ natLe 1 0 ++ natLe 2 0 ++ natLe 4 0 ++ natLe 4 0xffffff80 ++ natLe 4 0x7f ++ natLe 16 0 ++ natLe 4 0 ++ natLe 4 1 ++ natLe 8 0
def sd : State := up.store 0 (tileAddr 5 0x200) desc1
def w14 (i : Nat) : State := ([jb (tq (wl 0x100 0x70)), jb (tq (wl 0x101 0x10)), jb (tq (wl 0x100 0x10)), jb (tq (st 0x100 1 0 1)), jb (tq (st 0x100 2 0xff 1) bk8), jb (tq (dr 0x100 0x200001 0x2000000)), tq (wl 0x100 0x70), tq (wl 0x101 0x10), tq (wl 0x100 0x10) id (up.store 0 (tileAddr 5 0x100) (natLe 60 (77^90))), tq (wl 0x100 0x14),
  tq (st 0x101 1 0 1), tq (st 0x100 1 0 1), tq (st 0x100 1 0 3) bk8, tq (st 0x100 1 0 0x41) bkQ, tq (st 0x100 2 0xff 1) bk8, tq (st 0x100 0x200002 0x10 1) bk8,
  tq (dr 0x101 1 0), tq (dr 0x100 2 0xff), tq (dr 0x100 0x200001 0x2000000), tq (dr 0x100 0x200001 0x2000000) id sd] : List State).getD i up
def fe (f : TileState → TileState) (cyc : Nat) : State := withT 5 (f {(tk 5 [] []) with cyc := cyc})
def so (afmt beat : Nat) : StreamOp := {src := 0x100, stride := 32, count := 2, row := 3, afmt := afmt, beat := beat, pc := 4}
def ld0 : LoadOp := {start := 6, bank := 0, fmt := 1, src := 0x100, masks := [(0,0)], pc := 4}
def dr0 : DrainOp := {dst := 0x100, stride := 32, count := 2, row := 3, pc := 4, descs := [desc1], reads := [0], readFrom := 20}
def w14a (i : Nat) : State := ([fe id 9, fe (fun x => {x with level := 3}) 16, fe (fun x => {x with level := 3}) 21, fe (fun x => {x with level := 2}) 5, fe (fun x => {x with q := [{kind := 1}]}) 9, fe (fun x => {x with q := [{kind := 1}], level := 4}) 10, fe (fun x => {x with q := [{kind := 1}]}) 5, fe (fun x => bk8 {x with stream := some (so 1 0)}) 9, fe (fun x => bk8 {x with level := 4, stream := some (so 1 0)}) 9, fe (fun x => bk8 {x with level := 4, stream := some (so 1 0), loads := [{start := 9, masks := [(0,0)]}]}) 9, fe (fun x => {x with level := 4, stream := some (so 10 0), bank0 := {fmt := 10, loaded := true}}) 9, fe (fun x => {x with level := 4, stream := some (so 10 1), flight := [{full := false, first := 3}], bank0 := {fmt := 10, loaded := true}}) 9, (fe (fun x => bk8 {x with loads := [ld0]}) 9).store 0 (tileAddr 5 0x100) (natLe 200 (77^90)), (fe (fun x => bk8 {x with loads := [{ld0 with masks := [(8,0)]}]}) 9).store 0 (tileAddr 5 0x100) (natLe 200 (77^90)), (fe (fun x => {x with drain := some dr0}) 40).store 0 (tileAddr 5 0x10180) (natLe 200 (77^90))] : List State).getD i up
def bkF : Bank := { fmt := 1, loaded := true }
def fl0 : InFlight := {cyc := 10, row := 3, bank := 0, afmt := 1, wfmt := 1, chunks := [([5], 0)], banks := [(0, bkF)]}
def y0 : TileSums := {got := fl0.sumsOn 0, res := List.replicate 32 0}
def fl1 : InFlight := {fl0 with acc := [(0, some y0)]}
def y2 : TileSums := {got := addInts (fl0.sumsOn 0) [3], res := List.replicate 32 0}
def fl2 : InFlight := {fl0 with acc := [(0, some y2)]}
def dd : DrainOp := {dst := 0x100, stride := 32, count := 2, row := 3, sig := some 4, pc := 4, descs := [desc1], reads := [2], out := [{row := 1, cyc := 75, vals := (List.range 32).map (fun i => i * 5 - 50)}]}
def w14b (i : Nat) : State := ([fe (fun x => {x with flight := [fl1]}) 80, fe (fun x => {x with flight := [fl0]}) 20, fe (fun x => {x with flight := [fl0]}) 77, fe (fun x => {x with flight := [fl1]}) 77, {(fe (fun x => {x with flight := [fl1]}) 80) with tick := 0}, fe (fun x => {x with flight := [fl2]}) 80, (fe (fun x => {x with flight := [fl2]}) 80).setSlotState (tileBrood 5) (tileK 5) 1, fe (fun x => {x with drain := some dd}) 80, fe (fun x => {x with drain := some dd}) 78] : List State).getD i up
def v1 : ArrOp := { a := 0x00000100#32, b := 0x00000002#32, c := 0x00000001#32, ctl := 0x070#10, pc := 4 }
def v2 : ArrOp := { a := 0x00000101#32, b := 0x00000002#32, c := 0x00000001#32, ctl := 0x010#10, pc := 4 }
def v3 : ArrOp := { a := 0x00000100#32, b := 0x00000002#32, c := 0x00000001#32, ctl := 0x010#10, pc := 4 }
def v4 : ArrOp := { kind := 1, a := 0x00000100#32, b := 0x00000001#32, ctl := 0x001#10, pc := 4, ord := 1 }
def v5 : ArrOp := { kind := 1, a := 0x00000100#32, b := 0x00000002#32, c := 0x000000ff#32, ctl := 0x001#10, pc := 4, ord := 1 }
def v6 : ArrOp := { kind := 2, a := 0x00000100#32, b := 0x00200001#32, c := 0x02000000#32, pc := 4, ord := 1 }
def v7 : ArrOp := { kind := 1, a := 0x00000101#32, b := 0x00000001#32, ctl := 0x001#10, pc := 4, ord := 1 }
def v8 : ArrOp := { kind := 1, a := 0x00000100#32, b := 0x00000001#32, ctl := 0x003#10, pc := 4, ord := 1 }
def v9 : ArrOp := { kind := 1, a := 0x00000100#32, b := 0x00000001#32, ctl := 0x041#10, pc := 4, ord := 1 }
def v10 : ArrOp := { kind := 1, a := 0x00000100#32, b := 0x00200002#32, c := 0x00000010#32, ctl := 0x001#10, pc := 4, ord := 1 }
def v11 : ArrOp := { kind := 2, a := 0x00000101#32, b := 0x00000001#32, pc := 4, ord := 1 }
def v12 : ArrOp := { kind := 2, a := 0x00000100#32, b := 0x00000002#32, c := 0x000000ff#32, pc := 4, ord := 1 }
def v13 : StreamOp := { src := 256, stride := 32, count := 2, row := 3, afmt := 1, pc := 4 }
def v14 : StreamOp := { src := 256, stride := 32, count := 2, row := 3, afmt := 10, pc := 4 }
def v15 : DrainRow := { row := 1, cyc := 75, vals := (List.replicate 11 0 ++ [5, 10, 15, 20, 25, 30, 35, 40, 45, 50, 55, 60, 65, 70, 75, 80, 85, 90, 95, 100, 105]) }

theorem wit_ArrayOperationsStart :
    ((w14 0).fused (tileBrood (5#11).toNat) = false ∧ (w14 0).haltsAlone (5#11).toNat = true ∧ (w14 0).mem.sram = [] ∧ ((w14 0).tile (5#11).toNat).q = [v1] ∧ ((w14 0).tile (5#11).toNat).canStart v1 = true ∧ v1.kind = 0 ∧ (¬(¬(v1.ctl.toNat / 8 % 2 = 1 ∧ ¬v1.ctl.toNat / 4 % 2 = 1) ∧ weightFmt (Decidable.decide (v1.ctl.toNat / 4 % 2 = 1)) (v1.ctl.toNat / 16 % 32) = true))) ∧
    ((w14 1).fused (tileBrood (5#11).toNat) = false ∧ (w14 1).haltsAlone (5#11).toNat = true ∧ (w14 1).mem.sram = [] ∧ ((w14 1).tile (5#11).toNat).q = [v2] ∧ ((w14 1).tile (5#11).toNat).canStart v2 = true ∧ v2.kind = 0 ∧ (¬(v2.ctl.toNat / 8 % 2 = 1 ∧ ¬v2.ctl.toNat / 4 % 2 = 1) ∧ weightFmt (Decidable.decide (v2.ctl.toNat / 4 % 2 = 1)) (v2.ctl.toNat / 16 % 32) = true) ∧ (¬(v2.a.toNat % 32 = 0 ∧ v2.a.toNat + blockBytes (v2.ctl.toNat / 16 % 32) (Decidable.decide (v2.ctl.toNat / 4 % 2 = 1)) (Decidable.decide (v2.ctl.toNat / 8 % 2 = 1)) ≤ 65536))) ∧
    ((w14 2).fused (tileBrood (5#11).toNat) = false ∧ (w14 2).haltsAlone (5#11).toNat = true ∧ (w14 2).mem.sram = [] ∧ ((w14 2).tile (5#11).toNat).q = [v3] ∧ ((w14 2).tile (5#11).toNat).canStart v3 = true ∧ v3.kind = 0 ∧ (¬(v3.ctl.toNat / 8 % 2 = 1 ∧ ¬v3.ctl.toNat / 4 % 2 = 1) ∧ weightFmt (Decidable.decide (v3.ctl.toNat / 4 % 2 = 1)) (v3.ctl.toNat / 16 % 32) = true) ∧ (v3.a.toNat % 32 = 0 ∧ v3.a.toNat + blockBytes (v3.ctl.toNat / 16 % 32) (Decidable.decide (v3.ctl.toNat / 4 % 2 = 1)) (Decidable.decide (v3.ctl.toNat / 8 % 2 = 1)) ≤ 65536)) ∧
    ((w14 3).fused (tileBrood (5#11).toNat) = false ∧ (w14 3).haltsAlone (5#11).toNat = true ∧ (w14 3).mem.sram = [] ∧ ((w14 3).tile (5#11).toNat).q = [v4] ∧ ((w14 3).tile (5#11).toNat).canStart v4 = true ∧ v4.kind = 1 ∧ (v4.a.toNat % 16 = 0 ∧ v4.b.toNat / 2 ^ 16 % 16 = 0 ∧ v4.b.toNat / 1024 % 64 = 0 ∧ v4.c.toNat / 512 % 128 = 0 ∧ 1 ≤ v4.b.toNat % 1024 ∧ v4.b.toNat % 1024 ≤ 512 ∧ v4.a.toNat + (v4.b.toNat % 1024 - 1) * (v4.b.toNat / 2 ^ 16) + vecBytes (v4.ctl.toNat % 32) ≤ 65536 ∧ (isMx (v4.ctl.toNat % 32) = true → v4.c.toNat / 2 ^ 16 + v4.b.toNat % 1024 ≤ 65536)) ∧ (((w14 3).tile (5#11).toNat).bank (v4.ctl.toNat / 512)).loaded = false) ∧
    ((w14 4).fused (tileBrood (5#11).toNat) = false ∧ (w14 4).haltsAlone (5#11).toNat = true ∧ (w14 4).mem.sram = [] ∧ ((w14 4).tile (5#11).toNat).q = [v5] ∧ ((w14 4).tile (5#11).toNat).canStart v5 = true ∧ v5.kind = 1 ∧ (v5.a.toNat % 16 = 0 ∧ v5.b.toNat / 2 ^ 16 % 16 = 0 ∧ v5.b.toNat / 1024 % 64 = 0 ∧ v5.c.toNat / 512 % 128 = 0 ∧ 1 ≤ v5.b.toNat % 1024 ∧ v5.b.toNat % 1024 ≤ 512 ∧ v5.a.toNat + (v5.b.toNat % 1024 - 1) * (v5.b.toNat / 2 ^ 16) + vecBytes (v5.ctl.toNat % 32) ≤ 65536 ∧ (isMx (v5.ctl.toNat % 32) = true → v5.c.toNat / 2 ^ 16 + v5.b.toNat % 1024 ≤ 65536)) ∧ (((w14 4).tile (5#11).toNat).bank (v5.ctl.toNat / 512)).loaded = true ∧ (((w14 4).tile (5#11).toNat).bank (v5.ctl.toNat / 512)).accepts (v5.ctl.toNat / 64 % 8) (v5.ctl.toNat % 32) = true ∧ ((((w14 4).tile (5#11).toNat).bank (v5.ctl.toNat / 512)).dist = true → (((w14 4).tile (5#11).toNat).bank (v5.ctl.toNat / 512)).dual = false → ((w14 4).tile (5#11).toNat).job.qm = true) ∧ 32768 / (((w14 4).tile (5#11).toNat).bank (v5.ctl.toNat / 512)).rowBytes < v5.c.toNat % 512 + v5.b.toNat % 1024) ∧
    ((w14 5).fused (tileBrood (5#11).toNat) = false ∧ (w14 5).haltsAlone (5#11).toNat = true ∧ (w14 5).mem.sram = [] ∧ ((w14 5).tile (5#11).toNat).q = [v6] ∧ ((w14 5).tile (5#11).toNat).canStart v6 = true ∧ v6.kind = 2 ∧ (v6.a.toNat % 32 = 0 ∧ v6.a.toNat < 65536 ∧ v6.b.toNat / 2 ^ 16 % 32 = 0 ∧ v6.b.toNat / 1024 % 64 = 0 ∧ v6.c.toNat / 512 % 128 = 0 ∧ 1 ≤ v6.b.toNat % 1024 ∧ v6.b.toNat % 1024 ≤ 512 ∧ v6.c.toNat / 2 ^ 16 % 32 = 0 ∧ v6.c.toNat / 2 ^ 16 + 32 ≤ 65536) ∧ v6.c.toNat % 512 + v6.b.toNat % 1024 ≤ 32768 / ((w14 5).tile (5#11).toNat).drainRow ∧ v6.c.toNat / 2 ^ 16 + descSize ((w14 5).peekN (tileAddr (5#11).toNat (v6.c.toNat / 2 ^ 16)) 32) ((w14 5).tile (5#11).toNat).drainCols ≤ 65536 ∧ descOk ((w14 5).tile (5#11).toNat).drainFp ((w14 5).tile (5#11).toNat).drainCols ((w14 5).peekN (tileAddr (5#11).toNat (v6.c.toNat / 2 ^ 16)) (descSize ((w14 5).peekN (tileAddr (5#11).toNat (v6.c.toNat / 2 ^ 16)) 32) ((w14 5).tile (5#11).toNat).drainCols)) = false) ∧
    ((w14 10).fused (tileBrood (5#11).toNat) = false ∧ (w14 10).haltsAlone (5#11).toNat = true ∧ (w14 10).mem.sram = [] ∧ ((w14 10).tile (5#11).toNat).q = [v7] ∧ ((w14 10).tile (5#11).toNat).canStart v7 = true ∧ v7.kind = 1 ∧ (¬(v7.a.toNat % 16 = 0 ∧ v7.b.toNat / 2 ^ 16 % 16 = 0 ∧ v7.b.toNat / 1024 % 64 = 0 ∧ v7.c.toNat / 512 % 128 = 0 ∧ 1 ≤ v7.b.toNat % 1024 ∧ v7.b.toNat % 1024 ≤ 512 ∧ v7.a.toNat + (v7.b.toNat % 1024 - 1) * (v7.b.toNat / 2 ^ 16) + vecBytes (v7.ctl.toNat % 32) ≤ 65536 ∧ (isMx (v7.ctl.toNat % 32) = true → v7.c.toNat / 2 ^ 16 + v7.b.toNat % 1024 ≤ 65536)))) ∧
    ((w14 12).fused (tileBrood (5#11).toNat) = false ∧ (w14 12).haltsAlone (5#11).toNat = true ∧ (w14 12).mem.sram = [] ∧ ((w14 12).tile (5#11).toNat).q = [v8] ∧ ((w14 12).tile (5#11).toNat).canStart v8 = true ∧ v8.kind = 1 ∧ (v8.a.toNat % 16 = 0 ∧ v8.b.toNat / 2 ^ 16 % 16 = 0 ∧ v8.b.toNat / 1024 % 64 = 0 ∧ v8.c.toNat / 512 % 128 = 0 ∧ 1 ≤ v8.b.toNat % 1024 ∧ v8.b.toNat % 1024 ≤ 512 ∧ v8.a.toNat + (v8.b.toNat % 1024 - 1) * (v8.b.toNat / 2 ^ 16) + vecBytes (v8.ctl.toNat % 32) ≤ 65536 ∧ (isMx (v8.ctl.toNat % 32) = true → v8.c.toNat / 2 ^ 16 + v8.b.toNat % 1024 ≤ 65536)) ∧ (((w14 12).tile (5#11).toNat).bank (v8.ctl.toNat / 512)).loaded = true ∧ (((w14 12).tile (5#11).toNat).bank (v8.ctl.toNat / 512)).accepts (v8.ctl.toNat / 64 % 8) (v8.ctl.toNat % 32) = false) ∧
    ((w14 13).fused (tileBrood (5#11).toNat) = false ∧ (w14 13).haltsAlone (5#11).toNat = true ∧ (w14 13).mem.sram = [] ∧ ((w14 13).tile (5#11).toNat).q = [v9] ∧ ((w14 13).tile (5#11).toNat).canStart v9 = true ∧ v9.kind = 1 ∧ (v9.a.toNat % 16 = 0 ∧ v9.b.toNat / 2 ^ 16 % 16 = 0 ∧ v9.b.toNat / 1024 % 64 = 0 ∧ v9.c.toNat / 512 % 128 = 0 ∧ 1 ≤ v9.b.toNat % 1024 ∧ v9.b.toNat % 1024 ≤ 512 ∧ v9.a.toNat + (v9.b.toNat % 1024 - 1) * (v9.b.toNat / 2 ^ 16) + vecBytes (v9.ctl.toNat % 32) ≤ 65536 ∧ (isMx (v9.ctl.toNat % 32) = true → v9.c.toNat / 2 ^ 16 + v9.b.toNat % 1024 ≤ 65536)) ∧ (((w14 13).tile (5#11).toNat).bank (v9.ctl.toNat / 512)).loaded = true ∧ (((w14 13).tile (5#11).toNat).bank (v9.ctl.toNat / 512)).accepts (v9.ctl.toNat / 64 % 8) (v9.ctl.toNat % 32) = true ∧ (¬((((w14 13).tile (5#11).toNat).bank (v9.ctl.toNat / 512)).dist = true → (((w14 13).tile (5#11).toNat).bank (v9.ctl.toNat / 512)).dual = false → ((w14 13).tile (5#11).toNat).job.qm = true))) ∧
    ((w14 15).fused (tileBrood (5#11).toNat) = false ∧ (w14 15).haltsAlone (5#11).toNat = true ∧ (w14 15).mem.sram = [] ∧ ((w14 15).tile (5#11).toNat).q = [v10] ∧ ((w14 15).tile (5#11).toNat).canStart v10 = true ∧ v10.kind = 1 ∧ (v10.a.toNat % 16 = 0 ∧ v10.b.toNat / 2 ^ 16 % 16 = 0 ∧ v10.b.toNat / 1024 % 64 = 0 ∧ v10.c.toNat / 512 % 128 = 0 ∧ 1 ≤ v10.b.toNat % 1024 ∧ v10.b.toNat % 1024 ≤ 512 ∧ v10.a.toNat + (v10.b.toNat % 1024 - 1) * (v10.b.toNat / 2 ^ 16) + vecBytes (v10.ctl.toNat % 32) ≤ 65536 ∧ (isMx (v10.ctl.toNat % 32) = true → v10.c.toNat / 2 ^ 16 + v10.b.toNat % 1024 ≤ 65536)) ∧ (((w14 15).tile (5#11).toNat).bank (v10.ctl.toNat / 512)).loaded = true ∧ (((w14 15).tile (5#11).toNat).bank (v10.ctl.toNat / 512)).accepts (v10.ctl.toNat / 64 % 8) (v10.ctl.toNat % 32) = true ∧ ((((w14 15).tile (5#11).toNat).bank (v10.ctl.toNat / 512)).dist = true → (((w14 15).tile (5#11).toNat).bank (v10.ctl.toNat / 512)).dual = false → ((w14 15).tile (5#11).toNat).job.qm = true) ∧ v10.c.toNat % 512 + v10.b.toNat % 1024 ≤ 32768 / (((w14 15).tile (5#11).toNat).bank (v10.ctl.toNat / 512)).rowBytes) ∧
    ((w14 16).fused (tileBrood (5#11).toNat) = false ∧ (w14 16).haltsAlone (5#11).toNat = true ∧ (w14 16).mem.sram = [] ∧ ((w14 16).tile (5#11).toNat).q = [v11] ∧ ((w14 16).tile (5#11).toNat).canStart v11 = true ∧ v11.kind = 2 ∧ (¬(v11.a.toNat % 32 = 0 ∧ v11.a.toNat < 65536 ∧ v11.b.toNat / 2 ^ 16 % 32 = 0 ∧ v11.b.toNat / 1024 % 64 = 0 ∧ v11.c.toNat / 512 % 128 = 0 ∧ 1 ≤ v11.b.toNat % 1024 ∧ v11.b.toNat % 1024 ≤ 512 ∧ v11.c.toNat / 2 ^ 16 % 32 = 0 ∧ v11.c.toNat / 2 ^ 16 + 32 ≤ 65536))) ∧
    ((w14 17).fused (tileBrood (5#11).toNat) = false ∧ (w14 17).haltsAlone (5#11).toNat = true ∧ (w14 17).mem.sram = [] ∧ ((w14 17).tile (5#11).toNat).q = [v12] ∧ ((w14 17).tile (5#11).toNat).canStart v12 = true ∧ v12.kind = 2 ∧ (v12.a.toNat % 32 = 0 ∧ v12.a.toNat < 65536 ∧ v12.b.toNat / 2 ^ 16 % 32 = 0 ∧ v12.b.toNat / 1024 % 64 = 0 ∧ v12.c.toNat / 512 % 128 = 0 ∧ 1 ≤ v12.b.toNat % 1024 ∧ v12.b.toNat % 1024 ≤ 512 ∧ v12.c.toNat / 2 ^ 16 % 32 = 0 ∧ v12.c.toNat / 2 ^ 16 + 32 ≤ 65536) ∧ 32768 / ((w14 17).tile (5#11).toNat).drainRow < v12.c.toNat % 512 + v12.b.toNat % 1024) ∧
    ((w14 19).fused (tileBrood (5#11).toNat) = false ∧ (w14 19).haltsAlone (5#11).toNat = true ∧ (w14 19).mem.sram = [] ∧ ((w14 19).tile (5#11).toNat).q = [v6] ∧ ((w14 19).tile (5#11).toNat).canStart v6 = true ∧ v6.c.toNat % 512 + v6.b.toNat % 1024 ≤ 32768 / ((w14 19).tile (5#11).toNat).drainRow ∧ v6.c.toNat / 2 ^ 16 + descSize ((w14 19).peekN (tileAddr (5#11).toNat (v6.c.toNat / 2 ^ 16)) 32) ((w14 19).tile (5#11).toNat).drainCols ≤ 65536 ∧ descOk ((w14 19).tile (5#11).toNat).drainFp ((w14 19).tile (5#11).toNat).drainCols ((w14 19).peekN (tileAddr (5#11).toNat (v6.c.toNat / 2 ^ 16)) (descSize ((w14 19).peekN (tileAddr (5#11).toNat (v6.c.toNat / 2 ^ 16)) 32) ((w14 19).tile (5#11).toNat).drainCols)) = true ∧ v6.a.toNat + (v6.b.toNat % 1024 - 1) * (v6.b.toNat / 2 ^ 16) + outRow (fieldAt ((w14 19).peekN (tileAddr (5#11).toNat (v6.c.toNat / 2 ^ 16)) (descSize ((w14 19).peekN (tileAddr (5#11).toNat (v6.c.toNat / 2 ^ 16)) 32) ((w14 19).tile (5#11).toNat).drainCols)) 0 1) ((w14 19).tile (5#11).toNat).drainCols ≤ 65536) :=
  ⟨by decide +kernel, by decide +kernel, by decide +kernel, by decide +kernel, by decide +kernel, by decide +kernel, by decide +kernel, by decide +kernel, by decide +kernel, by decide +kernel, by decide +kernel, by decide +kernel, by decide +kernel⟩

theorem wit_FeederCycles :
    ((w14a 0).hosted (5#11).toNat = true ∧ (w14a 0).fused (tileBrood (5#11).toNat) = false ∧ (w14a 0).mem.sram = [] ∧ ((w14a 0).tile (5#11).toNat).stream = none ∧ (¬(((w14a 0).tile (5#11).toNat).stream.isSome = true ∨ ∃ o ∈ ((w14a 0).tile (5#11).toNat).q, o.kind = 1)) ∧ (¬(((w14a 0).tile (5#11).toNat).cyc + 16 - tileK (5#11).toNat) % 16 % 4 < if (((w14a 0).tile (5#11).toNat).cyc + 16 - tileK (5#11).toNat) % 16 = 0 then if ((w14a 0).tile (5#11).toNat).stream.isSome = true ∨ ∃ o ∈ ((w14a 0).tile (5#11).toNat).q, o.kind = 1 then Min.min (((w14a 0).tile (5#11).toNat).level + 1) 4 else ((w14a 0).tile (5#11).toNat).level - 1 else ((w14a 0).tile (5#11).toNat).level) ∧ ((w14a 0).tile (5#11).toNat).flight = [] ∧ ((w14a 0).tile (5#11).toNat).loads = [] ∧ ((w14a 0).tile (5#11).toNat).drain = none) ∧
    ((w14a 2).hosted (5#11).toNat = true ∧ (w14a 2).fused (tileBrood (5#11).toNat) = false ∧ (w14a 2).mem.sram = [] ∧ ((w14a 2).tile (5#11).toNat).stream = none ∧ (¬(((w14a 2).tile (5#11).toNat).stream.isSome = true ∨ ∃ o ∈ ((w14a 2).tile (5#11).toNat).q, o.kind = 1)) ∧ ((((w14a 2).tile (5#11).toNat).cyc + 16 - tileK (5#11).toNat) % 16 % 4 < if (((w14a 2).tile (5#11).toNat).cyc + 16 - tileK (5#11).toNat) % 16 = 0 then if ((w14a 2).tile (5#11).toNat).stream.isSome = true ∨ ∃ o ∈ ((w14a 2).tile (5#11).toNat).q, o.kind = 1 then Min.min (((w14a 2).tile (5#11).toNat).level + 1) 4 else ((w14a 2).tile (5#11).toNat).level - 1 else ((w14a 2).tile (5#11).toNat).level) ∧ ((w14a 2).tile (5#11).toNat).drain = none) ∧
    ((w14a 4).hosted (5#11).toNat = true ∧ (w14a 4).fused (tileBrood (5#11).toNat) = false ∧ (w14a 4).mem.sram = [] ∧ ((w14a 4).tile (5#11).toNat).stream = none ∧ (((w14a 4).tile (5#11).toNat).stream.isSome = true ∨ ∃ o ∈ ((w14a 4).tile (5#11).toNat).q, o.kind = 1) ∧ (¬(((w14a 4).tile (5#11).toNat).cyc + 16 - tileK (5#11).toNat) % 16 % 4 < if (((w14a 4).tile (5#11).toNat).cyc + 16 - tileK (5#11).toNat) % 16 = 0 then if ((w14a 4).tile (5#11).toNat).stream.isSome = true ∨ ∃ o ∈ ((w14a 4).tile (5#11).toNat).q, o.kind = 1 then Min.min (((w14a 4).tile (5#11).toNat).level + 1) 4 else ((w14a 4).tile (5#11).toNat).level - 1 else ((w14a 4).tile (5#11).toNat).level) ∧ ((w14a 4).tile (5#11).toNat).drain = none) ∧
    ((w14a 5).hosted (5#11).toNat = true ∧ (w14a 5).fused (tileBrood (5#11).toNat) = false ∧ (w14a 5).mem.sram = [] ∧ ((w14a 5).tile (5#11).toNat).stream = none ∧ (((w14a 5).tile (5#11).toNat).stream.isSome = true ∨ ∃ o ∈ ((w14a 5).tile (5#11).toNat).q, o.kind = 1) ∧ ((((w14a 5).tile (5#11).toNat).cyc + 16 - tileK (5#11).toNat) % 16 % 4 < if (((w14a 5).tile (5#11).toNat).cyc + 16 - tileK (5#11).toNat) % 16 = 0 then if ((w14a 5).tile (5#11).toNat).stream.isSome = true ∨ ∃ o ∈ ((w14a 5).tile (5#11).toNat).q, o.kind = 1 then Min.min (((w14a 5).tile (5#11).toNat).level + 1) 4 else ((w14a 5).tile (5#11).toNat).level - 1 else ((w14a 5).tile (5#11).toNat).level) ∧ ((w14a 5).tile (5#11).toNat).drain = none) ∧
    ((w14a 7).hosted (5#11).toNat = true ∧ (w14a 7).fused (tileBrood (5#11).toNat) = false ∧ (w14a 7).mem.sram = [] ∧ ((w14a 7).tile (5#11).toNat).stream = some v13 ∧ (¬(((w14a 7).tile (5#11).toNat).cyc + 16 - tileK (5#11).toNat) % 16 % 4 < if (((w14a 7).tile (5#11).toNat).cyc + 16 - tileK (5#11).toNat) % 16 = 0 then if ((w14a 7).tile (5#11).toNat).stream.isSome = true ∨ ∃ o ∈ ((w14a 7).tile (5#11).toNat).q, o.kind = 1 then Min.min (((w14a 7).tile (5#11).toNat).level + 1) 4 else ((w14a 7).tile (5#11).toNat).level - 1 else ((w14a 7).tile (5#11).toNat).level) ∧ ((w14a 7).tile (5#11).toNat).drain = none) ∧
    ((w14a 8).hosted (5#11).toNat = true ∧ (w14a 8).fused (tileBrood (5#11).toNat) = false ∧ (w14a 8).mem.sram = [] ∧ ((w14a 8).tile (5#11).toNat).stream = some v13 ∧ ((((w14a 8).tile (5#11).toNat).cyc + 16 - tileK (5#11).toNat) % 16 % 4 < if (((w14a 8).tile (5#11).toNat).cyc + 16 - tileK (5#11).toNat) % 16 = 0 then if ((w14a 8).tile (5#11).toNat).stream.isSome = true ∨ ∃ o ∈ ((w14a 8).tile (5#11).toNat).q, o.kind = 1 then Min.min (((w14a 8).tile (5#11).toNat).level + 1) 4 else ((w14a 8).tile (5#11).toNat).level - 1 else ((w14a 8).tile (5#11).toNat).level) ∧ ((w14a 8).tile (5#11).toNat).beatReady false v13 ((w14a 8).tile (5#11).toNat).cyc = true ∧ (fmtCls (((w14a 8).tile (5#11).toNat).bank v13.bank).dist v13.afmt ≠ 2 ∧ v13.beat = 0 ∨ fmtCls (((w14a 8).tile (5#11).toNat).bank v13.bank).dist v13.afmt = 2 ∧ v13.beat = 1) ∧ ((w14a 8).tile (5#11).toNat).drain = none) ∧
    (fmtCls (((w14a 8).tile (5#11).toNat).bank v13.bank).dist v13.afmt ≠ 2 ∧ v13.beat = 0) ∧
    ((w14a 9).hosted (5#11).toNat = true ∧ (w14a 9).fused (tileBrood (5#11).toNat) = false ∧ (w14a 9).mem.sram = [] ∧ ((w14a 9).tile (5#11).toNat).stream = some v13 ∧ ((((w14a 9).tile (5#11).toNat).cyc + 16 - tileK (5#11).toNat) % 16 % 4 < if (((w14a 9).tile (5#11).toNat).cyc + 16 - tileK (5#11).toNat) % 16 = 0 then if ((w14a 9).tile (5#11).toNat).stream.isSome = true ∨ ∃ o ∈ ((w14a 9).tile (5#11).toNat).q, o.kind = 1 then Min.min (((w14a 9).tile (5#11).toNat).level + 1) 4 else ((w14a 9).tile (5#11).toNat).level - 1 else ((w14a 9).tile (5#11).toNat).level) ∧ ((w14a 9).tile (5#11).toNat).beatReady false v13 ((w14a 9).tile (5#11).toNat).cyc = false ∧ ((w14a 9).tile (5#11).toNat).drain = none) ∧
    ((w14a 10).hosted (5#11).toNat = true ∧ (w14a 10).fused (tileBrood (5#11).toNat) = false ∧ (w14a 10).mem.sram = [] ∧ ((w14a 10).tile (5#11).toNat).stream = some v14 ∧ ((((w14a 10).tile (5#11).toNat).cyc + 16 - tileK (5#11).toNat) % 16 % 4 < if (((w14a 10).tile (5#11).toNat).cyc + 16 - tileK (5#11).toNat) % 16 = 0 then if ((w14a 10).tile (5#11).toNat).stream.isSome = true ∨ ∃ o ∈ ((w14a 10).tile (5#11).toNat).q, o.kind = 1 then Min.min (((w14a 10).tile (5#11).toNat).level + 1) 4 else ((w14a 10).tile (5#11).toNat).level - 1 else ((w14a 10).tile (5#11).toNat).level) ∧ ((w14a 10).tile (5#11).toNat).beatReady false v14 ((w14a 10).tile (5#11).toNat).cyc = true ∧ fmtCls (((w14a 10).tile (5#11).toNat).bank v14.bank).dist v14.afmt = 2 ∧ v14.beat = 0 ∧ ((w14a 10).tile (5#11).toNat).drain = none) ∧
    ((w14a 12).hosted (5#11).toNat = true ∧ (w14a 12).fused (tileBrood (5#11).toNat) = false ∧ (w14a 12).mem.sram = [] ∧ ((w14a 12).tile (5#11).toNat).loads = [ld0] ∧ ld0.start ≤ ((w14a 12).tile (5#11).toNat).cyc ∧ ((w14a 12).tile (5#11).toNat).cyc < ld0.start + 32 ∧ ((w14a 12).tile (5#11).toNat).flight = [] ∧ ld0.fmt = 1 ∧ ld0.dist = false ∧ ld0.dual = false ∧ ld0.bank < 2 ∧ ld0.masks.length = 1) ∧
    (((w14a 12).tile (5#11).toNat).drain = none) ∧
    ((w14a 14).hosted (5#11).toNat = true ∧ (w14a 14).fused (tileBrood (5#11).toNat) = false ∧ (w14a 14).mem.sram = [] ∧ ((w14a 14).tile (5#11).toNat).drain = some dr0 ∧ ((w14a 14).tile (5#11).toNat).loads = [] ∧ ((w14a 14).tile (5#11).toNat).stream = none ∧ ((w14a 14).tile (5#11).toNat).flight = [] ∧ dr0.out = [] ∧ dr0.reads = [0] ∧ 0 < dr0.count ∧ dr0.readFrom ≤ ((w14a 14).tile (5#11).toNat).cyc) :=
  ⟨by decide +kernel, by decide +kernel, by decide +kernel, by decide +kernel, by decide +kernel, by decide +kernel, by decide +kernel, by decide +kernel, by decide +kernel, by decide +kernel, by decide +kernel, by decide +kernel⟩

theorem wit_ArrayResults :
    ((w14b 0).fused (tileBrood (5#11).toNat) = false ∧ (w14b 0).jobOf (5#11).toNat = none ∧ (w14b 0).mem.sram = [] ∧ ((w14b 0).tile (5#11).toNat).nextAcc 0 = none) ∧
    (((w14b 0).tile (5#11).toNat).drain = none) ∧
    (((w14b 0).tile (5#11).toNat).flight = [fl1] ∧ fl1.accOn 0 = some y0 ∧ y0.compared = false ∧ fl1.cyc + 70 ≤ ((w14b 0).tile (5#11).toNat).cyc ∧ fl1.verdict 0 y0 ((fl1.predOn 0 + (0#12).toNat) % 4095) = 0) ∧
    ((w14b 1).fused (tileBrood (5#11).toNat) = false ∧ (w14b 1).jobOf (5#11).toNat = none ∧ (w14b 1).mem.sram = [] ∧ ((w14b 1).tile (5#11).toNat).nextAcc 0 = some fl0 ∧ (((w14b 1).tile (5#11).toNat).cyc < fl0.cyc + 67 ∨ fl0.full = false)) ∧
    ((w14b 2).fused (tileBrood (5#11).toNat) = false ∧ (w14b 2).jobOf (5#11).toNat = none ∧ (w14b 2).mem.sram = [] ∧ ((w14b 2).tile (5#11).toNat).nextAcc 0 = some fl0 ∧ fl0.full = true ∧ fl0.cyc + 67 ≤ ((w14b 2).tile (5#11).toNat).cyc ∧ fl0.add = false ∧ fl0.dual = false ∧ fl0.stop = false ∧ (fl0.bankOn 0).nmask = 0#32 ∧ fl0.row * fl0.rowBytes + 4 * fl0.cols ≤ 32768) ∧
    ((w14b 3).fused (tileBrood (5#11).toNat) = false ∧ (w14b 3).jobOf (5#11).toNat = none ∧ (w14b 3).mem.sram = [] ∧ ((w14b 3).tile (5#11).toNat).flight = [fl1] ∧ ((w14b 3).tile (5#11).toNat).cyc < fl1.cyc + 70) ∧
    ((w14b 6).fused (tileBrood (5#11).toNat) = false ∧ (w14b 6).jobOf (5#11).toNat = none ∧ (w14b 6).mem.sram = [] ∧ ((w14b 6).tile (5#11).toNat).flight = [fl2] ∧ fl2.accOn 0 = some y2 ∧ y2.compared = false ∧ fl2.cyc + 70 ≤ ((w14b 6).tile (5#11).toNat).cyc ∧ fl2.verdict 0 y2 ((fl2.predOn 0 + (5#12).toNat) % 4095) ≠ 0 ∧ (w14b 6).slotState (tileBrood (5#11).toNat) ((w14b 6).slotOf (tileBrood (5#11).toNat) (tileK (5#11).toNat)) = 1) ∧
    ((w14b 7).fused (tileBrood (5#11).toNat) = false ∧ (w14b 7).jobOf (5#11).toNat = none ∧ (w14b 7).mem.sram = [] ∧ ((w14b 7).tile (5#11).toNat).drain = some dd ∧ dd.out = [v15] ∧ dd.reads = [dd.count] ∧ dd.descs = [desc1] ∧ v15.holder = 0 ∧ v15.cyc + 5 ≤ ((w14b 7).tile (5#11).toNat).cyc) ∧
    ((w14b 8).fused (tileBrood (5#11).toNat) = false ∧ (w14b 8).jobOf (5#11).toNat = none ∧ (w14b 8).mem.sram = [] ∧ ((w14b 8).tile (5#11).toNat).drain = some dd ∧ ((w14b 8).tile (5#11).toNat).cyc < v15.cyc + 5) :=
  ⟨by decide +kernel, by decide +kernel, by decide +kernel, by decide +kernel, by decide +kernel, by decide +kernel, by decide +kernel, by decide +kernel, by decide +kernel⟩

end W14

namespace W15
def ms0 (f : TileState → TileState) : State := sch (withT 5 (f {(tk 5 [] []) with job := {stage := 3, chip := 0, chips := 1}}) {up with cfg := {up.cfg with chip := 0}})
def wj (s : State) : State := {s with sched.jobs := [{id := 9, stage := 3, parts := [{unit := 5, status := 0}, {unit := 6, status := 0}]}], swarm.tiles := s.swarm.tiles.map (fun x => (x.1, {x.2 with job := {x.2.job with active := true, job := 9, single := false}}))}
def mq : MsgReq := {src := 0x100, chip := 0, tile := 6, dst := 0x400, spec := 0x80000003#32, add := 2, units := 1, pc := 4}
def mby : List Byte := msgBytes 0 5 mq 3 0 (zeros 32)
def m0 : Msg := {src := 5, chip := 0, dst := 6, bytes := mby, sends := 1, sentAt := 400000000, phase := 0}
def wm (m : Msg) (s : State := ms0 id) : State := {s with mesh := {s.mesh with msgs := [{m with src := 9}, m]}}
def w15 (i : Nat) : State := ([ms0 (fun x => {x with msgs := [mq]}), wm m0 (ms0 (fun x => {x with msgs := [mq]})), wm {m0 with phase := 1}, wm {m0 with phase := 2}, wm {m0 with phase := 2, sends := 3}, wm {m0 with phase := 3}, wj (wm {m0 with phase := 3, job := 9}), wj (wm {m0 with job := 9}), ms0 (fun x => {x with msgs := [{mq with chip := 2}]}), {(ms0 (fun x => {x with msgs := [{mq with chip := 2}]})).wr F.CHL_STATUS_STATE 4 2 with cfg.peers := [none, some 1, some 2]}] : List State).getD i up
def job6 : State := wj ((ms0 id).setTile 6 {run := 1, job := {active := true, single := true, stage := 3}})
def er (o n : Nat) : List Byte := zeros o ++ natLe 1 n
def mby7 : List Byte := msgBytes 0 5 {mq with add := 0} 3 0 (natLe 32 77)
def w15a (i : Nat) : State := ([wm m0 job6, wm m0 (ms0 id), wm {m0 with bytes := mby7} job6] : List State).getD i up
def so5 (k : Nat) (ph : Nat) (v : Nat := 3) (o : Nat := 20) : SyncOp := {tile := 5, kind := k, obj := o, val := BitVec.ofNat 32 v, gd := 7, phase := ph, sentAt := 400000000}
def ws (o : SyncOp) (s : State := ms0 (fun x => {x with blocked := some {kind := o.kind}})) : State := {s with mesh := {s.mesh with ops := [o, {o with tile := 9}]}}
def gb (v : Nat) (p : Nat) (s : State) : State := {s with swarm.gobj := [(20, BitVec.ofNat 32 v)], swarm.gbar := if p = 0 then [] else [(20,p)]}
def w15b (i : Nat) : State := ([ws (so5 0 0), ws (so5 1 0), gb 0x50001 4 (ws (so5 2 0)), gb 0x50003 4 (ws (so5 2 0)), gb 9 0 (ws (so5 3 0)), gb 0x50000 4 (ws (so5 4 0)), gb 1 0 (ws (so5 3 0)),
  (let s := gb 1 0 (ws (so5 3 0)); {s with mesh.ops := s.mesh.ops ++ List.replicate 64 {so5 3 3 with tile := 11}}),
  ws (so5 1 1), ws (so5 2 1), ws (so5 3 4), ws (so5 3 2), ws (so5 3 3), {ws (so5 3 7) with tick := 400000005}, {ws (so5 3 7) with tick := 400000006}, wj {ws {so5 0 0 with job := 9} with tick := 400010001}, {ws (so5 0 0) with tick := 400000001}] : List State).getD i up
def v1 : Msg := { src := 5, dst := 6, bytes := ([6#8, 0#8, 5#8, 0#8, 0#8, 4#8, 0#8, 2#8, 3#8, 0#8, 0#8, 128#8, 3#8] ++ List.replicate 13 0#8 ++ [3#8, 16#8, 173#8, 167#8, 235#8, 10#8] ++ List.replicate 32 0#8), sends := 1, sentAt := 400000000, phase := 1 }
def v2 : Msg := { src := 5, dst := 6, bytes := ([6#8, 0#8, 5#8, 0#8, 0#8, 4#8, 0#8, 2#8, 3#8, 0#8, 0#8, 128#8, 3#8] ++ List.replicate 13 0#8 ++ [3#8, 16#8, 173#8, 167#8, 235#8, 10#8] ++ List.replicate 32 0#8), sends := 1, sentAt := 400000000, phase := 2 }
def v3 : Msg := { src := 5, dst := 6, bytes := ([6#8, 0#8, 5#8, 0#8, 0#8, 4#8, 0#8, 2#8, 3#8, 0#8, 0#8, 128#8, 3#8] ++ List.replicate 13 0#8 ++ [3#8, 16#8, 173#8, 167#8, 235#8, 10#8] ++ List.replicate 32 0#8), sends := 3, sentAt := 400000000, phase := 2 }
def v4 : Msg := { src := 5, dst := 6, bytes := ([6#8, 0#8, 5#8, 0#8, 0#8, 4#8, 0#8, 2#8, 3#8, 0#8, 0#8, 128#8, 3#8] ++ List.replicate 13 0#8 ++ [3#8, 16#8, 173#8, 167#8, 235#8, 10#8] ++ List.replicate 32 0#8), sends := 1, sentAt := 400000000, phase := 3 }
def v5 : List Byte := (List.replicate 40 0#8 ++ [4#8])
def v6 : Msg := { src := 5, dst := 6, bytes := ([6#8, 0#8, 5#8, 0#8, 0#8, 4#8, 0#8, 0#8, 3#8, 0#8, 0#8, 128#8, 3#8] ++ List.replicate 13 0#8 ++ [28#8, 188#8, 114#8, 24#8, 153#8, 222#8, 77#8] ++ List.replicate 31 0#8), sends := 1, sentAt := 400000000 }
def v7 : SyncOp := { tile := 5, obj := 20, val := 0x00000003#32, gd := 7, sentAt := 400000000 }
def v8 : List SyncOp := [{ tile := 9, obj := 20, val := 0x00000003#32, gd := 7, sentAt := 400000000 }]
def v9 : SyncOp := { tile := 5, kind := 1, obj := 20, val := 0x00000003#32, gd := 7, sentAt := 400000000 }
def v10 : List SyncOp := [{ tile := 9, kind := 1, obj := 20, val := 0x00000003#32, gd := 7, sentAt := 400000000 }]
def v11 : SyncOp := { tile := 5, kind := 2, obj := 20, val := 0x00000003#32, gd := 7, sentAt := 400000000 }
def v12 : List SyncOp := [{ tile := 9, kind := 2, obj := 20, val := 0x00000003#32, gd := 7, sentAt := 400000000 }]
def v13 : SyncOp := { tile := 5, kind := 3, obj := 20, val := 0x00000003#32, gd := 7, sentAt := 400000000 }
def v14 : List SyncOp := [{ tile := 9, kind := 3, obj := 20, val := 0x00000003#32, gd := 7, sentAt := 400000000 }]
def v15 : List SyncOp := ([{ tile := 9, kind := 3, obj := 20, val := 0x00000003#32, gd := 7, sentAt := 400000000 }] ++ List.replicate 64 ({ tile := 11, kind := 3, obj := 20, val := 0x00000003#32, gd := 7, phase := 3, sentAt := 400000000 }))
def v16 : SyncOp := { tile := 5, kind := 1, obj := 20, val := 0x00000003#32, gd := 7, phase := 1, sentAt := 400000000 }
def v17 : List SyncOp := [{ tile := 9, kind := 1, obj := 20, val := 0x00000003#32, gd := 7, phase := 1, sentAt := 400000000 }]
def v18 : SyncOp := { tile := 5, kind := 3, obj := 20, val := 0x00000003#32, gd := 7, phase := 4, sentAt := 400000000 }
def v19 : List SyncOp := [{ tile := 9, kind := 3, obj := 20, val := 0x00000003#32, gd := 7, phase := 4, sentAt := 400000000 }]
def v20 : SyncOp := { tile := 5, kind := 3, obj := 20, val := 0x00000003#32, gd := 7, phase := 2, sentAt := 400000000 }
def v21 : List SyncOp := [{ tile := 9, kind := 3, obj := 20, val := 0x00000003#32, gd := 7, phase := 2, sentAt := 400000000 }]
def v22 : SyncOp := { tile := 5, kind := 3, obj := 20, val := 0x00000003#32, gd := 7, phase := 3, sentAt := 400000000 }
def v23 : List SyncOp := [{ tile := 9, kind := 3, obj := 20, val := 0x00000003#32, gd := 7, phase := 3, sentAt := 400000000 }]
def v24 : SyncOp := { tile := 5, kind := 3, obj := 20, val := 0x00000003#32, gd := 7, phase := 7, sentAt := 400000000 }
def v25 : List SyncOp := [{ tile := 9, kind := 3, obj := 20, val := 0x00000003#32, gd := 7, phase := 7, sentAt := 400000000 }]

theorem wit_MessagesAreSentAndAnswered :
    (((w15 0).tile (5#11).toNat).msgs = [mq] ∧ (∀ q ∈ (w15 0).mesh.msgs, ¬(q.src = (5#11).toNat ∧ q.chip = mq.chip ∧ q.dst = mq.tile)) ∧ (w15 0).heldBytes (5#11).toNat + 32 * mq.units ≤ 4096 ∧ (w15 0).sramErrs (tileAddr (5#11).toNat mq.src) (32 * mq.units) = []) ∧
    ((w15 0).msg? (5#11).toNat (dstChip 5#13) (dstTile 5#13) = none) ∧
    (((w15 1).tile (5#11).toNat).msgs = [mq] ∧ (∃ q ∈ (w15 1).mesh.msgs, q.src = (5#11).toNat ∧ q.chip = mq.chip ∧ q.dst = mq.tile)) ∧
    ((w15 1).msg? (5#11).toNat (dstChip 6#13) (dstTile 6#13) = some m0 ∧ 4 * Max.max 16 ((w15 1).rd (if m0.chip = (w15 1).cfg.chip then F.NOC_ACK_TMO_LOCAL else F.NOC_ACK_TMO_CROSS)) ≤ 3 * ((w15 1).tick - m0.sentAt) ∧ (∀ (p : PartRun), (((w15 1).job? ((w15 1).tile (5#11).toNat).job.job).bind fun j => j.part? (5#11).toNat) = some p → p.status ≠ 1)) ∧
    ((w15 2).msg? (5#11).toNat (dstChip 6#13) (dstTile 6#13) = some v1 ∧ (w15 2).answered v1 1 = true) ∧
    ((w15 3).msg? (5#11).toNat (dstChip 6#13) (dstTile 6#13) = some v2 ∧ (w15 3).answered v2 2 = true ∧ v2.sends < 3) ∧
    ((w15 4).msg? (5#11).toNat (dstChip 6#13) (dstTile 6#13) = some v3 ∧ (w15 4).answered v3 2 = true ∧ 3 ≤ v3.sends ∧ (∀ (p : PartRun), (((w15 4).job? ((w15 4).tile (5#11).toNat).job.job).bind fun j => j.part? (5#11).toNat) = some p → p.status ≠ 1)) ∧
    ((w15 5).msg? (5#11).toNat (dstChip 6#13) (dstTile 6#13) = some v4 ∧ (w15 5).answered v4 3 = true ∧ (∀ (p : PartRun), (((w15 5).job? ((w15 5).tile (5#11).toNat).job.job).bind fun j => j.part? (5#11).toNat) = some p → p.status ≠ 1)) :=
  ⟨by decide +kernel, by decide +kernel, by decide +kernel, by decide +kernel, by decide +kernel, by decide +kernel, by decide +kernel, by decide +kernel⟩

theorem wit_MessagesLand :
    ((w15a 0).hosted (6#11).toNat = true ∧ (w15a 0).moving (6#11).toNat = false ∧ (w15a 0).msg? (5#11).toNat (w15a 0).cfg.chip (6#11).toNat = some m0 ∧ m0.phase = 0 ∧ fieldAt (xorBytes m0.bytes []) 26 2 = crc16 (bytesAt (xorBytes m0.bytes []) 0 26) ∧ (w15a 0).inProgress (6#11).toNat (fieldAt (xorBytes m0.bytes []) 12 1) (fieldAt (xorBytes m0.bytes []) 13 1) = true ∧ fieldAt (xorBytes m0.bytes []) 28 4 = crc32c (bytesAt (xorBytes m0.bytes []) 0 28 ++ bytesAt (xorBytes m0.bytes []) 32 (32 * (fieldAt (xorBytes m0.bytes []) 6 1 % 32 + 1))) ∧ (w15a 0).mem.sram = [] ∧ fieldAt (xorBytes m0.bytes []) 7 1 % 32 ≠ 0 ∧ objRef (fieldAt (xorBytes m0.bytes []) 8 4) = some (ObjRef.loc 3)) ∧
    (((w15a 0).link (0#2).toNat ≠ 4 ∨ fieldAt [] 0 2 ≠ (w15a 0).cfg.chip * 16384 + (6#11).toNat)) ∧
    ((¬((5#5).toNat < (w15a 0).nRows ∧ ((5#6).toNat, (5#5).toNat) ∈ (w15a 0).route ((w15a 0).ends (MeshPkt.msg 5#11 6#13)).1 ((w15a 0).ends (MeshPkt.msg 5#11 6#13)).2))) ∧
    (((0#5).toNat < (w15a 0).nRows ∧ ((5#6).toNat, (0#5).toNat) ∈ (w15a 0).route ((w15a 0).ends (MeshPkt.msg 5#11 6#13)).1 ((w15a 0).ends (MeshPkt.msg 5#11 6#13)).2) ∧ (w15a 0).onWay (MeshPkt.msg 5#11 6#13) = true) ∧
    ((¬fieldAt (xorBytes m0.bytes [0#8, 0#8, 0#8, 1#8]) 26 2 = crc16 (bytesAt (xorBytes m0.bytes [0#8, 0#8, 0#8, 1#8]) 0 26))) ∧
    (fieldAt (xorBytes m0.bytes v5) 26 2 = crc16 (bytesAt (xorBytes m0.bytes v5) 0 26) ∧ (w15a 0).inProgress (6#11).toNat (fieldAt (xorBytes m0.bytes v5) 12 1) (fieldAt (xorBytes m0.bytes v5) 13 1) = true ∧ (¬fieldAt (xorBytes m0.bytes v5) 28 4 = crc32c (bytesAt (xorBytes m0.bytes v5) 0 28 ++ bytesAt (xorBytes m0.bytes v5) 32 (32 * (fieldAt (xorBytes m0.bytes v5) 6 1 % 32 + 1))))) ∧
    ((w15a 1).hosted (6#11).toNat = true ∧ (w15a 1).moving (6#11).toNat = false ∧ (w15a 1).msg? (5#11).toNat (w15a 1).cfg.chip (6#11).toNat = some m0 ∧ (¬(w15a 1).inProgress (6#11).toNat (fieldAt (xorBytes m0.bytes []) 12 1) (fieldAt (xorBytes m0.bytes []) 13 1) = true)) ∧
    ((w15a 2).hosted (6#11).toNat = true ∧ (w15a 2).moving (6#11).toNat = false ∧ (w15a 2).msg? (5#11).toNat (w15a 2).cfg.chip (6#11).toNat = some v6 ∧ v6.phase = 0 ∧ fieldAt (xorBytes v6.bytes []) 26 2 = crc16 (bytesAt (xorBytes v6.bytes []) 0 26) ∧ (w15a 2).inProgress (6#11).toNat (fieldAt (xorBytes v6.bytes []) 12 1) (fieldAt (xorBytes v6.bytes []) 13 1) = true ∧ fieldAt (xorBytes v6.bytes []) 28 4 = crc32c (bytesAt (xorBytes v6.bytes []) 0 28 ++ bytesAt (xorBytes v6.bytes []) 32 (32 * (fieldAt (xorBytes v6.bytes []) 6 1 % 32 + 1))) ∧ (w15a 2).mem.sram = [] ∧ fieldAt (xorBytes v6.bytes []) 7 1 % 32 = 0) :=
  ⟨by decide +kernel, by decide +kernel, by decide +kernel, by decide +kernel, by decide +kernel, by decide +kernel, by decide +kernel, by decide +kernel⟩

theorem wit_SynchronisationOperations :
    ((w15b 0).mesh.ops = v7 :: v8 ∧ v7.tile = (5#11).toNat ∧ v7.msgSrc = none ∧ v7.obj / 512 = (0#7).toNat ∧ v7.phase = 0 ∧ v7.kind = 0 ∧ FMap.get 0 (w15b 0).swarm.gbar v7.obj = 0) ∧
    (4 * Max.max 16 ((w15b 0).rd F.NOC_ACK_TMO_LOCAL) ≤ 3 * ((w15b 0).tick - v7.sentAt) ∧ (∀ (p : PartRun), (((w15b 0).job? ((w15b 0).tile (5#11).toNat).job.job).bind fun j => j.part? (5#11).toNat) = some p → p.status ≠ 1)) ∧
    ((w15b 1).mesh.ops = v9 :: v10 ∧ v9.tile = (5#11).toNat ∧ v9.msgSrc = none ∧ v9.obj / 512 = (0#7).toNat ∧ v9.phase = 0 ∧ v9.kind = 1) ∧
    (4 * Max.max 16 ((w15b 1).rd F.NOC_ACK_TMO_LOCAL) ≤ 3 * ((w15b 1).tick - v9.sentAt) ∧ (v9.kind = 1 ∨ v9.kind = 2) ∧ (∀ (p : PartRun), (((w15b 1).job? ((w15b 1).tile (5#11).toNat).job.job).bind fun j => j.part? (5#11).toNat) = some p → p.status ≠ 1) ∧ ((w15b 1).tile (5#11).toNat).blocked.isSome = true) ∧
    ((w15b 1).follows (5#11).toNat) ∧
    ((w15b 2).mesh.ops = v11 :: v12 ∧ v11.tile = (5#11).toNat ∧ v11.msgSrc = none ∧ v11.obj / 512 = (0#7).toNat ∧ v11.phase = 0 ∧ v11.kind = 2 ∧ ((w15b 2).gobj v11.obj).toNat % 4096 + 1 < FMap.get 0 (w15b 2).swarm.gbar v11.obj ∧ FMap.get 0 (w15b 2).swarm.gbar v11.obj ≤ 2048 ∧ ((w15b 2).gobj v11.obj).toNat / 4096 % 16 = 0) ∧
    ((w15b 3).mesh.ops = v11 :: v12 ∧ ((w15b 3).gobj v11.obj).toNat % 4096 + 1 = FMap.get 0 (w15b 3).swarm.gbar v11.obj ∧ FMap.get 0 (w15b 3).swarm.gbar v11.obj ≤ 2048) ∧
    ((w15b 4).mesh.ops = v13 :: v14 ∧ v13.tile = (5#11).toNat ∧ v13.msgSrc = none ∧ v13.obj / 512 = (0#7).toNat ∧ v13.phase = 0 ∧ (v13.kind = 3 ∨ v13.kind = 4) ∧ (v13.kind = 3 ∧ v13.val.toNat ≤ ((w15b 4).gobj v13.obj).toNat ∨ v13.kind = 4 ∧ ((w15b 4).gobj v13.obj).toNat / 65536 ≠ v13.val.toNat % 65536) ∧ (w15b 4).tableUsed (v13.obj / 512) < 64) ∧
    ((w15b 6).mesh.ops = v13 :: v14 ∧ (¬(v13.kind = 3 ∧ v13.val.toNat ≤ ((w15b 6).gobj v13.obj).toNat ∨ v13.kind = 4 ∧ ((w15b 6).gobj v13.obj).toNat / 65536 ≠ v13.val.toNat % 65536)) ∧ (w15b 6).tableUsed (v13.obj / 512) < 64) ∧
    ((w15b 7).mesh.ops = v13 :: v15 ∧ 64 ≤ (w15b 7).tableUsed (v13.obj / 512)) ∧
    ((w15b 8).mesh.ops = v16 :: v17 ∧ v16.tile = (5#11).toNat ∧ v16.msgSrc = none ∧ v16.obj / 512 = (0#7).toNat ∧ v16.phase = 1 ∧ (v16.kind = 1 ∨ v16.kind = 2) ∧ ((w15b 8).tile (5#11).toNat).blocked.isSome = true) ∧
    ((w15b 8).follows (5#11).toNat) ∧
    ((w15b 10).mesh.ops = v18 :: v19 ∧ v18.tile = (5#11).toNat ∧ v18.msgSrc = none ∧ v18.obj / 512 = (0#7).toNat ∧ v18.phase = 4 ∧ (v18.kind = 3 ∨ v18.kind = 4) ∧ ((w15b 10).tile (5#11).toNat).blocked.isSome = true) ∧
    ((w15b 10).follows (5#11).toNat) ∧
    ((w15b 11).mesh.ops = v20 :: v21 ∧ v20.tile = (5#11).toNat ∧ v20.msgSrc = none ∧ v20.obj / 512 = (0#7).toNat ∧ v20.phase = 2) ∧
    ((w15b 12).mesh.ops = v22 :: v23 ∧ v22.tile = (5#11).toNat ∧ v22.msgSrc = none ∧ v22.obj / 512 = (0#7).toNat ∧ v22.phase = 3 ∧ v22.told = false) ∧
    ((w15b 13).mesh.ops = v24 :: v25 ∧ v24.tile = (5#11).toNat ∧ v24.msgSrc = none ∧ v24.obj / 512 = (0#7).toNat ∧ v24.phase = 7 ∧ 3 * ((w15b 13).tick - v24.sentAt) < 16 ∧ (∀ q ∈ v25, q.tile ≠ (5#11).toNat)) ∧
    ((w15b 14).mesh.ops = v24 :: v25 ∧ 16 ≤ 3 * ((w15b 14).tick - v24.sentAt)) ∧
    ((w15b 16).mesh.ops = v7 :: v8 ∧ (¬4 * Max.max 16 ((w15b 16).rd F.NOC_ACK_TMO_LOCAL) ≤ 3 * ((w15b 16).tick - v7.sentAt)) ∧ (∀ q ∈ v8, q.tile ≠ (5#11).toNat)) :=
  ⟨by decide +kernel, by decide +kernel, by decide +kernel, by decide +kernel, follows_of (by decide +kernel), by decide +kernel, by decide +kernel, by decide +kernel, by decide +kernel, by decide +kernel, by decide +kernel, follows_of (by decide +kernel), by decide +kernel, follows_of (by decide +kernel), by decide +kernel, by decide +kernel, by decide +kernel, by decide +kernel, by decide +kernel⟩

end W15

namespace W20
def cf : Cfg := {up.cfg with chip := 1, chips := 2, peers := [some 0, some 2]}
def upd : State := {up with dev := {up.dev with step := 11}}
def lk (p st : Nat) (x : Port) (s : State := {upd with cfg := cf}) : State := ((s.wr F.CHL_STATUS_STATE st p).wr F.CHL_CTRL_EN 1 p).modPort p (fun _ => x)
def one (p : Nat) : List State := [lk p 0 {}, lk p 1 {step := 1}, (lk p 1 {step := 1}).wr F.CHL_LANES_GOOD 0xf p, (lk p 1 {step := 1}).wr F.CHL_LANES_GOOD 0 p,
  lk p 2 {step := 3}, lk p 2 {step := 3, key := some 4}, lk p 3 {step := 4}, lk p 3 {step := 4, auth := 1}, lk p 4 {step := 5}, lk p 7 {}, lk p 5 {}, lk p 6 {refused := true}, lk p 1 {step := 3, t0 := 499000000},
  (lk p 4 {}).wr F.CHL_LANES_GOOD 0xff p, {(lk p 4 {}) with sched := {up.sched with jobs := [{pipe := 9}], pipes := [{desc := {num := 9, multi := false}}]}}]
def mb : State := {(lk 1 4 {}) with sched := {up.sched with jobs := [{pipe := 9}], pipes := [{desc := {num := 9, multi := true}}]}}
def w20 (i : Nat) : State := ([lk 1 2 {step := 3}, lk 1 2 {step := 3, key := some 4}, lk 0 2 {step := 3, key := some 4}] ++ (one 0 ++ one 1) ++ [mb] : List State).getD i up
def w20a (i : Nat) : State := (one 0 ++ one 1 : List State).getD i up
def si (i : SyncIo) (t : Nat) : State := {(((lk 1 4 {}).wr F.SYNC_IO_STATUS_HOLD 0)) with tick := t, mesh := {(lk 1 4 {}).mesh with sio := i}}
def io1 : SyncIo := {pipe := some 1, enteredAt := 100, sentSeq := 3, sentFrame := 9, sentPipe := 1, left := true}
def xr : State := {lk 1 4 {} with cfg := {cf with expRings := [(0x10000,2,64),(0x20000,4,64)]}}
def w20b (i : Nat) : State := ([si io1 160, {si io1 160 with sched.pipes := [{desc := {num := 1}}]}, si io1 172, si {io1 with pipe := none} 172, si {io1 with maxFrame := some 77, left := false} 160, si {io1 with released := true} 160, si {io1 with released := true} 172, si {io1 with released := true} 400000, xr] : List State).getD i up

theorem wit_ChipLinkTraining :
    ((∀ x ∈ (w20 0).sched.pipes, x.desc.multi = false) ∧ ((w20 0).port (1#2).toNat).step = 3 ∧ (¬((w20 0).cfg.peers.getD (1#2).toNat none = some (0#2).toNat ∧ (1#3).toNat = (w20 0).cfg.chips ∧ (1#8).toNat = 64 ∧ (1#8).toNat = (w20 0).nRows ∧ (1#16).toNat = (w20 0).rd F.HIF_IFVER_MAJOR ∧ (1#16).toNat = (w20 0).rd F.HIF_IFVER_MINOR ∧ ∀ (d : List Byte), (w20 0).setDigest = some d → d = []))) ∧
    (((w20 0).cfg.peers.getD (1#2).toNat none = some (2#2).toNat ∧ (2#3).toNat = (w20 0).cfg.chips ∧ (64#8).toNat = 64 ∧ (32#8).toNat = (w20 0).nRows ∧ (0#16).toNat = (w20 0).rd F.HIF_IFVER_MAJOR ∧ (0#16).toNat = (w20 0).rd F.HIF_IFVER_MINOR ∧ ∀ (d : List Byte), (w20 0).setDigest = some d → d = []) ∧ ((w20 0).port (1#2).toNat).key = none) ∧
    (((w20 0).port (1#2).toNat).step ≠ 0 ∧ ((w20 0).port (1#2).toNat).t0 + ms 36 ≤ (w20 0).tick) ∧
    ((w20 0).multiBusy = false ∧ (w20 0).portOn (1#2).toNat = true ∧ ((w20 0).port (1#2).toNat).refused = false ∧ ((w20 0).port (1#2).toNat).out = false) ∧
    ((∀ x ∈ (w20 1).sched.pipes, x.desc.multi = false) ∧ ((w20 1).port (1#2).toNat).step = 3 ∧ ((w20 1).cfg.peers.getD (1#2).toNat none = some (2#2).toNat ∧ (2#3).toNat = (w20 1).cfg.chips ∧ (64#8).toNat = 64 ∧ (32#8).toNat = (w20 1).nRows ∧ (0#16).toNat = (w20 1).rd F.HIF_IFVER_MAJOR ∧ (0#16).toNat = (w20 1).rd F.HIF_IFVER_MINOR ∧ ∀ (d : List Byte), (w20 1).setDigest = some d → d = []) ∧ ((w20 1).port (1#2).toNat).key ≠ none ∧ (w20 1).towardZero (1#2).toNat = false) ∧
    ((∀ x ∈ (w20 3).sched.pipes, x.desc.multi = false) ∧ (w20 3).portOn (0#2).toNat = true ∧ 11 ≤ (w20 3).dev.step ∧ (w20 3).link (0#2).toNat = 0 ∧ ((w20 3).port (0#2).toNat).refused = false ∧ ((w20 3).port (0#2).toNat).out = false) ∧
    ((∀ x ∈ (w20 4).sched.pipes, x.desc.multi = false) ∧ ((w20 4).port (0#2).toNat).step = 1 ∧ (w20 4).rd F.CHL_LANES_GOOD (0#2).toNat &&& (1#8).toNat ≠ 0) ∧
    ((w20 4).rd F.CHL_LANES_GOOD (0#2).toNat &&& (0#8).toNat = 0) ∧
    ((∀ x ∈ (w20 9).sched.pipes, x.desc.multi = false) ∧ ((w20 9).port (0#2).toNat).step = 4) ∧
    ((∀ x ∈ (w20 10).sched.pipes, x.desc.multi = false) ∧ ((w20 10).port (0#2).toNat).step = 4 ∧ ((w20 10).port (0#2).toNat).auth = 1 ∧ (w20 10).towardZero (0#2).toNat = true) ∧
    ((∀ x ∈ (w20 11).sched.pipes, x.desc.multi = false) ∧ ((w20 11).port (0#2).toNat).step = 5) ∧
    ((∀ x ∈ (w20 12).sched.pipes, x.desc.multi = false) ∧ (w20 12).portOn (0#2).toNat = true ∧ (w20 12).link (0#2).toNat = 7 ∧ ((w20 12).port (0#2).toNat).out = false ∧ ((w20 12).port (0#2).toNat).retryAt ≤ (w20 12).tick) ∧
    ((∀ x ∈ (w20 25).sched.pipes, x.desc.multi = false) ∧ ((w20 25).port (1#2).toNat).step = 4 ∧ ((w20 25).port (1#2).toNat).auth = 1 ∧ (w20 25).towardZero (1#2).toNat = false) ∧
    ((w20 33).multiBusy = true) :=
  ⟨by decide +kernel, by decide +kernel, by decide +kernel, by decide +kernel, by decide +kernel, by decide +kernel, by decide +kernel, by decide +kernel, by decide +kernel, by decide +kernel, by decide +kernel, by decide +kernel, by decide +kernel, by decide +kernel⟩

theorem wit_ChipLinkTraffic :
    ((∀ x ∈ (w20a 8).sched.pipes, x.desc.multi = false) ∧ (w20a 8).link (0#2).toNat = 4) ∧
    ((w20a 8).rd F.CHL_LANES_GOOD (0#2).toNat = 255) ∧
    ((w20a 8).towardZero (0#2).toNat = true ∧ ((w20a 8).port (0#2).toNat).cmpAt + ms 1 ≤ (w20a 8).tick ∧ (w20a 8).mesh.sio.barred = false ∧ (0#16).toInt.natAbs ≤ 2) ∧
    (2 < (240#16).toInt.natAbs) ∧
    ((∀ x ∈ (w20a 10).sched.pipes, x.desc.multi = false) ∧ (w20a 10).link (0#2).toNat = 5) :=
  ⟨by decide +kernel, by decide +kernel, by decide +kernel, by decide +kernel, by decide +kernel⟩

theorem wit_SyncIoBarrier :
    ((w20b 0).mesh.sio.pipe = some 1 ∧ (w20b 0).mesh.sio.released = false ∧ (w20b 0).tick % 16 = 0) ∧
    (((w20b 0).mesh.sio.pipe = none ∨ (w20b 0).tick % 16 ≠ 12)) ∧
    ((¬(w20b 0).mesh.sio.enteredAt + 1024 * (w20b 0).rd F.SYNC_IO_CTRL_TMO < (w20b 0).tick)) ∧
    (((w20b 0).mesh.sio.left = false ∨ (3#16).toNat = (w20b 0).mesh.sio.sentSeq ∧ (9#32).toNat = (w20b 0).mesh.sio.sentFrame)) ∧
    (((1#16).toNat ≠ (w20b 0).mesh.sio.sentSeq ∨ (1#32).toNat ≠ (w20b 0).mesh.sio.sentFrame) ∧ (w20b 0).mesh.sio.left = true ∧ (w20b 0).chk.arbs = [] ∧ (w20b 0).sched.jobs = []) ∧
    (((w20b 2).mesh.sio.pipe = none ∨ (w20b 2).mesh.sio.released = true ∨ (w20b 2).tick % 16 ≠ 0)) ∧
    ((w20b 2).mesh.sio.pipe = some 1 ∧ (w20b 2).tick % 16 = 12 ∧ ((w20b 2).mesh.sio.released = false ∨ true = false)) ∧
    ((w20b 6).mesh.sio.pipe = some 1 ∧ (w20b 6).mesh.sio.released = true ∧ (w20b 6).tick % 16 = 12 ∧ (∀ j ∈ (w20b 6).sched.jobs, j.waiting = false)) ∧
    ((w20b 7).mesh.sio.pipe = some 1 ∧ (¬¬(w20b 7).mesh.sio.enteredAt + 1024 * (w20b 7).rd F.SYNC_IO_CTRL_TMO < (w20b 7).tick) ∧ (w20b 7).sched.jobs = [] ∧ (w20b 7).chk.arbs = []) ∧
    ((w20b 8).cfg.expRings[(1#2).toNat]? = some (131072, 4, 64) ∧ (w20b 8).link (1#2).toNat = 4 ∧ (w20b 8).running = true ∧ 0 < 4) :=
  ⟨by decide +kernel, by decide +kernel, by decide +kernel, by decide +kernel, by decide +kernel, by decide +kernel, by decide +kernel, by decide +kernel, by decide +kernel, by decide +kernel⟩

end W20

namespace W21
def fr (n : Nat) (r : List StageRun := [{stage := 3, slot := 255, bytes := 128}, {stage := 4, slot := 255, bytes := 128}]) : Frame := { pipe := 1, num := n, tick := 499999900, stages := r }
def wp (p : Pipeline) (s : State := sch up) : State := {s with sched.pipes := [p]}
def pf : Pipeline := {pip with frames := [fr 6]}
def w21 (i : Nat) : State := ([wp {pip with openAt := some 499999000, gather := [{stream := 0, entry := 2, stamp := some 3}]}, wp pf, {wp pf with sched.binds := [{stage := 3, slot := 0, failed := true}]}, (wp pf).wr (fMapValid 1) 0 0, wp {pf with free := []}] : List State).getD i up
def jb (q : List PartRun) : Job := {id := 1, stage := 3, slot := 0, pipe := 1, frame := 6, startAt := 499999000, first := 499999000, parts := q}
def wj (j : Job) (p : Pipeline := {pip with frames := [fr 6 [{stage := 3, slot := 0, addr := 0x100000, status := 1, bytes := 128}, {stage := 4, slot := 0, addr := 0x110000, bytes := 128}]]}) : State :=
  let s := {wp p with sched.jobs := [j], sched.nextJob := 2, cara.wins := [(3, {startAt := some 499999000})]}
  (s.setTile 0 {(tk 0 [] []) with job := {active := true, job := 1, stage := 3, ended := true}}).setTile 1 {(tk 0 [] []) with job := {active := true, job := 1, stage := 3, part := 1}}
def w21a (i : Nat) : State := ([wj (jb [{unit := 0}, {unit := 1}]), wj (jb [{unit := 0}]), {wj (jb [{unit := 0}]) with tick := 499999005}, (let s := wj (jb [{unit := 0}]); {s with sched.jobs := [], sched.singles := [{jb [{unit := 0}] with single := true}]}),
   {wj (jb [{unit := 0}]) with tick := 501000005}] : List State).getD i up
def fd : Frame := fr 6 [{stage := 3, slot := 0, addr := 0x100000, status := 2, bytes := 128}, {stage := 4, slot := 0, addr := 0x110000, status := 2, bytes := 128}]
def w21b (i : Nat) : State := ([wp {pip with frames := [{fd with doneAt := some 499999990}]}, wp {pip with frames := [{fd with outcome := 0x1F05}]}, {wp {pip with frames := [fr 6]} with tick := 600000000}] : List State).getD i up
def stR : Stage := {num := 5, kind := 1, broods := [{brood := 0}, {brood := 1}], winMin := 10, winMax := 1000000, rsp := some {max := 1}, slot := 0, outBytes := 128}
def wR (j : Job) : State := let s := wj j {pip with desc := {pip.desc with stages := [3,4,5]}, frames := [fr 6 [{stage := 5, slot := 0, addr := 0x100000, status := 1, bytes := 128}]]}
  {s with sched.models := [{mdl with stages := [stg 3, stg 4, stR]}], sched.binds := s.sched.binds ++ [{stage := 5, slot := 0, base := 0x100000, scratch := 0x200000}]}
def jr : Job := {jb [{unit := 0}, {unit := 1}] with stage := 5, rsp := some {max := 1}}
def sR : State := wR jr
def vR : State := (sR.rspPart 0 {max := 1} {} 0 2 none).2
def vR2 : State := (sR.rspPart 0 {max := 1} {} 0 2 (some (0,0))).2
def wT : State := let s := wj {jb [{unit := 0, status := 4}, {unit := 1, status := 1}] with rerun := false}
  s.modBrood 0 (fun x => {x with spareUser := some 1})
def wC : State := (sch up).modBrood 0 (fun x => {x with clearing := true, retest := true})
def w21c (i : Nat) : State := ([sR, wT, wC] : List State).getD i up
def dq : DmaDesc := {src := BitVec.ofNat 64 (tileAddr 5 0x100), dst := BitVec.ofNat 64 (tileAddr 5 0x200), rows := 1, rowBytes := 32}
def wD : State := (withT 5 {(tk 5 [] []) with dma := [dq]}).store 0 (tileAddr 5 0x100) (natLe 32 (3^90))
def wD2 : State := withT 5 {(tk 5 [] []) with dma := [{dq with sig := some 4}]}
def wD3 : State := wD2.modTile 5 (fun x => {x with dma := [], dmaCut := some {dq with rows := 2}})
def wD4 : State := wD2.modTile 5 (fun x => {x with dmaLost := true})
def w21d (i : Nat) : State := ([wD, wD2, wD3, wD4, wD3.modTile 5 (fun x => {x with dmaCut := none})] : List State).getD i up
def v1 : Pipeline := { desc := { num := 1, nslot := 2, cam := 0x00000005#32, gather := 100, period := 1000, stages := [3, 4] }, running := true, gather := [{ entry := 2, stamp := some 3 }], openAt := some 499999000, frameNum := 7, boundaryAt := 5, free := [0, 1] }
def v2 : Stage := { num := 3, entry := 64, broods := [{ tmask := 0x0003#16 }], winMin := 10, winMax := 1000000, budget := 100, outBytes := 128, plan := [{ obj := 20 }, { obj := 21, barrier := true }] }
def v3 : Frame := { pipe := 1, num := 6, tick := 499999900, stages := [{ stage := 3, slot := 255, bytes := 128 }, { stage := 4, slot := 255, bytes := 128 }] }
def v4 : Pipeline := { desc := { num := 1, nslot := 2, cam := 0x00000005#32, gather := 100, period := 1000, stages := [3, 4] }, running := true, frameNum := 7, frames := [{ pipe := 1, num := 6, tick := 499999900, stages := [{ stage := 3, slot := 255, bytes := 128 }, { stage := 4, slot := 255, bytes := 128 }] }], boundaryAt := 5 }
def v5 : Job := { id := 1, stage := 3, pipe := 1, frame := 6, startAt := 499999000, parts := [{}, { unit := 1 }], first := 499999000 }
def v6 : PartRun := {}
def v7 : Job := { id := 1, stage := 3, pipe := 1, frame := 6, startAt := 499999000, parts := [{}], first := 499999000 }
def v8 : Frame := { pipe := 1, num := 6, tick := 499999900, stages := [{ stage := 3, addr := 1048576, status := 1, bytes := 128 }, { stage := 4, addr := 1114112, bytes := 128 }] }
def v9 : Job := { id := 1, stage := 3, pipe := 1, frame := 6, startAt := 499999000, parts := [{}], first := 499999000, single := true }
def v10 : Pipeline := { desc := { num := 1, nslot := 2, cam := 0x00000005#32, gather := 100, period := 1000, stages := [3, 4] }, running := true, frameNum := 7, frames := [{ pipe := 1, num := 6, tick := 499999900, stages := [{ stage := 3, addr := 1048576, status := 2, bytes := 128 }, { stage := 4, addr := 1114112, status := 2, bytes := 128 }], doneAt := some 499999990 }], boundaryAt := 5, free := [0, 1] }
def v11 : Frame := { pipe := 1, num := 6, tick := 499999900, stages := [{ stage := 3, addr := 1048576, status := 2, bytes := 128 }, { stage := 4, addr := 1114112, status := 2, bytes := 128 }], doneAt := some 499999990 }
def v12 : Pipeline := { desc := { num := 1, nslot := 2, cam := 0x00000005#32, gather := 100, period := 1000, stages := [3, 4] }, running := true, frameNum := 7, frames := [{ pipe := 1, num := 6, tick := 499999900, stages := [{ stage := 3, addr := 1048576, status := 2, bytes := 128 }, { stage := 4, addr := 1114112, status := 2, bytes := 128 }], outcome := 7941 }], boundaryAt := 5, free := [0, 1] }
def v13 : Frame := { pipe := 1, num := 6, tick := 499999900, stages := [{ stage := 3, addr := 1048576, status := 2, bytes := 128 }, { stage := 4, addr := 1114112, status := 2, bytes := 128 }], outcome := 7941 }
def v14 : RspBlock := { max := 1 }
def v15 : Job := { id := 1, stage := 3, pipe := 1, frame := 6, startAt := 499999000, parts := [{ status := 4 }, { unit := 1, status := 1 }], first := 499999000 }
def v16 : DmaDesc := { src := 0x0000100000140100#64, dst := 0x0000100000140200#64, rows := 2, rowBytes := 32 }
def v17 : DmaDesc := { src := 0x0000100000140100#64, dst := 0x0000100000140200#64, rows := 1, rowBytes := 32, sig := some 4 }

theorem wit_FramesOpenAndStagesStart :
    ((w21 0).pipe? (1#6).toNat = some v1 ∧ v1.openAt = some 499999000 ∧ v1.running = true ∧ v1.hostSched = false ∧ 499999000 + v1.desc.gather < (w21 0).tick) ∧
    ((w21 1).pipe? (1#6).toNat = some pf ∧ (w21 1).stage? (3#8).toNat = some v2 ∧ (w21 1).dueFrame pf v2 = some v3 ∧ (w21 1).frame? (1#6).toNat v3.num = some v3 ∧ (w21 1).running = true ∧ pf.hostSched = false ∧ pf.desc.stages.contains v2.num = true ∧ (w21 1).cara.selBlock = false ∧ (¬((∃ b, (w21 1).binding? v2.num = some b ∧ b.failed = true) ∨ (w21 1).unitsHosted v2 = false ∨ pf.desc.multi = true ∧ (w21 1).linksUp = false)) ∧ (w21 1).takeSlots (1#6).toNat v3.num = some ((((w21 1).takeSlots 1 6).getD up)) ∧ (w21 1).seqJobs < 64 ∧ ((((w21 1).takeSlots 1 6).getD up)).unitsFree v2 0 = true) ∧
    ((w21 2).pipe? (1#6).toNat = some pf ∧ (w21 2).stage? (3#8).toNat = some v2 ∧ (w21 2).dueFrame pf v2 = some v3 ∧ (w21 2).frame? (1#6).toNat v3.num = some v3 ∧ (w21 2).running = true ∧ (w21 2).cara.selBlock = false ∧ ((∃ b, (w21 2).binding? v2.num = some b ∧ b.failed = true) ∨ (w21 2).unitsHosted v2 = false ∨ pf.desc.multi = true ∧ (w21 2).linksUp = false)) ∧
    ((w21 4).pipe? (1#6).toNat = some v4 ∧ (w21 4).stage? (3#8).toNat = some v2 ∧ (w21 4).dueFrame v4 v2 = some v3 ∧ (w21 4).frame? (1#6).toNat v3.num = some v3 ∧ (w21 4).running = true ∧ v4.hostSched = false ∧ v4.desc.stages.contains v2.num = true ∧ (w21 4).cara.selBlock = false ∧ (¬((∃ b, (w21 4).binding? v2.num = some b ∧ b.failed = true) ∨ (w21 4).unitsHosted v2 = false ∨ v4.desc.multi = true ∧ (w21 4).linksUp = false)) ∧ v3.slotIx = none ∧ v4.free = [] ∧ (w21 4).sched.jobs = []) ∧
    ((w21 4).chk.arbs = []) :=
  ⟨by decide +kernel, by decide +kernel, by decide +kernel, by decide +kernel, by decide +kernel⟩

theorem wit_PartsAndStagesEnd :
    ((∀ j ∈ (w21a 0).allJobs, j.waiting = false) ∧ (w21a 0).chk.arbs = [] ∧ ((w21a 0).tile (0#11).toNat).run = 1 ∧ ((w21a 0).tile (0#11).toNat).job.ended = true ∧ (w21a 0).unitsDone (0#11).toNat = true ∧ ((w21a 0).tile (0#11).toNat).job.failed = false ∧ (w21a 0).jobOf (0#11).toNat = some v5 ∧ v5.part? (0#11).toNat = some v6 ∧ (∃ r ∈ v5.parts, r.unit ≠ (0#11).toNat ∧ (r.status = 0 ∨ r.status = 3))) ∧
    (((w21a 0).win (0#8).toNat).startAt = none) ∧
    ((∀ j ∈ (w21a 1).allJobs, j.waiting = false) ∧ (w21a 1).chk.arbs = [] ∧ ((w21a 1).tile (0#11).toNat).run = 1 ∧ ((w21a 1).tile (0#11).toNat).job.ended = true ∧ (w21a 1).unitsDone (0#11).toNat = true ∧ ((w21a 1).tile (0#11).toNat).job.failed = false ∧ (w21a 1).jobOf (0#11).toNat = some v7 ∧ v7.part? (0#11).toNat = some v6 ∧ v7.parts = [v6] ∧ (w21a 1).jobStage v7 = some v2 ∧ v2.winMin ≤ (w21a 1).winDur v7.stage ∧ (w21a 1).winDur v7.stage ≤ v2.winMax) ∧
    (v7.host = false ∧ v7.single = false ∧ (w21a 1).frame? v7.pipe v7.frame = some v8 ∧ v8.stage? v7.stage = some { stage := 3, addr := 1048576, status := 1, bytes := 128 : StageRun }) ∧
    ((∀ j ∈ (w21a 2).allJobs, j.waiting = false) ∧ (w21a 2).chk.arbs = [] ∧ ((w21a 2).tile (0#11).toNat).run = 1 ∧ ((w21a 2).tile (0#11).toNat).job.ended = true ∧ (w21a 2).unitsDone (0#11).toNat = true ∧ ((w21a 2).tile (0#11).toNat).job.failed = false ∧ (w21a 2).jobOf (0#11).toNat = some v7 ∧ (w21a 2).jobStage v7 = some v2 ∧ (w21a 2).winDur v7.stage < v2.winMin) ∧
    ((∀ j ∈ (w21a 3).allJobs, j.waiting = false) ∧ (w21a 3).chk.arbs = [] ∧ ((w21a 3).tile (0#11).toNat).run = 1 ∧ ((w21a 3).tile (0#11).toNat).job.ended = true ∧ (w21a 3).unitsDone (0#11).toNat = true ∧ ((w21a 3).tile (0#11).toNat).job.failed = false ∧ (w21a 3).jobOf (0#11).toNat = some v9 ∧ v9.single = true ∧ v9.parts.length = 1 ∧ (v9.part? (0#11).toNat).isSome = true ∧ (w21a 3).jobStage v9 = some v2) ∧
    ((∀ j ∈ (w21a 4).allJobs, j.waiting = false) ∧ (w21a 4).chk.arbs = [] ∧ ((w21a 4).win (3#8).toNat).startAt = some 499999000 ∧ (w21a 4).jobOfStage (3#8).toNat = some v7 ∧ (w21a 4).jobStage v7 = some v2 ∧ 499999000 + v2.winMax ≤ (w21a 4).tick) :=
  ⟨by decide +kernel, by decide +kernel, by decide +kernel, by decide +kernel, by decide +kernel, by decide +kernel, by decide +kernel⟩

theorem wit_FramesArePublishedInOrder :
    ((w21b 0).pipe? (1#6).toNat = some v10 ∧ v10.frames = [v11] ∧ (∀ j ∈ (w21b 0).sched.jobs, j.waiting = false ∧ ¬(j.pipe = (1#6).toNat ∧ j.frame = v11.num)) ∧ (w21b 0).chk.arbs = [] ∧ v11.outcome = 0 ∧ (∃ d, v11.doneAt = some d ∧ d + 4 ≤ (w21b 0).tick ∧ (w21b 0).cara.selBlock = false ∧ ∀ e ∈ (w21b 0).cara.asserted ++ (w21b 0).cara.latched, d + 4 ≤ e.tick) ∧ (w21b 0).mem.sram = []) ∧
    ((w21b 0).rd F.HIF_RING_CFG_ESIZE 1 = 0) ∧
    ((w21b 1).pipe? (1#6).toNat = some v12 ∧ v12.frames = [v13] ∧ (∀ j ∈ (w21b 1).sched.jobs, j.waiting = false ∧ ¬(j.pipe = (1#6).toNat ∧ j.frame = v13.num)) ∧ (w21b 1).chk.arbs = [] ∧ v13.outcome ≠ 0 ∧ (v13.outcome ≠ 7937 ∨ v13.bad = [])) ∧
    ((w21b 2).pipe? (1#6).toNat = some pf ∧ pf.frames = [v3] ∧ (∀ j ∈ (w21b 2).sched.jobs, j.waiting = false ∧ ¬(j.pipe = (1#6).toNat ∧ j.frame = v3.num)) ∧ (w21b 2).chk.arbs = [] ∧ v3.doneAt = none ∧ v3.tick + 2 * pf.desc.period ≤ (w21b 2).tick) :=
  ⟨by decide +kernel, by decide +kernel, by decide +kernel, by decide +kernel⟩

theorem wit_RerunsAndSpares :
    ((w21c 0).rspJob (0#7).toNat = some jr ∧ (w21c 0).job? jr.id = some jr ∧ jr.rsp = some v14 ∧ (∃ r ∈ jr.parts, r.unit ≠ (0#7).toNat ∧ (r.status = 0 ∨ r.status = 3)) ∧ jr.rerun = false) ∧
    (∃ y, (w21c 0).jobStage jr = some y ∧ y.kind = 1) ∧
    ((w21c 0).rspPart (0#7).toNat v14 { : RefCtx } ((List.findIdx? (fun u => u == (0#7).toNat) (List.map (fun x => x.unit) jr.parts)).getD 0) jr.parts.length (some (0, 0)) = (Except.error 4624, ((w21c 0).rspPart (0#7).toNat v14 { : RefCtx } ((List.findIdx? (fun u => u == (0#7).toNat) (List.map (fun x => x.unit) jr.parts)).getD 0) jr.parts.length (some (0, 0))).2)) ∧
    ((w21c 0).rspPart (0#7).toNat v14 { : RefCtx } ((List.findIdx? (fun u => u == (0#7).toNat) (List.map (fun x => x.unit) jr.parts)).getD 0) jr.parts.length none = (Except.ok {}, ((w21c 0).rspPart (0#7).toNat v14 { : RefCtx } ((List.findIdx? (fun u => u == (0#7).toNat) (List.map (fun x => x.unit) jr.parts)).getD 0) jr.parts.length none).2)) ∧
    ((w21c 1).allJobs = [v15] ∧ v15.rerun = false ∧ (∀ q ∈ v15.parts, q.status ≠ 2 ∧ q.unit < 2048) ∧ List.map (fun x => x.unit) v15.failing = [0] ∧ ((w21c 1).jobTiles v15).any (w21c 1).moveWaits = false ∧ (w21c 1).jobStage v15 = some v2 ∧ v2.kind = 0 ∧ tileBrood 0 = (0#7).toNat ∧ ((w21c 1).brood (0#7).toNat).spareUser = some v15.id ∧ ((w21c 1).brood (0#7).toNat).clearing = false ∧ ((w21c 1).brood (0#7).toNat).move = none ∧ (w21c 1).spare (0#7).toNat = some 16) ∧
    (16 < 17 ∧ (w21c 1).slotOf (0#7).toNat (tileK 0) < 17) ∧
    (((w21c 2).brood (0#7).toNat).clearing = true ∧ ((w21c 2).brood (0#7).toNat).retest = true ∧ (w21c 2).spare (0#7).toNat = some 16) :=
  ⟨by decide +kernel, ⟨_, rfl, by decide +kernel⟩, except_error (by decide +kernel), except_ok (by decide +kernel), by decide +kernel, by decide +kernel, by decide +kernel⟩

theorem wit_DescriptorsComplete :
    (((w21d 0).tile (5#11).toNat).dmaCut = none ∧ ((w21d 0).tile (5#11).toNat).dma = [dq] ∧ ((w21d 0).tile (5#11).toNat).dmaLost = false ∧ (w21d 0).dmaPlaced (5#11).toNat dq = true ∧ (w21d 0).dmaRows (5#11).toNat dq dq.all = (true, (State.dmaRows wD 5 dq dq.all).2) ∧ (((State.dmaRows wD 5 dq dq.all).2).tile (5#11).toNat).dma = ((w21d 0).tile (5#11).toNat).dma ∧ ((State.dmaRows wD 5 dq dq.all).2).tick = (w21d 0).tick) ∧
    (dq.rows = 1 ∧ 0 < dq.rowBytes ∧ dq.src.toNat % 64 + dq.rowBytes ≤ 64 ∧ (w21d 0).mem.sram = [] ∧ gddrEnd ≤ dq.src.toNat ∧ gddrEnd ≤ dq.dst.toNat ∧ (w21d 0).oneRegion dq.src.toNat dq.rowBytes = true ∧ (w21d 0).oneRegion dq.dst.toNat dq.rowBytes = true ∧ inChk dq.src.toNat = false ∧ inChk dq.dst.toNat = false ∧ dq.sig = none) ∧
    (((w21d 2).tile (5#11).toNat).dmaCut = some v16 ∧ ((w21d 2).modTile (5#11).toNat fun x => { run := x.run, err := x.err, pc := x.pc, g := x.g, v := x.v, lc := x.lc, loops := x.loops, obj := x.obj, tabs := x.tabs, tabOk := x.tabOk, tickHi := x.tickHi, cyc := x.cyc, cyc0 := x.cyc0, job := x.job, blocked := x.blocked, bank0 := x.bank0, bank1 := x.bank1, loads := x.loads, loadBank := x.loadBank, lastBank := x.lastBank, lastBeat := x.lastBeat, rowBeat := x.rowBeat, level := x.level, hist := x.hist, q := x.q, stream := x.stream, flight := x.flight, drain := x.drain, drainFp := x.drainFp, drainRow := x.drainRow, drainCols := x.drainCols, dma := x.dma, dmaLost := x.dmaLost, msgs := x.msgs, ord := x.ord : TileState }).dmaRows (5#11).toNat v16 (v16.sent 0 (List.range v16.rows)) = (true, ((wD3.modTile 5 (fun x => {x with dmaCut := none})).dmaRows 5 {dq with rows := 2} (DmaDesc.sent {dq with rows := 2} 1 [0,1])).2)) ∧
    (((((wD3.modTile 5 (fun x => {x with dmaCut := none})).dmaRows 5 {dq with rows := 2} (DmaDesc.sent {dq with rows := 2} 1 [0,1])).2).tile (5#11).toNat).dmaCut = none ∧ ((((wD3.modTile 5 (fun x => {x with dmaCut := none})).dmaRows 5 {dq with rows := 2} (DmaDesc.sent {dq with rows := 2} 1 [0,1])).2).tile (5#11).toNat).dma = []) ∧
    (((w21d 3).tile (5#11).toNat).dmaCut = none ∧ ((w21d 3).tile (5#11).toNat).dma = [v17] ∧ (((w21d 3).tile (5#11).toNat).dmaLost = true ∨ (w21d 3).dmaPlaced (5#11).toNat v17 = false)) :=
  ⟨by decide +kernel, by decide +kernel, by decide +kernel, by decide +kernel, by decide +kernel⟩

end W21

namespace W22
def br (b : Nat) (f : Brood → Brood) (s : State := up) : State := (s.modBrood b f).wr F.BRD_STATUS_TEST_SLOT 16 b
def w22 (i : Nat) : State := ([br 2 (fun x => {x with test := 1, testAt := 400000000}), br 2 (fun x => {x with test := 1, testAt := 499999999}), br 2 (fun x => {x with test := 2, testAt := 400000000})] : List State).getD i up
def mv (ph : Nat) (forced := false) (x : Brood) : Brood := {x with move := some 3, movePhase := ph, moveTo := 16, moveForced := forced}
def w22a (i : Nat) : State := ([br 2 (fun x => {x with test := 3}), br 2 (fun x => {x with forcedDue := [3]}), br 2 (fun x => {x with forcedDue := [3], remap := [(3,16)]}), br 2 (mv 1), br 2 (mv 2), br 2 (mv 3)] : List State).getD i up
def hs : State := let s := sch up; {s with sched.pipes := [{pip with hostSched := true, frames := []}]}
def w22b (i : Nat) : State := ([up, hs, {up with fuses.variantB := true}, (up : State).setTile 2 {}, withT 2 (tk 0 [] []), (withT 2 (tk 0 [] [])).wr F.TIL_CTRL_HALT_REQ 1 2, (withT 0 (tk 0 [] [])).wr F.TIL_CTRL_HALT_REQ 1 0, up.wr (fMapValid 2) 0 0, {up with fuses.variantB := true}] : List State).getD i up
def pI := physOf 2 2
def age : State := up
def nosp : State := (br 2 id).setSpare 2 none
def modSl (f : Slot → Slot) : State := up.modSlot pI f
def un (f : Machine.Unit → Machine.Unit) : State := up.modUnit 2 2 f
def w22c (i : Nat) : State := ([age, {age with tick := 5000000000}, nosp, modSl (fun x => {x with inSlice := true}), modSl (fun x => {x with inSlice := true, slice := 15}), un (fun x => {x with running := true}), un (fun x => {x with running := true, slice := 63}), un (fun x => {x with running := true, failed := true}), (un id).modChan 2 (fun x => {x with trained := true})] : List State).getD i up
def v1 : Stage := { num := 3, entry := 64, broods := [{ tmask := 0x0003#16 }], winMin := 10, winMax := 1000000, budget := 100, outBytes := 128, plan := [{ obj := 20 }, { obj := 21, barrier := true }] }
def v2 : Pipeline := { desc := { num := 1, nslot := 2, cam := 0x00000005#32, gather := 100, period := 1000, stages := [3, 4] }, running := true, hostSched := true, frameNum := 7, boundaryAt := 5, free := [0, 1] }

theorem wit_SpareTests :
    ((w22 0).spare (2#7).toNat = some 16 ∧ (w22 0).rd F.BRD_STATUS_TEST_SLOT (2#7).toNat = 16 ∧ 16 < 17 ∧ (w22 0).slotState (2#7).toNat 16 = 0 ∧ (w22 0).chk.reqs = [] ∧ (w22 0).prs.queue = [] ∧ (w22 0).prs.vol = [] ∧ ((w22 0).prsWord (2#7).toNat).writes < 200000 ∧ (∀ j ∈ (w22 0).allJobs, j.waiting = false) ∧ ((w22 0).brood (2#7).toNat).forcedDue = [] ∧ ((w22 0).brood (2#7).toNat).test = 1 ∧ ((w22 0).brood (2#7).toNat).testAt + us 1800 ≤ (w22 0).tick) ∧
    ((w22 1).spare (2#7).toNat = some 16 ∧ (w22 1).rd F.BRD_STATUS_TEST_SLOT (2#7).toNat = 16 ∧ (w22 1).slotState (2#7).toNat 16 = 0 ∧ (w22 1).chk.reqs = [] ∧ (w22 1).prs.queue = [] ∧ (w22 1).prs.vol = [] ∧ ((w22 1).prsWord (2#7).toNat).writes < 200000 ∧ (∀ j ∈ (w22 1).allJobs, j.waiting = false) ∧ ((w22 1).brood (2#7).toNat).forcedDue = [] ∧ ((w22 1).brood (2#7).toNat).test = 1 ∧ (w22 1).tick < ((w22 1).brood (2#7).toNat).testAt + us 1800) ∧
    ((w22 2).spare (2#7).toNat = some 16 ∧ (w22 2).rd F.BRD_STATUS_TEST_SLOT (2#7).toNat = 16 ∧ (w22 2).slotState (2#7).toNat 16 = 0 ∧ (w22 2).chk.reqs = [] ∧ (w22 2).prs.queue = [] ∧ (w22 2).prs.vol = [] ∧ ((w22 2).prsWord (2#7).toNat).writes < 200000 ∧ (∀ j ∈ (w22 2).allJobs, j.waiting = false) ∧ ((w22 2).brood (2#7).toNat).forcedDue = [] ∧ ((w22 2).brood (2#7).toNat).test = 2 ∧ ((w22 2).brood (2#7).toNat).testAt + us 900 ≤ (w22 2).tick ∧ skewBad [] (physOf (2#7).toNat 16) = false) ∧
    (skewBad [{ slot := 50, row := 3, col := 3, diff := 2 : SkewErr }] (physOf (2#7).toNat 16) = true) :=
  ⟨by decide +kernel, by decide +kernel, by decide +kernel, by decide +kernel⟩

theorem wit_MovesOntoTheSpare :
    ((w22a 0).spare (2#7).toNat = some 16 ∧ (w22a 0).nextGood (2#7).toNat 16 = some 0 ∧ (w22a 0).kOnSlot (2#7).toNat 0 = some 0 ∧ ((w22a 0).brood (2#7).toNat).test = 3 ∧ (w22a 0).rdB F.BRD_CTRL_ROT_EN (2#7).toNat = true ∧ ((w22a 0).brood (2#7).toNat).rotStopped = false ∧ ((w22a 0).brood (2#7).toNat).move = none ∧ ((w22a 0).brood (2#7).toNat).spareUser = none ∧ ((w22a 0).brood (2#7).toNat).forcedDue = [] ∧ ((w22a 0).brood (2#7).toNat).clearing = false ∧ (w22a 0).rotAllowed (2#7).toNat = true ∧ (w22a 0).inGap (2#7).toNat 500 = true) ∧
    ((w22a 0).moveIdle (2#7).toNat 0 = true) ∧
    ((w22a 1).spare (2#7).toNat = some 16 ∧ ((w22a 1).brood (2#7).toNat).remap = [] ∧ ((w22a 1).brood (2#7).toNat).forcedDue = [3] ∧ ((w22a 1).brood (2#7).toNat).move = none ∧ ((w22a 1).brood (2#7).toNat).clearing = false ∧ ((w22a 1).brood (2#7).toNat).retest = false ∧ ((w22a 1).brood (2#7).toNat).test ≠ 1 ∧ ((w22a 1).brood (2#7).toNat).test ≠ 2 ∧ (w22a 1).busyTile (tileOf (2#7).toNat 3) = false) ∧
    (((w22a 2).brood (2#7).toNat).remap.head? = some (3, 16) ∧ ((w22a 2).brood (2#7).toNat).move = none ∧ (∀ j ∈ ((w22a 2).brood (2#7).toNat).forcedDue, (w22a 2).busyTile (tileOf (2#7).toNat j) = false)) ∧
    (((w22a 3).brood (2#7).toNat).move = some 3 ∧ ((w22a 3).brood (2#7).toNat).movePhase = 1 ∧ ((w22a 3).tile (tileOf (2#7).toNat 3)).dma = [] ∧ ((w22a 3).tile (tileOf (2#7).toNat 3)).msgs = [] ∧ (∀ m ∈ (w22a 3).mesh.msgs, m.src ≠ tileOf (2#7).toNat 3)) ∧
    (((w22a 4).brood (2#7).toNat).move = some 3 ∧ ((w22a 4).brood (2#7).toNat).movePhase = 2) ∧
    (((w22a 4).brood (2#7).toNat).moveTo = 16 ∧ ((w22a 4).brood (2#7).toNat).failedInto = none ∧ ((w22a 4).brood (2#7).toNat).moveForced = false ∧ ((w22a 4).brood (2#7).toNat).spareUser = none ∧ ((w22a 4).brood (2#7).toNat).remap = [] ∧ ((w22a 4).brood (2#7).toNat).held = [] ∧ (∀ j ∈ (w22a 4).allJobs, j.waiting = false)) ∧
    (((w22a 5).brood (2#7).toNat).move = some 3 ∧ 3 < 16 ∧ ((w22a 5).brood (2#7).toNat).movePhase = 3 ∧ ((w22a 5).brood (2#7).toNat).moveTo = 16 ∧ 16 < 17 ∧ (w22a 5).slotOf (2#7).toNat 3 < 17 ∧ (w22a 5).slotState (2#7).toNat ((w22a 5).slotOf (2#7).toNat 3) = 0 ∧ ((w22a 5).brood (2#7).toNat).remap = [] ∧ ((w22a 5).brood (2#7).toNat).held = [] ∧ (∀ j ∈ (w22a 5).allJobs, j.waiting = false)) :=
  ⟨by decide +kernel, by decide +kernel, by decide +kernel, by decide +kernel, by decide +kernel, by decide +kernel, by decide +kernel, by decide +kernel⟩

theorem wit_TileAndBroodControls :
    ((w22b 0).hosted (0#11).toNat = true ∧ (w22b 0).rd F.TIL_CTRL_START (0#11).toNat = 0 ∧ (w22b 0).startStage (0#11).toNat = none) ∧
    ((w22b 0).busyTile (0#11).toNat = false ∧ (w22b 0).moving (0#11).toNat = false) ∧
    ((0#7).toNat < (w22b 0).nBroods) ∧
    ((w22b 1).startStage (0#11).toNat = some (v1, v2) ∧ (w22b 1).hosted (0#11).toNat = true ∧ (w22b 1).rd F.TIL_CTRL_START (0#11).toNat = 0 ∧ (w22b 1).busyTile (0#11).toNat = false ∧ (w22b 1).moveWaits (0#11).toNat = false ∧ ((w22b 1).fused (tileBrood (0#11).toNat) = true → ∀ k ∈ broodTiles (tileBrood (0#11).toNat), (w22b 1).busyTile k = false) ∧ (∀ j ∈ (w22b 1).allJobs, j.id < (w22b 1).sched.nextJob) ∧ (w22b 1).modelIn v1.slot ≠ none ∧ (((w22b 1).modelIn v1.slot).bind fun m => m.stage? v1.num) = some v1) ∧
    ((w22b 4).hosted (2#11).toNat = true ∧ (w22b 4).busyTile (2#11).toNat = true) ∧
    ((w22b 5).rd F.TIL_CTRL_HALT_REQ (2#11).toNat = 1 ∧ (w22b 5).busyTile (2#11).toNat = true ∧ (w22b 5).moving (2#11).toNat = false ∧ (w22b 5).jobOf (2#11).toNat = none) ∧
    ((w22b 7).hosted (2#11).toNat = false) ∧
    ((w22b 8).nBroods ≤ (100#7).toNat) :=
  ⟨by decide +kernel, by decide +kernel, by decide +kernel, by decide +kernel, by decide +kernel, by decide +kernel, by decide +kernel, by decide +kernel⟩

theorem wit_TestSlices :
    ((w22c 0).chk.reqs = [] ∧ (w22c 0).chk.arbs = [] ∧ (∀ j ∈ (w22c 0).allJobs, j.waiting = false) ∧ (w22c 0).kOnSlot ((0#12).toNat / 17) ((0#12).toNat % 17) = some 0 ∧ (w22c 0).slotOf ((0#12).toNat / 17) 0 = (0#12).toNat % 17 ∧ (w22c 0).slotState ((0#12).toNat / 17) ((0#12).toNat % 17) = 0 ∧ (w22c 0).aged (0#12).toNat = true ∧ ((w22c 0).slot (0#12).toNat).lfiAt + (w22c 0).lfi < (w22c 0).tick) ∧
    ((0#4).toNat ≠ 15 ∧ (0#12).toNat < (w22c 0).rowUnits (0#4).toNat ∧ (w22c 0).unitAged (0#4).toNat (0#12).toNat = true ∧ ((w22c 0).unit (0#4).toNat (0#12).toNat).lfiAt + (w22c 0).lfi < (w22c 0).tick) ∧
    ((0#7).toNat < (w22c 0).rowUnits (0#4).toNat ∧ ((w22c 0).unit (0#4).toNat (0#7).toNat).running = false ∧ (w22c 0).sliceMayStart (0#4).toNat (0#7).toNat = true ∧ (w22c 0).modes.selftest = false) ∧
    ((0#7).toNat < (w22c 0).rowUnits (2#4).toNat ∧ ((w22c 0).unit (2#4).toNat (0#7).toNat).running = false ∧ (w22c 0).sliceMayStart (2#4).toNat (0#7).toNat = false) ∧
    ((w22c 2).chk.reqs = [] ∧ (w22c 2).chk.arbs = [] ∧ (∀ j ∈ (w22c 2).allJobs, j.waiting = false) ∧ (w22c 2).hosted (tileOf (2#7).toNat (0#4).toNat) = true ∧ (w22c 2).spare (2#7).toNat = none ∧ (w22c 2).inGap (2#7).toNat (us 200) = true ∧ (w22c 2).tileIdle (tileOf (2#7).toNat (0#4).toNat) = true ∧ (w22c 2).modes.selftest = false) ∧
    ((w22c 3).chk.reqs = [] ∧ (w22c 3).chk.arbs = [] ∧ (∀ j ∈ (w22c 3).allJobs, j.waiting = false) ∧ ((w22c 3).slot (physOf (2#7).toNat ((w22c 3).slotOf (2#7).toNat (2#4).toNat))).inSlice = true ∧ ((w22c 3).slot (physOf (2#7).toNat ((w22c 3).slotOf (2#7).toNat (2#4).toNat))).slice + 1 < 16) ∧
    ((w22c 3).sched.binds = [] ∧ (w22c 3).slotState (2#7).toNat ((w22c 3).slotOf (2#7).toNat (2#4).toNat) = 0 ∧ (w22c 3).slotOf (2#7).toNat (2#4).toNat < 17) ∧
    ((w22c 4).chk.reqs = [] ∧ (w22c 4).chk.arbs = [] ∧ (∀ j ∈ (w22c 4).allJobs, j.waiting = false) ∧ ((w22c 4).slot (physOf (2#7).toNat ((w22c 4).slotOf (2#7).toNat (2#4).toNat))).inSlice = true ∧ ((w22c 4).slot (physOf (2#7).toNat ((w22c 4).slotOf (2#7).toNat (2#4).toNat))).slice = 15) ∧
    ((w22c 5).chk.reqs = [] ∧ (w22c 5).chk.arbs = [] ∧ (∀ j ∈ (w22c 5).allJobs, j.waiting = false) ∧ (2#7).toNat < (w22c 5).rowUnits (2#4).toNat ∧ ((w22c 5).unit (2#4).toNat (2#7).toNat).running = true ∧ ((w22c 5).unit (2#4).toNat (2#7).toNat).slice + 1 < rowSlices (2#4).toNat) ∧
    (((w22c 5).unit (2#4).toNat (2#7).toNat).failed = false) ∧
    ((w22c 6).chk.reqs = [] ∧ (w22c 6).chk.arbs = [] ∧ (∀ j ∈ (w22c 6).allJobs, j.waiting = false) ∧ (2#7).toNat < (w22c 6).rowUnits (2#4).toNat ∧ ((w22c 6).unit (2#4).toNat (2#7).toNat).running = true ∧ rowSlices (2#4).toNat ≤ ((w22c 6).unit (2#4).toNat (2#7).toNat).slice + 1) ∧
    ((w22c 7).chk.reqs = [] ∧ (w22c 7).chk.arbs = [] ∧ (∀ j ∈ (w22c 7).allJobs, j.waiting = false) ∧ (2#7).toNat < (w22c 7).rowUnits (2#4).toNat ∧ ((w22c 7).unit (2#4).toNat (2#7).toNat).running = true ∧ ((w22c 7).unit (2#4).toNat (2#7).toNat).failed = true) :=
  ⟨by decide +kernel, by decide +kernel, by decide +kernel, by decide +kernel, by decide +kernel, by decide +kernel, by decide +kernel, by decide +kernel, by decide +kernel, by decide +kernel, by decide +kernel, by decide +kernel⟩

end W22

namespace W23
def ds : StreamDesc := {en := true, port := 0, sel := 0, dt := 0x2A, width := 16, height := 16, period := 1000, lossLimit := 5, nslot := 3, patLines := 2, warp := 1, buf := 0x1000, bufStride := 0x10000, w36 := zeros 28, pat := List.replicate 16 0}
def wst (f : Stream → Stream) (s : State := up) : State := s.setStrm 3 (f {desc := ds, state := 2, seq := 9, timerAt := some 500000500})
def cs : Sample := {entry := 1, seq := 9, stamp := 499999000, desc := ds, lines := 4}
def pl : List Byte := natLe 16 (7^40)
def o01 (x : Stream) : Stream := {x with cur := some cs}
def emb (x : Stream) : Stream := {x with desc := {ds with w36 := natLe 1 5 ++ natLe 1 3 ++ zeros 26}, cur := some cs}
def v23 (s : State) := (s.busWrite mIntake (ds.entry 1 + 4 * ds.lineBytes 3 []) (storeSamples (ds.sampleBytes 3) (unpack ds.dt pl))).2
def w23 (i : Nat) : State := ([wst (fun x => {x with used := [0,1,2]}), wst id, wst o01, wst emb, wst (fun x => {x with desc := {ds with nslot := 0}}), {wst (fun x => {x with desc := {ds with lineTicks := 1000}}) with intake.waitQ := [{stream := 3, sample := {cs with patAt := 499999500, patDone := true, desc := {ds with lineTicks := 1000}}}]}] : List State).getD i up
def en (c : Sample) (f : Stream → Stream := id) (s : State := up) : State := wst (fun x => f {x with cur := some {c with lines := 16}}) s
def noW : State := ((((up.wr F.WRP_STATUS_IN_SERVICE 0 0).wr F.WRP_STATUS_IN_SERVICE 0 1).wr F.WRP_STATUS_IN_SERVICE 0 2).wr F.WRP_STATUS_IN_SERVICE 0 3)
def w23a (i : Nat) : State := (([en cs, en {cs with patDone := true}, en {cs with patDone := true} id noW, en {cs with patStarted := true}, en {cs with patStarted := true, ended := true}, {en cs with tick := 500000600}, {en cs with tick := 500000500}, en {cs with patStarted := true, patAt := 500000000} (fun x => {x with desc := {ds with lineTicks := 1000}}), {wst id with tick := 500000600}]).flatMap (fun (s : State) => [s, s.wr F.INT_LOSS_CONSEC 4 3]) : List State).getD i up
def tab (s : State) : State := s.store mIntake (descTable + 128 * 3) (natLe 4 (1 + 0x2A*2^24) ++ natLe 2 16 ++ natLe 2 16 ++ natLe 4 1000 ++ natLe 4 0 ++ natLe 4 (3 + 2^8*3+2^16*2) ++ zeros 108)
def uw (s : State) : State := {s with intake.updWait := some 3}
def ww (s : State) : State := {s with intake.warpNo := some 3}
def gcf : List Byte := natLe 1 1 ++ natLe 1 0 ++ natLe 1 0 ++ natLe 1 3 ++ natLe 2 64 ++ natLe 2 64 ++ natLe 1 1 ++ natLe 1 0 ++ natLe 1 1 ++ natLe 1 0 ++ natLe 4 256 ++ natLe 4 16384 ++ natLe 4 0x4000 ++ zeros 1000
def w23b (i : Nat) : State := ([up, uw up, uw (tab up), uw (tab (up.keepCfg 1 gcf)), uw up, uw (wst o01), ww up, ww up, ww (up.store 0 (warpTable+1024*3) gcf)] : List State).getD i up
def v1 : ReadyFrame := { stream := 3, sample := { entry := 1, seq := 9, stamp := 499999000, lines := 4, patAt := 499999500, patDone := true, desc := { en := true, dt := 42, width := 16, height := 16, period := 1000, lossLimit := 5, nslot := 3, patLines := 2, warp := 1, lineTicks := 1000, buf := 4096, bufStride := 65536, w36 := (List.replicate 28 0#8), pat := (List.replicate 16 0) } } }
def v2 : Sample := { entry := 1, seq := 9, stamp := 499999000, lines := 16, desc := { en := true, dt := 42, width := 16, height := 16, period := 1000, lossLimit := 5, nslot := 3, patLines := 2, warp := 1, buf := 4096, bufStride := 65536, w36 := (List.replicate 28 0#8), pat := (List.replicate 16 0) } }
def v3 : Sample := { entry := 1, seq := 9, stamp := 499999000, lines := 16, patDone := true, desc := { en := true, dt := 42, width := 16, height := 16, period := 1000, lossLimit := 5, nslot := 3, patLines := 2, warp := 1, buf := 4096, bufStride := 65536, w36 := (List.replicate 28 0#8), pat := (List.replicate 16 0) } }
def v4 : Sample := { entry := 1, seq := 9, stamp := 499999000, lines := 16, patStarted := true, desc := { en := true, dt := 42, width := 16, height := 16, period := 1000, lossLimit := 5, nslot := 3, patLines := 2, warp := 1, buf := 4096, bufStride := 65536, w36 := (List.replicate 28 0#8), pat := (List.replicate 16 0) } }
def v5 : Sample := { entry := 1, seq := 9, stamp := 499999000, lines := 16, patStarted := true, ended := true, desc := { en := true, dt := 42, width := 16, height := 16, period := 1000, lossLimit := 5, nslot := 3, patLines := 2, warp := 1, buf := 4096, bufStride := 65536, w36 := (List.replicate 28 0#8), pat := (List.replicate 16 0) } }
def v6 : Sample := { entry := 1, seq := 9, stamp := 499999000, lines := 16, patStarted := true, patAt := 500000000, desc := { en := true, dt := 42, width := 16, height := 16, period := 1000, lossLimit := 5, nslot := 3, patLines := 2, warp := 1, buf := 4096, bufStride := 65536, w36 := (List.replicate 28 0#8), pat := (List.replicate 16 0) } }
def v7 : List Byte := ([1#8, 0#8, 0#8, 42#8, 16#8, 0#8, 16#8, 0#8, 232#8, 3#8] ++ List.replicate 6 0#8 ++ [3#8, 3#8, 2#8] ++ List.replicate 109 0#8)
def v8 : StreamDesc := { en := true, dt := 42, width := 16, height := 16, period := 1000, lossLimit := 3, nslot := 3, patLines := 2, w36 := (List.replicate 28 0#8), pat := (List.replicate 16 0) }
def v9 : List Byte := (List.replicate 128 0#8)
def v10 : StreamDesc := { w36 := (List.replicate 28 0#8), pat := (List.replicate 16 0) }
def v11 : List Byte := (List.replicate 1024 0#8)

theorem wit_CameraPackets :
    ((w23 0).camsOn (0#4).toNat (0#4).toNat = [3] ∧ ((w23 0).strm 3).desc.hostPre = false ∧ (w23 0).expiryPast 3 = false ∧ ((w23 0).strm 3).cur = none ∧ (w23 0).expiryDue 3 = false ∧ (w23 0).intake.updWait = none ∧ (w23 0).intake.warpNo = none ∧ (w23 0).breakEarly 3 = w23 0 ∧ (w23 0).takeEntry 3 = some 0) ∧
    ((w23 0).mayLose 3) ∧
    ((w23 1).camsOn (0#4).toNat (0#4).toNat = [3] ∧ ((w23 1).strm 3).desc.hostPre = false ∧ (w23 1).expiryPast 3 = false ∧ 0 < (3#6).toNat ∧ (3#6).toNat < 16) ∧
    ((w23 1).mayLose 3) ∧
    ((w23 1).camsFor (0#4).toNat (0#4).toNat (49#6).toNat = []) ∧
    ((w23 2).camsOn (0#4).toNat (0#4).toNat = [3] ∧ ((w23 2).strm 3).desc.hostPre = false ∧ (w23 2).expiryPast 3 = false ∧ ((w23 2).strm 3).cur = some cs ∧ (42#6).toNat = ((w23 2).strm 3).desc.dt ∧ pl.length = ((w23 2).strm 3).desc.wordCount 3 ∧ cs.lines < ((w23 2).strm 3).desc.height ∧ ((w23 2).strm 3).desc.trowMode = 0 ∧ (w23 2).busWrite mIntake (((w23 2).strm 3).desc.entry cs.entry + cs.lines * ((w23 2).strm 3).desc.lineBytes 3 []) (storeSamples (((w23 2).strm 3).desc.sampleBytes 3) (unpack ((w23 2).strm 3).desc.dt pl)) = (Bus.ok, (v23 (w23 2)))) ∧
    ((w23 2).mayLose 3) ∧
    ((0#6).toNat < 16) ∧
    ((w23 3).camsOn (0#4).toNat (0#4).toNat = [3] ∧ ((w23 3).strm 3).desc.hostPre = false ∧ (w23 3).expiryPast 3 = false ∧ ((w23 3).strm 3).cur = some cs ∧ ((w23 3).strm 3).desc.trowMode ≠ 0 ∧ ((w23 3).strm 3).desc.trowEmb = true ∧ cs.trows + 1 < ((w23 3).strm 3).desc.trowCount) ∧
    ((w23 3).mayLose 3) ∧
    ((w23 4).camsOn (0#4).toNat (0#4).toNat = [3] ∧ ((w23 4).strm 3).desc.hostPre = false ∧ (w23 4).expiryPast 3 = false ∧ ((w23 4).strm 3).cur = none ∧ (w23 4).expiryDue 3 = false ∧ (w23 4).intake.updWait = none ∧ (w23 4).intake.warpNo = none ∧ (w23 4).breakEarly 3 = w23 4 ∧ (w23 4).takeEntry 3 = none) ∧
    ((w23 4).mayLose 3) ∧
    ((w23 5).camsOn (0#4).toNat (0#4).toNat = [3] ∧ ((w23 5).strm 3).desc.hostPre = false ∧ (w23 5).expiryPast 3 = false ∧ ((w23 5).strm 3).cur = none ∧ (w23 5).expiryDue 3 = false ∧ (w23 5).intake.updWait = none ∧ (w23 5).intake.warpNo = none ∧ (w23 5).intake.waitQ = [v1] ∧ v1.stream = 3 ∧ (w23 5).blanking v1.sample = true ∧ (w23 5).takeEntry 3 = some 0 ∧ (∀ w < 4, (FMap.get { : WarpEngine } (w23 5).intake.warps w).cur = none)) ∧
    ((w23 5).intake.rerunQ = []) ∧
    ((w23 5).mayLose 3) :=
  ⟨by decide +kernel, mayLose_of (by decide +kernel), by decide +kernel, mayLose_of (by decide +kernel), by decide +kernel, by decide +kernel, mayLose_of (by decide +kernel), by decide +kernel, by decide +kernel, mayLose_of (by decide +kernel), by decide +kernel, mayLose_of (by decide +kernel), by decide +kernel, by decide +kernel, mayLose_of (by decide +kernel)⟩

theorem wit_CameraFramesComplete :
    ((w23a 0).camsOn (0#4).toNat (0#4).toNat = [(3#5).toNat] ∧ ((w23a 0).strm (3#5).toNat).desc.hostPre = false ∧ ((w23a 0).strm (3#5).toNat).desc.trowMode = 0 ∧ (w23a 0).expiryPast (3#5).toNat = false ∧ ((w23a 0).strm (3#5).toNat).cur = some v2 ∧ ((w23a 0).strm (3#5).toNat).desc.height ≤ v2.lines ∧ v2.patDone = false) ∧
    ((w23a 0).mayLose (3#5).toNat) ∧
    ((w23a 2).camsOn (0#4).toNat (0#4).toNat = [(3#5).toNat] ∧ ((w23a 2).strm (3#5).toNat).desc.hostPre = false ∧ ((w23a 2).strm (3#5).toNat).desc.trowMode = 0 ∧ (w23a 2).expiryPast (3#5).toNat = false ∧ ((w23a 2).strm (3#5).toNat).cur = some v3 ∧ ((w23a 2).strm (3#5).toNat).desc.height ≤ v3.lines ∧ v3.patDone = true ∧ (∃ e < 4, (w23a 2).rd F.WRP_STATUS_IN_SERVICE e ≠ 0)) ∧
    ((w23a 2).mayLose (3#5).toNat) ∧
    ((w23a 4).camsOn (0#4).toNat (0#4).toNat = [(3#5).toNat] ∧ ((w23a 4).strm (3#5).toNat).desc.hostPre = false ∧ ((w23a 4).strm (3#5).toNat).desc.trowMode = 0 ∧ (w23a 4).expiryPast (3#5).toNat = false ∧ ((w23a 4).strm (3#5).toNat).cur = some v3 ∧ ((w23a 4).strm (3#5).toNat).desc.height ≤ v3.lines ∧ (¬∃ e < 4, (w23a 4).rd F.WRP_STATUS_IN_SERVICE e ≠ 0)) ∧
    ((w23a 4).mayLose (3#5).toNat) ∧
    ((w23a 6).camsOn (0#4).toNat (0#4).toNat = [(3#5).toNat] ∧ ((w23a 6).strm (3#5).toNat).desc.hostPre = false ∧ ((w23a 6).strm (3#5).toNat).desc.trowMode = 0 ∧ (w23a 6).expiryPast (3#5).toNat = false ∧ ((w23a 6).strm (3#5).toNat).cur = some v4 ∧ v4.patAt + ((w23a 6).strm (3#5).toNat).desc.patLines * ((w23a 6).strm (3#5).toNat).desc.lineTicks ≤ (w23a 6).tick ∧ v4.patStarted = true ∧ v4.patDone = false ∧ (((w23a 6).putPattern (3#5).toNat).strm (3#5).toNat).cur = some v4 ∧ v4.ended = false) ∧
    ((w23a 6).mayLose (3#5).toNat) ∧
    ((w23a 8).camsOn (0#4).toNat (0#4).toNat = [(3#5).toNat] ∧ ((w23a 8).strm (3#5).toNat).desc.hostPre = false ∧ ((w23a 8).strm (3#5).toNat).desc.trowMode = 0 ∧ (w23a 8).expiryPast (3#5).toNat = false ∧ ((w23a 8).strm (3#5).toNat).cur = some v5 ∧ v5.patAt + ((w23a 8).strm (3#5).toNat).desc.patLines * ((w23a 8).strm (3#5).toNat).desc.lineTicks ≤ (w23a 8).tick ∧ v5.patStarted = true ∧ v5.patDone = false ∧ ((w23a 8).putPattern (3#5).toNat).strm (3#5).toNat = (w23a 8).strm (3#5).toNat ∧ v5.ended = true ∧ (∃ e < 4, ((w23a 8).putPattern (3#5).toNat).rd F.WRP_STATUS_IN_SERVICE e ≠ 0)) ∧
    ((w23a 8).mayLose (3#5).toNat) ∧
    ((w23a 10).camsOn (0#4).toNat (0#4).toNat = [(3#5).toNat] ∧ ((w23a 10).strm (3#5).toNat).desc.hostPre = false ∧ ((w23a 10).strm (3#5).toNat).desc.trowMode = 0 ∧ ((w23a 10).strm (3#5).toNat).timerAt = some 500000500 ∧ 500000500 < (w23a 10).tick ∧ ((w23a 10).strm (3#5).toNat).cur = some v2) ∧
    ((w23a 10).mayLose (3#5).toNat) ∧
    ((w23a 12).camsOn (0#4).toNat (0#4).toNat = [(3#5).toNat] ∧ ((w23a 12).strm (3#5).toNat).desc.hostPre = false ∧ ((w23a 12).strm (3#5).toNat).desc.trowMode = 0 ∧ ((w23a 12).strm (3#5).toNat).timerAt = some (w23a 12).tick ∧ ((w23a 12).strm (3#5).toNat).cur = some v2) ∧
    ((w23a 12).mayLose (3#5).toNat) ∧
    ((w23a 14).camsOn (0#4).toNat (0#4).toNat = [(3#5).toNat] ∧ ((w23a 14).strm (3#5).toNat).desc.hostPre = false ∧ ((w23a 14).strm (3#5).toNat).desc.trowMode = 0 ∧ (w23a 14).expiryPast (3#5).toNat = false ∧ ((w23a 14).strm (3#5).toNat).cur = some v6 ∧ (w23a 14).tick < v6.patAt + ((w23a 14).strm (3#5).toNat).desc.patLines * ((w23a 14).strm (3#5).toNat).desc.lineTicks) ∧
    ((w23a 14).mayLose (3#5).toNat) ∧
    ((w23a 16).camsOn (0#4).toNat (0#4).toNat = [(3#5).toNat] ∧ ((w23a 16).strm (3#5).toNat).desc.hostPre = false ∧ ((w23a 16).strm (3#5).toNat).desc.trowMode = 0 ∧ ((w23a 16).strm (3#5).toNat).timerAt = some 500000500 ∧ 500000500 ≤ (w23a 16).tick ∧ ((w23a 16).strm (3#5).toNat).cur = none) ∧
    ((w23a 16).mayLose (3#5).toNat) ∧
    ((w23a 16).expiryDue (3#5).toNat = true ∧ w23a 17 = (w23a 16).wr F.INT_LOSS_CONSEC (((w23a 16).strm (3#5).toNat).desc.limit - 1) (3#5).toNat ∧ ((w23a 16).strm (3#5).toNat).desc.limit ≤ 15) :=
  ⟨by decide +kernel, mayLose_of (by decide +kernel), by decide +kernel, mayLose_of (by decide +kernel), by decide +kernel, mayLose_of (by decide +kernel), by decide +kernel, mayLose_of (by decide +kernel), by decide +kernel, mayLose_of (by decide +kernel), by decide +kernel, mayLose_of (by decide +kernel), by decide +kernel, mayLose_of (by decide +kernel), by decide +kernel, mayLose_of (by decide +kernel), by decide +kernel, mayLose_of (by decide +kernel), by decide +kernel⟩

theorem wit_TableUpdates :
    ((w23b 0).intake.updWait = none ∧ (3#6).toNat < 48) ∧
    ((w23b 0).intake.warpNo = none) ∧
    ((w23b 1).intake.updWait = some 3) ∧
    ((w23b 2).intake.updWait = some (3#6).toNat ∧ ((w23b 2).strm (3#6).toNat).cur = none ∧ { tick := (w23b 2).tick, fuses := (w23b 2).fuses, cfg := (w23b 2).cfg, dev := (w23b 2).dev, regs := (w23b 2).regs, mem := (w23b 2).mem, chans := (w23b 2).chans, swarm := (w23b 2).swarm, mesh := (w23b 2).mesh, sched := (w23b 2).sched, intake := have __src := (w23b 2).intake; { streams := __src.streams, jxs := __src.jxs, warps := __src.warps, warpApplied := __src.warpApplied, waitQ := __src.waitQ, rerunQ := __src.rerunQ, jxsQ := __src.jxsQ, syncAt := __src.syncAt, syncInt := __src.syncInt, txStamp := __src.txStamp, encs := __src.encs, encQ := __src.encQ, warpNo := __src.warpNo, warpNew := __src.warpNew, warpDone := __src.warpDone, sensorOut := __src.sensorOut : Intake }, host := (w23b 2).host, modes := (w23b 2).modes, fw := (w23b 2).fw, cara := (w23b 2).cara, chk := (w23b 2).chk, sec := (w23b 2).sec, coc := (w23b 2).coc, pwr := (w23b 2).pwr, prs := (w23b 2).prs, freeCtr := (w23b 2).freeCtr, pending := (w23b 2).pending : State }.readDesc (3#6).toNat = (some (v7, v8), (State.readDesc { w23b 2 with intake.updWait := none } 3).2) ∧ ((State.readDesc { w23b 2 with intake.updWait := none } 3).2).descOk (3#6).toNat v7 v8 ((((State.readDesc { w23b 2 with intake.updWait := none } 3).2).setStrm (3#6).toNat (have __src := ((State.readDesc { w23b 2 with intake.updWait := none } 3).2).strm (3#6).toNat; { desc := v8, state := __src.state, seq := __src.seq, cur := __src.cur, ready := __src.ready, broken := __src.broken, timerAt := __src.timerAt, last := __src.last, used := __src.used, everGood := __src.everGood, holdover := __src.holdover, startAt := __src.startAt, endAt := __src.endAt, comps := __src.comps, skipId := __src.skipId : Stream })).wcfg (3#6).toNat) = false) ∧
    ((w23b 4).intake.updWait = some (3#6).toNat ∧ ((w23b 4).strm (3#6).toNat).cur = none ∧ { tick := (w23b 4).tick, fuses := (w23b 4).fuses, cfg := (w23b 4).cfg, dev := (w23b 4).dev, regs := (w23b 4).regs, mem := (w23b 4).mem, chans := (w23b 4).chans, swarm := (w23b 4).swarm, mesh := (w23b 4).mesh, sched := (w23b 4).sched, intake := have __src := (w23b 4).intake; { streams := __src.streams, jxs := __src.jxs, warps := __src.warps, warpApplied := __src.warpApplied, waitQ := __src.waitQ, rerunQ := __src.rerunQ, jxsQ := __src.jxsQ, syncAt := __src.syncAt, syncInt := __src.syncInt, txStamp := __src.txStamp, encs := __src.encs, encQ := __src.encQ, warpNo := __src.warpNo, warpNew := __src.warpNew, warpDone := __src.warpDone, sensorOut := __src.sensorOut : Intake }, host := (w23b 4).host, modes := (w23b 4).modes, fw := (w23b 4).fw, cara := (w23b 4).cara, chk := (w23b 4).chk, sec := (w23b 4).sec, coc := (w23b 4).coc, pwr := (w23b 4).pwr, prs := (w23b 4).prs, freeCtr := (w23b 4).freeCtr, pending := (w23b 4).pending : State }.readDesc (3#6).toNat = (some (v9, v10), (State.readDesc { w23b 4 with intake.updWait := none } 3).2) ∧ ((State.readDesc { w23b 4 with intake.updWait := none } 3).2).descOk (3#6).toNat v9 v10 ((((State.readDesc { w23b 4 with intake.updWait := none } 3).2).setStrm (3#6).toNat (have __src := ((State.readDesc { w23b 4 with intake.updWait := none } 3).2).strm (3#6).toNat; { desc := v10, state := __src.state, seq := __src.seq, cur := __src.cur, ready := __src.ready, broken := __src.broken, timerAt := __src.timerAt, last := __src.last, used := __src.used, everGood := __src.everGood, holdover := __src.holdover, startAt := __src.startAt, endAt := __src.endAt, comps := __src.comps, skipId := __src.skipId : Stream })).wcfg (3#6).toNat) = true) ∧
    ((w23b 5).intake.updWait = some (3#6).toNat ∧ ((w23b 5).strm (3#6).toNat).cur ≠ none) ∧
    ((w23b 6).intake.warpNo = some 3) ∧
    ((w23b 7).intake.warpNo = some (3#6).toNat ∧ (w23b 7).intake.warpNew = [] ∧ (w23b 7).intake.warpDone = [] ∧ (∀ m ∈ (w23b 7).warpNamers (3#6).toNat, ((w23b 7).strm m).cur = none) ∧ (w23b 7).busRead (mWarp 0) (warpTable + 1024 * (3#6).toNat) 1024 = (Bus.ok, v11, w23b 7) ∧ (¬(cfgOk v11 = true ∧ ∀ m ∈ (w23b 7).warpNamers (3#6).toNat, cfgFits v11 ((w23b 7).strm m).desc ((w23b 7).strm m).comps m = true))) ∧
    ((w23b 8).intake.warpNo = some (3#6).toNat ∧ (w23b 8).intake.warpNew = [] ∧ (w23b 8).intake.warpDone = [] ∧ (∀ m ∈ (w23b 8).warpNamers (3#6).toNat, ((w23b 8).strm m).cur = none) ∧ (w23b 8).busRead (mWarp 0) (warpTable + 1024 * (3#6).toNat) 1024 = (Bus.ok, gcf, w23b 8) ∧ (cfgOk gcf = true ∧ ∀ m ∈ (w23b 8).warpNamers (3#6).toNat, cfgFits gcf ((w23b 8).strm m).desc ((w23b 8).strm m).comps m = true)) :=
  ⟨by decide +kernel, by decide +kernel, by decide +kernel, by decide +kernel, by decide +kernel, by decide +kernel, by decide +kernel, by decide +kernel, by decide +kernel⟩

end W23

namespace W24
def mac0 : List Byte := [2,0,0,0,0,1]
def iph (n : Nat) : List Byte := let h := fun (c : Nat) => natBe 2 0x4500 ++ natBe 2 (28 + n) ++ natBe 4 0 ++ natBe 2 0x4011 ++ natBe 2 c ++ natBe 4 0x0a000001 ++ natBe 4 0x0a000002
  h (65535 - ocSum (h 0))
def udpf (d : List Byte) (port : Nat := 5000) : List Byte := mac0 ++ [2,0,0,0,0,9] ++ natBe 2 0x800 ++ iph d.length ++ natBe 2 7 ++ natBe 2 port ++ natBe 2 (8 + d.length) ++ natBe 2 0 ++ d
def cfE : Cfg := {up.cfg with eth := List.replicate 4 {addr := mac0}}
def eth : State := {up with cfg := cfE}
def mf : List Byte := mac0 ++ [2,0,0,0,0,9] ++ natBe 2 0x800 ++ zeros 30
def ig : List Byte := mac0 ++ [2,0,0,0,0,9] ++ natBe 2 0x801 ++ zeros 30
def w24 (i : Nat) : State := ([eth, (eth.wr F.INT_PTP_STATUS_STATE 1), {eth with tick := 0, intake := {eth.intake with syncAt := 9}}] : List State).getD i up
def pe : List Byte := natLe 4 0 ++ natLe 4 0 ++ natLe 4 0 ++ natLe 4 (0 + 2*2^16) ++ natLe 4 (2 + 1*2^16) ++ natLe 4 0 ++ natLe 1 0 ++ natLe 1 1 ++ natLe 2 2 ++ natLe 2 4 ++ natLe 2 0 ++ natLe 4 0 ++ natLe 4 0 ++ natLe 2 0 ++ natLe 2 2 ++ natLe 4 (0+2*2^16) ++ natLe 4 65536 ++ natLe 4 0 ++ zeros 8
def dl : StreamDesc := {en := true, port := 0, sel := 0, dt := 0, period := 100000, lossLimit := 5, nslot := 3, warp := 255, buf := 0x1000, bufStride := 0x10000, lineTicks := 65536*12, w36 := natLe 2 5000 ++ natLe 2 0 ++ zeros 16 ++ natLe 2 8 ++ natLe 2 2 ++ natLe 2 2 ++ natLe 2 0, pat := List.replicate 16 0, parse := pe, test := zeros 64, elev := zeros 64}
def pkt : List Byte := natLe 2 5 ++ natLe 1 9 ++ natLe 9 1234567
def smp : Sample := {entry := 1, seq := 4, id := true, sampleId := 9, seq0 := 4, stamp := 400000000, desc := dl}
def ws24 (x : Stream) (s : State := eth) : State := s.setStrm 32 x
def lid : State := ws24 {desc := dl, state := 2, cur := some smp}
def stamp0 := (lid.tick * 10 - lid.rd F.INT_ETH_LAT_RX_NS 0) / 10
def rv := packetRecords (parseAt dl.parse) dl.elev pkt (10 * ((stamp0 : Int) - smp.stamp)) lid
def wv : State := (rv.2.busWrite mIntake (dl.entry 1 + 1 * 1 * 2 * 16) rv.1).2
def dj : StreamDesc := {dl with sel := 1, w36 := natLe 2 5000 ++ natLe 2 0 ++ zeros 16 ++ natLe 2 8 ++ natLe 2 2 ++ natLe 4 90000, width := 16, height := 16, patLines := 2}
def rtp : List Byte := natBe 2 0x8060 ++ natBe 2 77 ++ natBe 4 5 ++ natBe 4 6 ++ natBe 4 0x08000000 ++ zeros 20
def jx : State := ws24 {desc := dj, state := 2, cur := some {smp with desc := dj, rtpSeq := 77}}
def ready : State := ws24 {desc := dl, state := 2, ready := [smp]}
def tb : List Byte := bytesAt (dl.test.take dl.tvarOff ++ natLe 2 (4 % 16) ++ dl.test.drop (dl.tvarOff + 2)) 0 dl.testLen
def rq := packetRecords (parseAt dl.parse) dl.elev tb 0 ready
def goodpat (s : State) : State := s.modStrm 32 (fun x => {x with desc := {x.desc with pat := List.replicate 16 (crc32c (bytesAt rq.1 0 4096))}, ready := x.ready.map (fun y => {y with desc := {y.desc with pat := List.replicate 16 (crc32c (bytesAt rq.1 0 4096))}})})
def w24a (i : Nat) : State := ([lid, jx, ready, goodpat ready] : List State).getD i up
def xj : Sample := {entry := 1, seq := 4, desc := {dj with dt := 0}, cfg := zeros 1024, len := 20, wf := 16, hf := 16}
def jq (f : JxsEngine → JxsEngine) (s : State := ws24 {desc := dj, state := 2}) : State := (s.modJxs 0 f)
def je (f : JxsEngine → JxsEngine) : State := jq (fun j => f {j with cur := some (32, xj), startAt := 499999900})
def pixs : List (BitVec 16) := List.replicate 768 3
def vj : State := (((je id).wr F.JXS_LAST_CYCLES 7 0).busRead (mJxs 0) (xj.desc.entry 1) 20).2.2
def bj : List Byte := (((je id).wr F.JXS_LAST_CYCLES 7 0).busRead (mJxs 0) (xj.desc.entry 1) 20).2.1
def wj4 : Option State := (vj.putRows 0 (xj.desc.entry xj.entry + xj.desc.fbOff 32) (xj.desc.lineBytes 32 xj.cfg) (xj.wf * cfgComps xj.cfg) pixs xj.hf).bind (fun v =>
          v.putRows 0 (xj.desc.entry xj.entry + xj.desc.fbOff 32 + xj.desc.height * xj.desc.lineBytes 32 xj.cfg) (xj.desc.lineBytes 32 xj.cfg)
            (xj.desc.width * cfgComps xj.cfg)
            (pixs ++ List.replicate (xj.desc.patLines * xj.desc.width * cfgComps xj.cfg - pixs.length) 0xA5A5#16) xj.desc.patLines)
def w24b (i : Nat) : State := ([{jq id with intake.jxsQ := [(0, 32, xj)]}, jq (fun j => {j with resetAt := some 9}), je id, {je id with tick := 600000000}, jq id] : List State).getD i up
def dE : EncDesc := {en := true, src := 3, sel := 0, bpp := 2000, clip := 0x40000, clipBytes := 1024, nclip := 4, budget := 5000}
def xE : Sample := {entry := 1, seq := 4, stamp := 77, desc := {dj with dt := 0x2A, buf := 0x1000}}
def en0 (f : JxsEngine → JxsEngine) : State := {(jq f (ws24 {desc := dj, state := 2} (up.wr F.JXS_STATUS_MODE_ACT 1 0))) with intake.encs := [(0, dE)]}
def eE : State := en0 (fun j => {j with enc := some (3, xE), startAt := 499999990, clipNext := 3})
def rE : Bus × List Byte × State := (eE.wr F.JXS_LAST_CYCLES 7 0).busRead (mJxs 0) (encSource dE 3 xE).1 (encSource dE 3 xE).2
def wE : State := (rE.2.2.busWrite (mJxs 0) (dE.clip + 3 * dE.clipBytes) [1,2,3]).2
def w24c (i : Nat) : State := ([{en0 id with intake.encQ := [(0,3,xE)]}, eE, {eE with tick := 600000000}, je id] : List State).getD i up
def v1 : List Byte := [2#8, 0#8, 0#8, 0#8, 0#8, 1#8, 2#8, 0#8, 0#8, 0#8, 0#8, 9#8, 8#8, 0#8, 69#8, 0#8, 0#8, 31#8, 0#8, 0#8, 0#8, 0#8, 64#8, 17#8, 102#8, 204#8, 10#8, 0#8, 0#8, 1#8, 10#8, 0#8, 0#8, 2#8, 0#8, 7#8, 19#8, 136#8, 0#8, 11#8, 0#8, 0#8, 1#8, 2#8, 3#8]
def v2 : Udp := { port := 5000, src := (List.replicate 10 0#8 ++ [255#8, 255#8, 10#8, 0#8, 0#8, 1#8]), data := [1#8, 2#8, 3#8] }
def v3 : List Byte := ([2#8, 0#8, 0#8, 0#8, 0#8, 1#8, 2#8, 0#8, 0#8, 0#8, 0#8, 9#8, 8#8, 0#8, 69#8, 0#8, 0#8, 40#8, 0#8, 0#8, 0#8, 0#8, 64#8, 17#8, 102#8, 195#8, 10#8, 0#8, 0#8, 1#8, 10#8, 0#8, 0#8, 2#8, 0#8, 7#8, 19#8, 136#8, 0#8, 20#8, 0#8, 0#8, 5#8, 0#8, 9#8, 135#8, 214#8, 18#8] ++ List.replicate 6 0#8)
def v4 : Udp := { port := 5000, src := (List.replicate 10 0#8 ++ [255#8, 255#8, 10#8, 0#8, 0#8, 1#8]), data := ([5#8, 0#8, 9#8, 135#8, 214#8, 18#8] ++ List.replicate 6 0#8) }
def v5 : List Byte := ([214#8, 18#8] ++ List.replicate 9 0#8 ++ [1#8, 0#8, 202#8, 154#8, 59#8] ++ List.replicate 10 0#8 ++ [1#8, 0#8, 0#8, 202#8, 154#8, 59#8])
def v6 : List Byte := ([2#8, 0#8, 0#8, 0#8, 0#8, 1#8, 2#8, 0#8, 0#8, 0#8, 0#8, 9#8, 8#8, 0#8, 69#8, 0#8, 0#8, 64#8, 0#8, 0#8, 0#8, 0#8, 64#8, 17#8, 102#8, 171#8, 10#8, 0#8, 0#8, 1#8, 10#8, 0#8, 0#8, 2#8, 0#8, 7#8, 19#8, 136#8, 0#8, 44#8, 0#8, 0#8, 128#8, 96#8, 0#8, 77#8, 0#8, 0#8, 0#8, 5#8, 0#8, 0#8, 0#8, 6#8, 8#8] ++ List.replicate 23 0#8)
def v7 : Udp := { port := 5000, src := (List.replicate 10 0#8 ++ [255#8, 255#8, 10#8, 0#8, 0#8, 1#8]), data := ([128#8, 96#8, 0#8, 77#8, 0#8, 0#8, 0#8, 5#8, 0#8, 0#8, 0#8, 6#8, 8#8] ++ List.replicate 23 0#8) }
def v8 : Sample := { entry := 1, seq := 4, stamp := 400000000, seq0 := 4, sampleId := 9, rtpSeq := 77, desc := { en := true, sel := 1, width := 16, height := 16, period := 100000, lossLimit := 5, nslot := 3, patLines := 2, warp := 255, lineTicks := 786432, buf := 4096, bufStride := 65536, w36 := ([136#8, 19#8] ++ List.replicate 18 0#8 ++ [8#8, 0#8, 2#8, 0#8, 144#8, 95#8, 1#8, 0#8]), pat := (List.replicate 16 0), parse := (List.replicate 14 0#8 ++ [2#8, 0#8, 2#8, 0#8, 1#8] ++ List.replicate 6 0#8 ++ [1#8, 2#8, 0#8, 4#8] ++ List.replicate 13 0#8 ++ [2#8, 0#8, 0#8, 0#8, 2#8, 0#8, 0#8, 0#8, 1#8] ++ List.replicate 13 0#8), test := (List.replicate 64 0#8), elev := (List.replicate 64 0#8) }, id := true }
def v9 : List Byte := (List.replicate 20 0#8)
def v10 : List Byte := (List.replicate 26 0#8 ++ [1#8, 0#8, 0#8, 0#8, 0#8, 0#8])
def v11 : Sample := { entry := 1, seq := 4, stamp := 400000000, seq0 := 4, sampleId := 9, desc := { en := true, period := 100000, lossLimit := 5, nslot := 3, warp := 255, lineTicks := 786432, buf := 4096, bufStride := 65536, w36 := ([136#8, 19#8] ++ List.replicate 18 0#8 ++ [8#8, 0#8, 2#8, 0#8, 2#8, 0#8, 0#8, 0#8]), pat := (List.replicate 16 212497096), parse := (List.replicate 14 0#8 ++ [2#8, 0#8, 2#8, 0#8, 1#8] ++ List.replicate 6 0#8 ++ [1#8, 2#8, 0#8, 4#8] ++ List.replicate 13 0#8 ++ [2#8, 0#8, 0#8, 0#8, 2#8, 0#8, 0#8, 0#8, 1#8] ++ List.replicate 13 0#8), test := (List.replicate 64 0#8), elev := (List.replicate 64 0#8) }, id := true }
def v12 : List Byte := (List.replicate 512 0#8)

theorem wit_EthernetAndTime :
    ((¬(([] : List Byte).length + 4 ≤ 9216 ∧ (bytesAt [] 0 6 = ((w24 0).cfg.eth.getD (0#2).toNat { : EthCfg }).addr ∨ bytesAt [] 0 6 ∈ ((w24 0).cfg.eth.getD (0#2).toNat { : EthCfg }).groups)))) ∧
    ((v1.length + 4 ≤ 9216 ∧ (bytesAt v1 0 6 = ((w24 0).cfg.eth.getD (0#2).toNat { : EthCfg }).addr ∨ bytesAt v1 0 6 ∈ ((w24 0).cfg.eth.getD (0#2).toNat { : EthCfg }).groups)) ∧ frameOf v1 = Got1.udp v2 ∧ (w24 0).intake.updWait = none ∧ (w24 0).intake.warpNo = none) ∧
    (∀ (n : Nat), 32 ≤ n → n < 48 → ((w24 0).strm n).desc.en = true → ((w24 0).strm n).desc.takes (0#2).toNat v2 = false) ∧
    ((mf.length + 4 ≤ 9216 ∧ (bytesAt mf 0 6 = ((w24 0).cfg.eth.getD (0#2).toNat { : EthCfg }).addr ∨ bytesAt mf 0 6 ∈ ((w24 0).cfg.eth.getD (0#2).toNat { : EthCfg }).groups)) ∧ frameOf mf = Got1.malformed) ∧
    ((ig.length + 4 ≤ 9216 ∧ (bytesAt ig 0 6 = ((w24 0).cfg.eth.getD (0#2).toNat { : EthCfg }).addr ∨ bytesAt ig 0 6 ∈ ((w24 0).cfg.eth.getD (0#2).toNat { : EthCfg }).groups)) ∧ frameOf ig = Got1.ignored) ∧
    ((w24 1).rd F.INT_PTP_STATUS_STATE = 1 ∧ (w24 1).intake.syncAt + 3 * (w24 1).intake.syncInt ≤ (w24 1).tick) ∧
    ((w24 2).tick < (w24 2).intake.syncAt + 3 * (w24 2).intake.syncInt) :=
  ⟨by decide +kernel, by decide +kernel, all_below (by decide +kernel), by decide +kernel, by decide +kernel, by decide +kernel, by decide +kernel⟩

theorem wit_NetworkStreams :
    (32 ≤ 32 ∧ 32 < 48 ∧ ((w24a 0).strm 32).desc.en = true ∧ ((w24a 0).strm 32).desc.hostPre = false ∧ ((w24a 0).strm 32).desc.takes (0#2).toNat v4 = true ∧ frameOf v3 = Got1.udp v4 ∧ v3.length + 4 ≤ 9216 ∧ bytesAt v3 0 6 = ((w24a 0).cfg.eth.getD (0#2).toNat { : EthCfg }).addr ∧ (w24a 0).intake.updWait = none ∧ (w24a 0).intake.warpNo = none ∧ ((w24a 0).strm 32).cur = some smp ∧ ((w24a 0).strm 32).desc.sel = 0) ∧
    ((parseAt ((w24a 0).strm 32).desc.parse).fits v4.data = true ∧ (parseAt ((w24a 0).strm 32).desc.parse).sample.bytes ≠ 0 ∧ smp.id = true ∧ smp.sampleId = (parseAt ((w24a 0).strm 32).desc.parse).sample.nat v4.data 0 ∧ (parseAt ((w24a 0).strm 32).desc.parse).timeMode = 0 ∧ (parseAt ((w24a 0).strm 32).desc.parse).seq.bytes ≠ 0 ∧ ((parseAt ((w24a 0).strm 32).desc.parse).seq.nat v4.data 0 + 2 ^ (8 * (parseAt ((w24a 0).strm 32).desc.parse).seq.bytes) - smp.seq0) % 2 ^ (8 * (parseAt ((w24a 0).strm 32).desc.parse).seq.bytes) < ((w24a 0).strm 32).desc.maxPkts ∧ smp.pkts.length + 1 < ((w24a 0).strm 32).desc.maxPkts ∧ packetRecords (parseAt ((w24a 0).strm 32).desc.parse) ((w24a 0).strm 32).desc.elev v4.data (10 * (↑(((w24a 0).tick * 10 - (w24a 0).rd F.INT_ETH_LAT_RX_NS (0#2).toNat) / 10) - ↑smp.stamp)) (w24a 0) = (v5, w24a 0) ∧ (w24a 0).busWrite mIntake (((w24a 0).strm 32).desc.entry smp.entry + ((parseAt ((w24a 0).strm 32).desc.parse).seq.nat v4.data 0 + 2 ^ (8 * (parseAt ((w24a 0).strm 32).desc.parse).seq.bytes) - smp.seq0) % 2 ^ (8 * (parseAt ((w24a 0).strm 32).desc.parse).seq.bytes) * (parseAt ((w24a 0).strm 32).desc.parse).nblk * (parseAt ((w24a 0).strm 32).desc.parse).npt * 16) v5 = (Bus.ok, wv)) ∧
    (∀ (k : Nat), 32 ≤ k → k < 32 → ((w24a 0).strm k).desc.en = true → ((w24a 0).strm k).desc.takes (0#2).toNat v4 = false) ∧
    (((w24a 1).strm 32).desc.en = true ∧ ((w24a 1).strm 32).desc.hostPre = false ∧ ((w24a 1).strm 32).desc.takes (0#2).toNat v7 = true ∧ frameOf v6 = Got1.udp v7 ∧ v6.length + 4 ≤ 9216 ∧ bytesAt v6 0 6 = ((w24a 1).cfg.eth.getD (0#2).toNat { : EthCfg }).addr ∧ (w24a 1).intake.updWait = none ∧ (w24a 1).intake.warpNo = none ∧ ((w24a 1).strm 32).cur = some v8 ∧ ((w24a 1).strm 32).desc.sel = 1 ∧ rtpOf v7.data = some (false, 77, true, v9) ∧ 77 = v8.rtpSeq) ∧
    (v8.len + v9.length ≤ ((w24a 1).strm 32).desc.rxBytes ∧ (w24a 1).busWrite mIntake (((w24a 1).strm 32).desc.entry v8.entry + v8.len) v9 = (Bus.ok, ((w24a 1).busWrite mIntake (dj.entry 1) (rtp.drop 16)).2)) ∧
    (∀ (k : Nat), 32 ≤ k → k < 32 → ((w24a 1).strm k).desc.en = true → ((w24a 1).strm k).desc.takes (0#2).toNat v7 = false) ∧
    (((w24a 2).strm 32).ready = [smp] ∧ ((w24a 2).strm 32).state = 2 ∧ (parseAt smp.desc.parse).fits (bytesAt (List.take smp.desc.tvarOff smp.desc.test ++ natLe 2 (smp.seq % 16) ++ List.drop (smp.desc.tvarOff + 2) smp.desc.test) 0 smp.desc.testLen) = true ∧ packetRecords (parseAt smp.desc.parse) smp.desc.elev (bytesAt (List.take smp.desc.tvarOff smp.desc.test ++ natLe 2 (smp.seq % 16) ++ List.drop (smp.desc.tvarOff + 2) smp.desc.test) 0 smp.desc.testLen) 0 (w24a 2) = (v10, w24a 2) ∧ crc32c (bytesAt v10 0 4096) ≠ smp.desc.pat.getD (smp.seq % 16) 0) ∧
    ((w24a 2).mayLose 32) ∧
    (((w24a 2).store mIntake (smp.desc.entry smp.entry + smp.desc.lidarBytes) (bytesAt v10 0 4096)).mayLose 32) ∧
    (((w24a 3).strm 32).ready = [v11] ∧ ((w24a 3).strm 32).state = 2 ∧ (parseAt v11.desc.parse).fits (bytesAt (List.take v11.desc.tvarOff v11.desc.test ++ natLe 2 (v11.seq % 16) ++ List.drop (v11.desc.tvarOff + 2) v11.desc.test) 0 v11.desc.testLen) = true ∧ packetRecords (parseAt v11.desc.parse) v11.desc.elev (bytesAt (List.take v11.desc.tvarOff v11.desc.test ++ natLe 2 (v11.seq % 16) ++ List.drop (v11.desc.tvarOff + 2) v11.desc.test) 0 v11.desc.testLen) 0 (w24a 3) = (v10, w24a 3) ∧ crc32c (bytesAt v10 0 4096) = v11.desc.pat.getD (v11.seq % 16) 0) ∧
    ((w24a 3).mayLose 32) ∧
    (((w24a 3).store mIntake (v11.desc.entry v11.entry + v11.desc.lidarBytes) (bytesAt v10 0 4096)).mayLose 32) :=
  ⟨by decide +kernel, by decide +kernel, all_below (by decide +kernel), by decide +kernel, by decide +kernel, all_below (by decide +kernel), by decide +kernel, mayLose_of (by decide +kernel), mayLose_of (by decide +kernel), by decide +kernel, mayLose_of (by decide +kernel), mayLose_of (by decide +kernel)⟩

theorem wit_JpegXsDecoding :
    (List.find? (fun r => r.1 == (0#1).toNat) (w24b 0).intake.jxsQ = some ((0#1).toNat, 32, xj) ∧ 32 < 48 ∧ ((w24b 0).jxs (0#1).toNat).idle = true ∧ ((w24b 0).unit 4 (0#1).toNat).running = false ∧ (w24b 0).rd F.JXS_STATUS_MODE_ACT (0#1).toNat = 0) ∧
    (((w24b 0).jxs (0#1).toNat).cur = none ∧ ((w24b 0).jxs (0#1).toNat).enc = none) ∧
    (((w24b 1).jxs (0#1).toNat).resetAt ≠ none) ∧
    (((w24b 2).jxs (0#1).toNat).cur = some (32, xj) ∧ (w24b 2).jxsCycles (0#1).toNat < xj.desc.decBudget ∧ ((w24b 2).wr F.JXS_LAST_CYCLES (7#32).toNat (0#1).toNat).busRead (mJxs (0#1).toNat) (xj.desc.entry xj.entry) xj.len = (Bus.ok, bj, vj) ∧ (vj).current 32 xj = true) ∧
    ((vj).mayLose 32) ∧
    ((((vj).putRows (0#1).toNat (xj.desc.entry xj.entry + xj.desc.fbOff 32) (xj.desc.lineBytes 32 xj.cfg) (xj.wf * cfgComps xj.cfg) pixs xj.hf).bind fun v => v.putRows (0#1).toNat (xj.desc.entry xj.entry + xj.desc.fbOff 32 + xj.desc.height * xj.desc.lineBytes 32 xj.cfg) (xj.desc.lineBytes 32 xj.cfg) (xj.desc.width * cfgComps xj.cfg) (pixs ++ List.replicate (xj.desc.patLines * xj.desc.width * cfgComps xj.cfg - pixs.length) 42405#16) xj.desc.patLines) = some ((wj4.getD up)) ∧ (∃ k < 4, ((wj4.getD up)).rd F.WRP_STATUS_IN_SERVICE k ≠ 0)) ∧
    ((w24b 2).current 32 xj = true) ∧
    ((w24b 2).mayLose 32) ∧
    (((w24b 3).jxs (0#1).toNat).cur = some (32, xj) ∧ xj.desc.decBudget ≤ (w24b 3).jxsCycles (0#1).toNat ∧ (w24b 3).current 32 xj = true) ∧
    ((w24b 3).mayLose 32) :=
  ⟨by decide +kernel, by decide +kernel, by decide +kernel, by decide +kernel, mayLose_of (by decide +kernel), by decide +kernel, by decide +kernel, mayLose_of (by decide +kernel), by decide +kernel, mayLose_of (by decide +kernel)⟩

theorem wit_JpegXsEncoding :
    (List.find? (fun r => r.1 == (0#1).toNat) (w24c 0).intake.encQ = some ((0#1).toNat, 3, xE) ∧ 3 < 48 ∧ ((w24c 0).jxs (0#1).toNat).idle = true ∧ ((w24c 0).unit 4 (0#1).toNat).running = false ∧ (w24c 0).rd F.JXS_STATUS_MODE_ACT (0#1).toNat ≠ 0) ∧
    (((w24c 0).jxs (0#1).toNat).cur = none ∧ ((w24c 0).jxs (0#1).toNat).enc = none) ∧
    (((w24c 1).jxs (0#1).toNat).enc = some (3, xE) ∧ (w24c 1).jxsCycles (0#1).toNat < ((w24c 1).encDesc (0#1).toNat).budget ∧ ([] : List Byte).length ≤ ((w24c 1).encDesc (0#1).toNat).clipBytes ∧ 128 * ([] : List Byte).length ≤ encPixels ((w24c 1).encDesc (0#1).toNat) xE * ((w24c 1).encDesc (0#1).toNat).bpp ∧ ((w24c 1).wr F.JXS_LAST_CYCLES (7#32).toNat (0#1).toNat).busRead (mJxs (0#1).toNat) (encSource ((w24c 1).encDesc (0#1).toNat) 3 xE).1 (encSource ((w24c 1).encDesc (0#1).toNat) 3 xE).2 = (Bus.ok, v12, rE.2.2) ∧ (rE.2.2).busWrite (mJxs (0#1).toNat) (((w24c 1).encDesc (0#1).toNat).clip + ((w24c 1).jxs (0#1).toNat).clipNext * ((w24c 1).encDesc (0#1).toNat).clipBytes) [] = (Bus.ok, rE.2.2)) ∧
    (((w24c 2).jxs (0#1).toNat).enc = some (3, xE) ∧ ((w24c 2).encDesc (0#1).toNat).budget ≤ (w24c 2).jxsCycles (0#1).toNat) ∧
    (((w24c 3).jxs (0#1).toNat).cur ≠ none) :=
  ⟨by decide +kernel, by decide +kernel, by decide +kernel, by decide +kernel, by decide +kernel⟩

end W24

namespace W24b
def mc (crc : Nat) : List Byte := natLe 1 1 ++ natLe 1 0 ++ natLe 1 0 ++ natLe 1 3 ++ natLe 2 1 ++ natLe 2 1 ++ natLe 1 1 ++ natLe 1 0 ++ natLe 1 1 ++ natLe 1 0 ++ natLe 4 32 ++ natLe 4 256 ++ natLe 4 0x4000 ++ natLe 8 0x800000 ++ natLe 4 crc ++ zeros 988
def dW : StreamDesc := {en := true, port := 0, sel := 0, dt := 0x2A, width := 1, height := 1, period := 1000, lossLimit := 5, nslot := 3, patLines := 1, warp := 1, buf := 0x1000, bufStride := 0x10000, w36 := zeros 28, pat := List.replicate 16 0}
def xW (crc pat : Nat) : Sample := {entry := 1, seq := 9, stamp := 499999000, desc := {dW with pat := List.replicate 16 pat}, cfg := mc crc}
def sW (x : Sample) : State := (up.setStrm 3 {desc := x.desc, state := 2}).modWarp 0 (fun w => {w with cur := some (3, x), startAt := 499999900})
def r0 := (sW (xW 0 0)).runWarp 0 3 (xW 0 0)
def mcrc := (r0.1.getD (0,0)).2
def pcrc := (r0.1.getD (0,0)).1
def sWr (x : Sample) : State := let s := sW x; s.modWarp 0 (fun w => {w with rerun := some 3})
def wq : State := {up with intake.waitQ := [{stream := 3, sample := xW 0 0}, {stream := 4}]}
def rqS : State := {sW (xW 0 0) with intake.rerunQ := [{stream := 3, sample := xW 0 0, first := 3, since := 499990000}]}
def w24d (i : Nat) : State := ([sW (xW mcrc pcrc), sW (xW mcrc 0), sW (xW 0 0), wq, rqS, {rqS with intake.warps := []}, {sW (xW 0 0) with tick := 500001000}, sWr (xW mcrc pcrc)] : List State).getD i up
def v1 : Sample := { entry := 1, seq := 9, stamp := 499999000, desc := { en := true, dt := 42, width := 1, height := 1, period := 1000, lossLimit := 5, nslot := 3, patLines := 1, warp := 1, buf := 4096, bufStride := 65536, w36 := (List.replicate 28 0#8), pat := (List.replicate 16 3094524304) }, cfg := ([1#8, 0#8, 0#8, 3#8, 1#8, 0#8, 1#8, 0#8, 1#8, 0#8, 1#8, 0#8, 32#8, 0#8, 0#8, 0#8, 0#8, 1#8, 0#8, 0#8, 0#8, 64#8, 0#8, 0#8, 0#8, 0#8, 128#8, 0#8, 0#8, 0#8, 0#8, 0#8, 170#8, 54#8, 145#8, 138#8] ++ List.replicate 988 0#8) }
def v2 : Sample := { entry := 1, seq := 9, stamp := 499999000, desc := { en := true, dt := 42, width := 1, height := 1, period := 1000, lossLimit := 5, nslot := 3, patLines := 1, warp := 1, buf := 4096, bufStride := 65536, w36 := (List.replicate 28 0#8), pat := (List.replicate 16 0) }, cfg := ([1#8, 0#8, 0#8, 3#8, 1#8, 0#8, 1#8, 0#8, 1#8, 0#8, 1#8, 0#8, 32#8, 0#8, 0#8, 0#8, 0#8, 1#8, 0#8, 0#8, 0#8, 64#8, 0#8, 0#8, 0#8, 0#8, 128#8, 0#8, 0#8, 0#8, 0#8, 0#8, 170#8, 54#8, 145#8, 138#8] ++ List.replicate 988 0#8) }
def v3 : Sample := { entry := 1, seq := 9, stamp := 499999000, desc := { en := true, dt := 42, width := 1, height := 1, period := 1000, lossLimit := 5, nslot := 3, patLines := 1, warp := 1, buf := 4096, bufStride := 65536, w36 := (List.replicate 28 0#8), pat := (List.replicate 16 0) }, cfg := ([1#8, 0#8, 0#8, 3#8, 1#8, 0#8, 1#8, 0#8, 1#8, 0#8, 1#8, 0#8, 32#8, 0#8, 0#8, 0#8, 0#8, 1#8, 0#8, 0#8, 0#8, 64#8, 0#8, 0#8, 0#8, 0#8, 128#8] ++ List.replicate 997 0#8) }
def v4 : ReadyFrame := { stream := 3, sample := { entry := 1, seq := 9, stamp := 499999000, desc := { en := true, dt := 42, width := 1, height := 1, period := 1000, lossLimit := 5, nslot := 3, patLines := 1, warp := 1, buf := 4096, bufStride := 65536, w36 := (List.replicate 28 0#8), pat := (List.replicate 16 0) }, cfg := ([1#8, 0#8, 0#8, 3#8, 1#8, 0#8, 1#8, 0#8, 1#8, 0#8, 1#8, 0#8, 32#8, 0#8, 0#8, 0#8, 0#8, 1#8, 0#8, 0#8, 0#8, 64#8, 0#8, 0#8, 0#8, 0#8, 128#8] ++ List.replicate 997 0#8) } }
def v5 : List ReadyFrame := [{ stream := 4, sample := { desc := {} } }]
def v6 : RerunWait := { stream := 3, sample := { entry := 1, seq := 9, stamp := 499999000, desc := { en := true, dt := 42, width := 1, height := 1, period := 1000, lossLimit := 5, nslot := 3, patLines := 1, warp := 1, buf := 4096, bufStride := 65536, w36 := (List.replicate 28 0#8), pat := (List.replicate 16 0) }, cfg := ([1#8, 0#8, 0#8, 3#8, 1#8, 0#8, 1#8, 0#8, 1#8, 0#8, 1#8, 0#8, 32#8, 0#8, 0#8, 0#8, 0#8, 1#8, 0#8, 0#8, 0#8, 64#8, 0#8, 0#8, 0#8, 0#8, 128#8] ++ List.replicate 997 0#8) }, first := 3, since := 499990000 }

theorem wit_WarpEngines :
    (((w24d 0).warp (0#2).toNat).cur = some (3, v1) ∧ (w24d 0).tick ≤ ((w24d 0).warp (0#2).toNat).startAt + v1.desc.period ∧ (w24d 0).runWarp (0#2).toNat 3 v1 = (some (3094524304, 2324772522), ((w24d 0).runWarp 0 3 (xW mcrc pcrc)).2) ∧ (((w24d 0).runWarp 0 3 (xW mcrc pcrc)).2).current 3 v1 = true ∧ 2324772522 = (wcfgAt v1.cfg).meshCrc ∧ 3094524304 = v1.desc.pat.getD (if v1.desc.jxs 3 = true then 0 else v1.seq % 16) 0 ∧ ((w24d 0).warp (0#2).toNat).rerun = none) ∧
    ((((w24d 0).runWarp 0 3 (xW mcrc pcrc)).2).mayLose 3) ∧
    ((w24d 0).current 3 v1 = true ∧ ((w24d 0).warp (0#2).toNat).attrib = []) ∧
    ((w24d 0).mayLose 3) :=
  ⟨by decide +kernel, mayLose_of (by decide +kernel), by decide +kernel, mayLose_of (by decide +kernel)⟩

theorem wit_WarpEnginesb :
    (((w24d 1).warp (0#2).toNat).cur = some (3, v2) ∧ (w24d 1).tick ≤ ((w24d 1).warp (0#2).toNat).startAt + v2.desc.period ∧ (w24d 1).runWarp (0#2).toNat 3 v2 = (some (3094524304, 2324772522), ((w24d 1).runWarp 0 3 (xW mcrc 0)).2) ∧ (((w24d 1).runWarp 0 3 (xW mcrc 0)).2).current 3 v2 = true ∧ 2324772522 = (wcfgAt v2.cfg).meshCrc ∧ 3094524304 ≠ v2.desc.pat.getD (if v2.desc.jxs 3 = true then 0 else v2.seq % 16) 0 ∧ ((w24d 1).warp (0#2).toNat).rerun = none) ∧
    ((((w24d 1).runWarp 0 3 (xW mcrc 0)).2).mayLose 3) ∧
    (((w24d 2).warp (0#2).toNat).cur = some (3, v3) ∧ (w24d 2).tick ≤ ((w24d 2).warp (0#2).toNat).startAt + v3.desc.period ∧ (w24d 2).runWarp (0#2).toNat 3 v3 = (some (3094524304, 2324772522), ((w24d 2).runWarp 0 3 (xW 0 0)).2) ∧ (((w24d 2).runWarp 0 3 (xW 0 0)).2).current 3 v3 = true ∧ 2324772522 ≠ (wcfgAt v3.cfg).meshCrc) ∧
    ((((w24d 2).runWarp 0 3 (xW 0 0)).2).mayLose 3) :=
  ⟨by decide +kernel, mayLose_of (by decide +kernel), by decide +kernel, mayLose_of (by decide +kernel)⟩

theorem wit_WarpEnginesc :
    ((w24d 3).intake.rerunQ = [] ∧ (w24d 3).intake.waitQ = v4 :: v5 ∧ v4.stream < 48 ∧ (w24d 3).warpIdle (0#2).toNat = true ∧ (∀ k < (0#2).toNat, (w24d 3).warpIdle k = false)) ∧
    ((w24d 4).intake.rerunQ = [v6] ∧ v6.since + v6.sample.desc.period ≤ (w24d 4).tick ∧ (w24d 4).current v6.stream v6.sample = true) ∧
    ((w24d 4).mayLose v6.stream) ∧
    ((w24d 5).intake.rerunQ = [v6] ∧ v6.stream < 48 ∧ (w24d 5).rerunEngine v6.first = some (0#2).toNat ∧ (w24d 5).warpIdle (0#2).toNat = true) :=
  ⟨by decide +kernel, by decide +kernel, mayLose_of (by decide +kernel), by decide +kernel⟩

theorem wit_WarpEnginesd :
    (((w24d 6).warp (0#2).toNat).cur = some (3, v3) ∧ ((w24d 6).warp (0#2).toNat).startAt + v3.desc.period ≤ (w24d 6).tick ∧ (w24d 6).current 3 v3 = true) ∧
    ((w24d 6).mayLose 3) ∧
    (((w24d 7).warp (0#2).toNat).cur = some (3, v1) ∧ (w24d 7).tick ≤ ((w24d 7).warp (0#2).toNat).startAt + v1.desc.period ∧ (w24d 7).runWarp (0#2).toNat 3 v1 = (some (3094524304, 2324772522), ((w24d 7).runWarp 0 3 (xW mcrc pcrc)).2) ∧ (((w24d 7).runWarp 0 3 (xW mcrc pcrc)).2).current 3 v1 = true ∧ ((w24d 7).warp (0#2).toNat).rerun = some 3 ∧ 3 ≠ (0#2).toNat ∧ ((w24d 7).warp 3).attrib = []) ∧
    ((((w24d 7).runWarp 0 3 (xW mcrc pcrc)).2).mayLose 3) :=
  ⟨by decide +kernel, mayLose_of (by decide +kernel), by decide +kernel, mayLose_of (by decide +kernel)⟩

theorem wit_WarpEnginesRoom :
    (((w24d 0).runWarp 0 3 (xW mcrc pcrc)).2).traceRoom ∧ (((w24d 1).runWarp 0 3 (xW mcrc 0)).2).traceRoom ∧
    (((w24d 2).runWarp 0 3 (xW 0 0)).2).traceRoom ∧ (((w24d 7).runWarp 0 3 (xW mcrc pcrc)).2).traceRoom ∧
    (w24d 3).traceRoom ∧ (w24d 5).traceRoom ∧ (w24d 6).traceRoom :=
  ⟨⟨by decide +kernel, by decide +kernel⟩, ⟨by decide +kernel, by decide +kernel⟩, ⟨by decide +kernel, by decide +kernel⟩,
    ⟨by decide +kernel, by decide +kernel⟩, ⟨by decide +kernel, by decide +kernel⟩, ⟨by decide +kernel, by decide +kernel⟩,
    ⟨by decide +kernel, by decide +kernel⟩⟩

end W24b

namespace W25
def A25 : Nat := 0x12340
def S25 : Nat := A25 / 32
def m25 := mapAddress (32 * S25)
def f25 : State := up.store mHost A25 (natLe 32 (3^120))
def lost25 : State := f25.modChan m25.ch (fun x => {x with lost := [{line := m25.line, left := [m25.inLine, (m25.inLine+1)%16]}]})
def w25 (i : Nat) : State := ([f25, lost25] : List State).getD i up
def hit (j v : Nat) (s : State := f25) : State := (s.hitSec S25 (BitVec.ofNat 272 (symMask j v))).modChan m25.ch (fun x => {x with corr := [S25]})
def two : State := f25.hitSec S25 (BitVec.ofNat 272 (symMask 3 1 ^^^ symMask 50 9))
def w25a (i : Nat) : State := ([f25, hit 5 3, f25.modChan m25.ch (fun x => {x with corr := [S25]})] : List State).getD i up
def ch25 (f : MemChan → MemChan) (s : State := f25) : State := s.modChan 2 f
def ll : List LostLine := (List.range 64).map (fun i => {line := 100 + i, left := [1]})
def w25b (i : Nat) : State := ([ch25 id, ch25 (fun x => {x with cache := [{line := 7, dirty := true}], lost := [{line := 7, left := [1]}]}), ch25 (fun x => {x with cache := [{line := 7, dirty := true}], lost := ll}), ch25 (fun x => {x with trained := true, trainTemp := 20, dueAt := some 100000000}),
  ch25 (fun x => {x with failRun := 1, dueAt := some 499999000}), {ch25 (fun x => {x with dueAt := some 100000000}) with modes := {up.modes with memtrain := true}}, {ch25 id with modes := {up.modes with memtrain := true}}] : List State).getD i up
def P25 : Nat := 5
def S5 : Nat := scrubSector 2 P25
def sc (f : State → State) : State := (f (up.store mHost (32*S5) (natLe 32 (3^120)))).modChan 2 (fun x => {x with scrubPos := P25})
def sramS (bits : Nat) (seen : Bool) : State := {up with mem.sram := if bits = 0 then [] else [(tileAddr 5 0x100, {bits := bits, seen := seen, mask := 1#72})]}
def cw25 : State := (ch25 (fun x => {x with cache := [{line := 7, dirty := true, way := 3}]}) up)
def cwE : State := {cw25 with mem.sram := [(chkWord 2 7 3 1, {bits := 2, mask := 3#72})]}
def w25c (i : Nat) : State := ([sc id, cwE, (sc id).modChan 2 (fun x => {x with scrubAt := 500000000}), sc (fun s => s.hitSec S5 (BitVec.ofNat 272 (symMask 5 3))), sc (fun s => s.hitSec S5 (BitVec.ofNat 272 (symMask 3 1 ^^^ symMask 50 9))), sramS 1 false, sramS 2 false, sramS 2 true, (up.wr F.MEM_INJ_VALUE 5 2).wr F.MEM_INJ_POS 67 2] : List State).getD i up
def v1 : List Byte := [185#8, 155#8, 255#8, 112#8, 179#8, 26#8, 3#8, 175#8, 153#8, 204#8, 71#8, 142#8, 203#8, 128#8, 64#8, 145#8, 86#8, 9#8, 190#8, 116#8, 156#8, 149#8, 146#8, 240#8, 176#8, 246#8, 1#8, 0#8, 0#8, 0#8, 0#8, 0#8]
def v2 : List Byte := ([97#8, 68#8, 238#8, 176#8, 235#8, 252#8, 240#8, 96#8, 176#8, 91#8, 142#8, 219#8, 66#8, 30#8, 177#8, 137#8, 199#8, 21#8, 191#8, 153#8, 182#8, 169#8, 73#8, 73#8] ++ List.replicate 8 0#8)

theorem wit_DeviceMemoryAccesses :
    (0 < (7#13).toNat ∧ (74560#34).toNat % 32 + (7#13).toNat ≤ 32 ∧ (74560#34).toNat + (7#13).toNat ≤ gddrEnd ∧ edcOf [] 0 = 0 ∧ (w25 0).secDiff ((74560#34).toNat / 32) = 0 ∧ (w25 0).secLost (mapAddress (32 * ((74560#34).toNat / 32))) = false) ∧
    ((w25 0).cacheClean) ∧
    ((74560#34).toNat % 32 = 0 ∧ v1.length = 32 ∧ (74560#34).toNat + 32 ≤ gddrEnd ∧ (w25 0).rd F.MEM_INJ_ARM (mapAddress (32 * ((74560#34).toNat / 32))).ch = 0) ∧
    (edcOf [3#2] 0 = 3 ∧ v1 ≠ [] ∧ (74560#34).toNat % 32 + v1.length ≤ 32 ∧ (74560#34).toNat + v1.length ≤ gddrEnd) ∧
    ([1#8, 2#8, 3#8] ≠ [] ∧ (74560#34).toNat % 32 + [1#8, 2#8, 3#8].length < 32 ∧ (74560#34).toNat + [1#8, 2#8, 3#8].length ≤ gddrEnd) ∧
    ((w25 1).secLost (mapAddress (32 * ((74560#34).toNat / 32))) = true) ∧
    ((w25 1).cacheClean) :=
  ⟨by decide +kernel, cacheClean_of (by decide +kernel), by decide +kernel, by decide +kernel, by decide +kernel, by decide +kernel, cacheClean_of (by decide +kernel)⟩

theorem wit_OneSymbolErrorsAreCorrected :
    (0 < 64 ∧ 0 < 15 ∧ 15 < 16 ∧ (74560#34).toNat % 32 = 0 ∧ (74560#34).toNat + 32 ≤ gddrEnd ∧ (w25a 0).secDiff ((74560#34).toNat / 32) = 0 ∧ (w25a 0).secLost (mapAddress (32 * ((74560#34).toNat / 32))) = false ∧ (74560#34).toNat / 32 ∉ ((w25a 0).chan (mapAddress (32 * ((74560#34).toNat / 32))).ch).corr) ∧
    ((w25a 0).cacheClean) ∧
    (((w25a 1).chan (0#3).toNat).corr = [2330] ∧ (w25a 1).decodeSec 2330 = (Ecc.data 2097184, v2) ∧ v2.length = 32) ∧
    ((w25a 1).cacheClean) ∧
    (((w25a 2).chan (0#3).toNat).corr = [2330] ∧ (w25a 2).decodeSec 2330 = (Ecc.clean, v2)) ∧
    ((w25a 2).cacheClean) :=
  ⟨by decide +kernel, cacheClean_of (by decide +kernel), by decide +kernel, cacheClean_of (by decide +kernel), by decide +kernel, cacheClean_of (by decide +kernel)⟩

theorem wit_ChannelUpkeep :
    ((List.filter (fun x => x.dirty) ((w25b 0).chan (2#3).toNat).cache).getLast? = none) ∧
    ((w25b 0).cacheClean) ∧
    ((w25b 0).modes.memtrain = false ∧ (w25b 0).dev.step = 12) ∧
    ((List.filter (fun x => x.dirty) ((w25b 1).chan (2#3).toNat).cache).getLast? = some { line := 7, dirty := true : CheckLine }) ∧
    ((w25b 1).cacheClean) ∧
    ((List.filter (fun e => e.line != { line := 7, dirty := true : CheckLine }.line) ((w25b 1).chan (2#3).toNat).lost).length < 64) ∧
    ((List.filter (fun x => x.dirty) ((w25b 2).chan (2#3).toNat).cache).getLast? = some { line := 7, dirty := true : CheckLine } ∧ 64 ≤ (List.filter (fun e => e.line != { line := 7, dirty := true : CheckLine }.line) ((w25b 2).chan (2#3).toNat).lost).length) ∧
    ((w25b 2).cacheClean) ∧
    ((w25b 3).mayTrain (2#3).toNat = true ∧ (w25b 3).chk.reqs = []) ∧
    ((w25b 3).cacheClean) ∧
    (((w25b 3).chan (2#3).toNat).failRun = 0) ∧
    ((w25b 4).mayTrain (2#3).toNat = true ∧ (w25b 4).chk.reqs = [] ∧ ((w25b 4).chan (2#3).toNat).failRun ≠ 0) ∧
    ((w25b 4).cacheClean) ∧
    (((w25b 5).chan (2#3).toNat).dueAt = some 100000000 ∧ (w25b 5).modes.memtrain = true ∧ 100000000 + ms 1000 ≤ (w25b 5).tick ∧ (w25b 5).rd F.MEM_TRAIN_GRANT (2#3).toNat = 0 ∧ ((w25b 5).chan (2#3).toNat).overdue = false) ∧
    ((w25b 5).cacheClean) :=
  ⟨by decide +kernel, cacheClean_of (by decide +kernel), by decide +kernel, by decide +kernel, cacheClean_of (by decide +kernel), by decide +kernel, by decide +kernel, cacheClean_of (by decide +kernel), by decide +kernel, cacheClean_of (by decide +kernel), by decide +kernel, by decide +kernel, cacheClean_of (by decide +kernel), by decide +kernel, cacheClean_of (by decide +kernel)⟩

theorem wit_ScrubsAndInjection :
    (((w25c 0).chan (2#3).toNat).scrubAt + (w25c 0).scrubStep (2#3).toNat ≤ (w25c 0).tick ∧ (w25c 0).decodeSec (scrubSector (2#3).toNat ((w25c 0).chan (2#3).toNat).scrubPos) = (Ecc.clean, v2)) ∧
    ((w25c 0).cacheClean) ∧
    (gddrEnd ≤ (17592187355392#48).toNat / 8 * 8 ∧ (w25c 0).oneRegion ((17592187355392#48).toNat / 8 * 8) 8 = true ∧ (FMap.get { : SramErr } (w25c 0).mem.sram ((17592187355392#48).toNat / 8 * 8)).bits = 0) ∧
    ((¬((w25c 0).rd F.MEM_INJ_VALUE (2#3).toNat ≠ 0 ∧ (w25c 0).rd F.MEM_INJ_POS (2#3).toNat ≤ 67 ∧ ((w25c 0).rd F.HIF_ID_SAFETY = 0 ∨ (w25c 0).anyRunning = false)))) ∧
    (((w25c 1).chan (2#3).toNat).cache = [{ line := 7, dirty := true, way := 3 : CheckLine }] ∧ { line := 7, dirty := true, way := 3 : CheckLine }.dirty = true ∧ { line := 7, dirty := true, way := 3 : CheckLine }.way < 8 ∧ 1 < 4 ∧ ((w25c 1).chan (2#3).toNat).lost.length < 64 ∧ (FMap.get { : SramErr } (w25c 1).mem.sram (chkWord (2#3).toNat { line := 7, dirty := true, way := 3 : CheckLine }.line { line := 7, dirty := true, way := 3 : CheckLine }.way 1)).bits = 2 ∧ (FMap.get { : SramErr } (w25c 1).mem.sram (chkWord (2#3).toNat { line := 7, dirty := true, way := 3 : CheckLine }.line { line := 7, dirty := true, way := 3 : CheckLine }.way 1)).seen = false) ∧
    ((¬((w25c 2).chan (2#3).toNat).scrubAt + (w25c 2).scrubStep (2#3).toNat ≤ (w25c 2).tick)) ∧
    (((w25c 3).chan (2#3).toNat).scrubAt + (w25c 3).scrubStep (2#3).toNat ≤ (w25c 3).tick ∧ (w25c 3).decodeSec (scrubSector (2#3).toNat ((w25c 3).chan (2#3).toNat).scrubPos) = (Ecc.data 2097184, v2) ∧ v2.length = 32) ∧
    ((w25c 3).cacheClean) ∧
    (((w25c 4).chan (2#3).toNat).scrubAt + (w25c 4).scrubStep (2#3).toNat ≤ (w25c 4).tick ∧ (w25c 4).decodeSec (scrubSector (2#3).toNat ((w25c 4).chan (2#3).toNat).scrubPos) = (Ecc.bad, [])) ∧
    ((w25c 4).cacheClean) ∧
    ((w25c 5).oneRegion ((17592187355392#48).toNat / 8 * 8) 8 = true ∧ (FMap.get { : SramErr } (w25c 5).mem.sram ((17592187355392#48).toNat / 8 * 8)).bits = 1) ∧
    ((w25c 6).oneRegion ((17592187355392#48).toNat / 8 * 8) 8 = true ∧ 2 ≤ (FMap.get { : SramErr } (w25c 6).mem.sram ((17592187355392#48).toNat / 8 * 8)).bits ∧ (FMap.get { : SramErr } (w25c 6).mem.sram ((17592187355392#48).toNat / 8 * 8)).seen = false) ∧
    ((w25c 7).oneRegion ((17592187355392#48).toNat / 8 * 8) 8 = true ∧ 2 ≤ (FMap.get { : SramErr } (w25c 7).mem.sram ((17592187355392#48).toNat / 8 * 8)).bits ∧ (FMap.get { : SramErr } (w25c 7).mem.sram ((17592187355392#48).toNat / 8 * 8)).seen = true) ∧
    (((w25c 8).rd F.MEM_INJ_VALUE (2#3).toNat ≠ 0 ∧ (w25c 8).rd F.MEM_INJ_POS (2#3).toNat ≤ 67 ∧ ((w25c 8).rd F.HIF_ID_SAFETY = 0 ∨ (w25c 8).anyRunning = false))) :=
  ⟨by decide +kernel, cacheClean_of (by decide +kernel), by decide +kernel, by decide +kernel, by decide +kernel, by decide +kernel, by decide +kernel, cacheClean_of (by decide +kernel), by decide +kernel, cacheClean_of (by decide +kernel), by decide +kernel, by decide +kernel, by decide +kernel, by decide +kernel⟩

end W25

namespace W26
def allOffs : List Nat := regTab.flatMap (fun r => [r.off, r.off + r.stride * (r.n - 1)])
def upL : State := up.setLink 0 4
def w1cs : State := regTab.foldl (fun s r => r.flds.foldl (fun s f => if f.ty = .w1c then s.wr f (2 ^ f.w - 1) 0 else s) s) up
def A26 : Nat := 0x12340
def f26 : State := up.store mHost A26 (natLe 32 (3^120))
def w26 (i : Nat) : State := ([up, f26, f26.wr F.HIF_BAR2_BASE_BASE 0x3F, up] : List State).getD i up
def w26a (i : Nat) : State := ([w1cs] : List State).getD i up
def mv26 : State := up.modBrood 2 (fun x => {x with move := some 3, movePhase := 1, moveTo := 16})
def T26 := tileOf 2 3
def w26b (i : Nat) : State := ([mv26, up, {up with host.d3hot := false, host.msixTab := [], host.busMaster := false, host.pend := 7#64}] : List State).getD i up
def v1 : List Byte := [185#8, 155#8, 255#8, 112#8, 179#8, 26#8, 3#8, 175#8, 153#8, 204#8, 71#8, 142#8, 203#8, 128#8, 64#8, 145#8, 86#8, 9#8, 190#8, 116#8, 156#8, 149#8, 146#8, 240#8, 176#8, 246#8, 1#8, 0#8, 0#8, 0#8, 0#8, 0#8]

theorem wit_HostAccesses :
    ((w26 0).linkedUp = true ∧ 0 < 16777216 ∧ 0 % 4 = 0 ∧ (w26 0).hostHole 0 = false) ∧
    ((w26 0).isHole (7536640#48).toNat = true) ∧
    ((33554432#34).toNat < 2 ^ (w26 0).host.bar2Bits ∧ 12 ≤ (w26 0).dev.step ∧ edcOf [] 0 = 0 ∧ (w26 0).secDiff ((w26 0).bar2Addr (33554432#34).toNat / 32) = 0 ∧ (w26 0).secLost (mapAddress (32 * ((w26 0).bar2Addr (33554432#34).toNat / 32))) = false ∧ 0 < (5#13).toNat ∧ (w26 0).bar2Addr (33554432#34).toNat % 32 + (5#13).toNat ≤ 32 ∧ (w26 0).bar2Addr (33554432#34).toNat + (5#13).toNat ≤ gddrEnd) ∧
    ((w26 0).cacheClean) ∧
    (v1 ≠ [] ∧ (w26 0).bar2Addr (33554432#34).toNat % 32 + v1.length ≤ 32 ∧ (w26 0).bar2Addr (33554432#34).toNat + v1.length ≤ gddrEnd ∧ (w26 0).rd F.MEM_INJ_ARM (mapAddress (32 * ((w26 0).bar2Addr (33554432#34).toNat / 32))).ch = 0) ∧
    (edcOf [3#2] 0 = 3) ∧
    ((17179869168#34).toNat < 2 ^ (w26 0).host.bar2Bits ∧ gddrEnd ≤ (w26 0).bar2Addr (17179869168#34).toNat) ∧
    ((w26 0).bar4Addr (33554432#29).toNat = some 17592219598848 ∧ (w26 0).movingAt 17592219598848 = none ∧ (w26 0).oneRegion 17592219598848 (5#13).toNat = true ∧ (w26 0).sramErrs 17592219598848 (5#13).toNat = []) ∧
    ((w26 0).bar4May 17592219598848 v1.length = true ∧ (w26 0).oneRegion 17592219598848 v1.length = true ∧ (w26 0).sramErrs 17592219598848 v1.length = []) ∧
    ((w26 0).bar4May 17592219598848 ([] : List Byte).length = false) ∧
    ((w26 0).bar4Addr (536870896#29).toNat = none) ∧
    ((33554432#32).toNat % 4 ≠ 3) ∧
    ((w26 1).linkedUp = true ∧ (7#32).toNat % 4 = 3) ∧
    ((w26a 0).linkedUp = true ∧ (w26a 0).hostHole 0 = false) ∧
    (7077896 < 16777216 ∧ 7077896 % 4 = 0 ∧ (w26a 0).hostHole 7077896 = false ∧ hostMay 7077896 = false) ∧
    ((0#34).toNat < 2 ^ (w26a 0).host.bar2Bits ∧ 12 ≤ (w26a 0).dev.step ∧ (w26a 0).secDiff ((w26a 0).bar2Addr (0#34).toNat / 32) = 0 ∧ (w26a 0).secLost (mapAddress (32 * ((w26a 0).bar2Addr (0#34).toNat / 32))) = false ∧ (w26a 0).bar2Addr (0#34).toNat % 32 + (5#13).toNat ≤ 32 ∧ (w26a 0).bar2Addr (0#34).toNat + (5#13).toNat ≤ gddrEnd) ∧
    ((w26a 0).cacheClean) ∧
    ((w26a 0).bar2Addr (0#34).toNat % 32 + v1.length ≤ 32 ∧ (w26a 0).bar2Addr (0#34).toNat + v1.length ≤ gddrEnd ∧ (w26a 0).rd F.MEM_INJ_ARM (mapAddress (32 * ((w26a 0).bar2Addr (0#34).toNat / 32))).ch = 0) ∧
    ((w26a 0).bar4Addr (0#29).toNat = some 17592186044416 ∧ (w26a 0).movingAt 17592186044416 = none ∧ 0 < (8191#13).toNat ∧ (w26a 0).oneRegion 17592186044416 (8191#13).toNat = true ∧ (w26a 0).sramErrs 17592186044416 (8191#13).toNat = []) ∧
    ((w26a 0).bar4May 17592186044416 v1.length = true ∧ (w26a 0).oneRegion 17592186044416 v1.length = true ∧ (w26a 0).sramErrs 17592186044416 v1.length = []) ∧
    ((w26a 0).bar4May 17592186044416 ([] : List Byte).length = false) ∧
    ((w26a 0).bar4Addr (536870911#29).toNat = none) ∧
    ((0#32).toNat % 4 ≠ 3) ∧
    ((4294967295#32).toNat % 4 = 3) ∧
    ((w26b 0).linkedUp = true ∧ 4721408 < 16777216 ∧ 4721408 % 4 = 0 ∧ (w26b 0).arrMoving 4721408 = some 11 ∧ (w26b 0).hostHole 4721408 = false) ∧
    (4197120 < 16777216 ∧ 4197120 % 4 = 0 ∧ (w26b 0).hostHole 4197120 = false ∧ (w26b 0).arrMoving 4197120 = none ∧ hostMay 4197120 = true ∧ regAt 4197120 = none ∧ 2883592#32 ≠ 0#32) ∧
    ((2883592#34).toNat < 2 ^ (w26b 0).host.bar2Bits ∧ 12 ≤ (w26b 0).dev.step ∧ (w26b 0).secDiff ((w26b 0).bar2Addr (2883592#34).toNat / 32) = 0 ∧ (w26b 0).secLost (mapAddress (32 * ((w26b 0).bar2Addr (2883592#34).toNat / 32))) = false ∧ 0 < (8#13).toNat ∧ (w26b 0).bar2Addr (2883592#34).toNat % 32 + (8#13).toNat ≤ 32 ∧ (w26b 0).bar2Addr (2883592#34).toNat + (8#13).toNat ≤ gddrEnd) ∧
    ((w26b 0).cacheClean) ∧
    ([1#8, 2#8, 3#8] ≠ [] ∧ (w26b 0).bar2Addr (2883592#34).toNat % 32 + [1#8, 2#8, 3#8].length ≤ 32 ∧ (w26b 0).bar2Addr (2883592#34).toNat + [1#8, 2#8, 3#8].length ≤ gddrEnd ∧ (w26b 0).rd F.MEM_INJ_ARM (mapAddress (32 * ((w26b 0).bar2Addr (2883592#34).toNat / 32))).ch = 0) ∧
    ((w26b 0).bar4Addr (2883592#29).toNat = some 17592188928008 ∧ (w26b 0).movingAt 17592188928008 = some 11) ∧
    ((w26b 0).bar4May 17592188928008 ([] : List Byte).length = true) ∧
    ((w26b 0).bar4Addr (268435456#29).toNat = some 18691697672192 ∧ (w26b 0).movingAt 18691697672192 = none ∧ (w26b 0).oneRegion 18691697672192 (8#13).toNat = true ∧ (w26b 0).sramErrs 18691697672192 (8#13).toNat = []) ∧
    ((w26b 0).bar4May 18691697672192 v1.length = true ∧ (w26b 0).oneRegion 18691697672192 v1.length = true ∧ (w26b 0).sramErrs 18691697672192 v1.length = []) ∧
    ((w26b 0).bar4May 18691697672192 ([] : List Byte).length = false) ∧
    ((2883592#32).toNat % 4 ≠ 3) ∧
    ((w26b 2).linkedUp = true ∧ (w26b 2).bar4Addr (536870911#29).toNat = none) :=
  ⟨by decide +kernel, by decide +kernel, by decide +kernel, cacheClean_of (by decide +kernel), by decide +kernel, by decide +kernel, by decide +kernel, by decide +kernel, by decide +kernel, by decide +kernel, by decide +kernel, by decide +kernel, by decide +kernel, by decide +kernel, by decide +kernel, by decide +kernel, cacheClean_of (by decide +kernel), by decide +kernel, by decide +kernel, by decide +kernel, by decide +kernel, by decide +kernel, by decide +kernel, by decide +kernel, by decide +kernel, by decide +kernel, by decide +kernel, cacheClean_of (by decide +kernel), by decide +kernel, by decide +kernel, by decide +kernel, by decide +kernel, by decide +kernel, by decide +kernel, by decide +kernel, by decide +kernel⟩

theorem wit_HostAccessesRegisters :
    ((w26a 0).linkedUp = true ∧ (w26a 0).dev.step = 12) ∧
    ((w26a 0).hostHole 6291460 = false ∧ hostMay 6291460 = true ∧ (w26a 0).arrMoving 6291460 = none ∧
      (match regAt 6291460 with
       | some (r, _) => decide (r.used < 2 ^ 32) && r.flds.all (fun f => decide (f.ty = .rw ∨ f.ty = .w1c))
       | none => false) = true) ∧
    ((w26a 0).hostHole 4 = false ∧ hostMay 4 = true ∧ (w26a 0).arrMoving 4 = none ∧
      (match regAt 4 with
       | some (r, i) => r.flds.all (fun f => decide (f.ty = .ro ∨ f.ty = .ros)) && !(w26a 0).writeBad r i 0 && (w26a 0).writeBad r i 1
       | none => false) = true) :=
  ⟨by decide +kernel, by decide +kernel, by decide +kernel⟩

end W26

namespace W27
def att : State := ((((((up.wr F.HIF_STATE_HOST 2).wr F.HIF_RING_CFG_ESIZE 4 0).wr F.HIF_RING_CFG_LOG2N 4 0).wr F.HIF_RING_BASE_BASE 16 0).wr F.HIF_RING_CFG_ESIZE 4 1).wr F.HIF_RING_CFG_LOG2N 4 1).wr F.HIF_RING_BASE_BASE 32 1
def cmdBytes (op flags tag a b : Nat) (seed : Nat := 0) : List Byte := natLe 1 op ++ natLe 1 flags ++ natLe 2 tag ++ natLe 4 a ++ natLe 8 b ++ natLe 8 seed ++ zeros 40
def pc (s : State) (op tag a b : Nat) (seed : Nat := 0) (flags : Nat := 0) : State := (s.store mHost 0x10000 (cmdBytes op flags tag a b seed)).wr F.HIF_RING_PROD_PROD 1 0
def cm (s : State) : Cmd := match s.busRead (mDsp 0) (s.ringSlot 0 0) 64 with | (.ok, l, _) => cmdAt l | _ => {}
def aft (s : State) : List State := match s.busRead (mDsp 0) (s.ringSlot 0 0) 64 with | (.ok, _, r) => [r] | _ => []
def modl2 : Model := { slot := 11, stages := [{ stg 3 with outBytes := 64 }, stg 4] }
def sA : State := let s := sch att; { s with sched := { s.sched with models := [mdl, modl2] } }
def sH : State := let s := sch att; { s with sched := { s.sched with pipes := [{ pip with hostSched := true }] } }
def bnd (s : State) : State := { s with sched := { s.sched with pipes := s.sched.pipes.map (fun p => {p with boundaryAt := 499999999})}}
def pend (s : State) : State := { s with sched.switches := [(3, 11, none), (4, 11, none)] }
def wt (s : State) (op a : Nat) : State := { s with host.waiting := [{cmd := {op := op, tag := 55, a := BitVec.ofNat 32 a}, since := 4}] }
def stillP (s : State) : State := { s with sched.pipes := [{pip with running := false}] }
def pieceS : State := { sA with sched.pieces := [{slot := 0, addr := tileAddr 5 0x100, data := natLe 16 (3^30)}, {slot := 0, addr := tileAddr 6 0x100, data := natLe 16 (3^30)}] }
def l27 : List State := [pc sH 1 77 (3 + 256) 7, pc sH 1 77 (3 + 256) 8, pc sH 1 77 (9 + 256) 7, pc att 2 77 1024 0x200000, pc att 2 77 0 0, pc sA 5 77 0x101 0, pc sA 5 77 0x102 0, pc sA 5 77 0x101 0 1,
  pc sA 6 77 0x100 0, pc sA 6 77 0x3 0, pc sA 6 77 0x6 0, pc sA 3 77 11 0, pc sA 3 77 0 0, pc sA 3 77 5 0, pc sA 4 77 (3 + 256 * 11) 0, pc sA 4 77 (3 + 256 * 12) 0, pieceS, pend (stillP sA), pend sA, {(stillP sA) with sched.switches := [(3, 12, none)]},
  wt (stillP sA) 5 0x101, wt (stillP sA) 5 1] ++ (List.range 6).flatMap (fun i => [wt (stillP (wst' i)) 6 (i + 256 * (if i = 1 then 3 else 1) + 65536), wt (stillP (wst' i)) 6 (i + 256 * (if i = 1 then 3 else 1))])
where wst' (_ : Nat) : State := sA.setStrm 3 {desc := {en := true, nslot := 3, warp := 1}, state := 2}
def w27 (i : Nat) : State := (l27 : List State).getD i up
def v1 : Cmd := { op := 1, tag := 77, a := 0x00000103#32, b := 0x0000000000000007#64, refs := [0x0000000000000000#64, 0x0000000000000000#64, 0x0000000000000000#64, 0x0000000000000000#64] }
def v2 : Stage := { num := 3, entry := 64, broods := [{ tmask := 0x0003#16 }], winMin := 10, winMax := 1000000, budget := 100, outBytes := 128, plan := [{ obj := 20 }, { obj := 21, barrier := true }] }
def v3 : Pipeline := { desc := { num := 1, nslot := 2, cam := 0x00000005#32, gather := 100, period := 1000, stages := [3, 4] }, running := true, hostSched := true, frameNum := 7, boundaryAt := 5, free := [0, 1] }
def v4 : Cmd := { op := 1, tag := 77, a := 0x00000109#32, b := 0x0000000000000007#64, refs := [0x0000000000000000#64, 0x0000000000000000#64, 0x0000000000000000#64, 0x0000000000000000#64] }
def v5 : Cmd := { op := 2, tag := 77, a := 0x00000400#32, b := 0x0000000000200000#64, refs := [0x0000000000000000#64, 0x0000000000000000#64, 0x0000000000000000#64, 0x0000000000000000#64] }
def v6 : Cmd := { op := 2, tag := 77, refs := [0x0000000000000000#64, 0x0000000000000000#64, 0x0000000000000000#64, 0x0000000000000000#64] }
def v7 : Cmd := { op := 5, tag := 77, a := 0x00000101#32, refs := [0x0000000000000000#64, 0x0000000000000000#64, 0x0000000000000000#64, 0x0000000000000000#64] }
def v8 : Cmd := { op := 5, tag := 77, a := 0x00000102#32, refs := [0x0000000000000000#64, 0x0000000000000000#64, 0x0000000000000000#64, 0x0000000000000000#64] }
def v9 : Cmd := { op := 6, tag := 77, a := 0x00000100#32, refs := [0x0000000000000000#64, 0x0000000000000000#64, 0x0000000000000000#64, 0x0000000000000000#64] }
def v10 : Cmd := { op := 6, tag := 77, a := 0x00000006#32, refs := [0x0000000000000000#64, 0x0000000000000000#64, 0x0000000000000000#64, 0x0000000000000000#64] }
def v11 : Cmd := { op := 3, tag := 77, a := 0x0000000b#32, refs := [0x0000000000000000#64, 0x0000000000000000#64, 0x0000000000000000#64, 0x0000000000000000#64] }
def v12 : Cmd := { op := 3, tag := 77, refs := [0x0000000000000000#64, 0x0000000000000000#64, 0x0000000000000000#64, 0x0000000000000000#64] }
def v13 : Cmd := { op := 3, tag := 77, a := 0x00000005#32, refs := [0x0000000000000000#64, 0x0000000000000000#64, 0x0000000000000000#64, 0x0000000000000000#64] }
def v14 : Cmd := { op := 4, tag := 77, a := 0x00000b03#32, refs := [0x0000000000000000#64, 0x0000000000000000#64, 0x0000000000000000#64, 0x0000000000000000#64] }
def v15 : Cmd := { op := 4, tag := 77, a := 0x00000c03#32, refs := [0x0000000000000000#64, 0x0000000000000000#64, 0x0000000000000000#64, 0x0000000000000000#64] }
def v16 : SectionPiece := { addr := 17592187355392, data := ([185#8, 120#8, 202#8, 195#8, 65#8, 187#8] ++ List.replicate 10 0#8) }
def v17 : List SectionPiece := [{ addr := 17592187617536, data := ([185#8, 120#8, 202#8, 195#8, 65#8, 187#8] ++ List.replicate 10 0#8) }]
def v18 : Stage := { num := 3, entry := 64, broods := [{ tmask := 0x0003#16 }], winMin := 10, winMax := 1000000, budget := 100, outBytes := 64, plan := [{ obj := 20 }, { obj := 21, barrier := true }] }
def v19 : Waiting := { cmd := { op := 5, tag := 55, a := 0x00000101#32 }, since := 4 }
def v20 : Pipeline := { desc := { num := 1, nslot := 2, cam := 0x00000005#32, gather := 100, period := 1000, stages := [3, 4] }, frameNum := 7, boundaryAt := 5, free := [0, 1] }
def v21 : Waiting := { cmd := { op := 6, tag := 55, a := 0x00010100#32 }, since := 4 }

theorem wit_ModelAndModeCommands :
    ((∀ w ∈ (w27 0).host.waiting, w.stage ≠ 2) ∧ v1.op = 1 ∧ (w27 0).submitTo v1 = some (v2, v3) ∧ (w27 0).hostJobs < 448 ∧ v3.free ≠ [] ∧ (w27 0).binding? v2.num = some { stage := 3, base := 1048576, scratch := 2097152 : Binding } ∧ { stage := 3, base := 1048576, scratch := 2097152 : Binding }.failed = false ∧ (w27 0).unitsHosted v2 = true ∧ v3.desc.multi = false) ∧
    ((w27 0).takes v1) ∧
    ((w27 0).answers) ∧
    ((∀ w ∈ (w27 2).host.waiting, w.stage ≠ 2) ∧ v4.op = 1 ∧ (w27 2).submitTo v4 = none) ∧
    ((w27 2).takes v4) ∧
    ((w27 2).answers) ∧
    ((∀ w ∈ (w27 3).host.waiting, w.stage ≠ 2) ∧ v5.op = 2 ∧ (v5.plain = true ∧ (Decidable.decide (0 < v5.arg) && Decidable.decide (v5.addr + v5.arg ≤ gddrEnd)) = true)) ∧
    ((w27 3).takes v5) ∧
    ((w27 3).answers) ∧
    ((∀ w ∈ (w27 4).host.waiting, w.stage ≠ 2) ∧ v6.op = 2 ∧ (v6.plain = false ∨ (Decidable.decide (0 < v6.arg) && Decidable.decide (v6.addr + v6.arg ≤ gddrEnd)) = false)) ∧
    ((w27 4).takes v6) ∧
    ((w27 4).answers) ∧
    ((∀ w ∈ (w27 5).host.waiting, w.stage ≠ 2) ∧ v7.op = 5 ∧ (v7.plain = true ∧ (v7.a &&& ~~~319#32 == 0#32 && v7.addr == 0 && ((w27 5).pipe? (v7.arg % 64)).isSome) = true)) ∧
    ((w27 5).takes v7) ∧
    ((w27 5).answers) ∧
    ((∀ w ∈ (w27 6).host.waiting, w.stage ≠ 2) ∧ v8.op = 5 ∧ (v8.plain = false ∨ (v8.a &&& ~~~319#32 == 0#32 && v8.addr == 0 && ((w27 6).pipe? (v8.arg % 64)).isSome) = false)) ∧
    ((w27 6).takes v8) ∧
    ((w27 6).answers) ∧
    ((∀ w ∈ (w27 8).host.waiting, w.stage ≠ 2) ∧ v9.op = 6 ∧ (v9.plain = true ∧ (w27 8).modeOk v9 = true)) ∧
    ((w27 8).takes v9) ∧
    ((w27 8).answers) ∧
    ((∀ w ∈ (w27 10).host.waiting, w.stage ≠ 2) ∧ v10.op = 6 ∧ (v10.plain = false ∨ (w27 10).modeOk v10 = false)) ∧
    ((w27 10).takes v10) ∧
    ((w27 10).answers) ∧
    ((∀ w ∈ (w27 11).host.waiting, w.stage ≠ 2) ∧ v11.op = 3 ∧ v11.plain = true ∧ v11.addr = 0 ∧ v11.arg < 64 ∧ (w27 11).modelIn v11.arg ≠ none ∧ (w27 11).slotBound v11.arg = false) ∧
    ((w27 11).takes v11) ∧
    ((w27 11).answers) ∧
    ((∀ w ∈ (w27 12).host.waiting, w.stage ≠ 2) ∧ v12.op = 3 ∧ v12.plain = true ∧ v12.addr = 0 ∧ v12.arg < 64 ∧ (w27 12).modelIn v12.arg ≠ none ∧ (w27 12).slotBound v12.arg = true) ∧
    ((w27 12).takes v12) ∧
    ((w27 12).answers) ∧
    ((∀ w ∈ (w27 13).host.waiting, w.stage ≠ 2) ∧ v13.op = 3 ∧ v13.plain = true ∧ v13.addr = 0 ∧ v13.arg < 64 ∧ (w27 13).modelIn v13.arg = none) ∧
    ((w27 13).takes v13) ∧
    ((w27 13).answers) ∧
    ((∀ w ∈ (w27 14).host.waiting, w.stage ≠ 2) ∧ v14.op = 4 ∧ v14.plain = true ∧ v14.addr = 0 ∧ v14.arg < 2 ^ 14 ∧ (w27 14).switchBad (v14.arg % 256) (v14.arg / 256 % 64) = false) ∧
    ((w27 14).takes v14) ∧
    ((w27 14).answers) ∧
    ((∀ w ∈ (w27 15).host.waiting, w.stage ≠ 2) ∧ v15.op = 4 ∧ v15.plain = true ∧ v15.addr = 0 ∧ v15.arg < 2 ^ 14 ∧ (w27 15).switchBad (v15.arg % 256) (v15.arg / 256 % 64) = true) ∧
    ((w27 15).takes v15) ∧
    ((w27 15).answers) ∧
    ((w27 16).sched.pieces = v16 :: v17 ∧ (w27 16).pieceFits v16 = true ∧ (w27 16).hosted (pieceTile v16.addr) = true ∧ gddrEnd ≤ v16.addr ∧ (w27 16).oneRegion v16.addr v16.data.length = true ∧ (w27 16).sramErrs v16.addr v16.data.length = []) ∧
    ((w27 16).answers) ∧
    ((w27 17).sched.switches = [(3, 11, none), (4, 11, none)] ∧ (∀ (p : Pipeline), (w27 17).pipeOfStage 3 = some p → p.boundary = true) ∧ (w27 17).switchBad 3 11 = false ∧ (w27 17).modelIn 11 = some modl2 ∧ modl2.stage? 3 = some v18 ∧ (w27 17).stage? 3 = some v2 ∧ (w27 17).binding? 3 = some { stage := 3, base := 1048576, scratch := 2097152 : Binding } ∧ ((w27 17).pipeOfStage 3).isSome = true ∧ v18.outBytes ≤ v2.outBytes) ∧
    ((w27 17).answers) ∧
    ((w27 19).sched.switches = [(3, 12, none)] ∧ (∀ (p : Pipeline), (w27 19).pipeOfStage 3 = some p → p.boundary = true) ∧ (w27 19).switchBad 3 12 = true) ∧
    ((w27 19).answers) ∧
    ((w27 20).host.waiting = [v19] ∧ readyNops [] = [] ∧ v19.cmd.tag < 2 ^ 16 ∧ (w27 20).running = true ∧ v19.cmd.op = 5 ∧ (w27 20).pipe? (v19.cmd.arg % 64) = some v20 ∧ v20.boundary = true ∧ (w27 20).chk.bistAt = none) ∧
    ((w27 20).answers) ∧
    ((w27 22).host.waiting = [v21] ∧ v21.cmd.tag < 2 ^ 16 ∧ (w27 22).running = true ∧ v21.cmd.op = 6 ∧ (w27 22).modeDue v21.cmd = true) ∧
    ((w27 22).answers) :=
  ⟨by decide +kernel, takes_of (by decide +kernel), answers_of (by decide +kernel), by decide +kernel, takes_of (by decide +kernel), answers_of (by decide +kernel), by decide +kernel, takes_of (by decide +kernel), answers_of (by decide +kernel), by decide +kernel, takes_of (by decide +kernel), answers_of (by decide +kernel), by decide +kernel, takes_of (by decide +kernel), answers_of (by decide +kernel), by decide +kernel, takes_of (by decide +kernel), answers_of (by decide +kernel), by decide +kernel, takes_of (by decide +kernel), answers_of (by decide +kernel), by decide +kernel, takes_of (by decide +kernel), answers_of (by decide +kernel), by decide +kernel, takes_of (by decide +kernel), answers_of (by decide +kernel), by decide +kernel, takes_of (by decide +kernel), answers_of (by decide +kernel), by decide +kernel, takes_of (by decide +kernel), answers_of (by decide +kernel), by decide +kernel, takes_of (by decide +kernel), answers_of (by decide +kernel), by decide +kernel, takes_of (by decide +kernel), answers_of (by decide +kernel), by decide +kernel, answers_of (by decide +kernel), by decide +kernel, answers_of (by decide +kernel), by decide +kernel, answers_of (by decide +kernel), by decide +kernel, answers_of (by decide +kernel), by decide +kernel, answers_of (by decide +kernel)⟩

/-- A state whose next command has the tag of one that waits. -/
def tagged : State := { w27 0 with host.waiting := [{ cmd := { tag := (cmdAt ((w27 0).busRead (mDsp 0) ((w27 0).ringSlot 0 ((w27 0).rd F.HIF_RING_CONS_CONS 0)) 64).2.1).tag } }] }

theorem wit_TagsInFlightAreDropped :
    (tagged.cmdReady = true ∧ (tagged.busRead (mDsp 0) (tagged.ringSlot 0 (tagged.rd F.HIF_RING_CONS_CONS 0)) 64).1 = .ok ∧
      (∃ w ∈ tagged.host.waiting, w.cmd.tag = (cmdAt (tagged.busRead (mDsp 0) (tagged.ringSlot 0 (tagged.rd F.HIF_RING_CONS_CONS 0)) 64).2.1).tag) ∧
      (cmdAt (tagged.busRead (mDsp 0) (tagged.ringSlot 0 (tagged.rd F.HIF_RING_CONS_CONS 0)) 64).2.1).op = 1) := by decide +kernel

end W27

namespace W28
def att : State := ((((((up.wr F.HIF_STATE_HOST 2).wr F.HIF_RING_CFG_ESIZE 4 0).wr F.HIF_RING_CFG_LOG2N 4 0).wr F.HIF_RING_BASE_BASE 16 0).wr F.HIF_RING_CFG_ESIZE 4 1).wr F.HIF_RING_CFG_LOG2N 4 1).wr F.HIF_RING_BASE_BASE 32 1
def cmdBytes (op flags tag a b : Nat) (seed : Nat := 0) : List Byte := natLe 1 op ++ natLe 1 flags ++ natLe 2 tag ++ natLe 4 a ++ natLe 8 b ++ natLe 8 seed ++ zeros 40
def pc (s : State) (op tag a b : Nat) (seed : Nat := 0) (flags : Nat := 0) : State := (s.store mHost 0x10000 (cmdBytes op flags tag a b seed)).wr F.HIF_RING_PROD_PROD 1 0
def cm (s : State) : Cmd := match s.busRead (mDsp 0) (s.ringSlot 0 0) 64 with | (.ok, l, _) => cmdAt l | _ => {}
def aft (s : State) : List State := match s.busRead (mDsp 0) (s.ringSlot 0 0) 64 with | (.ok, _, r) => [r] | _ => []
def evA : Event := {line := 160, code := 0x7020, units := [0], tick := 499999000}
def dec (s : State) (code t : Nat) : State := { s with host.decides := [{seq := 9, ev := {evA with code := code, tick := t}}] }
def codes (r : Nat) : List Nat := ((List.range 0xD000).filter (fun c => att.reactionOf c == r && c != 0)).take 1
def recS : State := { att with sched.pipes := [{pip with hostRec := true, running := false}], coc.powered := true }
def wt8 (s : State) (a : Nat) : State := { s with host.waiting := [{cmd := {op := 10, tag := 55, a := BitVec.ofNat 32 a}, since := 4}] }
def savd : State := match execSaveCmd (pc att 8 77 4096 0x40000) with | .next u => u | _ => att
def ctx1 : State := let m := (bytesAt (savd.peekN 0x40000 188) 0 128); let body := bytesAt (savd.peekN 0x40000 188) 128 (60); let one := body.take 28; att.store mHost 0x40000 (m.take 16 ++ natLe 8 156 ++ (m.drop 24).take 56 ++ natLe 4 1 ++ (m.drop 84) ++ one)
def l28 : List State := [pc (dec att 0x7020 5) 7 77 0 9, pc (dec att 0x7020 5) 7 77 1 9, pc (dec att 0x7020 5) 7 77 1 10, pc (dec att 0x7020 5) 7 77 0 10, dec att 0x1301 5] ++ [dec att ((codes 0).getD 0 0) 5, dec att ((codes 1).getD 0 0) 5] ++
 [pc (sch att) 8 77 4096 0x40000, pc att 8 77 4096 0x40000, pc att 8 77 187 0x40000, pc (sch att) 9 77 4096 0x40000, pc att 9 77 187 0x40000, pc savd 9 77 188 0x40000, pc ctx1 9 77 156 0x40000,
 pc att 10 77 (1 + 65536*3) 0, pc att 10 77 (2 + 65536*3) 0,pc att 10 77 (3 + 65536*0) 0, pc att 10 77 (3 + 256*5 + 65536*0) 0, pc att 10 77 4 0, pc (sch att) 10 77 4 0, pc {att with modes := {att.modes with selftest := true}} 10 77 (5+65536*200) 0, pc {att with modes := {att.modes with selftest := true}, chk.windowEnd := some 3} 10 77 (5+65536*200) 0,
 pc {att with chk.reqs := [{sel := 1, unit := 3, tag := 3}, {sel := 2, unit := 3, tag := 4}, {sel := 3, unit := 0, tag := 5}]} 10 77 (1 + 65536*3) 0, pc {att with chk.reqs := [{sel := 1, unit := 3, tag := 3}, {sel := 2, unit := 3, tag := 4}, {sel := 3, unit := 0, tag := 5}]} 10 77 (2 + 65536*3) 0, pc {att with chk.reqs := [{sel := 1, unit := 3, tag := 3}, {sel := 2, unit := 3, tag := 4}, {sel := 3, unit := 0, tag := 5}]} 10 77 (3) 0,
 pc att 10 77 6 0, pc att 10 77 0 0, pc recS 11 77 (5 + 65536 + 2^24) 0x40000, pc {recS with coc.powered := false} 11 77 (5 + 65536 + 2^24) 0x40000, pc att 12 77 0 0, pc att 13 77 0 0, pc att 0 77 1 0, {wt8 att 5 with chk.windowEnd := some 499999999}, {wt8 att 4 with chk.bistAt := some 4}]
def w28 (i : Nat) : State := (l28 : List State).getD i up
def v1 : Cmd := { op := 7, tag := 77, b := 0x0000000000000009#64, refs := [0x0000000000000000#64, 0x0000000000000000#64, 0x0000000000000000#64, 0x0000000000000000#64] }
def v2 : Decide := { seq := 9, ev := { line := 160, code := 28704, units := [0], tick := 5, acc := 5 } }
def v3 : Cmd := { op := 7, tag := 77, a := 0x00000001#32, b := 0x0000000000000009#64, refs := [0x0000000000000000#64, 0x0000000000000000#64, 0x0000000000000000#64, 0x0000000000000000#64] }
def v4 : Cmd := { op := 7, tag := 77, a := 0x00000001#32, b := 0x000000000000000a#64, refs := [0x0000000000000000#64, 0x0000000000000000#64, 0x0000000000000000#64, 0x0000000000000000#64] }
def v5 : Cmd := { op := 8, tag := 77, a := 0x00001000#32, b := 0x0000000000040000#64, refs := [0x0000000000000000#64, 0x0000000000000000#64, 0x0000000000000000#64, 0x0000000000000000#64] }
def v6 : Cmd := { op := 8, tag := 77, a := 0x000000bb#32, b := 0x0000000000040000#64, refs := [0x0000000000000000#64, 0x0000000000000000#64, 0x0000000000000000#64, 0x0000000000000000#64] }
def v7 : Cmd := { op := 9, tag := 77, a := 0x00001000#32, b := 0x0000000000040000#64, refs := [0x0000000000000000#64, 0x0000000000000000#64, 0x0000000000000000#64, 0x0000000000000000#64] }
def v8 : Cmd := { op := 9, tag := 77, a := 0x000000bb#32, b := 0x0000000000040000#64, refs := [0x0000000000000000#64, 0x0000000000000000#64, 0x0000000000000000#64, 0x0000000000000000#64] }
def v9 : List Byte := (List.replicate 187 0#8)
def v10 : Cmd := { op := 9, tag := 77, a := 0x0000009c#32, b := 0x0000000000040000#64, refs := [0x0000000000000000#64, 0x0000000000000000#64, 0x0000000000000000#64, 0x0000000000000000#64] }
def v11 : List Byte := ([81#8, 67#8, 84#8, 88#8, 0#8, 0#8, 0#8, 0#8, 64#8, 32#8, 1#8, 0#8, 0#8, 0#8, 0#8, 0#8, 156#8] ++ List.replicate 8 0#8 ++ [101#8, 205#8, 29#8, 0#8, 0#8, 0#8, 0#8, 56#8, 176#8, 96#8, 167#8, 81#8, 172#8, 150#8, 56#8, 76#8, 217#8, 50#8, 126#8, 177#8, 177#8, 227#8, 106#8, 33#8, 253#8, 183#8, 17#8, 20#8, 190#8, 7#8, 67#8, 76#8, 12#8, 199#8, 191#8, 99#8, 246#8, 225#8, 218#8, 39#8, 78#8, 222#8, 191#8, 231#8, 111#8, 101#8, 251#8, 213#8, 26#8, 210#8, 241#8, 72#8, 152#8, 185#8, 91#8, 1#8] ++ List.replicate 47 0#8 ++ [1#8, 0#8, 0#8, 0#8, 12#8] ++ List.replicate 23 0#8)
def v12 : Cmd := { op := 10, tag := 77, a := 0x00030001#32, refs := [0x0000000000000000#64, 0x0000000000000000#64, 0x0000000000000000#64, 0x0000000000000000#64] }
def v13 : Cmd := { op := 10, tag := 77, a := 0x00030002#32, refs := [0x0000000000000000#64, 0x0000000000000000#64, 0x0000000000000000#64, 0x0000000000000000#64] }
def v14 : Cmd := { op := 10, tag := 77, a := 0x00000003#32, refs := [0x0000000000000000#64, 0x0000000000000000#64, 0x0000000000000000#64, 0x0000000000000000#64] }
def v15 : Cmd := { op := 10, tag := 77, a := 0x00000004#32, refs := [0x0000000000000000#64, 0x0000000000000000#64, 0x0000000000000000#64, 0x0000000000000000#64] }
def v16 : Cmd := { op := 10, tag := 77, a := 0x00c80005#32, refs := [0x0000000000000000#64, 0x0000000000000000#64, 0x0000000000000000#64, 0x0000000000000000#64] }
def v17 : Cmd := { op := 10, tag := 77, a := 0x00000006#32, refs := [0x0000000000000000#64, 0x0000000000000000#64, 0x0000000000000000#64, 0x0000000000000000#64] }
def v18 : Cmd := { op := 11, tag := 77, a := 0x01010005#32, b := 0x0000000000040000#64, refs := [0x0000000000000000#64, 0x0000000000000000#64, 0x0000000000000000#64, 0x0000000000000000#64] }
def v19 : Pipeline := { desc := { num := 1, nslot := 2, cam := 0x00000005#32, gather := 100, period := 1000, stages := [3, 4] }, hostRec := true, frameNum := 7, boundaryAt := 5, free := [0, 1] }
def v20 : Cmd := { op := 12, tag := 77, refs := [0x0000000000000000#64, 0x0000000000000000#64, 0x0000000000000000#64, 0x0000000000000000#64] }
def v21 : Cmd := { op := 13, tag := 77, refs := [0x0000000000000000#64, 0x0000000000000000#64, 0x0000000000000000#64, 0x0000000000000000#64] }
def v22 : Waiting := { cmd := { op := 10, tag := 55, a := 0x00000005#32 }, since := 4 }
def v23 : Waiting := { cmd := { op := 10, tag := 55, a := 0x00000004#32 }, since := 4 }

theorem wit_EventAndTestCommands :
    (v1.op = 7 ∧ v1.plain = true ∧ v1.arg ≤ 5 ∧ v1.addr < 2 ^ 32 ∧ List.find? (fun d => d.seq == v1.addr) (w28 0).host.decides = some v2 ∧ v1.arg = 0) ∧
    ((w28 0).takes v1) ∧
    ((w28 0).answers) ∧
    ((w28 0).host.decides = [v2] ∧ v2.ev.tick + ms 50 ≤ (w28 0).tick ∧ (w28 0).reactionOf v2.ev.code ≤ 1) ∧
    (v3.op = 7 ∧ v3.plain = true ∧ v3.arg ≤ 5 ∧ v3.addr < 2 ^ 32 ∧ List.find? (fun d => d.seq == v3.addr) (w28 1).host.decides = some v2 ∧ v3.arg = 1) ∧
    ((w28 1).takes v3) ∧
    ((w28 1).answers) ∧
    (v4.op = 7 ∧ v4.plain = true ∧ v4.arg ≤ 5 ∧ v4.addr < 2 ^ 32 ∧ List.find? (fun d => d.seq == v4.addr) (w28 2).host.decides = none) ∧
    ((w28 2).takes v4) ∧
    ((w28 2).answers) ∧
    (v5.op = 8 ∧ v5.plain = true ∧ v5.addr % 64 = 0 ∧ v5.addr + v5.arg ≤ gddrEnd ∧ (w28 7).ctxBusy = true) ∧
    ((w28 7).takes v5) ∧
    ((w28 7).answers) ∧
    ((w28 8).ctxBusy = false ∧ (w28 8).sched.models = [] ∧ (w28 8).sched.binds = [] ∧ (w28 8).sched.pipes = [] ∧ 188 + 32 * (w28 8).ctxStreamCount ≤ v5.arg) ∧
    ((w28 8).takes v5) ∧
    ((w28 8).answers) ∧
    ((w28 8).clean) ∧
    (v6.op = 8 ∧ v6.plain = true ∧ v6.addr % 64 = 0 ∧ v6.addr + v6.arg ≤ gddrEnd ∧ (w28 9).ctxBusy = false ∧ (w28 9).sched.models = [] ∧ (w28 9).sched.binds = [] ∧ (w28 9).sched.pipes = [] ∧ v6.arg < 188 + 32 * (w28 9).ctxStreamCount) ∧
    ((w28 9).takes v6) ∧
    ((w28 9).answers) ∧
    ((w28 9).clean) ∧
    (v7.op = 9 ∧ v7.plain = true ∧ v7.addr % 64 = 0 ∧ v7.addr + v7.arg ≤ gddrEnd ∧ (w28 10).ctxBusy = true) ∧
    ((w28 10).takes v7) ∧
    ((w28 10).answers) ∧
    (v8.op = 9 ∧ v8.plain = true ∧ v8.addr % 64 = 0 ∧ v8.addr + v8.arg ≤ gddrEnd ∧ (w28 11).ctxBusy = false ∧ v9 = (w28 11).peekN v8.addr v8.arg ∧ ((w28 11).ctxCheck v9).1 ≠ 0) ∧
    ((w28 11).takes v8) ∧
    ((w28 11).answers) ∧
    ((w28 11).clean) ∧
    (v10.op = 9 ∧ v10.plain = true ∧ v10.addr % 64 = 0 ∧ v10.addr + v10.arg ≤ gddrEnd ∧ (w28 13).ctxBusy = false ∧ v11 = (w28 13).peekN v10.addr v10.arg ∧ (w28 13).ctxCheck v11 = (0, [(1, 0, [0#8, 0#8, 0#8, 0#8, 0#8, 0#8, 0#8, 0#8, 0#8, 0#8, 0#8, 0#8])])) ∧
    ((w28 13).takes v10) ∧
    ((w28 13).answers) ∧
    ((w28 13).clean) ∧
    (v12.op = 10 ∧ v12.plain = true ∧ v12.addr = 0 ∧ v12.arg % 256 = 1 ∧ (v12.arg / 256 % 256 = 0 ∧ v12.arg / 65536 < (w28 14).nBroods) ∧ (w28 14).req? 1 0 (v12.arg / 65536) = none) ∧
    ((w28 14).takes v12) ∧
    ((w28 14).answers) ∧
    (v13.op = 10 ∧ v13.plain = true ∧ v13.addr = 0 ∧ v13.arg % 256 = 2 ∧ (v13.arg / 256 % 256 = 0 ∧ v13.arg / 65536 < 8) ∧ (w28 15).req? 2 0 (v13.arg / 65536) = none) ∧
    ((w28 15).takes v13) ∧
    ((w28 15).answers) ∧
    (v14.op = 10 ∧ v14.plain = true ∧ v14.addr = 0 ∧ v14.arg % 256 = 3 ∧ (v14.arg / 256 % 256 ≤ 8 ∧ v14.arg / 65536 < (w28 16).rowUnits (v14.arg / 256 % 256)) ∧ (w28 16).req? 3 (v14.arg / 256 % 256) (v14.arg / 65536) = none) ∧
    ((w28 16).takes v14) ∧
    ((w28 16).answers) ∧
    (v15.op = 10 ∧ v15.plain = true ∧ v15.addr = 0 ∧ v15.arg = 4 ∧ (w28 18).ctxBusy = false) ∧
    ((w28 18).takes v15) ∧
    ((w28 18).answers) ∧
    ((w28 19).ctxBusy = true) ∧
    ((w28 19).takes v15) ∧
    ((w28 19).answers) ∧
    (v16.op = 10 ∧ v16.plain = true ∧ v16.addr = 0 ∧ v16.arg % 256 = 5 ∧ v16.arg / 256 % 256 = 0 ∧ 0 < v16.arg / 65536 ∧ (w28 20).modes.selftest = true ∧ (w28 20).chk.windowEnd = none) ∧
    ((w28 20).takes v16) ∧
    ((w28 20).answers) ∧
    ((w28 21).modes.selftest = true ∧ (w28 21).chk.windowEnd ≠ none) ∧
    ((w28 21).takes v16) ∧
    ((w28 21).answers) ∧
    ((v12.arg / 256 % 256 = 0 ∧ v12.arg / 65536 < (w28 22).nBroods) ∧ (w28 22).req? 1 0 (v12.arg / 65536) ≠ none) ∧
    ((w28 22).takes v12) ∧
    ((w28 22).answers) ∧
    ((w28 23).req? 2 0 (v13.arg / 65536) ≠ none) ∧
    ((w28 23).takes v13) ∧
    ((w28 23).answers) ∧
    ((v14.arg / 256 % 256 ≤ 8 ∧ v14.arg / 65536 < (w28 24).rowUnits (v14.arg / 256 % 256)) ∧ (w28 24).req? 3 (v14.arg / 256 % 256) (v14.arg / 65536) ≠ none) ∧
    ((w28 24).takes v14) ∧
    ((w28 24).answers) ∧
    (v17.op = 10 ∧ v17.plain = true ∧ v17.addr = 0 ∧ (v17.arg % 256 = 0 ∨ 5 < v17.arg % 256)) ∧
    ((w28 25).takes v17) ∧
    ((w28 25).answers) ∧
    (v18.op = 11 ∧ v18.plain = true ∧ v18.a &&& 3237871616#32 = 0#32 ∧ v18.addr % 64 = 0 ∧ v18.addr + 64 ≤ gddrEnd ∧ (w28 27).pipe? (v18.arg / 2 ^ 24) = some v19 ∧ v19.hostRec = true ∧ (w28 27).coc.powered = true ∧ (w28 27).coc.mbox.length + (w28 27).coc.offers.length < 64) ∧
    ((w28 27).takes v18) ∧
    ((w28 27).answers) ∧
    ((w28 27).clean) ∧
    ((w28 28).pipe? (v18.arg / 2 ^ 24) = some v19 ∧ ((w28 28).coc.powered = false ∨ 64 ≤ (w28 28).coc.mbox.length + (w28 28).coc.offers.length)) ∧
    ((w28 28).takes v18) ∧
    ((w28 28).answers) ∧
    ((w28 28).clean) ∧
    (v20.op = 12 ∧ v20.plain = true ∧ v20.arg = 0 ∧ v20.addr = 0 ∧ (w28 29).host.waiting = []) ∧
    ((w28 29).takes v20) ∧
    ((w28 29).answers) ∧
    ((v21.op = 0 ∨ 12 < v21.op)) ∧
    ((w28 30).takes v21) ∧
    ((w28 30).answers) ∧
    ((w28 32).chk.windowEnd = some 499999999 ∧ 499999999 ≤ (w28 32).tick ∧ (w28 32).host.waiting = [v22] ∧ v22.cmd.op = 10 ∧ v22.cmd.arg % 256 = 5 ∧ readyNops [] = [] ∧ v22.cmd.tag < 2 ^ 16) ∧
    ((w28 32).answers) ∧
    ((w28 33).chk.bistAt ≠ none ∧ (w28 33).running = true ∧ (w28 33).sched.jobs = [] ∧ (w28 33).chk.reqs = [] ∧ (w28 33).host.waiting = [v23] ∧ v23.cmd.op = 10 ∧ v23.cmd.arg % 256 = 4 ∧ v23.cmd.tag < 2 ^ 16) ∧
    ((w28 33).answers) ∧
    ((w28 33).clean) :=
  ⟨by decide +kernel, takes_of (by decide +kernel), answers_of (by decide +kernel), by decide +kernel, by decide +kernel, takes_of (by decide +kernel), answers_of (by decide +kernel), by decide +kernel, takes_of (by decide +kernel), answers_of (by decide +kernel), by decide +kernel, takes_of (by decide +kernel), answers_of (by decide +kernel), by decide +kernel, takes_of (by decide +kernel), answers_of (by decide +kernel), clean_of (by decide +kernel), by decide +kernel, takes_of (by decide +kernel), answers_of (by decide +kernel), clean_of (by decide +kernel), by decide +kernel, takes_of (by decide +kernel), answers_of (by decide +kernel), by decide +kernel, takes_of (by decide +kernel), answers_of (by decide +kernel), clean_of (by decide +kernel), by decide +kernel, takes_of (by decide +kernel), answers_of (by decide +kernel), clean_of (by decide +kernel), by decide +kernel, takes_of (by decide +kernel), answers_of (by decide +kernel), by decide +kernel, takes_of (by decide +kernel), answers_of (by decide +kernel), by decide +kernel, takes_of (by decide +kernel), answers_of (by decide +kernel), by decide +kernel, takes_of (by decide +kernel), answers_of (by decide +kernel), by decide +kernel, takes_of (by decide +kernel), answers_of (by decide +kernel), by decide +kernel, takes_of (by decide +kernel), answers_of (by decide +kernel), by decide +kernel, takes_of (by decide +kernel), answers_of (by decide +kernel), by decide +kernel, takes_of (by decide +kernel), answers_of (by decide +kernel), by decide +kernel, takes_of (by decide +kernel), answers_of (by decide +kernel), by decide +kernel, takes_of (by decide +kernel), answers_of (by decide +kernel), by decide +kernel, takes_of (by decide +kernel), answers_of (by decide +kernel), by decide +kernel, takes_of (by decide +kernel), answers_of (by decide +kernel), clean_of (by decide +kernel), by decide +kernel, takes_of (by decide +kernel), answers_of (by decide +kernel), clean_of (by decide +kernel), by decide +kernel, takes_of (by decide +kernel), answers_of (by decide +kernel), by decide +kernel, takes_of (by decide +kernel), answers_of (by decide +kernel), by decide +kernel, answers_of (by decide +kernel), by decide +kernel, answers_of (by decide +kernel), clean_of (by decide +kernel)⟩

end W28

namespace W29
def att : State := ((((((up.wr F.HIF_STATE_HOST 2).wr F.HIF_RING_CFG_ESIZE 4 0).wr F.HIF_RING_CFG_LOG2N 4 0).wr F.HIF_RING_BASE_BASE 16 0).wr F.HIF_RING_CFG_ESIZE 4 1).wr F.HIF_RING_CFG_LOG2N 4 1).wr F.HIF_RING_BASE_BASE 32 1
def cmdBytes (op flags tag a b : Nat) (seed : Nat := 0) : List Byte := natLe 1 op ++ natLe 1 flags ++ natLe 2 tag ++ natLe 4 a ++ natLe 8 b ++ natLe 8 seed ++ zeros 40
def pc (s : State) (op tag a b : Nat) (seed : Nat := 0) (flags : Nat := 0) : State := (s.store mHost 0x10000 (cmdBytes op flags tag a b seed)).wr F.HIF_RING_PROD_PROD 1 0
def cm (s : State) : Cmd := match s.busRead (mDsp 0) (s.ringSlot 0 0) 64 with | (.ok, l, _) => cmdAt l | _ => {}
def aft (s : State) : List State := match s.busRead (mDsp 0) (s.ringSlot 0 0) 64 with | (.ok, _, r) => [r] | _ => []
def det : State := (att.wr F.HIF_STATE_HOST 1).wr F.HIF_HOST_VER_MAJOR (att.rd F.HIF_IFVER_MAJOR)
def tb : State := { att with host.msixTab := [(0, 5#32)] }
def heldS : State := { sch att with sched.pipes := [{pip with held := [0]}] }
def ws : State := (att.setStrm 3 {desc := {en := true, nslot := 3, hostPre := true}, state := 2}).setStrm 5 {desc := {en := true, nslot := 3, hostPre := true}, state := 2, last := some (1, 5)}
def part : State := ((((((att.wr F.HIF_RING_PROD_PROD 4 0).wr F.HIF_RING_CONS_CONS 0xFFFFFFFE 0).wr F.HIF_RING_PROD_PROD 4 1).wr F.HIF_RING_CONS_CONS 1 1).wr F.HIF_RING_PROD_PROD 4 2).wr F.HIF_RING_PROD_PROD 4 3).wr F.HIF_RING_PROD_PROD 4 4
def l29 : List State := [up, up.wr F.HIF_STATE_HOST 0, det, det.wr F.HIF_HOST_VER_MAJOR 77, tb, heldS, {heldS with host.hbAt := 4}, ws, part]
def w29 (i : Nat) : State := (l29 : List State).getD i up

theorem wit_LinkAttachAndDoorbells :
    (1#5 ∈ [1#5, 2#5, 4#5, 8#5] ∧ 1 ≤ (1#3).toNat ∧ (1#3).toNat ≤ 4 ∧ (w29 0).mainUp = true) ∧
    ((w29 0).linkedUp = true ∧ ((w29 0).host.decides = [] ∧ List.filter (fun x => x.decide) (w29 0).fw.evtQ = [])) ∧
    ((w29 0).attached = true) ∧
    ((w29 0).host.hbAt + (ms 120 - us 100) ≤ (w29 0).tick) ∧
    ((w29 0).dev.step = 12 ∧ 1 ≤ ((1#32).toNat + 2 ^ 32 - (w29 0).rd F.HIF_RING_PROD_PROD) % 2 ^ 32 ∧ ((1#32).toNat + 2 ^ 32 - (w29 0).rd F.HIF_RING_PROD_PROD) % 2 ^ 32 ≤ (w29 0).ringN 0 ∧ ((1#32).toNat + 2 ^ 32 - (w29 0).rd F.HIF_RING_CONS_CONS) % 2 ^ 32 ≤ (w29 0).ringN 0) ∧
    ((((0#32).toNat + 2 ^ 32 - (w29 0).rd F.HIF_RING_PROD_PROD) % 2 ^ 32 = 0 ∨ (w29 0).ringN 0 < ((0#32).toNat + 2 ^ 32 - (w29 0).rd F.HIF_RING_PROD_PROD) % 2 ^ 32 ∨ (w29 0).ringN 0 < ((0#32).toNat + 2 ^ 32 - (w29 0).rd F.HIF_RING_CONS_CONS) % 2 ^ 32)) ∧
    (((0#32).toNat + 2 ^ 32 - (w29 0).rd F.HIF_RING_CONS_CONS 1) % 2 ^ 32 ≤ (w29 0).ringUsed 1) ∧
    (((0#32).toNat + 2 ^ 32 - (w29 0).rd F.HIF_RING_CONS_CONS 2) % 2 ^ 32 ≤ (w29 0).ringUsed 2) ∧
    (((0#32).toNat + 2 ^ 32 - (w29 0).rd F.HIF_RING_CONS_CONS 3) % 2 ^ 32 ≤ (w29 0).ringUsed 3) ∧
    (((0#32).toNat + 2 ^ 32 - (w29 0).rd F.HIF_RING_CONS_CONS 4) % 2 ^ 32 ≤ (w29 0).ringUsed 4) ∧
    ((w29 0).ringUsed 1 < ((1#32).toNat + 2 ^ 32 - (w29 0).rd F.HIF_RING_CONS_CONS 1) % 2 ^ 32) ∧
    ((w29 0).ringUsed 2 < ((1#32).toNat + 2 ^ 32 - (w29 0).rd F.HIF_RING_CONS_CONS 2) % 2 ^ 32) ∧
    ((w29 0).ringUsed 3 < ((1#32).toNat + 2 ^ 32 - (w29 0).rd F.HIF_RING_CONS_CONS 3) % 2 ^ 32) ∧
    ((w29 0).ringUsed 4 < ((1#32).toNat + 2 ^ 32 - (w29 0).rd F.HIF_RING_CONS_CONS 4) % 2 ^ 32) ∧
    ((w29 1).attached = false) ∧
    ((w29 2).linkedUp = true ∧ (w29 2).attached = false ∧ (w29 2).rd F.HIF_STATE_HOST = 1 ∧ (w29 2).rd F.HIF_HOST_VER_MAJOR = (w29 2).rd F.HIF_IFVER_MAJOR) ∧
    ((w29 2).dev.step = 12) ∧
    ((w29 3).linkedUp = true ∧ (w29 3).attached = false ∧ (w29 3).rd F.HIF_STATE_HOST = 1 ∧ (w29 3).rd F.HIF_HOST_VER_MAJOR ≠ (w29 3).rd F.HIF_IFVER_MAJOR) ∧
    ((w29 7).linkedUp = true ∧ (w29 7).dev.step = 12 ∧ (w29 7).attached = true ∧ (5#6).toNat < 48) ∧
    (∃ e, ((w29 7).strm (5#6).toNat).last = some ((1#32).toNat % 16, e)) ∧
    ((3#6).toNat < 48 ∧ ((w29 7).strm (3#6).toNat).desc.en = true ∧ ((w29 7).strm (3#6).toNat).desc.hostPre = true ∧ (0#32).toNat % 16 < ((w29 7).strm (3#6).toNat).desc.nslot ∧ ((w29 7).strm (3#6).toNat).last = none ∧ (w29 7).entryHeld (3#6).toNat ((0#32).toNat % 16) = false) :=
  ⟨by decide +kernel, by decide +kernel, by decide +kernel, by decide +kernel, by decide +kernel, by decide +kernel, by decide +kernel, by decide +kernel, by decide +kernel, by decide +kernel, by decide +kernel, by decide +kernel, by decide +kernel, by decide +kernel, by decide +kernel, by decide +kernel, by decide +kernel, by decide +kernel, by decide +kernel, exists_snd (by decide +kernel), by decide +kernel⟩

end W29

namespace W30
def att : State := ((((((up.wr F.HIF_STATE_HOST 2).wr F.HIF_RING_CFG_ESIZE 4 0).wr F.HIF_RING_CFG_LOG2N 4 0).wr F.HIF_RING_BASE_BASE 16 0).wr F.HIF_RING_CFG_ESIZE 4 1).wr F.HIF_RING_CFG_LOG2N 4 1).wr F.HIF_RING_BASE_BASE 32 1
def cmdBytes (op flags tag a b : Nat) (seed : Nat := 0) : List Byte := natLe 1 op ++ natLe 1 flags ++ natLe 2 tag ++ natLe 4 a ++ natLe 8 b ++ natLe 8 seed ++ zeros 40
def pc (s : State) (op tag a b : Nat) (seed : Nat := 0) (flags : Nat := 0) : State := (s.store mHost 0x10000 (cmdBytes op flags tag a b seed)).wr F.HIF_RING_PROD_PROD 1 0
def cm (s : State) : Cmd := match s.busRead (mDsp 0) (s.ringSlot 0 0) 64 with | (.ok, l, _) => cmdAt l | _ => {}
def aft (s : State) : List State := match s.busRead (mDsp 0) (s.ringSlot 0 0) 64 with | (.ok, _, r) => [r] | _ => []
def rootKey : List Byte := List.replicate 436 0#8
def mkObj (type : Nat) (payload : List Byte) (dev : Nat := 0) (ver : Nat := 0x01020003) (rk : List Byte := rootKey) (major : Nat := 0) : List Byte :=
  natLe 4 0x424F5351 ++ natLe 1 1 ++ natLe 1 type ++ natLe 1 0 ++ natLe 1 1 ++ natLe 4 ver ++ natLe 4 5 ++ natLe 2 0 ++ natLe 2 major ++ natLe 4 0 ++ natLe 8 payload.length ++ natLe 8 dev ++ sha384 payload ++ zeros 40 ++
  payload ++ zeros ((payload.length + 63) / 64 * 64 - payload.length) ++ (natLe 4 0x59454B51 ++ natLe 4 0 ++ natLe 4 0xFFFF ++ natLe 4 9 ++ rk ++ zeros (17504 - 16 - 436)) ++ zeros (384 + 16224)
def fz (s : State) : State := { s with fuses := { s.fuses with pratharRoot := sha384 rootKey, serial := 77#64 } }
def o30 : List Byte := mkObj 2 (natLe 16 (5^30))
def ag (p n : Nat) (s : State := att) : State := { s with fw.wdtAt := (List.range 6).foldl (fun m q => FMap.set 0 m q (if q = p then 500000000 - n else 500000000 - 700000)) s.fw.wdtAt }
def ml (n : Nat) (s : State := att) : State := (((s.wr F.FW_MOLT_STATUS_STATE n).wr F.FW_MOLT_LEN_BYTES 64).wr F.FW_MOLT_SRC_LO_ADDR 0x8000)
def st2 (o : List Byte) (s : State := fz att) : State := let s := s.wr F.FW_MOLT_STATUS_STATE 2; { s with mem.cells := ((((List.range 192).zip (o.take 192)) ++ ((List.range' 192 16).zip ((o.drop 192).take 16))).filter (fun e => e.2 != 0#8)).map (fun e => (sysBase + 0x200000 * (1 - s.rd F.FW_STATUS_BANK) + e.1, e.2)), fw.moltLen := 34304 }
def qs (s : State) : State := let c := fun (s : State) (r z : Nat) => (((s.wr F.HIF_RING_CFG_ESIZE z r).wr F.HIF_RING_CFG_LOG2N 4 r).wr F.HIF_RING_BASE_BASE (32 + 16*r) r); c (c (c s 2 2) 3 4) 4 2
def qz : State := { qs att with fw.evtQ := [{code := 0x7020, units := [3], tick := 55}, {code := 2}], fw.logQ := [{code := 7, level := 2, src := 3, tick := 9}], fw.trcQ := [{point := 5, src := 6, drop := true, tick := 99}] }
def l30a : List State := [ag 0 100000, ag 2 100, ag 2 (ms 20), ag 2 (ms 30), ag 4 (ms 200), ag 4 (us 3), ag 4 (ms 5), ag 5 (ms 10), ag 5 (us 3), ag 5 (us 500), {att with fw.secDown := true}, {att with fw.pwrDown := true}, qz, {qz with fw.evtQ := [{code := 7, decide := true, tick := 3, units := [1,2,3,4,5,6,7,8]}]}, ml 4 qz, {ag 4 (ms 200) with sec.op := 2}]
def w30 (i : Nat) : State := (l30a : List State).getD i up
def l30b : List State := [up, ml 0, ml 0 (att.wr F.FW_STATUS_EMERG 1), (ml 0).wr F.FW_MOLT_LEN_BYTES 0, ml 1, st2 o30, st2 (mkObj 2 (natLe 16 3) 0 1 rootKey 1), st2 (natLe 128 3), ml 3, (ml 3).wr F.FW_STATUS_EMERG 1, {ml 3 with fw.moltAt := 500}, ml 4, ml 4 (att.wr F.FW_STATUS_EMERG 1), ml 4 {att with cara.restartDue := 1}, {ml 3 with host.waiting := [{cmd := {op := 2}}]}]
def w30a (i : Nat) : State := (l30b : List State).getD i up
def v1 : EvtRec := { code := 28704, tick := 55, units := [3], ev := { acc := 5 } }
def v2 : List EvtRec := [{ code := 2, ev := { acc := 5 } }]

theorem wit_FirmwareWatchdogsAndRings :
    ((w30 0).coreRuns (0#2).toNat = true ∧ (w30 0).fw.moltStep ≠ 3 ∧ (w30 0).fw.moltStep ≠ 4 ∧ us 500 ≤ (w30 0).wdtAge (0#2).toNat ∧ (w30 0).wdtAge (0#2).toNat ≤ ms 20) ∧
    ((w30 0).linkedUp = true ∧ (w30 0).dev.step = 12) ∧
    ((w30 0).rd F.FW_STATUS_SEC_RUN ≠ 0 ∧ (w30 0).fw.secDown = false ∧ ms 1 ≤ (w30 0).wdtAge 4 ∧ (w30 0).wdtAge 4 ≤ ms 200) ∧
    ((w30 0).rd F.FW_STATUS_PWR_RUN ≠ 0 ∧ (w30 0).fw.pwrDown = false ∧ us 100 ≤ (w30 0).wdtAge 5 ∧ (w30 0).wdtAge 5 ≤ ms 10) ∧
    ((w30 1).coreRuns (2#2).toNat = true ∧ (w30 1).fw.moltStep ≠ 3 ∧ (w30 1).fw.moltStep ≠ 4 ∧ (w30 1).wdtAge (2#2).toNat < us 500) ∧
    ((w30 2).coreRuns (2#2).toNat = true ∧ (w30 2).fw.moltStep ≠ 3 ∧ (w30 2).fw.moltStep ≠ 4 ∧ ms 20 ≤ (w30 2).wdtAge (2#2).toNat) ∧
    ((w30 4).rd F.FW_STATUS_SEC_RUN ≠ 0 ∧ ms 200 ≤ (w30 4).wdtAge 4) ∧
    ((w30 5).rd F.FW_STATUS_SEC_RUN ≠ 0 ∧ (w30 5).fw.secDown = false ∧ (w30 5).wdtAge 4 < ms 1) ∧
    ((w30 7).rd F.FW_STATUS_PWR_RUN ≠ 0 ∧ ms 10 ≤ (w30 7).wdtAge 5) ∧
    ((w30 8).rd F.FW_STATUS_PWR_RUN ≠ 0 ∧ (w30 8).fw.pwrDown = false ∧ (w30 8).wdtAge 5 < us 100) ∧
    ((w30 10).fw.secDown = true) ∧
    ((w30 11).fw.pwrDown = true) ∧
    ((w30 12).fw.evtQ = v1 :: v2 ∧ v1.units.length ≤ 8) ∧
    ((w30 12).ringReady 2 2) ∧
    ((w30 12).fw.logQ = [{ code := 7, level := 2, src := 3, tick := 9 : LogRec }]) ∧
    ((w30 12).ringReady 3 4) ∧
    ((w30 12).fw.trcQ = [{ point := 5, src := 6, drop := true, tick := 99 : TraceRec }]) ∧
    ((w30 12).ringReady 4 2) ∧
    ((w30 14).handover = true) :=
  ⟨by decide +kernel, by decide +kernel, by decide +kernel, by decide +kernel, by decide +kernel, by decide +kernel, by decide +kernel, by decide +kernel, by decide +kernel, by decide +kernel, by decide +kernel, by decide +kernel, by decide +kernel, ringReady_of (by decide +kernel), by decide +kernel, ringReady_of (by decide +kernel), by decide +kernel, ringReady_of (by decide +kernel), by decide +kernel⟩

theorem wit_MoltReplacesTheImage :
    ((w30a 0).mem.sram = [] ∧ (w30a 0).rd F.FW_STATUS_BANK ≤ 1 ∧ (w30a 0).linkedUp = true ∧ (w30a 0).dev.step = 12 ∧ (w30a 0).molt = 0 ∧ (w30a 0).attached = true ∧ (w30a 0).emergency = false ∧ ((w30a 0).moltLen = 0 ∨ 2097152 < (w30a 0).moltLen ∨ gddrEnd < (w30a 0).moltSrc + (w30a 0).moltLen)) ∧
    ((w30a 1).mem.sram = [] ∧ (w30a 1).rd F.FW_STATUS_BANK ≤ 1 ∧ (w30a 1).linkedUp = true ∧ (w30a 1).dev.step = 12 ∧ (w30a 1).molt = 0 ∧ (w30a 1).attached = true ∧ (w30a 1).emergency = false ∧ 0 < (w30a 1).moltLen ∧ (w30a 1).moltLen ≤ 2097152 ∧ (w30a 1).moltSrc + (w30a 1).moltLen ≤ gddrEnd) ∧
    ((w30a 2).mem.sram = [] ∧ (w30a 2).rd F.FW_STATUS_BANK ≤ 1 ∧ (w30a 2).linkedUp = true ∧ (w30a 2).dev.step = 12 ∧ (w30a 2).molt = 0 ∧ (w30a 2).attached = true ∧ (w30a 2).emergency = true) ∧
    ((w30a 4).mem.sram = [] ∧ (w30a 4).rd F.FW_STATUS_BANK ≤ 1 ∧ (w30a 4).linkedUp = true ∧ (w30a 4).dev.step = 12 ∧ ((w30a 4).molt ≠ 0 ∨ (w30a 4).attached = false)) ∧
    ((w30a 4).molt = 1 ∧ 0 < (w30a 4).moltLen ∧ (w30a 4).moltLen ≤ 2097152 ∧ (w30a 4).moltSrc + (w30a 4).moltLen ≤ gddrEnd) ∧
    ((w30a 4).clean) ∧
    ((w30a 4).molt ≠ 0 ∧ ((w30a 4).molt ≠ 4 ∨ (w30a 4).emergency = true ∨ (w30a 4).cara.restartDue ≠ 0)) ∧
    ((w30a 5).mem.sram = [] ∧ (w30a 5).rd F.FW_STATUS_BANK ≤ 1 ∧ (w30a 5).molt = 2 ∧ (w30a 5).rd F.FW_STATUS_SEC_RUN ≠ 0 ∧ 0 < (w30a 5).fw.moltLen ∧ (w30a 5).fw.moltLen ≤ 2097152 ∧ ((w30a 5).verifyBytes ((w30a 5).peekN (sysBase + (1 - (w30a 5).rd F.FW_STATUS_BANK) * 2097152) (w30a 5).fw.moltLen) 2 (true && true && true && true) = 0 ∧ fieldAt ((w30a 5).peekN (sysBase + (1 - (w30a 5).rd F.FW_STATUS_BANK) * 2097152) (w30a 5).fw.moltLen) 18 2 = (w30a 5).rd F.HIF_IFVER_MAJOR)) ∧
    ((¬((w30a 5).verifyBytes ((w30a 5).peekN (sysBase + (1 - (w30a 5).rd F.FW_STATUS_BANK) * 2097152) (w30a 5).fw.moltLen) 2 (true && true && true && false) = 0 ∧ fieldAt ((w30a 5).peekN (sysBase + (1 - (w30a 5).rd F.FW_STATUS_BANK) * 2097152) (w30a 5).fw.moltLen) 18 2 = (w30a 5).rd F.HIF_IFVER_MAJOR))) ∧
    ((w30a 8).mem.sram = [] ∧ (w30a 8).rd F.FW_STATUS_BANK ≤ 1 ∧ (w30a 8).molt = 3 ∧ (w30a 8).longCmd = false) ∧
    ((w30a 8).fw.moltAt + ms (Max.max 1 ((w30a 8).rd F.FW_MOLT_CTRL_TMO)) < (w30a 8).tick) ∧
    ((w30a 11).mem.sram = [] ∧ (w30a 11).rd F.FW_STATUS_BANK ≤ 1 ∧ (w30a 11).molt = 4 ∧ (w30a 11).emergency = false ∧ (w30a 11).cara.restartDue = 0) :=
  ⟨by decide +kernel, by decide +kernel, by decide +kernel, by decide +kernel, by decide +kernel, clean_of (by decide +kernel), by decide +kernel, by decide +kernel, by decide +kernel, by decide +kernel, by decide +kernel, by decide +kernel⟩

end W30

namespace W31
def att : State := ((((((up.wr F.HIF_STATE_HOST 2).wr F.HIF_RING_CFG_ESIZE 4 0).wr F.HIF_RING_CFG_LOG2N 4 0).wr F.HIF_RING_BASE_BASE 16 0).wr F.HIF_RING_CFG_ESIZE 4 1).wr F.HIF_RING_CFG_LOG2N 4 1).wr F.HIF_RING_BASE_BASE 32 1
def cmdBytes (op flags tag a b : Nat) (seed : Nat := 0) : List Byte := natLe 1 op ++ natLe 1 flags ++ natLe 2 tag ++ natLe 4 a ++ natLe 8 b ++ natLe 8 seed ++ zeros 40
def pc (s : State) (op tag a b : Nat) (seed : Nat := 0) (flags : Nat := 0) : State := (s.store mHost 0x10000 (cmdBytes op flags tag a b seed)).wr F.HIF_RING_PROD_PROD 1 0
def cm (s : State) : Cmd := match s.busRead (mDsp 0) (s.ringSlot 0 0) 64 with | (.ok, l, _) => cmdAt l | _ => {}
def aft (s : State) : List State := match s.busRead (mDsp 0) (s.ringSlot 0 0) 64 with | (.ok, _, r) => [r] | _ => []
def temps (hot : Nat) (v : Int) : List (BitVec 16) := (List.range 64).map (fun i => if i = hot then BitVec.ofInt 16 v else BitVec.ofNat 16 600)
def lim (l : List Nat) (s : State := att) : State := { s with pwr := { s.pwr with limits := l, coolAt := l.map (fun i => (i, 489999999)) } }
def bud (m : Nat) (s : State := att) : State := { s with pwr := { s.pwr with budgetMhz := m } }
def pq (i : Nat) (w : Nat) (s : State := att) : State := { s with prs := { s.prs with queue := [(i, 5#32), (3, 7#32)], words := [(i, { writes := w })] } }
def l31 : List State := [((bud 300).wr F.PWR_STATUS_AVS 1 |> fun s => {s with pwr.avsNext := s.tick + 1}), {bud 300 with cfg.budget := 1000}, {bud 150 with cfg.budget := 1000}, {att with tick := 50000000000000, dev.power := true}, bud 600, bud 300, bud 150, lim [0], lim [0,1], lim [3], lim [5], {lim [1] with tick := 5}, pq 5 0, pq 5 199999, pq 5 200000, pq 0x120 200000, {att with tick := 50000000000, dev.power := true, prs.life := [(0x121, 3)]}, (bud 300).wr F.PWR_STATUS_AVS 1, ((bud 300).wr F.PWR_STATUS_AVS 1).wr F.PWR_VOLT_REQ_MV 652,  ((bud 300).wr F.PWR_STATUS_AVS 1).wr F.PWR_VOLT_REQ_MV 798]
def w31 (i : Nat) : State := (l31 : List State).getD i up
def v1 : List (BitVec 16) := ([0x0258#16, 0x0258#16, 0x0258#16, 0x0708#16] ++ List.replicate 60 0x0258#16)
def v2 : List (BitVec 16) := ([0x07a0#16] ++ List.replicate 63 0x0258#16)
def v3 : List (BitVec 16) := (List.replicate 63 0x0258#16 ++ [0x0820#16])
def v4 : List (BitVec 16) := ([0x0258#16, 0x0258#16, 0x0258#16, 0x0258#16, 0x0258#16, 0x0730#16] ++ List.replicate 58 0x0258#16)

theorem wit_PowerLimitsAndWords :
    ((w31 0).mainUp = true ∧ (w31 0).molt = 0 ∧ v1.length = 64 ∧ (3 < 64 ∧ (∀ m < 64, (v1.getD m 0#16).toInt ≤ (v1.getD 3 0#16).toInt) ∧ ∀ m < 3, (v1.getD m 0#16).toInt < (v1.getD 3 0#16).toInt) ∧ (v1.getD 3 0#16).toInt < 1840 ∧ (w31 0).pwr.limits = []) ∧
    (v2.length = 64 ∧ (0 < 64 ∧ (∀ m < 64, (v2.getD m 0#16).toInt ≤ (v2.getD 0 0#16).toInt) ∧ ∀ m < 0, (v2.getD m 0#16).toInt < (v2.getD 0 0#16).toInt) ∧ 1952 ≤ (v2.getD 0 0#16).toInt ∧ (v2.getD 0 0#16).toInt < 2080) ∧
    (v3.length = 64 ∧ (63 < 64 ∧ (∀ m < 64, (v3.getD m 0#16).toInt ≤ (v3.getD 63 0#16).toInt) ∧ ∀ m < 63, (v3.getD m 0#16).toInt < (v3.getD 63 0#16).toInt) ∧ 2080 ≤ (v3.getD 63 0#16).toInt) ∧
    ((0#16).toNat ≤ 460) ∧
    (460 < (461#16).toNat ∧ 3 ∉ (w31 0).pwr.limits) ∧
    (((0#16).toNat < 620 ∨ 830 < (0#16).toNat) ∧ 5 ∉ (w31 0).pwr.limits) ∧
    (620 ≤ (620#16).toNat ∧ (620#16).toNat ≤ 830) ∧
    ((¬((0#3).toNat ∈ (w31 0).pwr.limits ∧ FMap.get 0 (w31 0).pwr.coolAt (0#3).toNat ≠ 0 ∧ (FMap.get 0 (w31 0).pwr.coolAt (0#3).toNat + if (0#3).toNat ≤ 1 then ms 10 else ms 1) ≤ (w31 0).tick + 1))) ∧
    ((w31 0).rd F.PWR_STATUS_AVS ≠ 0 ∧ (w31 0).tick < (w31 0).pwr.avsNext) ∧
    ((w31 0).rd F.FW_STATUS_PWR_RUN ≠ 0 ∧ (0#16).toNat ≤ (w31 0).cfg.budget ∧ 9 * (w31 0).cfg.budget ≤ 10 * (0#16).toNat) ∧
    ((w31 0).pwr.budgetMhz = 300 ∧ (w31 0).cfg.budget < (1#16).toNat) ∧
    ((w31 0).prs.queue = []) ∧
    ((w31 1).mainUp = true ∧ (w31 1).molt = 0 ∧ (w31 1).rd F.FW_STATUS_PWR_RUN ≠ 0 ∧ (w31 1).pwr.budgetMhz = 300 ∧ 10 * (0#16).toNat < 9 * (w31 1).cfg.budget) ∧
    ((w31 2).mainUp = true ∧ (w31 2).molt = 0 ∧ (w31 2).rd F.FW_STATUS_PWR_RUN ≠ 0 ∧ (w31 2).pwr.budgetMhz = 150 ∧ 10 * (0#16).toNat < 9 * (w31 2).cfg.budget) ∧
    ((w31 3).mainUp = true ∧ (w31 3).molt = 0 ∧ v4.length = 64 ∧ (5 < 64 ∧ (∀ m < 64, (v4.getD m 0#16).toInt ≤ (v4.getD 5 0#16).toInt) ∧ ∀ m < 5, (v4.getD m 0#16).toInt < (v4.getD 5 0#16).toInt) ∧ 1840 ≤ (v4.getD 5 0#16).toInt ∧ (v4.getD 5 0#16).toInt < 1952 ∧ (w31 3).pwr.limits = [] ∧ (w31 3).pwr.budgetMhz = 600) ∧
    ((w31 3).rd F.FW_STATUS_PWR_RUN ≠ 0 ∧ (w31 3).cfg.budget < (1#16).toNat) ∧
    ((0#4).toNat ≤ 9 ∧ FMap.get 0 (w31 3).prs.lifeAt (289 + (0#4).toNat) + ms 60000 ≤ (w31 3).tick ∧ FMap.get 0 (w31 3).prs.life (289 + (0#4).toNat) = 0) ∧
    ((w31 3).dev.power = true ∧ (w31 3).prs.hourAt + ms 3600000 ≤ (w31 3).tick) ∧
    ((w31 7).mainUp = true ∧ (w31 7).molt = 0 ∧ ((0#3).toNat ∈ (w31 7).pwr.limits ∧ FMap.get 0 (w31 7).pwr.coolAt (0#3).toNat ≠ 0 ∧ (FMap.get 0 (w31 7).pwr.coolAt (0#3).toNat + if (0#3).toNat ≤ 1 then ms 10 else ms 1) ≤ (w31 7).tick + 1)) ∧
    ((w31 12).mainUp = true ∧ (w31 12).molt = 0 ∧ (w31 12).prs.queue = [(5, 5#32), (3, 7#32)] ∧ ((w31 12).prsWord 5).writes < 200000) ∧
    ((w31 14).mainUp = true ∧ (w31 14).molt = 0 ∧ (w31 14).prs.queue = [(5, 5#32), (3, 7#32)] ∧ 200000 ≤ ((w31 14).prsWord 5).writes) ∧
    ((w31 16).mainUp = true ∧ (w31 16).molt = 0 ∧ FMap.get 0 (w31 16).prs.lifeAt (289 + (0#4).toNat) + ms 60000 ≤ (w31 16).tick ∧ FMap.get 0 (w31 16).prs.life (289 + (0#4).toNat) ≠ 0) ∧
    ((w31 17).mainUp = true ∧ (w31 17).molt = 0 ∧ (w31 17).rd F.PWR_STATUS_AVS ≠ 0 ∧ (w31 17).pwr.avsNext ≤ (w31 17).tick) :=
  ⟨by decide +kernel, by decide +kernel, by decide +kernel, by decide +kernel, by decide +kernel, by decide +kernel, by decide +kernel, by decide +kernel, by decide +kernel, by decide +kernel, by decide +kernel, by decide +kernel, by decide +kernel, by decide +kernel, by decide +kernel, by decide +kernel, by decide +kernel, by decide +kernel, by decide +kernel, by decide +kernel, by decide +kernel, by decide +kernel, by decide +kernel⟩

end W31

namespace W32
def att : State := ((((((up.wr F.HIF_STATE_HOST 2).wr F.HIF_RING_CFG_ESIZE 4 0).wr F.HIF_RING_CFG_LOG2N 4 0).wr F.HIF_RING_BASE_BASE 16 0).wr F.HIF_RING_CFG_ESIZE 4 1).wr F.HIF_RING_CFG_LOG2N 4 1).wr F.HIF_RING_BASE_BASE 32 1
def cmdBytes (op flags tag a b : Nat) (seed : Nat := 0) : List Byte := natLe 1 op ++ natLe 1 flags ++ natLe 2 tag ++ natLe 4 a ++ natLe 8 b ++ natLe 8 seed ++ zeros 40
def pc (s : State) (op tag a b : Nat) (seed : Nat := 0) (flags : Nat := 0) : State := (s.store mHost 0x10000 (cmdBytes op flags tag a b seed)).wr F.HIF_RING_PROD_PROD 1 0
def cm (s : State) : Cmd := match s.busRead (mDsp 0) (s.ringSlot 0 0) 64 with | (.ok, l, _) => cmdAt l | _ => {}
def aft (s : State) : List State := match s.busRead (mDsp 0) (s.ringSlot 0 0) 64 with | (.ok, _, r) => [r] | _ => []
def cellsOf (a n : Nat) (o : List Byte) : FMap Byte :=
  (((List.range n).zip (o.take n)).filter (fun e => e.2 != 0#8)).map (fun e => (a + e.1, e.2))
def rootKey : List Byte := List.replicate 436 0#8
def mkObj (type : Nat) (payload : List Byte) (dev : Nat := 0) (ver : Nat := 0x01020003) (rk : List Byte := rootKey) (major : Nat := 0) : List Byte :=
  natLe 4 0x424F5351 ++ natLe 1 1 ++ natLe 1 type ++ natLe 1 0 ++ natLe 1 1 ++ natLe 4 ver ++ natLe 4 5 ++ natLe 2 0 ++ natLe 2 major ++ natLe 4 0 ++ natLe 8 payload.length ++ natLe 8 dev ++ sha384 payload ++ zeros 40 ++
  payload ++ zeros ((payload.length + 63) / 64 * 64 - payload.length) ++ (natLe 4 0x59454B51 ++ natLe 4 0 ++ natLe 4 0xFFFF ++ natLe 4 9 ++ rk ++ zeros (17504 - 16 - 436)) ++ zeros (384 + 16224)
def fz (s : State) : State := { s with fuses := { s.fuses with pratharRoot := sha384 rootKey, serial := 77#64 } }
def rn : State := (fz att).wr F.FW_STATUS_SEC_RUN 1
def secOp (n : Nat) (o : List Byte) (s : State := rn) : State := { s with mem.cells := cellsOf 0x80000 (if n = 1 then 0 else if n = 4 then 208 else 592) o, sec := { s.sec with op := n, opAddr := 0x80000, opLen := if n = 1 then 0 else if n = 4 then 34304 else 34688, slhReady := true, report := natLe 8 12345, nonce := natLe 32 (3^100), chalAt := some 499999000 } }
def unl (b : Bool) : List Byte := mkObj 9 ((if b then natLe 32 (3^100) else natLe 32 5) ++ natLe 8 77)
def enr (b : Bool) : List Byte := let rk := rootKey; mkObj 10 rk (if b then 77 else 0) 7 rk
def ld (s : State) (o : List Byte) : State := { (s.store mHost 0x80000 o) with host.waiting := [{ cmd := {op := 2, tag := 99, a := BitVec.ofNat 32 o.length, b := 0x80000#64}, since := 4, stage := 1}] }
def nov : State := { rn with cfg := { rn.cfg with vmode := 2 } }
def obj8 (p : List Byte) : List Byte := natLe 4 0x424F5351 ++ natLe 1 1 ++ natLe 1 8 ++ natLe 1 0 ++ natLe 1 0 ++ natLe 4 0 ++ natLe 4 5 ++ natLe 2 0 ++ natLe 2 0 ++ natLe 4 0 ++ natLe 8 p.length ++ natLe 8 0 ++ sha384 p ++ zeros 40 ++  p ++ zeros ((p.length + 63) / 64 * 64 - p.length)
def secE (type model target off bytes dest : Nat) : List Byte := natLe 2 type ++ natLe 2 model ++ natLe 4 target ++ natLe 8 off ++ natLe 4 bytes ++ natLe 4 dest
def img1 : List Byte := natLe 4 0x4D575351 ++ natLe 4 0 ++ natLe 1 64 ++ natLe 1 32 ++ natLe 1 1 ++ natLe 1 0 ++ natLe 4 0 ++ natLe 8 608 ++ natLe 4 3 ++ natLe 4 256 ++ natLe 4 1 ++ zeros 220 ++
  secE 1 0 0 352 64 0 ++ secE 7 0 0 416 128 0 ++ secE 9 0 0 544 64 0 ++ zeros 24 ++
  (natLe 1 0 ++ natLe 1 0 ++ natLe 2 1 ++ natLe 4 65536 ++ zeros 56) ++
  (natLe 1 3 ++ zeros 3 ++ natLe 2 0x40 ++ natLe 2 1 ++ natLe 4 10 ++ natLe 4 1000 ++ natLe 4 100 ++ natLe 4 0xFFFFFFFF ++ natLe 4 64 ++ zeros 68 ++ natLe 1 0 ++ natLe 1 0 ++ natLe 2 3 ++ zeros 28) ++
  (natLe 1 1 ++ natLe 1 1 ++ natLe 1 0 ++ natLe 1 2 ++ natLe 4 1 ++ zeros 24 ++ natLe 1 3 ++ List.replicate 31 255#8)
def l32 : List State := [ld nov (obj8 img1), ld nov (obj8 (natLe 16 3)), secOp 4 (unl true), secOp 4 (unl false), secOp 2 (enr true), secOp 2 (enr false), {secOp 1 [] with sec.chalAt := some 4}, rn, {secOp 4 (unl true) with sec.opAt := 499999000 + 6000000000}, {secOp 2 (enr true) with fuses.ownerLock := true}]
def w32 (i : Nat) : State := (l32 : List State).getD i up

theorem wit_SecurityOperations :
    ((w32 0).linkedUp = true ∧ (w32 0).dev.step = 12 ∧ (w32 0).rd F.SEC_OP_STATUS_BUSY = 0 ∧ (w32 0).rd F.FW_STATUS_SEC_RUN ≠ 0 ∧ (¬((w32 0).formReport.length + sigBytes ≤ (w32 0).rd F.SEC_OP_LEN_BYTES ∧ (w32 0).secAddr + ((w32 0).formReport.length + sigBytes) ≤ gddrEnd))) ∧
    ((w32 0).mainUp = true ∧ (w32 0).sec.rsaReady = false) ∧
    ((w32 2).sec.chalAt = some 499999000 ∧ (w32 2).tick < 499999000 + ms 60000) ∧
    ((w32 2).rd F.FW_STATUS_SEC_RUN ≠ 0 ∧ (w32 2).running = true ∧ 0 < (w32 2).sec.opLen ∧ (w32 2).sec.opAddr + (w32 2).sec.opLen ≤ gddrEnd ∧ (w32 2).host.waiting = [] ∧ (w32 2).sec.op = 4 ∧ ((w32 2).verifyBytes ((w32 2).peekN (w32 2).sec.opAddr (w32 2).sec.opLen) 9 (true && true && true && true) = 0 ∧ Option.any (fun t => Decidable.decide ((w32 2).sec.opAt < t + ms 60000)) (w32 2).sec.chalAt = true ∧ (w32 2).fuses.debugDisable = false ∧ objPayload ((w32 2).peekN (w32 2).sec.opAddr (w32 2).sec.opLen) = (w32 2).sec.nonce ++ natLe 8 (w32 2).fuses.serial.toNat)) :=
  ⟨by decide +kernel, by decide +kernel, by decide +kernel, by decide +kernel⟩

theorem wit_SecurityOperationsb :
    ((w32 2).clean) ∧
    ((w32 2).cacheClean) ∧
    ((w32 4).rd F.FW_STATUS_SEC_RUN ≠ 0 ∧ (w32 4).running = true ∧ 0 < (w32 4).sec.opLen ∧ (w32 4).sec.opAddr + (w32 4).sec.opLen ≤ gddrEnd ∧ (w32 4).host.waiting = [] ∧ (w32 4).sec.op = 2 ∧ ((w32 4).verifyBytes ((w32 4).peekN (w32 4).sec.opAddr (w32 4).sec.opLen) 10 (true && true && true && true) = 0 ∧ (w32 4).fuses.ownerLock = false ∧ objDevice ((w32 4).peekN (w32 4).sec.opAddr (w32 4).sec.opLen) = (w32 4).fuses.serial.toNat ∧ (objPayload ((w32 4).peekN (w32 4).sec.opAddr (w32 4).sec.opLen)).length = 436 ∧ certRoot (objCert ((w32 4).peekN (w32 4).sec.opAddr (w32 4).sec.opLen)) = objPayload ((w32 4).peekN (w32 4).sec.opAddr (w32 4).sec.opLen))) ∧
    ((w32 4).clean) :=
  ⟨clean_of (by decide +kernel), cacheClean_of (by decide +kernel), by decide +kernel, clean_of (by decide +kernel)⟩

theorem wit_SecurityOperationsc :
    ((w32 4).cacheClean) ∧
    ((w32 6).sec.op = 1 ∧ (w32 6).rd F.FW_STATUS_SEC_RUN ≠ 0 ∧ (w32 6).sec.slhReady = true ∧ (w32 6).running = true ∧ (∀ ch < 8, (w32 6).rd F.MEM_INJ_ARM ch = 0) ∧ (w32 6).sec.opAddr + ((w32 6).sec.report ++ bytesAt [] 0 sigBytes).length ≤ gddrEnd) ∧
    ((w32 6).clean) ∧
    ((w32 6).cacheClean) :=
  ⟨cacheClean_of (by decide +kernel), by decide +kernel, clean_of (by decide +kernel), cacheClean_of (by decide +kernel)⟩

theorem wit_SecurityOperationsLoad :
    (w32 0).answers ∧ ((w32 0).sec.op = 0 ∧ (w32 0).running = true ∧ (w32 0).sched.pieces = [] ∧ (w32 0).host.waiting.length = 1) ∧
    ((w32 0).host.waiting.all (fun w => w.cmd.op == 2 && w.stage == 1 && decide (w.cmd.tag < 2 ^ 16) && decide (0 < w.cmd.arg) &&
      decide (w.cmd.addr + w.cmd.arg ≤ gddrEnd) && (w32 0).verifyBytes ((w32 0).peekN w.cmd.addr w.cmd.arg) 8 true == 0 &&
      (match (w32 0).checkImage (objPayload ((w32 0).peekN w.cmd.addr w.cmd.arg)) none with
       | .ok x => x.2.models.all (fun m => m.sections.isEmpty)
       | .error _ => false)) = true) ∧
    ((w32 1).sec.op = 0 ∧ (w32 1).sched.pieces = [] ∧ (w32 1).host.waiting.length = 1) ∧
    ((w32 1).host.waiting.all (fun w => (w32 1).verifyBytes ((w32 1).peekN w.cmd.addr w.cmd.arg) 8 true == 0 &&
      (match (w32 1).checkImage (objPayload ((w32 1).peekN w.cmd.addr w.cmd.arg)) none with
       | .ok _ => false
       | .error _ => true)) = true) :=
  ⟨answers_of (by decide +kernel), by decide +kernel, by decide +kernel, by decide +kernel, by decide +kernel⟩

/-- The operand of the operation is cut to one byte. -/
def cut (s : State) : State := { s with sec := { s.sec with opLen := 1 } }

theorem wit_SecurityOperationsRefused :
    ((cut (w32 2)).sec.op = 4 ∧ (cut (w32 2)).running = true ∧ (cut (w32 2)).host.waiting = [] ∧
      (cut (w32 2)).verifyBytes ((cut (w32 2)).peekN (cut (w32 2)).sec.opAddr (cut (w32 2)).sec.opLen) 9 true ≠ 0) ∧
    ((cut (w32 4)).sec.op = 2 ∧ (cut (w32 4)).running = true ∧ (cut (w32 4)).host.waiting = [] ∧
      (cut (w32 4)).verifyBytes ((cut (w32 4)).peekN (cut (w32 4)).sec.opAddr (cut (w32 4)).sec.opLen) 10 true ≠ 0) :=
  ⟨by decide +kernel, by decide +kernel⟩

end W32

namespace W33
def att : State := ((((((up.wr F.HIF_STATE_HOST 2).wr F.HIF_RING_CFG_ESIZE 4 0).wr F.HIF_RING_CFG_LOG2N 4 0).wr F.HIF_RING_BASE_BASE 16 0).wr F.HIF_RING_CFG_ESIZE 4 1).wr F.HIF_RING_CFG_LOG2N 4 1).wr F.HIF_RING_BASE_BASE 32 1
def cmdBytes (op flags tag a b : Nat) (seed : Nat := 0) : List Byte := natLe 1 op ++ natLe 1 flags ++ natLe 2 tag ++ natLe 4 a ++ natLe 8 b ++ natLe 8 seed ++ zeros 40
def pc (s : State) (op tag a b : Nat) (seed : Nat := 0) (flags : Nat := 0) : State := (s.store mHost 0x10000 (cmdBytes op flags tag a b seed)).wr F.HIF_RING_PROD_PROD 1 0
def cm (s : State) : Cmd := match s.busRead (mDsp 0) (s.ringSlot 0 0) 64 with | (.ok, l, _) => cmdAt l | _ => {}
def aft (s : State) : List State := match s.busRead (mDsp 0) (s.ringSlot 0 0) 64 with | (.ok, _, r) => [r] | _ => []
def rootKey : List Byte := List.replicate 436 7#8
def mkObj (type : Nat) (payload : List Byte) (dev : Nat := 0) (ver : Nat := 0x01020003) (rk : List Byte := rootKey) (major : Nat := 0) : List Byte :=
  natLe 4 0x424F5351 ++ natLe 1 1 ++ natLe 1 type ++ natLe 1 0 ++ natLe 1 1 ++ natLe 4 ver ++ natLe 4 5 ++ natLe 2 0 ++ natLe 2 major ++ natLe 4 0 ++ natLe 8 payload.length ++ natLe 8 dev ++ sha384 payload ++ zeros 40 ++
  payload ++ zeros ((payload.length + 63) / 64 * 64 - payload.length) ++ (natLe 4 0x59454B51 ++ natLe 4 0 ++ natLe 4 0xFFFF ++ natLe 4 9 ++ rk ++ zeros (17504 - 16 - 436)) ++ zeros (384 + 16224)
def fz (s : State) : State := { s with fuses := { s.fuses with pratharRoot := sha384 rootKey, serial := 77#64 } }
def cc (f : Cocoon → Cocoon) (s : State := att) : State := { s with coc := f s.coc }
def mrec (k : Nat := 1) : MboxRec := { kind := k, tick := 99, mseq := 3, body := natLe 8 77, time := 5 }
def ep (n : Nat) : Epoch := { num := n, first := 1, count := 3 }
def cx (c : Cocoon) : Cocoon := { c with head := natLe 48 999, epochs := [ep 5, {ep 4 with closed := true}, {ep 3 with closed := true, sealed := true, stamp := [1#8]}], chain := [{eseq := 2, epoch := 3, data := natLe 256 88}, {eseq := 1, epoch := 3, data := natLe 256 88}] }
def sx (f : Cocoon → Cocoon := id) : State := (((cc (fun c => f (cx c))).wr F.COC_EPOCH_OPEN 5).wr F.COC_ESEQ_LAST 9).wr F.COC_STATUS_SEALS 1
def fullM : List MboxRec := List.replicate 64 (mrec 1)
def rec6 : List Byte := mkObj 6 (natLe 16 (5^30))
def l33 : List State := [cc (fun c => {c with offers := [mrec, mrec 4]}), cc (fun c => {c with offers := [mrec], powered := false}), cc (fun c => {c with offers := [mrec], mbox := fullM, drops := 7}),
  sx (fun c => {c with mbox := [mrec, mrec]}), sx (fun c => {c with mbox := [{mrec with flags := 1}], epochs := [{ep 5 with count := 4095}]}), sx (fun c => {c with mbox := [mrec], epochs := [{ep 5 with count := 4095}]}), {sx with tick := 70000000000}, {(sx.wr F.COC_STATUS_SEALS 4) with tick := 70000000000},
  sx (fun c => {c with upd := 3, updVer := 7}), sx (fun c => {c with upd := 3, updVer := 7, updEpoch := 9}), sx (fun c => {c with upd := 3, updVer := 7, updEpoch := 5, epochs := [{ep 4 with closed := true, tries := 1}]}), sx (fun c => {c with epochs := [{ep 4 with closed := true, tries := 1}]}), sx (fun c => {c with resetting := true}), sx (fun c => {c with powered := false, mbox := []}), sx (fun c => {c with resetting := true, epochs := [{ep 5 with count := 4095}], closeDue := true}),
  sx, (sx.wr F.COC_EXPORT_EPOCH 3).wr F.COC_XLEN_BYTES 100000, (sx.wr F.COC_EXPORT_STATE 1), sx (fun c => {c with upd := 1, updAt := 0x40000, updLen := 300, updSent := 250}), sx.wr F.COC_XLEN_BYTES 77,
  sx (fun c => {c with exportReq := some (3, 0x100000)}), sx (fun c => {c with exportReq := some (5, 0x100000)}), sx (fun c => {c with upd := 2, staged := rec6, recRoot := sha384 rootKey}), sx (fun c => {c with upd := 2, staged := [1]})]
def w33 (i : Nat) : State := (l33 : List State).getD i up
def v1 : MboxRec := { kind := 1, tick := 99, mseq := 3, body := ([77#8] ++ List.replicate 7 0#8), time := 5 }
def v2 : List MboxRec := [{ kind := 4, tick := 99, mseq := 3, body := ([77#8] ++ List.replicate 7 0#8), time := 5 }]
def v3 : List MboxRec := (List.replicate 63 ({ kind := 1, tick := 99, mseq := 3, body := ([77#8] ++ List.replicate 7 0#8), time := 5 }))
def v4 : List MboxRec := [{ kind := 1, tick := 99, mseq := 3, body := ([77#8] ++ List.replicate 7 0#8), time := 5 }]
def v5 : Epoch := { num := 5, first := 1, count := 3 }
def v6 : Epoch := { num := 3, first := 1, count := 3, sealed := true, closed := true, stamp := [1#8] }
def v7 : Epoch := { num := 4, first := 1, count := 3, closed := true }
def v8 : MboxRec := { kind := 1, tick := 99, mseq := 3, body := ([77#8] ++ List.replicate 7 0#8), flags := 1, time := 5 }
def v9 : Epoch := { num := 5, first := 1, count := 4095 }
def v10 : Epoch := { num := 4, first := 1, count := 3, tries := 1, closed := true }

theorem wit_CocoonRecorder :
    ((w33 0).coc.offers = v1 :: v2 ∧ v1.kind ≠ 4 ∧ (w33 0).coc.powered = true ∧ (w33 0).coc.mbox.length < 64) ∧
    ((w33 0).cocRuns = true) ∧
    ((w33 0).linkedUp = true ∧ (w33 0).dev.step = 12 ∧ (w33 0).rd F.COC_EXPORT_STATE ≠ 1 ∧ (∀ (e : Epoch), List.find? (fun e => e.num == (w33 0).rd F.COC_EXPORT_EPOCH) (w33 0).coc.epochs = some e → e.sealed = false ∨ (w33 0).rd F.COC_XLEN_BYTES < e.bytes ∨ gddrEnd < (w33 0).cocAddr + e.bytes)) ∧
    ((w33 0).coc.upd = 0 ∧ ((w33 0).rd F.COC_XLEN_BYTES = 0 ∨ gddrEnd < (w33 0).cocAddr + (w33 0).rd F.COC_XLEN_BYTES)) ∧
    ((w33 1).coc.offers = [v1] ∧ (w33 1).coc.powered = false) ∧
    ((w33 2).coc.offers = [v1] ∧ (w33 2).coc.powered = true ∧ 64 ≤ (w33 2).coc.mbox.length) ∧
    ((w33 2).cocRuns = true ∧ (w33 2).coc.mbox = v1 :: v3 ∧ v1.kind ≠ 16 ∧ (w33 2).oldestSealed = none) ∧
    ((w33 3).cocRuns = true ∧ (w33 3).coc.mbox = v1 :: v4 ∧ (w33 3).coc.head ≠ [] ∧ (w33 3).openEpoch = some v5 ∧ v5.count + 1 < 4096 ∧ bitOf v1.flags 0 = false) ∧
    ((w33 3).oldestSealed = some v6) ∧
    ((w33 3).sealing = some v7 ∧ (w33 3).coc.closeDue = false ∧ ((w33 3).coc.upd ≠ 3 ∨ v7.num < (w33 3).coc.updEpoch)) ∧
    (v7.tries = 0) ∧
    ((w33 4).cocRuns = true ∧ (w33 4).coc.mbox = [v8] ∧ v8.kind ≠ 16 ∧ (w33 4).openEpoch = some v9 ∧ bitOf v8.flags 0 = true ∧ (w33 4).rd F.COC_STATUS_SEALS < 4) ∧
    ((w33 6).cocRuns = true ∧ (w33 6).openEpoch ≠ none ∧ (w33 6).coc.closeDue = false ∧ (w33 6).coc.openAt + ms 300000 ≤ (w33 6).tick ∧ (w33 6).rd F.COC_STATUS_SEALS < 4) ∧
    ((w33 7).cocRuns = true ∧ (w33 7).openEpoch ≠ none ∧ (w33 7).coc.closeDue = false ∧ (w33 7).coc.openAt + ms 300000 ≤ (w33 7).tick ∧ 4 ≤ (w33 7).rd F.COC_STATUS_SEALS) ∧
    ((w33 8).cocRuns = true ∧ (w33 8).sealing = some v7 ∧ (w33 8).coc.closeDue = false ∧ (w33 8).coc.upd = 3 ∧ (w33 8).coc.updEpoch ≤ v7.num ∧ (∀ (x : Epoch), (w33 8).openEpoch = some x → x.count + 1 < 4096)) ∧
    ((w33 8).linkedUp = true ∧ (w33 8).dev.step = 12 ∧ (w33 8).coc.upd ≠ 0) ∧
    ((w33 10).cocRuns = true ∧ (w33 10).sealing = some v10 ∧ (w33 10).coc.closeDue = false ∧ v10.tries = 1 ∧ ((w33 10).coc.upd ≠ 3 ∨ v10.num < (w33 10).coc.updEpoch)) ∧
    ((w33 12).coc.powered = true ∧ (w33 12).coc.resetting = true) ∧
    ((w33 16).linkedUp = true ∧ (w33 16).dev.step = 12 ∧ (w33 16).cocRuns = true ∧ (w33 16).rd F.COC_EXPORT_STATE ≠ 1 ∧ List.find? (fun e => e.num == (w33 16).rd F.COC_EXPORT_EPOCH) (w33 16).coc.epochs = some v6 ∧ v6.sealed = true ∧ v6.bytes ≤ (w33 16).rd F.COC_XLEN_BYTES ∧ (w33 16).cocAddr + v6.bytes ≤ gddrEnd) ∧
    ((w33 16).coc.upd = 0 ∧ 0 < (w33 16).rd F.COC_XLEN_BYTES ∧ (w33 16).cocAddr + (w33 16).rd F.COC_XLEN_BYTES ≤ gddrEnd) ∧
    ((w33 17).linkedUp = true ∧ (w33 17).dev.step = 12 ∧ (w33 17).cocRuns = true ∧ (w33 17).rd F.COC_EXPORT_STATE = 1) ∧
    ((w33 18).cocRuns = true ∧ (w33 18).running = true ∧ (∀ ch < 8, (w33 18).rd F.MEM_INJ_ARM ch = 0) ∧ (w33 18).coc.upd = 1 ∧ (w33 18).coc.updSent < (w33 18).coc.updLen ∧ (w33 18).coc.updAt + (w33 18).coc.updLen ≤ gddrEnd ∧ (w33 18).coreRuns 2 = true ∧ (w33 18).coc.mbox.length + (w33 18).coc.offers.length + 16 ≤ 64) ∧
    ((w33 18).clean) ∧
    ((w33 18).cacheClean) ∧
    ((w33 20).cocRuns = true ∧ (w33 20).running = true ∧ (∀ ch < 8, (w33 20).rd F.MEM_INJ_ARM ch = 0) ∧ (w33 20).coc.exportReq = some (3, 1048576) ∧ List.find? (fun e => e.num == 3 && e.sealed) (w33 20).coc.epochs = some v6 ∧ (List.map (fun x => x.data) (List.filter (fun x => x.epoch == 3) (w33 20).coc.chain).reverse).flatten ++ v6.stamp ≠ [] ∧ 1048576 + ((List.map (fun x => x.data) (List.filter (fun x => x.epoch == 3) (w33 20).coc.chain).reverse).flatten ++ v6.stamp).length ≤ gddrEnd) ∧
    ((w33 20).clean) ∧
    ((w33 20).cacheClean) ∧
    ((w33 21).cocRuns = true ∧ (w33 21).running = true ∧ (∀ ch < 8, (w33 21).rd F.MEM_INJ_ARM ch = 0) ∧ (w33 21).coc.exportReq = some (5, 1048576) ∧ List.find? (fun e => e.num == 5 && e.sealed) (w33 21).coc.epochs = none) ∧
    ((w33 21).clean) ∧
    ((w33 21).cacheClean) ∧
    ((w33 22).cocRuns = true ∧ (w33 22).coc.upd = 2 ∧ (w33 22).updOk (true && true && true && true) = true) ∧
    ((w33 22).updOk (true && true && true && false) = false) :=
  ⟨by decide +kernel, by decide +kernel, by decide +kernel, by decide +kernel, by decide +kernel, by decide +kernel, by decide +kernel, by decide +kernel, by decide +kernel, by decide +kernel, by decide +kernel, by decide +kernel, by decide +kernel, by decide +kernel, by decide +kernel, by decide +kernel, by decide +kernel, by decide +kernel, by decide +kernel, by decide +kernel, by decide +kernel, by decide +kernel, clean_of (by decide +kernel), cacheClean_of (by decide +kernel), by decide +kernel, clean_of (by decide +kernel), cacheClean_of (by decide +kernel), by decide +kernel, clean_of (by decide +kernel), cacheClean_of (by decide +kernel), by decide +kernel, by decide +kernel⟩

end W33

namespace W34
def att : State := ((((((up.wr F.HIF_STATE_HOST 2).wr F.HIF_RING_CFG_ESIZE 4 0).wr F.HIF_RING_CFG_LOG2N 4 0).wr F.HIF_RING_BASE_BASE 16 0).wr F.HIF_RING_CFG_ESIZE 4 1).wr F.HIF_RING_CFG_LOG2N 4 1).wr F.HIF_RING_BASE_BASE 32 1
def cmdBytes (op flags tag a b : Nat) (seed : Nat := 0) : List Byte := natLe 1 op ++ natLe 1 flags ++ natLe 2 tag ++ natLe 4 a ++ natLe 8 b ++ natLe 8 seed ++ zeros 40
def pc (s : State) (op tag a b : Nat) (seed : Nat := 0) (flags : Nat := 0) : State := (s.store mHost 0x10000 (cmdBytes op flags tag a b seed)).wr F.HIF_RING_PROD_PROD 1 0
def cm (s : State) : Cmd := match s.busRead (mDsp 0) (s.ringSlot 0 0) 64 with | (.ok, l, _) => cmdAt l | _ => {}
def aft (s : State) : List State := match s.busRead (mDsp 0) (s.ringSlot 0 0) 64 with | (.ok, _, r) => [r] | _ => []
def rootKey : List Byte := List.replicate 436 7#8
def mkObj (type : Nat) (payload : List Byte) (dev : Nat := 0) (ver : Nat := 0x01020003) (rk : List Byte := rootKey) (major : Nat := 0) : List Byte :=
  natLe 4 0x424F5351 ++ natLe 1 1 ++ natLe 1 type ++ natLe 1 0 ++ natLe 1 1 ++ natLe 4 ver ++ natLe 4 5 ++ natLe 2 0 ++ natLe 2 major ++ natLe 4 0 ++ natLe 8 payload.length ++ natLe 8 dev ++ sha384 payload ++ zeros 40 ++
  payload ++ zeros ((payload.length + 63) / 64 * 64 - payload.length) ++ (natLe 4 0x59454B51 ++ natLe 4 0 ++ natLe 4 0xFFFF ++ natLe 4 9 ++ rk ++ zeros (17504 - 16 - 436)) ++ zeros (384 + 16224)
def fz (s : State) : State := { s with fuses := { s.fuses with pratharRoot := sha384 rootKey, serial := 77#64 } }
def asr (l : List Event) (s : State := att) : State := { s with cara.asserted := l }
def lat (l : List Event) (s : State := att) : State := { s with cara.latched := l }
def codesR (r : Nat) (d : Bool) : List Nat := if d then [] else ([[0x1013, 0x1014], [0x1012, 0x1020], [0x1010, 0x1011], [0x1101, 0x1102], [0x1023, 0x1025], [0x2040, 0x4009], [0x4008, 0x9001]] : List (List Nat)).getD r []
def ev (line code : Nat) : Event := {line := line, code := code, units := [0], tick := 499999990}
def f34 : Frame := {pipe := 1, num := 6, tick := 499000000, stages := [{stage := 3, status := 0}]}
def s34 : State := let s := sch att; { s with sched.pipes := [{pip with running := false, frames := [f34]}] }
def ca34 (r : React) : State := { att with cara.table := [r] }
def l34 : List State := [att, asr [ev 7 0x3001], asr [ev 7 0x3001] (att.wr F.FCL_FIRST_1_VALID 1 2), asr [ev 190 0x3001], asr [ev 160 0x7020, ev 159 0x7021], att.wr F.FCL_LINE_CHK_VALID 1] ++
  ((List.range 7).flatMap (fun r => (codesR r false ++ codesR r true).map (fun c => lat [{ev 145 c with stages := [3]}, ev 3 0x7020] s34))) ++
  [lat [{ev 145 0x1012 with hostMode := true}] (ca34 {code := 0x1012, react := 2, decide := true}), {att with cara.stopAt := some 5}, {att with cara.stopAt := some 499999999}]
def w34 (i : Nat) : State := (l34 : List State).getD i up
def ca (f : Carapace → Carapace) (s : State := att) : State := { s with cara := f s.cara }
def mg : State := { (att.wr F.SAF_MGMT_EN 1) with dev := { att.dev with step := 12 } }
def expS (n : Nat) (e : Nat := 4) : State := let s := { sch mg with sched.exports := [{pipe := 1, frame := {f34 with stages := [{stage := 4, addr := 0x300000, bytes := n}]}, tick := 9, ix := 1, off := 128 * (e - 4)}] }; { s with sched.pipes := [{pip with desc := {pip.desc with exp := 2#32}, frames := [{f34 with stages := [{stage := 4, addr := 0x300000, bytes := n}]}]}] }
def l34b : List State := [att, ca (fun c => {c with aliveHold := false}), ca (fun c => {c with split := true}), ca (fun c => {c with wdtAt := 499999999}), ca (fun c => {c with wdtAt := 499990000}), ca (fun c => {c with dbgHalt := true, debug := true}), ca (fun c => {c with debug := true}),
  ca (fun c => {c with mgmtQ := [{code := 5, tick := 4}]}) mg, ca (fun c => {c with mgmtQ := List.replicate 40 {code := 5, tick := 4}, mgmtAt := 500000000}) mg, expS 4000, expS 128, att.wr F.SAF_MGMT_LINK 1, ca (fun c => {c with tlog := [{code := 7}]})]
def w34a (i : Nat) : State := (l34b : List State).getD i up
def v1 : Event := { line := 7, code := 12289, units := [0], tick := 499999990, acc := 5 }
def v2 : Event := { line := 190, code := 12289, units := [0], tick := 499999990, acc := 5 }
def v3 : Event := { line := 160, code := 28704, units := [0], tick := 499999990, acc := 5 }
def v4 : Event := { line := 159, code := 28705, units := [0], tick := 499999990, acc := 5 }
def v5 : Event := { line := 145, code := 4115, units := [0], tick := 499999990, stages := [3], acc := 5 }
def v6 : List Event := [{ line := 3, code := 28704, units := [0], tick := 499999990, acc := 5 }]
def v7 : Event := { line := 145, code := 4114, units := [0], tick := 499999990, stages := [3], acc := 5 }
def v8 : Event := { line := 145, code := 4112, units := [0], tick := 499999990, stages := [3], acc := 5 }
def v9 : Event := { line := 145, code := 4353, units := [0], tick := 499999990, stages := [3], acc := 5 }
def v10 : Pipeline := { desc := { num := 1, nslot := 2, cam := 0x00000005#32, gather := 100, period := 1000, stages := [3, 4] }, frameNum := 7, frames := [{ pipe := 1, num := 6, tick := 499000000, stages := [{ stage := 3 }] }], boundaryAt := 5, free := [0, 1] }
def v11 : Event := { line := 145, code := 4131, units := [0], tick := 499999990, stages := [3], acc := 5 }
def v12 : Event := { line := 145, code := 8256, units := [0], tick := 499999990, stages := [3], acc := 5 }
def v13 : Event := { line := 145, code := 16392, units := [0], tick := 499999990, stages := [3], acc := 5 }
def v14 : Event := { line := 145, code := 4114, units := [0], tick := 499999990, hostMode := true, acc := 5 }
def v15 : Export := { pipe := 1, frame := { pipe := 1, num := 6, tick := 499000000, stages := [{ stage := 4, addr := 3145728, bytes := 4000 }] }, tick := 9, ix := 1 }
def v16 : Pipeline := { desc := { num := 1, nslot := 2, cam := 0x00000005#32, gather := 100, period := 1000, exp := 0x00000002#32, stages := [3, 4] }, running := true, frameNum := 7, frames := [{ pipe := 1, num := 6, tick := 499000000, stages := [{ stage := 4, addr := 3145728, bytes := 4000 }] }], boundaryAt := 5, free := [0, 1] }
def v17 : TRec := { long := true, code := 7 }

theorem wit_CollectorLatchesAndReacts :
    ((w34 0).cara.asserted = []) ∧
    ((w34 0).lineTied (0#8).toNat = false) ∧
    ((w34 0).lineTied (200#8).toNat = true) ∧
    ((w34 0).cara.latched = []) ∧
    ((w34 1).cara.asserted = [v1] ∧ (w34 1).lineTied v1.line = false) ∧
    ((w34 3).cara.asserted = [v2] ∧ (w34 3).lineTied v2.line = true) ∧
    ((w34 4).cara.asserted = [v3, v4] ∧ v3.tick = v4.tick ∧ v4.line < v3.line ∧ (w34 4).lineTied v4.line = false) ∧
    ((w34 6).cara.latched = v5 :: v6 ∧ (w34 6).handover = false ∧ (w34 6).waitsHost v5 = false ∧ (w34 6).reactionOf v5.code = 0) ∧
    ((w34 8).cara.latched = v7 :: v6 ∧ (w34 8).handover = false ∧ (w34 8).waitsHost v7 = false ∧ (w34 8).reactionOf v7.code = 1) ∧
    ((w34 10).cara.latched = v8 :: v6 ∧ (w34 10).handover = false ∧ (w34 10).waitsHost v8 = false ∧ 144 ≤ v8.line ∧ v8.line < 148 ∧ (w34 10).reactionOf v8.code = 2) ∧
    ((w34 12).cara.latched = v9 :: v6 ∧ (w34 12).handover = false ∧ (w34 12).waitsHost v9 = false ∧ v9.stages = [3] ∧ (w34 12).pipeOfStage 3 = some v10 ∧ (w34 12).pipe? v10.desc.num = some v10 ∧ v10.frames = [f34] ∧ f34.hitBy v9.tick = true ∧ f34.outcome = 0 ∧ (w34 12).sched.jobs = [] ∧ (w34 12).chk.arbs = [] ∧ (w34 12).reactionOf v9.code = 3) ∧
    ((w34 14).cara.latched = v11 :: v6 ∧ (w34 14).handover = false ∧ (w34 14).waitsHost v11 = false ∧ (w34 14).dev.latchedOff = false ∧ (w34 14).reactionOf v11.code = 4) ∧
    ((w34 16).cara.latched = v12 :: v6 ∧ (w34 16).handover = false ∧ (w34 16).waitsHost v12 = false ∧ (w34 16).dev.latchedOff = false ∧ (w34 16).reactionOf v12.code = 5) ∧
    ((w34 18).cara.latched = v13 :: v6 ∧ (w34 18).handover = false ∧ (w34 18).waitsHost v13 = false ∧ (w34 18).reactionOf v13.code = 6) ∧
    ((w34 20).cara.latched = [v14] ∧ (w34 20).handover = false ∧ (w34 20).waitsHost v14 = true) ∧
    ((w34 21).cara.stopAt = some 5 ∧ 5 + ms 1 ≤ (w34 21).tick ∧ (w34 21).dev.latchedOff = false) ∧
    ((w34 22).cara.stopAt = some 499999999 ∧ (w34 22).tick < 499999999 + ms 1) :=
  ⟨by decide +kernel, by decide +kernel, by decide +kernel, by decide +kernel, by decide +kernel, by decide +kernel, by decide +kernel, by decide +kernel, by decide +kernel, by decide +kernel, by decide +kernel, by decide +kernel, by decide +kernel, by decide +kernel, by decide +kernel, by decide +kernel, by decide +kernel⟩

theorem wit_CarapaceMonitorsAndPorts :
    ((w34a 0).mainUp = true ∧ (w34a 0).aliveRuns = false) ∧
    ((w34a 0).cara.split = false) ∧
    ((w34a 0).cara.testAt + ms 99 ≤ (w34a 0).tick) ∧
    ((w34a 0).cara.lineTestAt + ms 99 ≤ (w34a 0).tick) ∧
    ((w34a 0).cara.dbgHalt = false ∧ (w34a 0).cara.wdtAt + ms 1 ≤ (w34a 0).tick) ∧
    ((0#32).toNat ≤ 10000) ∧
    (10000 < (10001#32).toNat) ∧
    ((w34a 0).cara.debug = false) ∧
    ((¬((w34a 0).rd F.SAF_MGMT_LINK ≠ 0 ↔ true = true))) ∧
    ((w34a 0).rd F.SAF_MGMT_LINK ≠ 0 ↔ false = true) ∧
    ((w34a 0).cara.tlog = []) ∧
    ((w34a 1).mainUp = true ∧ (w34a 1).aliveRuns = true ∧ (w34a 1).cara.aliveAt + 24950 ≤ (w34a 1).tick) ∧
    ((w34a 2).mainUp = true ∧ (w34a 2).cara.split = true) ∧
    ((w34a 3).mainUp = true ∧ (w34a 3).cara.dbgHalt = false ∧ (¬(w34a 3).cara.wdtAt + ms 1 ≤ (w34a 3).tick)) ∧
    ((w34a 3).tick < (w34a 3).cara.wdtAt + us 50) ∧
    ((w34a 4).mainUp = true ∧ (w34a 4).cara.dbgHalt = false ∧ (w34a 4).cara.wdtAt + us 50 ≤ (w34a 4).tick ∧ (¬(w34a 4).cara.wdtAt + ms 1 ≤ (w34a 4).tick)) ∧
    ((w34a 5).mainUp = true ∧ (w34a 5).cara.dbgHalt = true) ∧
    ((w34a 5).cara.debug = true) ∧
    ((w34a 6).mainUp = true ∧ (w34a 6).cara.debug = true ∧ (w34a 6).cara.dbgHalt = false) ∧
    ((w34a 7).mainUp = true ∧ (w34a 7).mgmtUp = true ∧ (w34a 7).cara.mgmtQ ≠ [] ∧ (32 ≤ (w34a 7).cara.mgmtQ.length ∨ (w34a 7).cara.mgmtAt + ms 1 ≤ (w34a 7).tick)) ∧
    ((w34a 9).mainUp = true ∧ (w34a 9).mgmtUp = true ∧ (w34a 9).cara.mgmtQ = [] ∧ (w34a 9).sched.exports = [v15] ∧ (w34a 9).pipe? v15.pipe = some v16 ∧ v16.desc.nextExport v15.ix = some 1 ∧ v16.desc.stages[1]? = some 4 ∧ v15.frame.stage? 4 = some { stage := 4, addr := 3145728, bytes := 4000 : StageRun } ∧ 0 < Min.min 1408 ({ stage := 4, addr := 3145728, bytes := 4000 : StageRun }.bytes - if 1 = v15.ix then v15.off else 0) ∧ ({ stage := 4, addr := 3145728, bytes := 4000 : StageRun }.addr + if 1 = v15.ix then v15.off else 0) + Min.min 1408 ({ stage := 4, addr := 3145728, bytes := 4000 : StageRun }.bytes - if 1 = v15.ix then v15.off else 0) ≤ gddrEnd) ∧
    ((w34a 9).clean) ∧
    ((w34a 9).cacheClean) ∧
    ((w34a 12).mainUp = true ∧ (w34a 12).cara.tlog = [v17]) :=
  ⟨by decide +kernel, by decide +kernel, by decide +kernel, by decide +kernel, by decide +kernel, by decide +kernel, by decide +kernel, by decide +kernel, by decide +kernel, by decide +kernel, by decide +kernel, by decide +kernel, by decide +kernel, by decide +kernel, by decide +kernel, by decide +kernel, by decide +kernel, by decide +kernel, by decide +kernel, by decide +kernel, by decide +kernel, clean_of (by decide +kernel), cacheClean_of (by decide +kernel), by decide +kernel⟩

end W34

namespace W35
def att : State := ((((((up.wr F.HIF_STATE_HOST 2).wr F.HIF_RING_CFG_ESIZE 4 0).wr F.HIF_RING_CFG_LOG2N 4 0).wr F.HIF_RING_BASE_BASE 16 0).wr F.HIF_RING_CFG_ESIZE 4 1).wr F.HIF_RING_CFG_LOG2N 4 1).wr F.HIF_RING_BASE_BASE 32 1
def cmdBytes (op flags tag a b : Nat) (seed : Nat := 0) : List Byte := natLe 1 op ++ natLe 1 flags ++ natLe 2 tag ++ natLe 4 a ++ natLe 8 b ++ natLe 8 seed ++ zeros 40
def pc (s : State) (op tag a b : Nat) (seed : Nat := 0) (flags : Nat := 0) : State := (s.store mHost 0x10000 (cmdBytes op flags tag a b seed)).wr F.HIF_RING_PROD_PROD 1 0
def cm (s : State) : Cmd := match s.busRead (mDsp 0) (s.ringSlot 0 0) 64 with | (.ok, l, _) => cmdAt l | _ => {}
def aft (s : State) : List State := match s.busRead (mDsp 0) (s.ringSlot 0 0) 64 with | (.ok, _, r) => [r] | _ => []
def rootKey : List Byte := List.replicate 436 7#8
def mkObj (type : Nat) (payload : List Byte) (dev : Nat := 0) (ver : Nat := 0x01020003) (rk : List Byte := rootKey) (major : Nat := 0) : List Byte :=
  natLe 4 0x424F5351 ++ natLe 1 1 ++ natLe 1 type ++ natLe 1 0 ++ natLe 1 1 ++ natLe 4 ver ++ natLe 4 5 ++ natLe 2 0 ++ natLe 2 major ++ natLe 4 0 ++ natLe 8 payload.length ++ natLe 8 dev ++ sha384 payload ++ zeros 40 ++
  payload ++ zeros ((payload.length + 63) / 64 * 64 - payload.length) ++ (natLe 4 0x59454B51 ++ natLe 4 0 ++ natLe 4 0xFFFF ++ natLe 4 9 ++ rk ++ zeros (17504 - 16 - 436)) ++ zeros (384 + 16224)
def fz (s : State) : State := { s with fuses := { s.fuses with pratharRoot := sha384 rootKey, serial := 77#64 } }
def secE (type model target off bytes dest : Nat) : List Byte := natLe 2 type ++ natLe 2 model ++ natLe 4 target ++ natLe 8 off ++ natLe 4 bytes ++ natLe 4 dest
def img1 : List Byte := natLe 4 0x4D575351 ++ natLe 4 0 ++ natLe 1 64 ++ natLe 1 32 ++ natLe 1 1 ++ natLe 1 0 ++ natLe 4 0 ++ natLe 8 608 ++ natLe 4 3 ++ natLe 4 256 ++ natLe 4 1 ++ zeros 220 ++
  secE 1 0 0 352 64 0 ++ secE 7 0 0 416 128 0 ++ secE 9 0 0 544 64 0 ++ zeros 24 ++
  (natLe 1 0 ++ natLe 1 0 ++ natLe 2 1 ++ natLe 4 65536 ++ zeros 56) ++
  (natLe 1 3 ++ zeros 3 ++ natLe 2 0x40 ++ natLe 2 1 ++ natLe 4 10 ++ natLe 4 1000 ++ natLe 4 100 ++ natLe 4 0xFFFFFFFF ++ natLe 4 64 ++ zeros 68 ++ natLe 1 0 ++ natLe 1 0 ++ natLe 2 3 ++ zeros 28) ++
  (natLe 1 1 ++ natLe 1 1 ++ natLe 1 0 ++ natLe 1 2 ++ natLe 4 1 ++ zeros 24 ++ natLe 1 3 ++ List.replicate 31 255#8)
def dirB : List Byte := let d := bytesAt (natLe 4 0x52494451 ++ natLe 2 1 ++ natLe 2 5 ++ zeros 56 ++ (([1, 2, 3, 4, 5].map (fun t => natLe 1 t ++ natLe 1 0 ++ natLe 1 255 ++ zeros 13)).flatten)) 0 4092; d ++ natLe 4 (crc32c d)
def pg : State := match execPowerGood State.reset with | .next u => u | _ => State.reset
def so (t : Nat) : StartObj := { type := t, slot := 0xff, copy := 0, ifMajor := 0, version := 0x01020003 }
def inA : StartIn := { dir0 := dirB, dir1 := [], objs := [1,2,3,4,5].map so, gridX := 64, gridY := 32, cfgOk := true, subsys := 0, density := 0xff#8, trainFull := 0xff#8, badWords := [], testsOk := true, lbistFail := [], mbistFail := [], skew := [] }
def inB : StartIn := { inA with dir0 := [] }
def inC : StartIn := { inA with objs := [1,2,3,5].map so }
def inD : StartIn := { inA with density := 0x7f#8, lbistFail := [5], mbistFail := [9] }
def ri : RestartIn := { writeBack := true }
def rd4 (s : State) (n : Nat) : State := { s with cara.restartDue := n, dev.step := 12 }
def l35 : List State := [rd4 (att.wr F.MEM_STATUS_SPEED 1 0) 4, State.reset, pg, rd4 (withT 5 (tk 0 [(1,3)] [])) 4, rd4 att 4, {rd4 att 4 with cara.zeroFill := true}, rd4 (sch att) 4, rd4 att 5, {rd4 att 5 with cara.restarts := [499999000, 499999500]}, {rd4 att 5 with cara.restarts := [1, 499999500]}]
def w35 (i : Nat) : State := (l35 : List State).getD i up
def v1 : RestartIn := { writeBack := false, verified := 0xff#8, trainFull := 0xff#8, trainReduced := 0xff#8, skew := [], badWords := [], corrWords := [] }
def v2 : RestartIn := { writeBack := true, verified := 0x00#8, trainFull := 0xff#8, trainReduced := 0x00#8, skew := [], badWords := [], corrWords := [] }

theorem wit_StartAndRestart :
    ((w35 0).dev.rstLow = false) ∧
    ((w35 0).cara.restartDue = 4 ∧ (w35 0).dev.step = 12 ∧ (w35 0).dev.shutdown = false ∧ (w35 0).dev.latchedOff = false ∧ (w35 0).cara.zeroFill = false ∧ ri.writeBack = true ∧ ri.trainReduced = 255#8) ∧
    ((w35 0).cacheClean) ∧
    (((w35 0).cara.zeroFill = true ∨ v1.writeBack = false)) ∧
    (v2.writeBack = true ∧ v2.verified ≠ 255#8 ∧ (w35 0).rd F.MEM_STATUS_SPEED = 1 ∧ v2.trainReduced ≠ 255#8) ∧
    ((w35 0).cara.restartDue ≠ 5) ∧
    ((w35 1).dev.rstLow = true ∧ (w35 1).dev.shutdown = false) ∧
    ((w35 1).cara.restartDue ≠ 4) ∧
    ((w35 2).dev.step = 1 ∧ (w35 2).dev.phase = 1 ∧ (w35 2).dev.latchedOff = false ∧ (w35 2).dev.shutdown = false ∧ (w35 2).rd F.HIF_STATE_DEV ≠ 4) ∧
    (startDir inA ≠ none ∧ (w35 2).prs.queue = [] ∧ inA.badWords = [] ∧ inA.corrWords = [] ∧ (∀ t ∈ [1, 2, 3, 4, 5], startObj? (locate inA) t 255 0 = some ((startObj? inA t 255 0).getD {}) ∧ StartObj.hier ((startObj? inA t 255 0).getD {}) ≤ 1 ∧ (w35 2).objResult ((startObj? inA t 255 0).getD {}) = 0) ∧ (w35 2).cfgPasses inA = true ∧ StartObj.ifMajor ((startObj? inA 1 255 0).getD {}) = StartObj.ifMajor ((startObj? inA 2 255 0).getD {}) ∧ inA.cfg.settings = [] ∧ inA.cfg.startModels = [] ∧ inA.cfg.split = false ∧ (w35 2).cara.split = false ∧ (w35 2).cara.debug = false) ∧
    (inA.cfg.reduced = false ∧ inA.density = 255#8 ∧ inA.trainFull = 255#8 ∧ inA.lbistFail = [] ∧ inA.mbistFail = [] ∧ skewFails inA.skew = []) ∧
    (startDir inB = none) ∧
    (startDir inC ≠ none ∧ startObj? (locate inC) 4 255 0 = none ∧ startObj? (locate inC) 4 255 1 = none) ∧
    ((w35 7).cara.restartDue = 5 ∧ (w35 7).mainUp = true ∧ (w35 7).dev.latchedOff = false ∧ (w35 7).recentRestarts.length < 2) ∧
    ((w35 8).cara.restartDue = 5 ∧ (w35 8).mainUp = true ∧ (w35 8).dev.latchedOff = false ∧ 2 ≤ (w35 8).recentRestarts.length) :=
  ⟨by decide +kernel, by decide +kernel, cacheClean_of (by decide +kernel), by decide +kernel, by decide +kernel, by decide +kernel, by decide +kernel, by decide +kernel, by decide +kernel, by decide +kernel, by decide +kernel, by decide +kernel, by decide +kernel, by decide +kernel, by decide +kernel⟩

end W35

namespace W36
def w36 (i : Nat) : State := ([State.reset, (State.reset.wr F.HIF_VIOL0_HOLE 5 0).wr F.MEM_ECC_CORR 7 3] : List State).getD i up
def full36 : State := regTab.foldl (fun s r => r.flds.foldl (fun s f => [0,3,7,15,47].foldl (fun s i => if i < r.n then s.wr f (2 ^ f.w - 1) i else s) s) s) State.reset
def wA : State := {full36 with cara.wins := [(3, {early := 5, late := 3})]}

theorem wit_ClearCounterBits :
    ((w36 0).hosted (0#11).toNat = true ∧ (w36 0).moving (0#11).toNat = false) ∧
    (0#3 = 0#3) ∧
    (1#3 ≠ 0#3) :=
  ⟨by decide +kernel, by decide +kernel, by decide +kernel⟩

end W36

end Sys2Proof.Tests
end

section
/-! PROOF. What reset leaves (R9, R579; log entries 3, 4 and 12), and the accesses of the host. -/
namespace Sys2Proof.Machine

/-! The state after reset. -/

/-- No command, and nothing stored: memory is canonical and the time base is at 0. -/
theorem State.reset_sound : State.reset.sound := ⟨rfl, Nat.two_pow_pos 64⟩

/-- No register is stored, so every field reads the reset value of its table (R9). -/
theorem State.reset_rd (f : Fld) (i : Nat) : State.reset.rd f i = f.rst := rfl

theorem State.reset_peek (a : Nat) : State.reset.peek a = memDef a := rfl

theorem State.reset_tile (t : Nat) : State.reset.tile t = {} := rfl

/-- Every logical index is hosted on the slot of its own number (R86). -/
theorem State.reset_slotOf (b k : Nat) : State.reset.slotOf b k = k := State.reset_rd (fMapSlot k) b

theorem State.reset_spare (b : Nat) : State.reset.spare b = some 16 := by
  unfold State.spare
  rw [State.reset_rd]
  rfl

/-- Settles O2: nothing is stored at reset, so each part of the state reads its default, and each field the reset value of its
register table. -/
theorem resetState : Obligations.ResetState := by
  have rd := State.reset_rd
  exact ⟨State.reset_sound, rfl, rfl, State.reset_peek, State.reset_tile, rd,
    fun b k _ => ⟨State.reset_slotOf b k, State.reset_spare b⟩,
    fun i => ⟨rd F.BRD_CTRL_ROT_EN i, rd F.BRD_STATUS_GOOD_COUNT i, rd F.ARR_SKEW_COL_PROG i, rd F.ARR_SKEW_ROW_PROG i,
      rd F.CHL_LANES_GOOD i, rd F.MEM_SCRUB_PERIOD i, rd F.WRP_STATUS_IN_SERVICE i⟩,
    rd F.NOC_ACK_TMO_CROSS 0, rd F.NOC_ACK_TMO_LOCAL 0, rd F.SYNC_IO_CTRL_TMO 0, rd F.SYNC_IO_STATUS_HOLD 0, rd F.HIF_ID_SAFETY 0,
    rd F.FW_CTRL_LOG_LEVEL 0, rd F.FW_MOLT_CTRL_TMO 0, rd F.FW_TRACE_EN_GROUPS 0, rd F.COC_STATUS_FREE 0, rd F.PWR_VOLT_REQ_MV 0,
    rd F.HIF_STATE_DEV 0, rd F.HIF_STATE_HOST 0⟩

/-! The host puts the function into D3hot while an event waits for its decision. -/

/-- A host write of 3 to the power state of configuration space is the entry into D3hot (R393, R412; log entry 23). -/
theorem exec_regWrite_powerState_d3hot {s : State} (h : s.linkedUp = true) :
    exec (.regWrite true (BitVec.ofNat 48 (cfgBase + 0x44)) 4#4 ((3#32).setWidth 64)) s = .next s.toD3hot := by
  obtain ⟨hlink, hd0⟩ : s.linkIs = true ∧ s.host.d3hot = false := by simpa [State.linkedUp] using h
  have hw : s.write32 true (cfgBase + 0x44) 3#32 = s.toD3hot := by simp [State.write32, State.cfgWrite, cfgBase, hd0]
  show execRegWrite true (BitVec.ofNat 48 (cfgBase + 0x44)) 4#4 ((3#32).setWidth 64) s = .next s.toD3hot
  simpa [execRegWrite, onlyIf, hlink, cfgBase] using hw

/-- The device runs with a host attached, and a residue mismatch on logical tile 0 (0x2001) waits for the host's decision; the table in
force fences the tile for it (R464, R465, R470). -/
def fenceWaitsForHost : State :=
  let s : State := { dev := { step := 12, phase := 0, rstLow := false, power := true },
                     host := { decides := [{ ev := { line := 0, code := 0x2001, units := [0] } }] },
                     cara := { table := [{ code := 0x2001, react := 2, decide := true }] } }
  ((s.wr F.HIF_STATE_DEV 1).wr F.HIF_STATE_HOST 2).wr (fMapValid 0) 1 0

theorem fenceWaitsForHost_linkedUp : fenceWaitsForHost.linkedUp = true := by decide +kernel

/-- Leaving the attached state releases the decision: the table's fence is carried out at once, and a forced move of logical index 0
is due (R80, R411). -/
theorem fenceWaitsForHost_toD3hot : (fenceWaitsForHost.toD3hot.brood 0).forcedDue = [0] := by decide +kernel

/-- Refutes O47: the statement's clause on the power state has every entry into D3hot leave the swarm as it was. An attached host that enters
D3hot while a decision waits leaves the attached state, the waiting event takes its table entry at once (R411), and where that fences
a unit a forced move becomes due in its brood. -/
theorem not_hostAccesses : ¬ Obligations.HostAccesses := by
  unfold Obligations.HostAccesses
  intro h
  obtain ⟨-, -, -, -, -, -, -, -, config⟩ := h fenceWaitsForHost fenceWaitsForHost_linkedUp
  obtain ⟨-, -, -, toD3hot⟩ := config 3#32
  obtain ⟨u, hu, -, -, hswarm⟩ := toD3hot (by decide)
  rw [exec_regWrite_powerState_d3hot fenceWaitsForHost_linkedUp] at hu
  obtain rfl : fenceWaitsForHost.toD3hot = u := by injection hu
  have same : fenceWaitsForHost.toD3hot.brood 0 = fenceWaitsForHost.brood 0 := by simp only [State.brood, hswarm]
  have idle : (fenceWaitsForHost.brood 0).forcedDue = [] := rfl
  rw [← same, fenceWaitsForHost_toD3hot] at idle
  exact absurd idle (by decide)

end Sys2Proof.Machine
end

section
/-! PROOF. Steps: what a step runs, that no command gets stuck, and what every step keeps (R47, R533). -/
namespace Sys2Proof.Machine

/-- Settles O1, by the two cases of the queue. -/
theorem stepRunsFrontCommand : Obligations.StepRunsFrontCommand := by
  refine ⟨fun s c r h => ?_, fun s h => ?_⟩
  · simp only [step, h]
  · simp only [step, h, tickOnce]

theorem execCsiHeaderError_next (rx vc : BitVec 4) (dt : BitVec 6) (uncorr : Bool) (s : State) :
    ∃ t, execCsiHeaderError rx vc dt uncorr s = .next t := by
  cases uncorr with
  | true => exact ⟨_, rfl⟩
  | false => exact ⟨_, rfl⟩

/-- Every command's meaning is `done` of a state; only the header error first splits on its operand. -/
theorem exec_next (c : Instr) (s : State) : ∃ t, exec c s = .next t := by
  cases c
  case csiHeaderError rx vc dt uncorr => exact execCsiHeaderError_next rx vc dt uncorr s
  all_goals exact ⟨_, rfl⟩

/-- A sound state is good for its own queue and fuses. -/
theorem State.sound.good {s : State} (h : s.sound) : Good s.pending s.fuses s :=
  ⟨h.1, rfl, FusesKeep.refl _, h.2⟩

/-- What `Good` says of the state after a step is what a step keeps. -/
theorem Good.kept {q : List Instr} {F : Fuses} {t : State} (h : Good q F t) :
    t.sound ∧ FusesKept F t.fuses ∧ t.pending = q := by
  obtain ⟨hmem, hqueue, hfuses, htick⟩ := h
  exact ⟨⟨hmem, htick⟩, hfuses, hqueue⟩

/-- Settles O3: a command's meaning answers a next state, and keeps what `Good` says of the state with the queue's rest; one tick
does so too. -/
theorem stepKeepsSound : Obligations.StepKeepsSound := by
  intro s hs
  cases hq : s.pending with
  | nil =>
    have good := tickOnce_good hs.good
    rw [hq] at good
    exact ⟨tickOnce s, by simp only [step, hq], good.kept⟩
  | cons c r =>
    have rest : ({ s with pending := r } : State).sound := hs
    obtain ⟨t, ht⟩ := exec_next c { s with pending := r }
    have good := exec_good (i := c) rest.good
    rw [ht] at good
    exact ⟨t, by simp only [step, hq, ht], Good.kept good⟩

end Sys2Proof.Machine
end

section
/-! PROOF. A command whose tag is in flight is dropped (R40, R414). -/
namespace Sys2Proof.Machine

theorem satAt_eq_min (m v : Nat) : satAt m v = min v m := by
  unfold satAt
  split <;> omega

/-- A counter's next value fits its field, so that reading it back gives what its register table says. -/
theorem State.rd_cnt_same (s : State) (f : Fld) (i k : Nat) :
    (s.cnt f i k).rd f i = if f.wrap then (s.rd f i + k) % 2 ^ f.w else min (s.rd f i + k) (2 ^ f.w - 1) := by
  have pos := Nat.two_pow_pos f.w
  unfold State.cnt
  rw [State.rd_wr_same]
  cases f.wrap with
  | true => rfl
  | false =>
    simp only [satAt_eq_min, Bool.false_eq_true, if_false]
    exact Nat.mod_eq_of_lt (by omega)

theorem State.rd_cnt_ne (s : State) {f g : Fld} {i j k : Nat} (h : g.key j ≠ f.key i) : (s.cnt f i k).rd g j = s.rd g j :=
  State.rd_wr_ne s h

/-- A counter that reads in `s` what it reads in `u` has risen after it counts in `u`. -/
theorem counted_cnt {s u : State} (f : Fld) (i k : Nat) (h : u.rd f i = s.rd f i) : Counted s (u.cnt f i k) f i k := by
  unfold Counted
  rw [State.rd_cnt_same, h]

/-- Raising a vector touches the armed, pending and raised vectors of the host interface and nothing else. -/
theorem State.msix_eq (s : State) (v : Nat) :
    s.msix v = { s with host.armed := (s.msix v).host.armed, host.pend := (s.msix v).host.pend, host.raised := (s.msix v).host.raised } := by
  unfold State.msix
  dsimp only
  split
  · split
    · rfl
    · split <;> rfl
  · rfl

/-- Consuming the entry at CONS moves CONS and may raise vector 5 (R401, R405). -/
theorem State.consumed_eq (s : State) :
    s.consumed = { s with regs := s.consumed.regs, host := s.consumed.host } ∧
      s.consumed.host.waiting = s.host.waiting ∧ s.consumed.host.decides = s.host.decides ∧
      ∀ (f : Fld) (i : Nat), s.consumed.rd f i = (s.wr F.HIF_RING_CONS_CONS (s.rd F.HIF_RING_CONS_CONS 0 + 1) 0).rd f i := by
  unfold State.consumed
  dsimp only
  split
  · rw [State.msix_eq]
    exact ⟨rfl, rfl, rfl, fun _ _ => rfl⟩
  · exact ⟨rfl, rfl, rfl, fun _ _ => rfl⟩

/-- What a dropped command leaves of the state in which its entry has been read. -/
def Dropped (v u : State) : Prop :=
  Consumed v u ∧ Counted v u F.HIF_VIOL1_TAG 0 1 ∧
    (∀ (g : Fld) (i : Nat), g.key i ≠ F.HIF_RING_CONS_CONS.key 0 → g.key i ≠ F.HIF_VIOL1_TAG.key 0 → u.rd g i = v.rd g i) ∧
    u = { v with regs := u.regs, host := u.host } ∧ u.host.waiting = v.host.waiting ∧ u.host.decides = v.host.decides

theorem dropped_consumed (v : State) : Dropped v (v.consumed.cnt F.HIF_VIOL1_TAG) := by
  obtain ⟨frame, waiting, decides, rd⟩ := v.consumed_eq
  refine ⟨?_, counted_cnt _ _ _ ?_, fun g i hcons hviol => ?_, ?_, waiting, decides⟩
  · unfold Consumed
    rw [State.rd_cnt_ne _ (by decide), rd, State.rd_wr_same]
    rfl
  · rw [rd, State.rd_wr_ne _ (by decide)]
  · rw [State.rd_cnt_ne _ hviol, rd, State.rd_wr_ne _ hcons]
  · exact congrArg (fun w : State => { w with regs := (v.consumed.cnt F.HIF_VIOL1_TAG).regs }) frame

section
variable {s v : State} {l : List Byte} (ready : s.cmdReady = true)
  (read : s.busRead (mDsp 0) (s.ringSlot 0 (s.rd F.HIF_RING_CONS_CONS 0)) 64 = (.ok, l, v))
  (bad : s.tagBad (cmdAt l).tag = true)
include ready read bad

/-- An entry with a bad tag is dropped by the command whose entry it is (R414). -/
theorem State.takeCmd_of_tagBad {mine : Cmd → Bool} {f : Cmd → State → State} (h : mine (cmdAt l) = true) :
    Dropped v (s.takeCmd mine f) := by
  unfold State.takeCmd
  simp only [ready, read, h, bad, Bool.not_true, Bool.false_eq_true, if_false, if_true]
  exact dropped_consumed v

theorem State.opcode_of_tagBad {op : Nat} {sel ok : Cmd → Bool} {f : Cmd → State → State} (hop : (cmdAt l).op = op)
    (hsel : sel (cmdAt l) = true) : Dropped v (s.opcode op sel ok f) :=
  State.takeCmd_of_tagBad ready read bad (by simp [hop, hsel])

end

/-- A tag is bad while a command with it waits or a host job with it runs (R40, R414). -/
theorem State.tagBad_of_inFlight {s : State} {tag : Nat}
    (h : (∃ w ∈ s.host.waiting, w.cmd.tag = tag) ∨ (∃ j ∈ s.sched.jobs, j.host = true ∧ j.tag = tag)) : s.tagBad tag = true := by
  unfold State.tagBad State.waiting?
  rcases h with ⟨w, hw, rfl⟩ | ⟨j, hj, hhost, rfl⟩
  · have found : (s.host.waiting.find? (fun x => x.cmd.tag == w.cmd.tag)).isSome = true :=
      List.find?_isSome.mpr ⟨w, hw, by simp⟩
    simp [found]
  · have found : s.sched.jobs.any (fun x => x.host && x.tag == j.tag) = true :=
      List.any_eq_true.mpr ⟨j, hj, by simp [hhost]⟩
    simp [found]

/-- Settles O49: whichever command the entry belongs to, its rule takes it with `takeCmd`, which drops an entry with a bad tag. -/
theorem tagsInFlightAreDropped : Obligations.TagsInFlightAreDropped := by
  intro s v l ready read c test inFlight e he hrow
  have bad : s.tagBad (cmdAt l).tag = true := State.tagBad_of_inFlight inFlight
  have opcode := fun (op : Nat) (sel ok : Cmd → Bool) (f : Cmd → State → State) (hop : c.op = op) (hsel : sel c = true) =>
    State.opcode_of_tagBad (op := op) (ok := ok) (f := f) ready read bad hop hsel
  have selects : ∀ n, test = n → Cmd.selects n c = true := fun n h => by simpa [Cmd.selects] using h
  simp only [List.mem_cons, List.not_mem_nil, or_false] at he
  rcases he with rfl | rfl | rfl | rfl | rfl | rfl | rfl | rfl | rfl | rfl | rfl | rfl | rfl | rfl | rfl | rfl | rfl
  · have mine : c.op = 1 := hrow
    refine ⟨_, rfl, State.takeCmd_of_tagBad ready read bad ?_⟩
    simp only [Bool.and_eq_true, Bool.or_eq_true, beq_iff_eq]
    exact ⟨mine, .inl (.inl bad)⟩
  · exact ⟨_, rfl, opcode 2 _ _ _ hrow rfl⟩
  · exact ⟨_, rfl, opcode 3 _ _ _ hrow rfl⟩
  · exact ⟨_, rfl, opcode 4 _ _ _ hrow rfl⟩
  · exact ⟨_, rfl, opcode 5 _ _ _ hrow rfl⟩
  · exact ⟨_, rfl, opcode 6 _ _ _ hrow rfl⟩
  · exact ⟨_, rfl, opcode 7 _ _ _ hrow rfl⟩
  · exact ⟨_, rfl, opcode 8 _ _ _ hrow rfl⟩
  · exact ⟨_, rfl, opcode 9 _ _ _ hrow rfl⟩
  · exact ⟨_, rfl, opcode 10 _ _ _ hrow.1 (selects 1 hrow.2)⟩
  · exact ⟨_, rfl, opcode 10 _ _ _ hrow.1 (selects 2 hrow.2)⟩
  · exact ⟨_, rfl, opcode 10 _ _ _ hrow.1 (selects 3 hrow.2)⟩
  · exact ⟨_, rfl, opcode 10 _ _ _ hrow.1 (selects 4 hrow.2)⟩
  · exact ⟨_, rfl, opcode 10 _ _ _ hrow.1 (selects 5 hrow.2)⟩
  · exact ⟨_, rfl, opcode 11 _ _ _ hrow rfl⟩
  · exact ⟨_, rfl, opcode 12 _ _ _ hrow rfl⟩
  · have mine : Cmd.unlisted c = true := by simpa [Cmd.unlisted, test, or_assoc] using hrow
    refine ⟨_, rfl, ?_⟩
    unfold onlyIf
    simp only [ready, if_true, read]
    exact State.takeCmd_of_tagBad ready read bad mine

end Sys2Proof.Machine
end

section
/-! PROOF. A frame that waits for its barrier may be renumbered as it opens (R25, R223). -/
namespace Sys2Proof.Machine

/-- A multi-chip pipeline whose gather window has expired, while the barrier that its last frame left has shown the number 5 to be
the highest of the chips (R223). -/
def expiredAfterMismatch : State :=
  let s : State := { tick := 1, mesh := { sio := { maxFrame := some 5 } },
                     sched := { pipes := [{ desc := { num := 0, multi := true }, running := true, openAt := some 0 }] } }
  s.wr F.SYNC_IO_CTRL_EN 1

/-- The frame that opens enters the barrier with number 5, and the next one takes 6. -/
theorem expiredAfterMismatch_trigger :
    ((expiredAfterMismatch.trigger 0).pipe? 0).map (·.frameNum) = some 6 := by decide +kernel

/-- Refutes O26: the statement has the opened frame keep the pipeline's frame number. A frame of a multi-chip pipeline that opens after
the numbers of the last barrier differed enters its barrier at once, with the highest number received (R223). -/
theorem not_framesOpenAndStagesStart : ¬ Obligations.FramesOpenAndStagesStart := by
  unfold Obligations.FramesOpenAndStagesStart
  intro h
  obtain ⟨opens, -⟩ := h expiredAfterMismatch 0#6 0#8 _ rfl
  obtain ⟨u, hu, y, f, hy, -, -, -, next, -⟩ := opens 0 rfl rfl rfl (by decide)
  obtain rfl : expiredAfterMismatch.trigger 0 = u := by
    have run : exec (.gatherExpiry 0#6) expiredAfterMismatch = .next (expiredAfterMismatch.trigger 0) := rfl
    rw [run] at hu
    injection hu
  have six := expiredAfterMismatch_trigger
  have opened : (expiredAfterMismatch.trigger 0).pipe? 0 = some y := hy
  rw [opened, Option.map_some, next] at six
  exact absurd six (by decide)

end Sys2Proof.Machine
end

section
/-! PROOF. A publication starts the jobs of TIL_CTRL.START that wait (R33, R85). -/
namespace Sys2Proof.Machine

/-- Tile 0 is hosted and idle, a job that a write of START began for it waits, and the one frame of pipeline 0 passed its last check four
ticks ago. -/
def publishWhileStartWaits : State :=
  let s : State := { tick := 4,
                     sched := { models := [{ stages := [{ num := 1 }] }],
                                pipes := [{ frames := [{ doneAt := some 0 }] }],
                                singles := [{ id := 1, stage := 1, parts := [{ unit := 0 }], waiting := true, single := true }] } }
  s.wr (fMapValid 0) 1 0

/-- The publication ends with a start of every job that waits and can run: tile 0 runs. -/
theorem publishWhileStartWaits_publishFrame :
    ((publishWhileStartWaits.publishFrame { frames := [{ doneAt := some 0 }] } { doneAt := some 0 }).tile 0).run = 1 := by
  decide +kernel

/-- Refutes O28: the statement's premise that no job waits speaks of the jobs in flight alone. A job that a write of START began is not
among them (R37, R85); where one waits, the publication that frees the sequencer starts it, and the swarm changes. -/
theorem not_framesArePublishedInOrder : ¬ Obligations.FramesArePublishedInOrder := by
  unfold Obligations.FramesArePublishedInOrder
  intro h
  obtain ⟨published, -⟩ := h publishWhileStartWaits 0#6 _ _ _ rfl rfl (by simp [publishWhileStartWaits]) rfl
  obtain ⟨u, hu, hswarm, -⟩ := published rfl ⟨0, rfl, by decide, rfl, by simp [publishWhileStartWaits]⟩ rfl
  obtain rfl : publishWhileStartWaits.publishFrame { frames := [{ doneAt := some 0 }] } { doneAt := some 0 } = u := by
    have run : exec (.publish 0#6) publishWhileStartWaits =
      .next (publishWhileStartWaits.publishFrame { frames := [{ doneAt := some 0 }] } { doneAt := some 0 }) := rfl
    rw [run] at hu
    injection hu
  have runs := publishWhileStartWaits_publishFrame
  rw [State.tile, hswarm] at runs
  exact absurd runs (by decide)

end Sys2Proof.Machine
end

section
/-! PROOF. The end of a job that is both a host's and begun by a write of START (R85, R415). -/
namespace Sys2Proof.Machine

/-- Tile 0 has ended its part of a job that is marked both as a host job and as begun by a write of START; the completion ring has one
entry of 64 bytes at address 4096. -/
def hostStartEnds : State :=
  let s : State := { swarm := { tiles := [(0, { run := 1, job := { active := true, job := 1, ended := true } })] },
                     sched := { models := [{ stages := [{ num := 1 }] }],
                                singles := [{ id := 1, stage := 1, parts := [{ unit := 0 }], host := true, single := true }] } }
  (s.wr F.HIF_RING_CFG_ESIZE 4 1).wr F.HIF_RING_BASE_BASE 1 1

/-- The state after the tile's PART_FINISH. -/
def hostStartEnded : State :=
  match exec (.partFinish 0#11) hostStartEnds with
  | .next u => u
  | _ => {}

/-- The first byte of the completion ring is the KIND of a job's entry (R415). -/
theorem hostStartEnded_peek : hostStartEnded.peek 4096 = 2#8 := by decide +kernel

/-- Refutes O27: the statement has a job that a write of START began end without a change of memory, and does not ask that it is no host
job. The end of a host job writes its completion entry (R415). -/
theorem not_partsAndStagesEnd : ¬ Obligations.PartsAndStagesEnd := by
  unfold Obligations.PartsAndStagesEnd
  intro h
  obtain ⟨-, started, -⟩ := h hostStartEnds (by decide) rfl
  obtain ⟨u, hu, -, -, -, hmem, -⟩ := started 0#11 _ _ rfl rfl (by decide) rfl rfl rfl rfl rfl rfl
  have ended : hostStartEnded = u := by rw [hostStartEnded, hu]
  have entry := hostStartEnded_peek
  rw [ended, hmem 4096] at entry
  exact absurd entry (by decide)

end Sys2Proof.Machine
end

section
/-! PROOF. A rerun whose tile leaves a slot that is not good (R58, R81, R501). -/
namespace Sys2Proof.Machine

/-- Logical tile 0 is hosted on slot 0, which is QM-only, its part waits for the rerun, and the job holds the spare, slot 16. -/
def rerunLeavesQmSlot : State :=
  let s : State := { swarm := { broods := [(0, { spareUser := some 1 })] },
                     sched := { models := [{ stages := [{ num := 1 }] }],
                                jobs := [{ id := 1, stage := 1, parts := [{ unit := 0, status := 4 }] }] } }
  (s.wr (fMapValid 0) 1 0).wr (fSlotState 0) 1 0

/-- The state after the brood's RERUN_START. -/
def rerunLeftQmSlot : State :=
  match exec (.rerunStart 0#7) rerunLeavesQmSlot with
  | .next u => u
  | _ => {}

/-- The brood is left without a spare (R81). -/
theorem rerunLeftQmSlot_spare : rerunLeftQmSlot.spare 0 = none := by decide +kernel

/-- Refutes O29: the statement makes the slot that the failed part's tile leaves the spare in every case. A slot that is not good, here one
that is QM-only, does not become the spare: the brood has no margin (R58, R81). -/
theorem not_rerunsAndSpares : ¬ Obligations.RerunsAndSpares := by
  unfold Obligations.RerunsAndSpares
  intro h
  obtain ⟨-, rerun, -⟩ := h rerunLeavesQmSlot 0#7
  obtain ⟨u, hu, -, hspare, -⟩ := rerun _ _ 0 16 rfl rfl (by decide) rfl (by decide) rfl rfl rfl rfl rfl rfl (by decide) (by decide) (by decide)
  have left : rerunLeftQmSlot = u := by rw [rerunLeftQmSlot, hu]
  have noSpare := rerunLeftQmSlot_spare
  rw [left] at noSpare
  exact absurd (hspare.symm.trans noSpare) (by simp)

end Sys2Proof.Machine
end

section
/-! PROOF. A counter that holds more than its register can (R301, R302). -/
namespace Sys2Proof.Machine

/-- Camera stream 0 takes the RAW8 packets of channel 0 of receiver 0, whose stored CRC count is one beyond the register's width. -/
def crcCountBeyondWidth : State :=
  { regs := [(F.INT_CSI_ERR_CRC.key 0, 2 ^ F.INT_CSI_ERR_CRC.w)],
    intake := { streams := [(0, { desc := { en := true, dt := 0x2A } })] } }

theorem crcCountBeyondWidth_mayLose : crcCountBeyondWidth.mayLose 0 :=
  ⟨by decide, rfl, by decide, by decide, by simp [crcCountBeyondWidth], by simp [crcCountBeyondWidth]⟩

/-- A packet of a type that no stream takes, with a good CRC, leaves the CRC count as it was. -/
theorem crcCountBeyondWidth_unclaimed :
    (crcCountBeyondWidth.unclaimed 0).rd F.INT_CSI_ERR_CRC 0 = 2 ^ F.INT_CSI_ERR_CRC.w := by decide +kernel

/-- Refutes O35: the statement counts an unclaimed packet with a good CRC as a rise of the CRC count by 0, which is a saturated value.
The count stays as it is stored, also where that is more than the register's width holds, which nothing in the statement excludes. -/
theorem not_cameraPackets : ¬ Obligations.CameraPackets := by
  unfold Obligations.CameraPackets
  intro h
  obtain ⟨-, -, -, -, -, -, -, -, -, unclaimed⟩ :=
    h crcCountBeyondWidth 0#4 0#4 0 (by decide +kernel) rfl crcCountBeyondWidth_mayLose rfl
  obtain ⟨u, hu, -, hcrc, -⟩ := unclaimed 0x2B#6 true (by decide +kernel)
  obtain rfl : crcCountBeyondWidth.unclaimed 0 = u := by
    have run : exec (.csiUnclaimedPacket 0#4 0#4 ⟨0x2B#6, true⟩) crcCountBeyondWidth =
      .next (crcCountBeyondWidth.unclaimed 0) := rfl
    rw [run] at hu
    injection hu
  unfold Counted at hcrc
  have same : (crcCountBeyondWidth.unclaimed 0).rd F.INT_CSI_ERR_CRC 0 = 2 ^ F.INT_CSI_ERR_CRC.w := crcCountBeyondWidth_unclaimed
  exact absurd (same.symm.trans hcrc) (by decide +kernel)

end Sys2Proof.Machine
end

section
/-! PROOF. An event of a restart in progress calls for no further one (R463, R484). -/
namespace Sys2Proof.Machine

/-- The collector has latched that brood 0 could not be mapped (0x1023), raised in step 1 of a partial restart. -/
def unmappedInRestart : State := { cara := { latched := [{ code := 0x1023, units := [0xf000], op := 0x201 }] } }

/-- The state after the collector's reaction. -/
def unmappedInRestartReacted : State :=
  match exec .collectorReaction unmappedInRestart with
  | .next u => u
  | _ => {}

/-- The partial restart that the table names is not called for: one is in progress. -/
theorem unmappedInRestartReacted_restartDue : unmappedInRestartReacted.cara.restartDue = 0 := by decide +kernel

/-- Refutes O57: the statement has every event whose reaction is a partial restart call for one. The loss of a brood (0x1023) that a start or
restart itself raises calls for none. -/
theorem not_collectorLatchesAndReacts : ¬ Obligations.CollectorLatchesAndReacts := by
  unfold Obligations.CollectorLatchesAndReacts
  intro h
  obtain ⟨-, -, -, -, -, -, reacts, -⟩ := h unmappedInRestart
  obtain ⟨-, table⟩ := reacts _ _ rfl rfl
  obtain ⟨-, -, -, -, restarts, -⟩ := table rfl
  obtain ⟨partialRestart, -⟩ := restarts rfl
  obtain ⟨u, hu, -, -, -, due⟩ := partialRestart (by decide +kernel)
  have reacted : unmappedInRestartReacted = u := by rw [unmappedInRestartReacted, hu]
  have none := unmappedInRestartReacted_restartDue
  rw [reacted, due] at none
  exact absurd none (by decide)

end Sys2Proof.Machine
end

section
/-! PROOF. A host's frame whose number is that of a frame that waits for its barrier (R223, R419). -/
namespace Sys2Proof.Machine

/-- The stage and the pipeline of the SUBMIT below. The pipeline is of one chip, and a frame with number 7 of it waits for a barrier. -/
def submittedStage : Stage := { num := 1 }
def pipelineWithWaitingFrame : Pipeline :=
  { desc := { num := 0, stages := [1] }, hostSched := true, free := [0], frames := [{ num := 7, barrier := true }] }

/-- A SUBMIT of stage 1 of pipeline 0 for frame 7, with tag 1, stands in the command ring. The last barrier has shown 9 to be the highest
frame number of the chips (R223). -/
def submitForWaitingNumber : State :=
  let s : State := { mesh := { sio := { maxFrame := some 9 } },
                     sched := { models := [{ stages := [submittedStage] }], binds := [{ stage := 1 }],
                                pipes := [pipelineWithWaitingFrame] } }
  let s := (s.wr F.HIF_STATE_HOST 2).wr F.HIF_STATE_DEV 1
  let s := ((s.wr F.HIF_RING_CFG_ESIZE 4 0).wr F.HIF_RING_BASE_BASE 1 0).wr F.HIF_RING_PROD_PROD 1 0
  let s := (s.wr F.HIF_RING_CFG_ESIZE 4 1).wr F.HIF_RING_BASE_BASE 2 1
  (s.wr F.SYNC_IO_CTRL_EN 1).poke 4096 (natLe 2 1 ++ natLe 2 1 ++ natLe 4 1 ++ natLe 8 7)

/-- The command as the dispatch cores read it. -/
def submitFor7 : Cmd := { op := 1, tag := 1, a := 1#32, b := 7#64, refs := List.replicate 4 0#64 }

theorem submitForWaitingNumber_takes : submitForWaitingNumber.takes submitFor7 := by
  refine ⟨by decide +kernel, by decide +kernel,
    (submitForWaitingNumber.busRead (mDsp 0) (submitForWaitingNumber.ringSlot 0 (submitForWaitingNumber.rd F.HIF_RING_CONS_CONS 0)) 64).2.1,
    (submitForWaitingNumber.busRead (mDsp 0) (submitForWaitingNumber.ringSlot 0 (submitForWaitingNumber.rd F.HIF_RING_CONS_CONS 0)) 64).2.2,
    Prod.ext ?_ rfl, by decide +kernel⟩
  decide +kernel

theorem submitForWaitingNumber_answers : submitForWaitingNumber.answers :=
  ⟨⟨by decide +kernel, by decide +kernel, by decide +kernel, by decide +kernel, by intro e he; cases he⟩, rfl⟩

/-- The state after the SUBMIT. -/
def submittedForWaitingNumber : State :=
  match exec .submitCmd submitForWaitingNumber with
  | .next u => u
  | _ => {}

/-- The frame that the SUBMIT opens is renumbered with the one that waits, and no job is made. -/
theorem submittedForWaitingNumber_jobs : submittedForWaitingNumber.sched.jobs = [] := by decide +kernel

/-- Refutes O48: the statement has each acceptable SUBMIT make its job. Where the number that it gives is that of a frame that waits for a
barrier, which nothing in the statement excludes, and the numbers of the last barrier differed, the opened frame takes a new number with
that frame (R223), and no job is made for the number of the command. -/
theorem not_modelAndModeCommands : ¬ Obligations.ModelAndModeCommands := by
  unfold Obligations.ModelAndModeCommands
  intro h
  obtain ⟨commands, -⟩ := h
  obtain ⟨-, submit, -⟩ := commands submitForWaitingNumber submitFor7 submitForWaitingNumber_takes submitForWaitingNumber_answers
    (by intro w hw; cases hw)
  obtain ⟨u, hu, -, j, hj, -⟩ := submit rfl submittedStage pipelineWithWaitingFrame { stage := 1 } (by decide +kernel) (by decide +kernel)
    (by decide) (by decide +kernel) rfl (by decide +kernel) rfl
  have submitted : submittedForWaitingNumber = u := by rw [submittedForWaitingNumber, hu]
  have noJobs := submittedForWaitingNumber_jobs
  rw [submitted] at noJobs
  rw [noJobs] at hj
  cases hj

end Sys2Proof.Machine
end

section
/-! PROOF. Memory without words in error: reads answer what is stored, writes store it, and nothing else changes (R388 to R390). -/
namespace Sys2Proof.Machine

theorem State.peekN_eq_map (s : State) (a n : Nat) : s.peekN a n = (List.range n).map (fun i => s.peek (a + i)) := by
  induction n generalizing a with
  | zero => rfl
  | succ n ih =>
    rw [State.peekN, ih, List.range_succ_eq_map, List.map_cons, List.map_map]
    congr 1
    exact List.map_congr_left (fun i _ => congrArg s.peek (by simp only [Nat.succ_eq_add_one]; omega))

theorem State.peekN_length (s : State) (a n : Nat) : (s.peekN a n).length = n := by
  rw [State.peekN_eq_map, List.length_map, List.length_range]

theorem State.sramErrs_of_sram_nil {s : State} (h : s.mem.sram = []) (a n : Nat) : s.sramErrs a n = [] := by
  rw [State.sramErrs, h, List.filter_nil]

theorem FMap.clear_none {α : Type} (m : FMap α) : FMap.clear m (fun _ => false) = m := by
  simp [FMap.clear]

theorem State.sramRead_clean {s : State} {a n : Nat} (h : s.sramErrs a n = []) (master : Nat) (inner : Bool) :
    s.sramRead master inner a n = (some (s.peekN a n), s) := by
  simp [State.sramRead, h, State.each]

theorem State.sramWrite_clean {s : State} {a : Nat} {d : List Byte} (h : s.sramErrs a d.length = []) (master : Nat) (inner : Bool) :
    s.sramWrite master inner a d = (true, s.poke a d) := by
  simp [State.sramWrite, h, State.each, FMap.clear_none]
  rfl

section
variable {s : State} {a : Nat} (chip : gddrEnd ≤ a)
include chip

theorem State.busRead_sram {n : Nat} (pos : 0 < n) (one : s.oneRegion a n = true) (clean : s.sramErrs a n = []) (master : Nat) :
    s.busRead master a n = (.ok, s.peekN a n, s) := by
  rw [State.busRead, if_neg (by omega), if_neg (by simp [one]), if_neg (by omega), State.sramRead_clean clean]

theorem State.busWrite_sram {d : List Byte} (some : d ≠ []) (one : s.oneRegion a d.length = true) (clean : s.sramErrs a d.length = [])
    (master : Nat) : s.busWrite master a d = (.ok, s.poke a d) := by
  rw [State.busWrite, State.busWriteAt, if_neg some, if_neg (by simp [one]), if_neg (by omega), State.sramWrite_clean clean]
  rfl

end

/-- Bytes copied to a place read there as they read at their source. -/
theorem State.peek_poke_peekN (s : State) (a b n i : Nat) (h : i < n) : (s.poke b (s.peekN a n)).peek (b + i) = s.peek (a + i) := by
  have copied := s.peekN_poke b (s.peekN a n)
  rw [State.peekN_length, State.peekN_eq_map, State.peekN_eq_map s] at copied
  rw [State.peekN_eq_map s]
  exact List.map_inj_left.mp copied i (List.mem_range.mpr h)

end Sys2Proof.Machine
end

section
/-! PROOF. DMA descriptors: a row of one request, and the end of a descriptor (R41, R164, R177, R187). -/
namespace Sys2Proof.Machine

/-! One row. -/

theorem rowAt_zero (base : Nat) (stride : Int) : rowAt base stride 0 = some base := by
  simp [rowAt]

/-- Bytes without a hole are one run. -/
theorem byteRuns_map_some (i : Nat) (b : Byte) (l : List Byte) : byteRuns i ((b :: l).map some) = [(i, b :: l)] := by
  induction l generalizing i b with
  | nil => rfl
  | cons c l ih =>
    rw [List.map_cons, byteRuns, ih]
    simp

/-- A row that one request carries from clean on-chip memory is read whole, and nothing changes. -/
theorem State.dmaRead_oneRequest {s : State} {a n : Nat} (t fuel : Nat) (chip : gddrEnd ≤ a) (pos : 0 < n) (fits : a % 64 + n ≤ 64)
    (one : s.oneRegion a n = true) (clean : s.sramErrs a n = []) :
    State.dmaRead t (fuel + 2) a n s = ((s.peekN a n).map some, none, s) := by
  have k : Nat.min n (64 - a % 64) = n := Nat.min_eq_left (by omega)
  rw [State.dmaRead, if_neg (by omega)]
  simp only [k, State.busRead_sram chip pos one clean, Nat.sub_self, State.dmaRead, if_true, List.append_nil]

theorem State.dmaWrite_oneRun {s : State} {b : Nat} {d : List Byte} (t : Nat) (chip : gddrEnd ≤ b) (some : d ≠ [])
    (one : s.oneRegion b d.length = true) (clean : s.sramErrs b d.length = []) :
    s.dmaWrite t b (d.map Option.some) = (none, s.poke b d) := by
  obtain ⟨x, l, rfl⟩ := List.exists_cons_of_ne_nil some
  rw [State.dmaWrite, byteRuns_map_some]
  simp only [List.foldl_cons, List.foldl_nil, Nat.add_zero, State.busWrite_sram chip some one clean, if_true]

/-- The one row of a descriptor between clean on-chip memories is copied. -/
theorem State.dmaRows_oneRow {s : State} {q : DmaDesc} (t : Nat) (rows : q.rows = 1) (pos : 0 < q.rowBytes)
    (fits : q.src.toNat % 64 + q.rowBytes ≤ 64) (clean : s.mem.sram = []) (srcChip : gddrEnd ≤ q.src.toNat)
    (dstChip : gddrEnd ≤ q.dst.toNat) (srcOne : s.oneRegion q.src.toNat q.rowBytes = true)
    (dstOne : s.oneRegion q.dst.toNat q.rowBytes = true) :
    s.dmaRows t q q.all = (true, s.poke q.dst.toNat (s.peekN q.src.toNat q.rowBytes)) := by
  have all : q.all = [(0, q.rowBytes)] := by simp [DmaDesc.all, rows]
  have length := s.peekN_length q.src.toNat q.rowBytes
  have bytes : s.peekN q.src.toNat q.rowBytes ≠ [] := by
    intro h
    rw [h, List.length_nil] at length
    omega
  have read := State.dmaRead_oneRequest t (q.rowBytes / 64) srcChip pos fits srcOne (State.sramErrs_of_sram_nil clean _ _)
  have write := State.dmaWrite_oneRun t dstChip bytes (by rw [length]; exact dstOne) (State.sramErrs_of_sram_nil clean _ _)
  rw [State.dmaRows, all]
  simp only [runAll, rowAt_zero, read, write, State.dmaOr]

/-! The end of a descriptor. -/

/-- The oldest descriptor of a tile leaves its queue, and the next one is taken up; its object is signalled. -/
def State.dmaEnded (v : State) (t : Nat) (q : DmaDesc) : State :=
  let s := v.modTile t (fun x => { x with dma := mapFirst (fun (q : DmaDesc) => { q with since := v.tick }) (x.dma.drop 1) })
  match q.sig with
  | some o => s.localAdd t o 1
  | none => s

theorem execDmaDescComplete_cut {s : State} {e : DmaEnd} {q : DmaDesc} (cut : (s.tile e.tile.toNat).dmaCut = some q) :
    execDmaDescComplete e s = .next ((s.modTile e.tile.toNat (fun x => { x with dmaCut := none })).dmaRows e.tile.toNat q
      (q.sent e.sent (List.range q.rows))).2 := by
  simp only [execDmaDescComplete, cut]

section
variable {s : State} {e : DmaEnd} (cut : (s.tile e.tile.toNat).dmaCut = none)
include cut

theorem execDmaDescComplete_idle (idle : (s.tile e.tile.toNat).dma = []) : execDmaDescComplete e s = .next s := by
  simp only [execDmaDescComplete, cut, idle]

variable {q : DmaDesc} {r : List DmaDesc} (queue : (s.tile e.tile.toNat).dma = q :: r)
include queue

theorem execDmaDescComplete_held (held : (s.tile e.tile.toNat).dmaLost = true ∨ s.dmaPlaced e.tile.toNat q = false) :
    execDmaDescComplete e s = .next s := by
  have stays : ((s.tile e.tile.toNat).dmaLost || !s.dmaPlaced e.tile.toNat q) = true := by simpa using held
  simp only [execDmaDescComplete, cut, queue, stays, if_true]

theorem execDmaDescComplete_rows {v : State} (whole : (s.tile e.tile.toNat).dmaLost = false)
    (placed : s.dmaPlaced e.tile.toNat q = true) (rows : s.dmaRows e.tile.toNat q q.all = (true, v)) :
    execDmaDescComplete e s = .next (v.dmaEnded e.tile.toNat q) := by
  simp only [execDmaDescComplete, cut, queue, whole, placed, rows, Bool.not_true, Bool.or_self, Bool.false_eq_true, if_false]
  rfl

end

/-! What an addition to a local object does (R196). -/

theorem State.localAdd_eq (s : State) (t o k : Nat) :
    s.localAdd t o k = (if (s.lobj t o).toNat + k < 2 ^ 32 then s else s.cnt F.SYN_VIOL_SAT_LOCAL).setLobj t o
      (BitVec.ofNat 32 (min ((s.lobj t o).toNat + k) (2 ^ 32 - 1))) := by
  rw [State.localAdd, satAt_eq_min]

theorem State.localAdd_peek (s : State) (t o k a : Nat) : (s.localAdd t o k).peek a = s.peek a := by
  rw [State.localAdd_eq]
  split <;> rfl

theorem State.localAdd_tile (s : State) (t o k : Nat) :
    (s.localAdd t o k).tile t = { s.tile t with obj := ((s.localAdd t o k).tile t).obj } := by
  rw [State.localAdd_eq]
  split <;> simp [State.setLobj, State.cnt]

theorem State.localAdd_lobj (s : State) (t o k : Nat) :
    ((s.localAdd t o k).lobj t o).toNat = min ((s.lobj t o).toNat + k) (2 ^ 32 - 1) := by
  rw [State.localAdd_eq, State.setLobj]
  simp only [State.lobj, State.tile_modTile_same, FMap.get_set_same, BitVec.toNat_ofNat]
  exact Nat.mod_eq_of_lt (by omega)

section
variable {v : State} {t : Nat} {q : DmaDesc}

theorem State.dmaEnded_peek (v : State) (t : Nat) (q : DmaDesc) (a : Nat) : (v.dmaEnded t q).peek a = v.peek a := by
  unfold State.dmaEnded
  cases q.sig with
  | none => rfl
  | some o => exact State.localAdd_peek _ t o 1 a

theorem State.dmaEnded_dma (v : State) (t : Nat) (q : DmaDesc) :
    ((v.dmaEnded t q).tile t).dma = mapFirst (fun (q : DmaDesc) => { q with since := v.tick }) ((v.tile t).dma.drop 1) := by
  unfold State.dmaEnded
  cases q.sig with
  | none => simp
  | some o =>
    simp only
    rw [State.localAdd_tile, State.tile_modTile_same]

theorem State.dmaEnded_lobj {o : Nat} (sig : q.sig = some o) :
    ((v.dmaEnded t q).lobj t o).toNat = min ((v.lobj t o).toNat + 1) (2 ^ 32 - 1) := by
  simp only [State.dmaEnded, sig, State.localAdd_lobj]
  simp only [State.lobj, State.tile_modTile_same]

theorem State.dmaEnded_unsignalled (sig : q.sig = none) : v.dmaEnded t q =
    v.modTile t (fun x => { x with dma := mapFirst (fun (q : DmaDesc) => { q with since := v.tick }) (x.dma.drop 1) }) := by
  simp only [State.dmaEnded, sig]

end

/-- Settles O30: what a completed descriptor leaves is `dmaEnded` of the state after its rows, and the one row between two on-chip
memories is stored as it reads. -/
theorem descriptorsComplete : Obligations.DescriptorsComplete := by
  intro s t n x
  refine ⟨fun q v cut rows => ?_, fun cut idle => execDmaDescComplete_idle cut idle,
    fun q r cut queue held => execDmaDescComplete_held cut queue held, fun q r cut queue whole placed => ⟨?_, ?_⟩⟩
  · exact (execDmaDescComplete_cut (e := ⟨t, n⟩) cut).trans (by rw [rows])
  · intro v rows kept tick
    refine ⟨_, execDmaDescComplete_rows (e := ⟨t, n⟩) cut queue whole placed rows, ?_, fun a => State.dmaEnded_peek v _ q a,
      fun sig => ?_, fun o sig => State.dmaEnded_lobj sig⟩
    · rw [State.dmaEnded_dma, kept, queue, tick]
      rfl
    · rw [State.dmaEnded_unsignalled sig, State.modTile, kept, queue, tick]
      rfl
  · intro a b m rows pos fits clean srcChip dstChip srcOne dstOne _ _ sig
    have moved := State.dmaRows_oneRow t.toNat rows pos fits clean srcChip dstChip srcOne dstOne
    have length := s.peekN_length q.src.toNat q.rowBytes
    refine ⟨_, execDmaDescComplete_rows (e := ⟨t, q.rowBytes⟩) cut queue whole placed moved, ?_, fun i hi => ?_, fun c hc => ?_, ?_⟩
    · rw [State.dmaEnded_dma]
      have kept : ((s.poke q.dst.toNat (s.peekN q.src.toNat q.rowBytes)).tile t.toNat).dma = q :: r := queue
      rw [kept]
      rfl
    · rw [State.dmaEnded_peek]
      exact s.peek_poke_peekN _ _ _ i hi
    · rw [State.dmaEnded_peek]
      exact s.peek_poke_other _ c _ (by rw [length]; exact hc)
    · rw [State.dmaEnded_unsignalled sig]
      exact ⟨rfl, rfl, fun k hk => State.tile_modTile_ne _ hk⟩

end Sys2Proof.Machine
end

section
/-! PROOF. What a write of a master can change: registers, the memories with their channels, and the error lines (R376 to R378, R388 to R390). -/
namespace Sys2Proof.Machine

/-- `u` differs from `s` at most in the registers, the memories with their channels, and the Carapace. -/
def MemoryOnly (s u : State) : Prop := u = { s with regs := u.regs, mem := u.mem, chans := u.chans, cara := u.cara }

theorem MemoryOnly.refl (s : State) : MemoryOnly s s := rfl

theorem MemoryOnly.trans {s u v : State} (h : MemoryOnly s u) (k : MemoryOnly u v) : MemoryOnly s v :=
  Eq.trans k (congrArg (fun w : State => { w with regs := v.regs, mem := v.mem, chans := v.chans, cara := v.cara }) h)

/-- A further update of those fields. -/
theorem MemoryOnly.upd {s u : State} {regs : FMap Nat} {mem : Mem} {chans : FMap MemChan} {cara : Carapace} (h : MemoryOnly s u) :
    MemoryOnly s { u with regs := regs, mem := mem, chans := chans, cara := cara } := h.trans rfl

theorem MemoryOnly.foldl {α β : Type} {s : State} {f : β × State → α → β × State} (hf : ∀ r a, MemoryOnly r.2 (f r a).2) (l : List α)
    (r : β × State) (h : MemoryOnly s r.2) : MemoryOnly s (l.foldl f r).2 := by
  induction l generalizing r with
  | nil => exact h
  | cons a l ih => exact ih _ (h.trans (hf r a))

theorem MemoryOnly.each {α : Type} {f : State → α → State} (hf : ∀ s a, MemoryOnly s (f s a)) (s : State) (l : List α) :
    MemoryOnly s (s.each l f) := by
  unfold State.each
  induction l generalizing s with
  | nil => rfl
  | cons a l ih => exact (hf s a).trans (ih _)

/-! Registers and events. -/

theorem State.peak_memoryOnly (s : State) (f : Fld) (v i : Nat) : MemoryOnly s (s.peak f v i) := by
  unfold State.peak
  split <;> rfl

theorem State.raiseEv_memoryOnly (s : State) (e : Event) : MemoryOnly s (s.raiseEv e) := by
  unfold State.raiseEv State.intFirst
  split <;> rfl

theorem State.raiseMem_memoryOnly (s : State) (c code master addr acc : Nat) : MemoryOnly s (s.raiseMem c code master addr acc) :=
  s.raiseEv_memoryOnly _

theorem State.raiseSram_memoryOnly (s : State) (a code master : Nat) : MemoryOnly s (s.raiseSram a code master) :=
  s.raiseEv_memoryOnly _

theorem State.memFirst_memoryOnly (s : State) (c typ master addr : Nat) : MemoryOnly s (s.memFirst c typ master addr) := by
  unfold State.memFirst
  split <;> rfl

theorem State.sramFirst_memoryOnly (s : State) (a : Nat) : MemoryOnly s (s.sramFirst a) := by
  unfold State.sramFirst
  split <;> rfl

/-! The check-symbol cache. -/

theorem State.chkWordRead_memoryOnly (s : State) (c line a : Nat) : MemoryOnly s (s.chkWordRead c line a).2 := by
  unfold State.chkWordRead
  split
  · rfl
  · exact (show MemoryOnly s (s.cnt F.MEM_SRAM_ECC_CORR) from rfl).trans (State.raiseMem_memoryOnly _ _ _ _ _ _)
  · exact (show MemoryOnly s (s.cnt F.MEM_SRAM_ECC_UNCORR) from rfl).trans (State.sramFirst_memoryOnly _ _)

theorem State.lineRead_memoryOnly (s : State) (c : Nat) (l : CheckLine) (ws : List Nat) : MemoryOnly s (s.lineRead c l ws).2 :=
  MemoryOnly.foldl (f := fun (r : Bool × State) w =>
    (r.1 && (r.2.chkWordRead c l.line (chkWord c l.line l.way w)).1, (r.2.chkWordRead c l.line (chkWord c l.line l.way w)).2))
    (fun r _ => State.chkWordRead_memoryOnly r.2 c l.line _) ws (true, s) (MemoryOnly.refl s)

theorem State.loseLine_memoryOnly (s : State) (c line : Nat) : MemoryOnly s (s.loseLine c line) := by
  have lost : MemoryOnly s ((s.cnt F.MEM_LOST_TOTAL c).raiseMem c 0x4006 mCtl (lineAddr c line) 5) :=
    (show MemoryOnly s (s.cnt F.MEM_LOST_TOTAL c) from rfl).trans (State.raiseMem_memoryOnly _ _ _ _ _ _)
  unfold State.loseLine
  dsimp only
  split
  · exact (lost.trans (State.raiseMem_memoryOnly _ c 0x4020 mCtl _ 5)).upd
  · exact lost.upd

theorem State.evictLine_memoryOnly (s : State) (c : Nat) (l : CheckLine) : MemoryOnly s (s.evictLine c l) := by
  have dropped : MemoryOnly s (s.dropLine c l.line) := rfl
  unfold State.evictLine
  dsimp only
  split
  · exact dropped
  · have read := dropped.trans ((s.dropLine c l.line).lineRead_memoryOnly c l [0, 1, 2, 3])
    split
    · next h => rwa [h] at read
    · next h =>
      rw [h] at read
      exact (read.trans (State.memFirst_memoryOnly _ _ _ _ _)).trans (State.loseLine_memoryOnly _ _ _)

theorem State.takeWay_memoryOnly (s : State) (c line : Nat) : MemoryOnly s (s.takeWay c line).2 := by
  unfold State.takeWay
  dsimp only
  generalize (List.range 8).find? _ = way
  split
  · exact MemoryOnly.refl s
  · next v _ => exact s.evictLine_memoryOnly c v
  · exact MemoryOnly.refl s

theorem State.cacheHit_memoryOnly (s : State) (c : Nat) : MemoryOnly s (s.cacheHit c) := by
  unfold State.cacheHit
  dsimp only
  split <;> rfl

theorem State.cacheMiss_memoryOnly (s : State) (c : Nat) : MemoryOnly s (s.cacheMiss c) := by
  unfold State.cacheMiss
  dsimp only
  split <;> rfl

theorem State.fillLine_memoryOnly (s : State) (m : MemLoc) (dirty : Bool) : MemoryOnly s (s.fillLine m dirty) :=
  (s.takeWay_memoryOnly m.ch m.line).upd.trans (State.cacheMiss_memoryOnly _ _)

theorem State.cacheTouch_memoryOnly (s : State) (m : MemLoc) (dirty : Bool) : MemoryOnly s (s.cacheTouch m dirty) := by
  unfold State.cacheTouch
  dsimp only
  split
  case h_1 l _ =>
    have read := s.lineRead_memoryOnly m.ch l [m.inLine / 4]
    split
    · next v h =>
      rw [h] at read
      exact read.upd.trans (State.cacheHit_memoryOnly _ _)
    · next v h =>
      rw [h] at read
      refine MemoryOnly.trans ?_ (State.fillLine_memoryOnly _ _ _)
      have dropped : MemoryOnly s (v.dropLine m.ch l.line) := read.upd
      split
      · exact dropped.trans (State.loseLine_memoryOnly _ _ _)
      · exact dropped
  case h_2 => exact State.fillLine_memoryOnly _ _ _

/-! Sectors of device memory. -/

theorem State.accepts_memoryOnly (s : State) (c master : Nat) : MemoryOnly s (s.accepts c master) := s.peak_memoryOnly _ _ _

/-- A request is accepted and touches its check word. -/
theorem State.touched_memoryOnly (s : State) (m : MemLoc) (master : Nat) (dirty : Bool) :
    MemoryOnly s ((s.accepts m.ch master).cacheTouch m dirty) :=
  (s.accepts_memoryOnly _ _).trans (State.cacheTouch_memoryOnly _ _ _)

theorem State.hitSec_memoryOnly (s : State) (sec : Nat) (f : BitVec 272) : MemoryOnly s (s.hitSec sec f) := by
  unfold State.hitSec
  split <;> rfl

theorem State.injectSec_memoryOnly (s : State) (sec c : Nat) : MemoryOnly s (s.injectSec sec c) := by
  have disarmed : MemoryOnly s (s.wr F.MEM_INJ_ARM 0 c) := rfl
  unfold State.injectSec
  dsimp only
  split
  · split
    · exact disarmed.trans (State.hitSec_memoryOnly _ _ _)
    · exact disarmed.trans (State.hitSec_memoryOnly _ _ _)
  · rfl

theorem State.secFound_memoryOnly (s : State) (m : MemLoc) : MemoryOnly s (s.secFound m) := rfl

/-- A sector is stored, and its queued corrective write dropped. -/
theorem State.stored_memoryOnly (s : State) (sec : Nat) (d : List Byte) (c : Nat) : MemoryOnly s ((s.storeSec sec d).dropCorr sec c) := rfl

theorem State.writeSec_memoryOnly (s : State) (sec master : Nat) (d : List Byte) : MemoryOnly s (s.writeSec sec master d) :=
  (((s.touched_memoryOnly (mapAddress (32 * sec)) master true).trans (State.secFound_memoryOnly _ _)).trans
    (State.stored_memoryOnly _ _ _ _)).trans (State.injectSec_memoryOnly _ _ _)

theorem State.uncorrected_memoryOnly (s : State) (sec master typ code acc : Nat) : MemoryOnly s (s.uncorrected sec master typ code acc) :=
  ((show MemoryOnly s (s.cnt F.MEM_ECC_UNCORR (mapAddress (32 * sec)).ch) from rfl).trans
    (State.memFirst_memoryOnly _ _ _ _ _)).trans (State.raiseMem_memoryOnly _ _ _ _ _ _)

theorem State.mergeSec_memoryOnly (s : State) (sec off : Nat) (d : List Byte) (master : Nat) :
    MemoryOnly s (s.mergeSec sec off d master).2 := by
  have touched := s.touched_memoryOnly (mapAddress (32 * sec)) master true
  unfold State.mergeSec
  dsimp only
  split
  · exact touched.trans (State.uncorrected_memoryOnly _ _ _ _ _ _)
  · refine MemoryOnly.trans ?_ (State.stored_memoryOnly _ _ _ _)
    split
    · exact touched
    · exact touched.upd.trans (State.raiseMem_memoryOnly _ _ _ _ _ _)

theorem State.gWriteGo_memoryOnly (master fuel a : Nat) (d : List Byte) (f : Option Nat) (s : State) :
    MemoryOnly s (State.gWriteGo master fuel a d f s).2 := by
  induction fuel generalizing a d f s with
  | zero => rfl
  | succ fuel ih =>
    cases d with
    | nil => rfl
    | cons b d =>
      rw [State.gWriteGo]
      dsimp only
      split
      · exact (State.writeSec_memoryOnly _ _ _ _).trans (ih _ _ _ _)
      · exact (State.mergeSec_memoryOnly _ _ _ _ _).trans (ih _ _ _ _)
      · exact List.cons_ne_nil b d

/-! SRAM, and any memory. -/

theorem State.sramWordRead_memoryOnly (s : State) (e : Nat × SramErr) (master : Nat) (inner : Bool) :
    MemoryOnly s (s.sramWordRead e master inner) := by
  unfold State.sramWordRead
  split
  · exact (show MemoryOnly s (s.cnt F.MEM_SRAM_ECC_CORR) from rfl).trans (State.raiseSram_memoryOnly _ _ _ _)
  · exact ((show MemoryOnly s (s.cnt F.MEM_SRAM_ECC_UNCORR) from rfl).trans (State.sramFirst_memoryOnly _ _)).trans
      (State.raiseSram_memoryOnly _ _ _ _)

theorem State.sramWrite_memoryOnly (s : State) (master : Nat) (inner : Bool) (a : Nat) (d : List Byte) :
    MemoryOnly s (s.sramWrite master inner a d).2 :=
  ((MemoryOnly.each (fun s e => s.sramWordRead_memoryOnly e master inner) s _).upd.trans
    (MemoryOnly.each (fun s _ => MemoryOnly.upd (MemoryOnly.refl s)) _ _)).upd

theorem State.busWrite_memoryOnly (s : State) (master a : Nat) (d : List Byte) : MemoryOnly s (s.busWrite master a d).2 := by
  unfold State.busWrite State.busWriteAt
  dsimp only
  split
  · rfl
  · split
    · rfl
    · split
      · have written := State.gWriteGo_memoryOnly master (d.length / 32 + 2) a d none s
        split
        · next h => rwa [← State.gWrite, h] at written
        · next h => rwa [← State.gWrite, h] at written
      · exact State.sramWrite_memoryOnly _ _ _ _ _

end Sys2Proof.Machine
end

section
/-! PROOF. A loss of a camera stream (R303, R315, R317). -/
namespace Sys2Proof.Machine

/-! Stream state entries: whole words of system SRAM. -/

theorem State.freeBs_eq (n : Nat) (s : State) :
    (State.freeBs n s).1.length = n ∧ (State.freeBs n s).2 = { s with freeCtr := s.freeCtr + n } := by
  induction n generalizing s with
  | zero => exact ⟨rfl, rfl⟩
  | succ n ih =>
    obtain ⟨length, state⟩ := ih s.freeB.2
    refine ⟨?_, ?_⟩
    · rw [State.freeBs, List.length_cons]
      exact congrArg (· + 1) length
    · rw [State.freeBs]
      refine state.trans ?_
      show ({ s with freeCtr := s.freeCtr + 1 + n } : State) = { s with freeCtr := s.freeCtr + (n + 1) }
      rw [Nat.add_assoc, Nat.add_comm 1 n]

/-- Whole words are written whatever errors they hold, and nothing but memory changes (R389). -/
theorem State.sramWrite_words {s : State} {a : Nat} {d : List Byte} (words : ∀ e ∈ s.mem.sram, e.1 % 8 = 0) (start : a % 8 = 0)
    (length : d.length % 8 = 0) (master : Nat) (inner : Bool) :
    ∃ m, s.sramWrite master inner a d = (true, { s with mem := m }) := by
  have part : (s.sramErrs a d.length).filter (fun e => decide (e.1 < a) || decide (a + d.length < e.1 + 8)) = [] := by
    refine List.filter_eq_nil_iff.mpr fun e he => ?_
    obtain ⟨mem, touched⟩ := List.mem_filter.mp he
    have word := words e mem
    simp only [Bool.and_eq_true, Bool.or_eq_true, decide_eq_true_eq] at touched ⊢
    omega
  unfold State.sramWrite
  simp only [part, List.filter_nil, List.map_nil, List.isEmpty_nil, State.each, List.foldl_nil]
  exact ⟨_, rfl⟩

/-- A stream state entry lies in system SRAM. -/
theorem State.oneRegion_stateTable (s : State) {n : Nat} (h : n < 48) : s.oneRegion (stateTable + 32 * n) 32 = true := by
  have sys : ∀ a, stateTable ≤ a → a < stateTable + 32 * 48 → s.region a = .sysMem (a - sysBase) := by
    intro a lo hi
    simp only [stateTable] at lo hi
    rw [State.region, if_neg, if_neg, if_neg, if_pos]
    all_goals simp only [gddrEnd, tileBase, broodBase, sysBase]; omega
  rw [State.oneRegion, sys _ (by omega) (by omega), sys _ (by omega) (by omega)]

theorem State.noteState_eq {s : State} {n : Nat} (h : n < 48) (words : ∀ e ∈ s.mem.sram, e.1 % 8 = 0) :
    ∃ m c, s.noteState n = { s with mem := m, freeCtr := c } := by
  obtain ⟨length, state⟩ := State.freeBs_eq 32 s
  have some : (State.freeBs 32 s).1 ≠ [] := fun h => by simp [h] at length
  obtain ⟨m, write⟩ := State.sramWrite_words (s := (State.freeBs 32 s).2) (a := stateTable + 32 * n) (d := (State.freeBs 32 s).1)
    (by rw [state]; exact words) (by simp only [stateTable]; omega) (by rw [length]) mIntake (innerMaster mIntake)
  refine ⟨m, s.freeCtr + 32, ?_⟩
  show ((State.freeBs 32 s).2.busWriteAt mIntake (stateTable + 32 * n) (State.freeBs 32 s).1).2.2 = _
  rw [State.busWriteAt, if_neg some, length, if_neg (by simp [State.oneRegion_stateTable _ h]),
    if_neg (by simp only [stateTable, gddrEnd]; omega), write, state]

/-! Streams that no running pipeline waits for. -/

section
variable {s : State} (still : ∀ x ∈ s.sched.pipes, x.running = false)
include still

theorem State.raiseTrigger_still (g : GatherEntry) : s.raiseTrigger g = s := by
  have none : s.sched.pipes.filter (fun x => x.running && !x.hostSched && x.desc.streams.contains g.stream) = [] :=
    List.filter_eq_nil_iff.mpr fun x hx => by simp [still x hx]
  rw [State.raiseTrigger, none]
  rfl

theorem State.checkLost_still : s.checkLost = s := by
  have none : s.sched.pipes.filter (fun x => x.running && !x.stopLost && x.desc.streams != [] &&
      x.desc.streams.all (fun n => (s.strm n).state == 3)) = [] :=
    List.filter_eq_nil_iff.mpr fun x hx => by simp [still x hx]
  rw [State.checkLost, none]
  rfl

end

/-! What an event leaves of the other registers. -/

theorem State.raise_rd_of_ne (s : State) {line code unit i : Nat} {f : Fld}
    (h : ∀ g ∈ [F.INT_FIRST0_VALID, F.INT_FIRST0_CODE, F.INT_FIRST0_INDEX, F.INT_FIRST1_TICK], f.key i ≠ g.key 0) :
    (s.raise line code unit).rd f i = s.rd f i := by
  simp only [List.mem_cons, List.not_mem_nil, or_false, forall_eq_or_imp, forall_eq] at h
  obtain ⟨valid, code, index, tick⟩ := h
  unfold State.raise State.raiseEv State.intFirst
  split
  · exact (State.rd_wr_ne _ tick).trans ((State.rd_wr_ne _ index).trans ((State.rd_wr_ne _ code).trans (State.rd_wr_ne _ valid)))
  · rfl

theorem State.raise_strm (s : State) (line code unit k : Nat) : (s.raise line code unit).strm k = s.strm k := by
  rw [State.strm, State.raise_intake]
  rfl

theorem lossTotal_key_ne (n : Nat) :
    ∀ g ∈ [F.INT_FIRST0_VALID, F.INT_FIRST0_CODE, F.INT_FIRST0_INDEX, F.INT_FIRST1_TICK], F.INT_LOSS_TOTAL.key n ≠ g.key 0 := by
  simp only [List.mem_cons, List.not_mem_nil, or_false, forall_eq_or_imp, forall_eq, Fld.key, F.INT_LOSS_TOTAL, F.INT_FIRST0_VALID,
    F.INT_FIRST0_CODE, F.INT_FIRST0_INDEX, F.INT_FIRST1_TICK]
  omega

theorem lossConsec_key_ne (n : Nat) :
    ∀ g ∈ [F.INT_FIRST0_VALID, F.INT_FIRST0_CODE, F.INT_FIRST0_INDEX, F.INT_FIRST1_TICK], F.INT_LOSS_CONSEC.key n ≠ g.key 0 := by
  simp only [List.mem_cons, List.not_mem_nil, or_false, forall_eq_or_imp, forall_eq, Fld.key, F.INT_LOSS_CONSEC, F.INT_FIRST0_VALID,
    F.INT_FIRST0_CODE, F.INT_FIRST0_INDEX, F.INT_FIRST1_TICK]
  omega

theorem lossTotal_ne_lossConsec (n : Nat) : F.INT_LOSS_TOTAL.key n ≠ F.INT_LOSS_CONSEC.key n := by
  simp only [Fld.key, F.INT_LOSS_TOTAL, F.INT_LOSS_CONSEC]
  omega

/-! The loss procedure (R315, R317). -/

/-- Losses in a row of stream `n` when one more is lost. -/
def State.lossesInRow (s : State) (n : Nat) : Nat := s.rd F.INT_LOSS_CONSEC n + 1

/-- A loss is presented and counted, and the stream resynchronises. -/
def State.lossCounted (s : State) (n code line : Nat) : State :=
  (((s.raise line code n).cnt F.INT_LOSS_TOTAL n).wr F.INT_LOSS_CONSEC (s.lossesInRow n) n).modStrm n (fun x => { x with state := 1 })

/-- The loss that reaches LOSS_LIMIT: the stream is lost. -/
def State.streamLost (s : State) (n : Nat) : State :=
  (s.modStrm n (fun x => { x with state := 3, timerAt := none })).raise 151 0x5104 n

/-- Streams index 48 entries of whole SRAM words, and no running pipeline waits for one. -/
structure State.Loses (s : State) (n : Nat) : Prop where
  index : n < 48
  enabled : (s.strm n).desc.en = true
  present : (s.strm n).state ≠ 3
  words : ∀ e ∈ s.mem.sram, e.1 % 8 = 0
  still : ∀ x ∈ s.sched.pipes, x.running = false

theorem State.mayLose.loses {s : State} {n : Nat} (h : s.mayLose n) : s.Loses n := by
  obtain ⟨index, enabled, present, -, words, still⟩ := h
  exact ⟨index, enabled, present, words, still⟩

theorem State.Loses.modStrm {s : State} {n : Nat} {f : Stream → Stream} (h : s.Loses n) (desc : (f (s.strm n)).desc = (s.strm n).desc)
    (state : (f (s.strm n)).state = (s.strm n).state) : (s.modStrm n f).Loses n :=
  ⟨h.index, by rw [State.strm_modStrm_same, desc]; exact h.enabled, by rw [State.strm_modStrm_same, state]; exact h.present, h.words, h.still⟩

theorem State.lossCounted_mem (s : State) (n code line : Nat) : (s.lossCounted n code line).mem = s.mem := s.raise_mem line code n

theorem State.lossCounted_sched (s : State) (n code line : Nat) : (s.lossCounted n code line).sched = s.sched :=
  s.raise_sched line code n

theorem State.lossCounted_swarm (s : State) (n code line : Nat) : (s.lossCounted n code line).swarm = s.swarm :=
  s.raise_swarm line code n

theorem State.lossCounted_strm (s : State) (n code line : Nat) :
    (s.lossCounted n code line).strm n = { s.strm n with state := 1 } := by
  rw [State.lossCounted, State.strm_modStrm_same]
  exact congrArg (fun x : Stream => { x with state := 1 }) (s.raise_strm line code n n)

theorem State.lossCounted_consec (s : State) (n code line : Nat) :
    (s.lossCounted n code line).rd F.INT_LOSS_CONSEC n = s.lossesInRow n % 2 ^ F.INT_LOSS_CONSEC.w := by
  rw [State.lossCounted, State.modStrm_rd, State.rd_wr_same]

theorem State.lossCounted_total (s : State) (n code line : Nat) : Counted s (s.lossCounted n code line) F.INT_LOSS_TOTAL n 1 := by
  have counted := counted_cnt F.INT_LOSS_TOTAL n 1 (s.raise_rd_of_ne (line := line) (code := code) (unit := n) (lossTotal_key_ne n))
  unfold Counted at counted ⊢
  rw [State.lossCounted, State.modStrm_rd, State.rd_wr_ne _ (lossTotal_ne_lossConsec n), counted]

theorem State.streamLost_strm (s : State) (n : Nat) : (s.streamLost n).strm n = { s.strm n with state := 3, timerAt := none } := by
  rw [State.streamLost, State.strm, State.raise_intake]
  exact State.strm_modStrm_same s n _

/-- The loss, with that of the stream where it reaches LOSS_LIMIT. -/
def State.lossTaken (s : State) (n code line : Nat) : State :=
  if (s.strm n).desc.limit ≤ s.lossesInRow n then (s.lossCounted n code line).streamLost n else s.lossCounted n code line

theorem State.lossTaken_mem (s : State) (n code line : Nat) : (s.lossTaken n code line).mem = s.mem := by
  unfold State.lossTaken
  split
  · exact (State.raise_mem _ 151 0x5104 n).trans (s.lossCounted_mem n code line)
  · exact s.lossCounted_mem n code line

theorem State.lossTaken_sched (s : State) (n code line : Nat) : (s.lossTaken n code line).sched = s.sched := by
  unfold State.lossTaken
  split
  · exact (State.raise_sched _ 151 0x5104 n).trans (s.lossCounted_sched n code line)
  · exact s.lossCounted_sched n code line

section
variable {s : State} {n : Nat} (h : s.Loses n) (code line : Nat)
include h

/-- The state entry that is noted holds free bytes, and no pipeline triggers. -/
theorem State.loss_eq : ∃ m c, s.loss n code line = { s.lossTaken n code line with mem := m, freeCtr := c } := by
  have strm : ((s.raise line code n).cnt F.INT_LOSS_TOTAL n).strm n = s.strm n := s.raise_strm line code n n
  have consec : ((s.raise line code n).cnt F.INT_LOSS_TOTAL n).rd F.INT_LOSS_CONSEC n = s.rd F.INT_LOSS_CONSEC n := by
    rw [State.rd_cnt_ne _ (lossTotal_ne_lossConsec n).symm, State.raise_rd_of_ne s (lossConsec_key_ne n)]
  have limit : ((s.lossCounted n code line).strm n).desc.limit = (s.strm n).desc.limit := by rw [State.lossCounted_strm]
  have run : s.loss n code line =
      (((s.lossTaken n code line).noteState n).raiseTrigger ((s.lossTaken n code line).standIn n)).checkLost := by
    unfold State.loss State.lossTaken
    simp only [h.enabled, Bool.not_true, Bool.false_eq_true, if_false, strm, h.present, consec]
    rw [← limit]
    rfl
  have still : ∀ x ∈ (s.lossTaken n code line).sched.pipes, x.running = false := by
    rw [State.lossTaken_sched]
    exact h.still
  obtain ⟨m, c, noted⟩ := State.noteState_eq (s := s.lossTaken n code line) h.index (by rw [State.lossTaken_mem]; exact h.words)
  refine ⟨m, c, ?_⟩
  rw [run, noted, State.raiseTrigger_still (by exact still), State.checkLost_still (by exact still)]

/-- A loss short of LOSS_LIMIT. -/
theorem State.Loses.lost (short : s.lossesInRow n < (s.strm n).desc.limit) :
    Lost s (s.loss n code line) n line code ∧ (s.loss n code line).strm n = { s.strm n with state := 1 } := by
  obtain ⟨m, c, loss⟩ := State.loss_eq h code line
  rw [State.lossTaken, if_neg (by omega)] at loss
  have strm : (s.loss n code line).strm n = { s.strm n with state := 1 } := by rw [loss]; exact s.lossCounted_strm n code line
  refine ⟨⟨?_, ?_, ?_, ?_, ?_, ?_⟩, strm⟩
  · rw [loss]
    exact presented_raise s line code n
  · rw [loss]
    exact s.lossCounted_total n code line
  · rw [loss]
    exact s.lossCounted_consec n code line
  · rw [strm]
  · rw [loss]
    exact s.lossCounted_sched n code line
  · rw [loss]
    exact s.lossCounted_swarm n code line

/-- The loss that reaches LOSS_LIMIT. -/
theorem State.Loses.limit (reached : (s.strm n).desc.limit ≤ s.lossesInRow n) :
    (s.loss n code line).strm n = { s.strm n with state := 3, timerAt := none } ∧ Raised s (s.loss n code line) line code n ∧
      Raised s (s.loss n code line) 151 0x5104 n := by
  obtain ⟨m, c, loss⟩ := State.loss_eq h code line
  rw [State.lossTaken, if_pos reached] at loss
  obtain ⟨e, first, eline, ecode, eunits, etick⟩ := presented_raise s line code n
  obtain ⟨f, second, fline, fcode, funits, ftick⟩ := presented_raise
    ((s.lossCounted n code line).modStrm n (fun x => { x with state := 3, timerAt := none })) 151 0x5104 n
  have asserted : (s.loss n code line).cara.asserted = s.cara.asserted ++ [e] ++ [f] := by
    rw [loss, ← first]
    exact second
  refine ⟨?_, ⟨e, [], [f], ?_, eline, ecode, eunits, etick⟩, f, [e], [], asserted, fline, fcode, funits, ?_⟩
  · rw [loss]
    refine ((s.lossCounted n code line).streamLost_strm n).trans ?_
    rw [State.lossCounted_strm]
  · rw [asserted, List.append_nil, List.append_assoc, List.singleton_append]
  · exact ftick.trans (s.raise_tick line code n)

end

end Sys2Proof.Machine
end

section
/-! PROOF. The injected pattern takes no time (R309). -/
namespace Sys2Proof.Machine

/-- The tick and what the sequencer holds are the same. -/
def SameSched (s u : State) : Prop := u.tick = s.tick ∧ u.sched = s.sched

theorem SameSched.refl (s : State) : SameSched s s := ⟨rfl, rfl⟩

theorem SameSched.trans {s u v : State} (h : SameSched s u) (k : SameSched u v) : SameSched s v :=
  ⟨k.1.trans h.1, k.2.trans h.2⟩

theorem SameSched.foldl {α : Type} {s : State} {f : State → α → State} (hf : ∀ u a, SameSched s u → SameSched s (f u a)) (l : List α)
    {u : State} (h : SameSched s u) : SameSched s (l.foldl f u) := by
  induction l generalizing u with
  | nil => exact h
  | cons a l ih => exact ih (hf u a h)

theorem MemoryOnly.sameSched {s u : State} (h : MemoryOnly s u) : SameSched s u := by
  have e : u = { s with regs := u.regs, mem := u.mem, chans := u.chans, cara := u.cara } := h
  exact ⟨by rw [e], by rw [e]⟩

theorem State.busWrite_sameSched {s u : State} {master a : Nat} {d : List Byte} {b : Bus} (h : s.busWrite master a d = (b, u)) :
    SameSched s u := by
  have written := (s.busWrite_memoryOnly master a d).sameSched
  rwa [h] at written

theorem State.raise_sameSched (s : State) (line code unit : Nat) : SameSched s (s.raise line code unit) :=
  ⟨s.raise_tick line code unit, s.raise_sched line code unit⟩

theorem State.noteState_sameSched (s : State) (n : Nat) : SameSched s (s.noteState n) := by
  obtain ⟨-, free⟩ := State.freeBs_eq 32 s
  have stored := (State.busWrite_memoryOnly (State.freeBs 32 s).2 mIntake (stateTable + 32 * n) (State.freeBs 32 s).1).sameSched
  have noted : SameSched (State.freeBs 32 s).2 (s.noteState n) := stored
  refine SameSched.trans ?_ noted
  rw [free]
  exact SameSched.refl s

/-- Streams that no running pipeline waits for trigger nothing. -/
theorem State.noTrigger_sameSched {s u : State} (still : ∀ x ∈ s.sched.pipes, x.running = false) (h : SameSched s u) (g : GatherEntry) :
    SameSched s (u.raiseTrigger g).checkLost := by
  have still' : ∀ x ∈ u.sched.pipes, x.running = false := by rw [h.2]; exact still
  rw [State.raiseTrigger_still still', State.checkLost_still still']
  exact h

theorem State.loss_sameSched {s : State} (still : ∀ x ∈ s.sched.pipes, x.running = false) (n code line : Nat) :
    SameSched s (s.loss n code line) := by
  have counted : SameSched s ((s.raise line code n).cnt F.INT_LOSS_TOTAL n) := s.raise_sameSched line code n
  unfold State.loss
  dsimp only
  generalize (s.raise line code n).cnt F.INT_LOSS_TOTAL n = t at counted
  split
  · exact SameSched.refl s
  · split
    · exact counted.trans (State.noteState_sameSched _ n)
    · refine State.noTrigger_sameSched still (SameSched.trans ?_ (State.noteState_sameSched _ n)) _
      split
      · exact counted.trans (State.raise_sameSched _ _ _ _)
      · exact counted

theorem State.breakFrame_sameSched {s : State} (still : ∀ x ∈ s.sched.pipes, x.running = false) (n : Nat) :
    SameSched s (s.breakFrame n) := by
  unfold State.breakFrame
  split
  · exact State.loss_sameSched (s := s.dropCur n) still n _ _
  · exact SameSched.refl s

theorem State.putLine_sameSched {s : State} (still : ∀ x ∈ s.sched.pipes, x.running = false) (n i : Nat) (l : List Nat) :
    SameSched s (s.putLine n i l) := by
  unfold State.putLine
  split
  · exact SameSched.refl s
  · dsimp only
    split
    · next h => exact State.busWrite_sameSched h
    · next h =>
      have same := State.busWrite_sameSched h
      exact same.trans (State.breakFrame_sameSched (by rw [same.2]; exact still) n)

theorem State.putPattern_sameSched {s : State} (still : ∀ x ∈ s.sched.pipes, x.running = false) (n : Nat) :
    SameSched s (s.putPattern n) := by
  refine SameSched.foldl (fun u l h => ?_) _ (SameSched.refl s)
  split
  · exact h.trans (State.putLine_sameSched (by rw [h.2]; exact still) _ _ _)
  · exact h

end Sys2Proof.Machine
end

section
/-! PROOF. Camera frames complete, or their timer expires (R22, R309, R314, R315, R342). -/
namespace Sys2Proof.Machine

/-! A stream that alone takes the packets of its channel. -/

theorem State.lateExpiry_eq {s : State} {n : Nat} (h : s.expiryPast n = false) : s.lateExpiry n = s := by
  rw [State.lateExpiry, if_neg (by simp [h])]

theorem State.forCams_one {s : State} {n : Nat} (hostPre : (s.strm n).desc.hostPre = false) (past : s.expiryPast n = false) (rx : Nat)
    (f : State → Nat → State) : s.forCams rx [n] f = f s n := by
  rw [State.forCams, if_neg (List.cons_ne_nil n [])]
  simp [hostPre, State.each, State.lateExpiry_eq past]

theorem State.modCur_strm {s : State} {n : Nat} {c : Sample} (cur : (s.strm n).cur = some c) (f : Sample → Sample) :
    (s.modCur n f).strm n = { s.strm n with cur := some (f c) } := by
  rw [State.modCur, State.strm_modStrm_same, cur]
  rfl

/-! A complete frame waits for a warp engine (R22, R342). -/

/-- Some warp engine is in service. -/
def State.served (s : State) : Prop := ∃ e, e < 4 ∧ s.rd F.WRP_STATUS_IN_SERVICE e ≠ 0

theorem State.served_iff (s : State) : s.served ↔ (List.range 4).all (fun e => !s.rdB F.WRP_STATUS_IN_SERVICE e) = false := by
  simp only [State.served, State.rdB, List.all_eq_false, List.mem_range, Bool.not_eq_true', bne_eq_false_iff_eq, ne_eq]

/-- Frame `x` of stream `n` waits for a warp engine from the tick of `s` on. -/
def Queued (s u : State) (n : Nat) (x : Sample) : Prop :=
  ∃ q, u = { s with intake.waitQ := q } ∧ { stream := n, sample := x, since := s.tick } ∈ q

theorem State.queueWarp_served {s : State} (h : s.served) (n : Nat) (x : Sample) : Queued s (s.queueWarp n x) n x := by
  rw [State.queueWarp, if_neg (by simp [s.served_iff.mp h])]
  exact ⟨_, rfl, List.mem_append_right _ (List.mem_cons_self ..)⟩

theorem State.queueWarp_unserved {s : State} (h : ¬ s.served) (n : Nat) (x : Sample) : s.queueWarp n x = s.loseFrame n x 0x6208 151 := by
  rw [State.queueWarp, if_pos (by simpa [State.served_iff] using h)]

/-- The open frame of a stream leaves it. -/
def State.curDone (s : State) (n : Nat) : State := s.modStrm n (fun x => { x with cur := none, endAt := s.tick })

section
variable {s : State} {n : Nat} {c : Sample} (cur : (s.strm n).cur = some c)
include cur

theorem State.complete?_open (h : (c.ended && c.patDone) = false) : s.complete? n = s := by
  simp only [State.complete?, cur, h, Bool.false_eq_true, if_false]

theorem State.complete?_done (ended : c.ended = true) (patDone : c.patDone = true) (noRows : (s.strm n).desc.trowMode = 0) :
    s.complete? n = (s.curDone n).queueWarp n { c with desc := (s.strm n).desc, cfg := (s.curDone n).wcfg n } := by
  simp only [State.complete?, cur, ended, patDone, noRows, Bool.and_self, if_true, ne_eq, not_true_eq_false, false_and, if_false,
    State.warpReady]
  rw [← State.curDone, State.curDone, State.strm_modStrm_same]

end

/-! The commands. -/

theorem execCsiFrameEnd_whole {s : State} {rx vc : BitVec 4} {n : Nat} {c : Sample} (alone : s.camsOn rx.toNat vc.toNat = [n])
    (hostPre : (s.strm n).desc.hostPre = false) (past : s.expiryPast n = false) (cur : (s.strm n).cur = some c)
    (whole : (s.strm n).desc.height ≤ c.lines) :
    execCsiFrameEnd rx vc s = .next ((s.modCur n (fun x => { x with ended := true })).complete? n) := by
  rw [execCsiFrameEnd, alone, State.forCams_one hostPre past]
  simp only [cur, if_neg (Nat.not_lt.mpr whole)]

section
variable {s : State} {k : BitVec 5} {c : Sample} (past : s.expiryPast k.toNat = false) (cur : (s.strm k.toNat).cur = some c)
include past cur

theorem execPatternInjectEnd_early (early : s.tick < c.patAt + (s.strm k.toNat).desc.patLines * (s.strm k.toNat).desc.lineTicks) :
    execPatternInjectEnd k s = .next s := by
  simp [execPatternInjectEnd, State.lateExpiry_eq past, cur, onlyIf, Nat.not_le.mpr early, done]

theorem execPatternInjectEnd_landed
    (landed : c.patAt + (s.strm k.toNat).desc.patLines * (s.strm k.toNat).desc.lineTicks ≤ s.tick) (started : c.patStarted = true)
    (first : c.patDone = false) : execPatternInjectEnd k s =
      .next (((s.putPattern k.toNat).modCur k.toNat (fun x => { x with patDone := true })).complete? k.toNat) := by
  simp [execPatternInjectEnd, State.lateExpiry_eq past, cur, onlyIf, landed, started, first, done]

end

/-- The timer of stream `n` is loaded again from its expiry on. -/
def State.timerReloaded (s : State) (n : Nat) : State :=
  s.modStrm n (fun x => { x with timerAt := x.timerAt.map (fun t => t + x.desc.tmo) })

theorem State.expire_open {s : State} {n : Nat} (h : (s.strm n).cur.isSome = true) :
    s.expire n = ((s.timerReloaded n).dropCur n).loss n 0x5101 151 := by
  rw [State.expire, ← State.timerReloaded]
  have cur : ((s.timerReloaded n).strm n).cur = (s.strm n).cur := by rw [State.timerReloaded, State.strm_modStrm_same]
  simp only [cur, h, if_true]

theorem State.expire_missing {s : State} {n : Nat} (h : (s.strm n).cur = none) :
    s.expire n = (s.timerReloaded n).loss n 0x5103 151 := by
  rw [State.expire, ← State.timerReloaded]
  have cur : ((s.timerReloaded n).strm n).cur = (s.strm n).cur := by rw [State.timerReloaded, State.strm_modStrm_same]
  simp only [cur, h, Option.isSome_none, Bool.false_eq_true, if_false]

/-! What becomes of the frame. -/

theorem lost_of_modStrm {s u : State} {k n line code : Nat} {f : Stream → Stream} (h : Lost (s.modStrm k f) u n line code) :
    Lost s u n line code := h

theorem State.mayLose.modStrm {s : State} {n : Nat} {f : Stream → Stream} (h : s.mayLose n)
    (desc : (f (s.strm n)).desc = (s.strm n).desc) (state : (f (s.strm n)).state = (s.strm n).state) : (s.modStrm n f).mayLose n := by
  obtain ⟨index, enabled, present, short, words, still⟩ := h
  refine ⟨index, ?_, ?_, ?_, words, still⟩
  · rwa [State.strm_modStrm_same, desc]
  · rwa [State.strm_modStrm_same, state]
  · rwa [State.strm_modStrm_same, desc]

theorem State.mayLose.lost {s : State} {n : Nat} (h : s.mayLose n) (code line : Nat) :
    Lost s (s.loss n code line) n line code ∧ (s.loss n code line).strm n = { s.strm n with state := 1 } := by
  have loses := h.loses
  obtain ⟨-, -, -, short, -⟩ := h
  exact loses.lost code line short

/-- A frame that no warp engine can take is lost. -/
theorem State.mayLose.lost_unserved {s : State} {n : Nat} (h : s.mayLose n) {x : Sample} (unserved : ¬ s.served)
    (desc : x.desc = (s.strm n).desc) :
    Lost s (s.queueWarp n x) n 151 0x6208 ∧ (s.queueWarp n x).strm n = { s.strm n with state := 1 } := by
  have current : s.current n x = true := by
    obtain ⟨-, enabled, -⟩ := h
    simp [State.current, desc, enabled]
  rw [State.queueWarp_unserved unserved, State.loseFrame, if_pos current]
  exact h.lost 0x6208 151

theorem execFrameTimerExpiry_expired {s : State} {n : Nat} (small : n < 2 ^ 6)
    (h : s.expiryPast n = true ∨ s.expiryDue n = true ∧ (s.strm n).cur = none) :
    execFrameTimerExpiry (BitVec.ofNat 6 n) s = .next (s.expire n) := by
  have expired : (s.expiryPast n || (s.expiryDue n && (s.strm n).cur.isNone)) = true := by
    rcases h with past | ⟨due, none⟩
    · simp [past]
    · simp [due, none]
  simp only [execFrameTimerExpiry, BitVec.toNat_ofNat, Nat.mod_eq_of_lt small, onlyIf, expired, if_true, done]

theorem execFrameTimerExpiry_waits {s : State} {n : Nat} {c : Sample} (small : n < 2 ^ 6) (past : s.expiryPast n = false)
    (cur : (s.strm n).cur = some c) : execFrameTimerExpiry (BitVec.ofNat 6 n) s = .next s := by
  simp only [execFrameTimerExpiry, BitVec.toNat_ofNat, Nat.mod_eq_of_lt small, onlyIf, past, cur, Option.isNone_some, Bool.and_false,
    Bool.or_self, Bool.false_eq_true, if_false, done]

/-- A frame whose last part has come: it waits for a warp engine under the stream's descriptor. -/
theorem State.complete?_queued {s : State} {n : Nat} {c : Sample} (cur : (s.strm n).cur = some c) (ended : c.ended = true)
    (patDone : c.patDone = true) (noRows : (s.strm n).desc.trowMode = 0) (served : s.served) :
    Queued (s.curDone n) (s.complete? n) n { c with desc := (s.strm n).desc, cfg := (s.curDone n).wcfg n } := by
  rw [State.complete?_done cur ended patDone noRows]
  exact State.queueWarp_served (s := s.curDone n) served n _

/-- A frame whose last part has come is lost while no warp engine is in service. -/
theorem State.mayLose.complete?_lost {s : State} {n : Nat} {c : Sample} (h : s.mayLose n) (cur : (s.strm n).cur = some c)
    (ended : c.ended = true) (patDone : c.patDone = true) (noRows : (s.strm n).desc.trowMode = 0) (unserved : ¬ s.served) :
    Lost s (s.complete? n) n 151 0x6208 ∧ ((s.complete? n).strm n).cur = none := by
  have may : (s.curDone n).mayLose n := h.modStrm rfl rfl
  have desc : (s.strm n).desc = ((s.curDone n).strm n).desc := by rw [State.curDone, State.strm_modStrm_same]
  obtain ⟨lost, strm⟩ := may.lost_unserved (x := { c with desc := (s.strm n).desc, cfg := (s.curDone n).wcfg n }) unserved desc
  rw [State.complete?_done cur ended patDone noRows, strm, State.curDone, State.strm_modStrm_same]
  exact ⟨lost_of_modStrm lost, rfl⟩

/-- What `Queued` says of the stream and of the queue. -/
theorem Queued.waits {s u : State} {n : Nat} {c : Sample} {d : StreamDesc} {g : List Byte}
    (h : Queued (s.curDone n) u n { c with desc := d, cfg := g }) :
    (u.strm n).cur = none ∧ ∃ f ∈ u.intake.waitQ, f.stream = n ∧ f.since = s.tick ∧ f.sample.entry = c.entry ∧ f.sample.seq = c.seq ∧
      f.sample.stamp = c.stamp ∧ f.sample.desc = d := by
  obtain ⟨q, rfl, mem⟩ := h
  refine ⟨?_, _, mem, rfl, rfl, rfl, rfl, rfl, rfl⟩
  show ((s.curDone n).strm n).cur = none
  rw [State.curDone, State.strm_modStrm_same]

theorem Queued.unchanged {s u : State} {n : Nat} {x : Sample} (h : Queued (s.curDone n) u n x) :
    u.cara = s.cara ∧ u.regs = s.regs ∧ SameMemory s u := by
  obtain ⟨q, rfl, -⟩ := h
  exact ⟨rfl, rfl, fun _ => rfl⟩

/-! The frame timer. -/

theorem State.expiryPast_eq {s : State} {n t : Nat} (timer : (s.strm n).timerAt = some t) :
    s.expiryPast n = ((s.strm n).desc.en && decide (t < s.tick)) := by
  simp only [State.expiryPast, timer]

theorem State.expiryDue_eq {s : State} {n t : Nat} (timer : (s.strm n).timerAt = some t) :
    s.expiryDue n = ((s.strm n).desc.en && decide (t ≤ s.tick)) := by
  simp only [State.expiryDue, timer]

theorem State.timerReloaded_strm {s : State} {n t : Nat} (timer : (s.strm n).timerAt = some t) :
    (s.timerReloaded n).strm n = { s.strm n with timerAt := some (t + (s.strm n).desc.tmo) } := by
  rw [State.timerReloaded, State.strm_modStrm_same, timer]
  rfl

/-- The frame that is open when the timer expires is lost. -/
theorem State.mayLose.expire_open {s : State} {n t : Nat} (h : s.mayLose n) (timer : (s.strm n).timerAt = some t)
    (isOpen : (s.strm n).cur.isSome = true) :
    Lost s (s.expire n) n 151 0x5101 ∧ ((s.expire n).strm n).cur = none ∧
      ((s.expire n).strm n).timerAt = some (t + (s.strm n).desc.tmo) := by
  have reloaded : (s.timerReloaded n).mayLose n := h.modStrm rfl rfl
  have dropped : ((s.timerReloaded n).dropCur n).mayLose n := reloaded.modStrm rfl rfl
  obtain ⟨lost, strm⟩ := dropped.lost 0x5101 151
  rw [State.expire_open isOpen, strm, State.dropCur, State.strm_modStrm_same, State.timerReloaded_strm timer]
  exact ⟨lost_of_modStrm (lost_of_modStrm lost), rfl, rfl⟩

/-- The frame that is missing when the timer expires is lost. -/
theorem State.mayLose.expire_missing {s : State} {n t : Nat} (h : s.mayLose n) (timer : (s.strm n).timerAt = some t)
    (missing : (s.strm n).cur = none) :
    Lost s (s.expire n) n 151 0x5103 ∧ ((s.expire n).strm n).timerAt = some (t + (s.strm n).desc.tmo) := by
  have reloaded : (s.timerReloaded n).mayLose n := h.modStrm rfl rfl
  obtain ⟨lost, strm⟩ := reloaded.lost 0x5103 151
  rw [State.expire_missing missing, strm, State.timerReloaded_strm timer]
  exact ⟨lost_of_modStrm lost, rfl⟩

/-- The missing frame is the one that reaches LOSS_LIMIT. -/
theorem State.Loses.expire_limit {s : State} {n : Nat} (h : s.Loses n) (missing : (s.strm n).cur = none)
    (reached : (s.strm n).desc.limit ≤ s.lossesInRow n) :
    ((s.expire n).strm n).state = 3 ∧ ((s.expire n).strm n).timerAt = none ∧ Raised s (s.expire n) 151 0x5103 n ∧
      Raised s (s.expire n) 151 0x5104 n := by
  have reloaded : (s.timerReloaded n).Loses n := h.modStrm rfl rfl
  obtain ⟨strm, loss, limit⟩ := reloaded.limit 0x5103 151 (by rw [State.timerReloaded, State.strm_modStrm_same]; exact reached)
  rw [State.expire_missing missing, strm]
  exact ⟨rfl, rfl, loss, limit⟩

/-- The stored count of losses in a row is one short of LOSS_LIMIT. -/
theorem State.mayLose.expire_limit {s : State} {n : Nat} (h : s.mayLose n) (missing : (s.strm n).cur = none)
    (top : (s.strm n).desc.limit ≤ 15) :
    let u := (s.wr F.INT_LOSS_CONSEC ((s.strm n).desc.limit - 1) n).expire n
    (u.strm n).state = 3 ∧ (u.strm n).timerAt = none ∧ Raised s u 151 0x5103 n ∧ Raised s u 151 0x5104 n := by
  have loses : (s.wr F.INT_LOSS_CONSEC ((s.strm n).desc.limit - 1) n).Loses n :=
    ⟨h.loses.index, h.loses.enabled, h.loses.present, h.loses.words, h.loses.still⟩
  have width : F.INT_LOSS_CONSEC.w = 4 := rfl
  refine loses.expire_limit missing ?_
  rw [State.lossesInRow, State.rd_wr_same, width]
  show (s.strm n).desc.limit ≤ _
  omega

/-- Settles O36: a whole frame goes through `complete?`, an expiry through `expire`, and every loss through the loss procedure. -/
theorem cameraFramesComplete : Obligations.CameraFramesComplete := by
  intro s rx vc k n alone hostPre may noRows x waits landed served
  have small : n < 2 ^ 6 := by
    obtain ⟨index, -⟩ := may
    omega
  have enabled : x.desc.en = true := by
    obtain ⟨-, enabled, -⟩ := may
    exact enabled
  have ended := fun (c : Sample) (cur : x.cur = some c) => s.modCur_strm cur (fun x => { x with ended := true })
  refine ⟨fun c past cur whole late => ?_, fun c past cur whole patDone served => ?_, fun c past cur whole patDone unserved => ?_,
    fun c past cur early => execPatternInjectEnd_early past cur early,
    fun c past cur late started first kept unended => ?_, fun c past cur late started first kept hasEnded served => ?_,
    fun c timer cur => ?_, fun c t timer past cur => ?_, fun t timer due cur => ?_, fun v due cur hv top => ?_⟩
  · refine ⟨_, execCsiFrameEnd_whole alone hostPre past cur whole, ?_⟩
    rw [State.complete?_open (congrArg Stream.cur (ended c cur)) (by simp [late])]
    exact ⟨congrArg Stream.cur (ended c cur), rfl, rfl, fun _ => rfl⟩
  · have queued := State.complete?_queued (s := s.modCur n (fun x => { x with ended := true })) (congrArg Stream.cur (ended c cur)) rfl
      patDone (by rw [ended c cur]; exact noRows) served
    rw [ended c cur] at queued
    exact ⟨_, execCsiFrameEnd_whole alone hostPre past cur whole, queued.waits, queued.unchanged⟩
  · have may' : (s.modCur n (fun x => { x with ended := true })).mayLose n := may.modStrm rfl rfl
    obtain ⟨lost, idle⟩ := may'.complete?_lost (congrArg Stream.cur (ended c cur)) rfl patDone (by rw [ended c cur]; exact noRows) unserved
    exact ⟨_, execCsiFrameEnd_whole alone hostPre past cur whole, lost_of_modStrm lost, idle⟩
  · refine ⟨_, execPatternInjectEnd_landed past cur late started first, ?_⟩
    have done := (s.putPattern n).modCur_strm kept (fun x => { x with patDone := true })
    rw [State.complete?_open (congrArg Stream.cur done) (by simp [unended])]
    exact ⟨congrArg Stream.cur done, fun _ => rfl⟩
  · have done := (s.putPattern n).modCur_strm ((congrArg Stream.cur kept).trans cur) (fun x => { x with patDone := true })
    rw [kept] at done
    have queued := State.complete?_queued (s := (s.putPattern n).modCur n (fun x => { x with patDone := true }))
      (congrArg Stream.cur done) hasEnded rfl (by rw [done]; exact noRows) served
    rw [done] at queued
    obtain ⟨tick, -⟩ := State.putPattern_sameSched may.loses.still n
    refine ⟨_, execPatternInjectEnd_landed past cur late started first, ?_⟩
    obtain ⟨idle, f, mem, stream, since, sample⟩ := queued.waits
    exact ⟨idle, f, mem, stream, since.trans tick, sample⟩
  · exact execFrameTimerExpiry_waits small (by rw [State.expiryPast_eq timer]; simp) cur
  · have expired : s.expiryPast n = true := by
      rw [State.expiryPast_eq timer]
      simpa using ⟨enabled, past⟩
    exact ⟨_, execFrameTimerExpiry_expired small (.inl expired), may.expire_open timer (by rw [cur]; rfl)⟩
  · have expired : s.expiryDue n = true := by
      rw [State.expiryDue_eq timer]
      simpa using ⟨enabled, due⟩
    exact ⟨_, execFrameTimerExpiry_expired small (.inr ⟨expired, cur⟩), may.expire_missing timer cur⟩
  · subst hv
    exact ⟨_, execFrameTimerExpiry_expired (s := s.wr F.INT_LOSS_CONSEC (x.desc.limit - 1) n) small (.inr ⟨due, cur⟩),
      may.expire_limit cur top⟩

end Sys2Proof.Machine
end
